-- ==== Sys2Proof/Word.lean ====
section
/-!
DEFINITION. The words of the spec: bytes, and the indices of ports, quads and engines.
-/
namespace Sys2Proof

/-- A byte. -/
abbrev Byte := BitVec 8

/-- A port P0 to P15 (00_scope, Words). -/
abbrev Port := Fin 16

/-- A quad Q0 to Q3 (00_scope, Words). -/
abbrev Quad := Fin 4

/-- An engine: 0 to 15 are E0 to E15, 16 is EH (00_scope, Words). -/
abbrev Eng := Fin 17

/-- The quad of a port: n divided by 4, the remainder dropped. -/
def Port.quad (p : Port) : Quad := ⟨p.val / 4, by omega⟩

/-- The rill engine of a port. -/
def Port.eng (p : Port) : Eng := ⟨p.val, by omega⟩

/-- Bit `i` of a number. -/
def bit (v i : Nat) : Bool := v.testBit i

/-- Bits `hi` to `lo` of a number. -/
def bits (v hi lo : Nat) : Nat := (v >>> lo) % 2 ^ (hi - lo + 1)

/-- 1 for true, 0 for false. -/
def b2n (b : Bool) : Nat := if b then 1 else 0

/-- `v` with bit `i` made `b`. -/
def setBit (v i : Nat) (b : Bool) : Nat :=
  if b then v ||| 2 ^ i else v - (v &&& 2 ^ i)

/-- The little-endian number of a list of bytes (R4). -/
def ofBytes : List Byte → Nat
  | [] => 0
  | b :: t => b.toNat + 256 * ofBytes t

/-- The `n` low bytes of a number, least significant first (R4). -/
def toBytes : Nat → Nat → List Byte
  | 0, _ => []
  | n + 1, v => BitVec.ofNat 8 v :: toBytes n (v / 256)

/-- A number read as two's complement in `w` bits. -/
def toSigned (w v : Nat) : Int :=
  if 2 * (v % 2 ^ w) < 2 ^ w then (v % 2 ^ w : Nat) else (v % 2 ^ w : Nat) - (2 ^ w : Nat)

/-- The `w`-bit two's complement of an integer. -/
def ofSigned (w : Nat) (v : Int) : Nat := (v % (2 ^ w : Nat)).toNat

/-- The last bytes of a list: `n` of them from position `at`. -/
def slice {α : Type} (l : List α) (at_ n : Nat) : List α := (l.drop at_).take n

end Sys2Proof
end

