-- ==== Sys2Proof/Syntax.lean ====
section
/-!
DEFINITION. The commands of the block: one constructor of `Instr` for each row of
spec/opcode_table.json, with the row's operands, and the shapes of the operands.
-/
namespace Sys2Proof

/-- The supplies that hold the unit in reset (R491): VCC33, VCORE and VFL. -/
inductive Supply | vcc33 | vcore | vfl
  deriving DecidableEq, Repr

/-- A memory word that was read with an error since the last edge (R413): its memory and word offset as
WEIR_ECC codes them, whether it is uncorrectable, and the engine whose fetch (bank 0xFF) or load met it, with
bank and offset. -/
structure MemErr where
  mem : Byte
  word : BitVec 24
  bad : Bool
  reader : Option (Fin 17 × Byte × BitVec 16)
  deriving DecidableEq, Repr

/-- The forward voltages of a quad's three ideal-diode controllers are above 50 mV (R220): feed A, feed B
and return. -/
structure QuadIn where
  feedA : Bool
  feedB : Bool
  ret : Bool
  deriving DecidableEq, Repr

/-- The other inputs of the TAP at an edge of TCK: TDI, and TRST_N low. -/
structure TapIn where
  tdi : Bool
  trst : Bool
  deriving DecidableEq, Repr

/-- What the unit finds at a tick edge: for each port the gate monitor at the edge, whether it dipped in
the tick that ends, and the CC overvoltage detector; the eddy check within limits; the divergence
detector; VDRV below 10.0 V; PWROK_IN; PRESENCE_N; the engines whose tick list has not ended
(bits 0 to 15 E0 to E15, bit 16 EH); EH stalled through the tick waiting on a flash erase; the memory words
read with an error; and the junctions of Q0 to Q3, where their controllers see a change. -/
structure EdgeIn where
  gateOk : BitVec 16
  gateDip : BitVec 16
  ccov : BitVec 16
  eddyOk : Bool
  refDiv : Bool
  vdrvLow : Bool
  pwrokIn : Bool
  presence : Bool
  overrun : BitVec 17
  eraseWait : Bool
  memErrs : List MemErr := []
  quads : List QuadIn := []
  deriving DecidableEq, Repr

/-- The four readings of MUXBUS at strap sampling (R84), and PRESENCE_N read with the pull-up and with
the pull-down (R99). -/
structure StrapIn where
  r1 : Byte
  r2 : Byte
  r3 : Byte
  r4 : Byte
  pullUp : Bool
  pullDown : Bool
  deriving DecidableEq, Repr

/-- A bulk message as its header word and payload spell it (R272): whether every word is intact,
channel, sequence, port, and for channel 1 whether it acknowledges a copy, the byte offset of its
first word in the block, and its words. -/
structure BulkMsg where
  intact : Bool
  chan : Fin 4
  seq : Byte
  port : Port
  ack : Bool
  off : Fin 2048
  words : List (BitVec 64)
  deriving DecidableEq, Repr

/-- The framing words of a superframe at its trailer (R262): the trailer CRC, words corrected and
uncorrectable, the heartbeat word where it arrived intact, the lanes with symbol lock, the lanes the
twin reports it receives, and credits returned with the last bulk sequence acknowledged. -/
structure Frame where
  crcOk : Bool
  corrected : Byte
  uncorrected : Byte
  heartbeat : Option (BitVec 32)
  lanes : Fin 3
  twinLanes : Option (Fin 3)
  ack : Option (Byte × Byte)
  deriving DecidableEq, Repr

/-- A packet as the BMC PHY receives it: its ordered set (0 SOP, 1 SOP', 2 SOP'', 3 SOP'_Debug,
4 SOP''_Debug), whether its coding, CRC-32 and length are good (R128), and header and data. -/
structure PacketIn where
  sop : Fin 5
  good : Bool
  bytes : List Byte
  deriving DecidableEq, Repr

/-- The residual gain (2^-20 steps) and offset (1/16 code) of one channel group, signed (R231). -/
structure CalRes where
  gain : BitVec 16
  offs : BitVec 16
  deriving DecidableEq, Repr

/-- The residuals of a calibration, group by group. -/
structure Residuals where
  isns : CalRes
  vbus : CalRes
  rail : CalRes
  aux : CalRes
  deriving DecidableEq, Repr

/-! ### Operand forms of Swesil-8 (chapter 12) -/

/-- The slot a short operation stands in, and the 15 bits of the word's other slot (R342); 0 there is a
NOP. -/
structure Slot where
  inA : Bool
  other : BitVec 15
  deriving DecidableEq, Repr

/-- The two immediate forms of ADDI and CMPI: the short form's 5 bits, or the long form's 8. -/
inductive Imm
  | short (at_ : Slot) (v : BitVec 5)
  | long (v : BitVec 8)
  deriving DecidableEq, Repr

/-- The address of a long load or store (R358): L3, a pointer pair and a displacement with a space
selector, or L4, an absolute offset with one. -/
inductive LAddr
  | disp (p space : BitVec 3) (d : BitVec 13)
  | abs (space : BitVec 3) (a : BitVec 16)
  deriving DecidableEq, Repr

/-- The address of a load or store: the short form's pointer with its local and post-increment bits, or
a long one. -/
inductive Addr
  | short (at_ : Slot) (loc post : Bool) (k : BitVec 3)
  | long (a : LAddr)
  deriving DecidableEq, Repr

/-- A branch: the short form with a word offset, or the long form with a target (R355, R358). -/
inductive Br
  | short (at_ : Slot) (cond : BitVec 4) (off : BitVec 6)
  | long (cond : BitVec 4) (target : BitVec 15)
  deriving DecidableEq, Repr

/-- LOOP's count: an immediate, or a pointer pair. -/
inductive LoopCount
  | imm (n : BitVec 12)
  | ptr (k : BitVec 3)
  deriving DecidableEq, Repr

/-- REP's count: an immediate where 0 means 256, or a register. -/
inductive RepCount
  | imm (n : BitVec 8)
  | reg (r : BitVec 5)
  deriving DecidableEq, Repr

/-- One command: a row of spec/opcode_table.json. -/
inductive Instr
  /-- SPI_WRITE (R294): A WRITE transaction (SPI prefix 0x02, or the I2C form) delivers one command packet to the host link front end. -/
  | spiWrite (bytes : List Byte)
  /-- SPI_READ (R294): A READ transaction clocks out the queued replies and events and removes each entry that is read in full. -/
  | spiRead (n : Nat)
  /-- SPI_REREAD (R294): A REREAD transaction sends again the entry most recently removed. -/
  | spiReread
  /-- SPI_STATUS (R295): A STATUS transaction returns the status byte holding RDY, REF and FREE. -/
  | spiStatus
  /-- SPI_SINGLE (R294): A SINGLE transaction returns the SPI width to single when SPI_CS_N rises. -/
  | spiSingle
  /-- HOST_NOP (R313): The NOP command returns OK and does nothing. -/
  | hostNop (tag : Byte) (ps : List Byte)
  /-- UNIT_INFO (R313): Returns the part, grade, identity, versions, life-cycle state, straps, SVID and boot source. -/
  | unitInfo (tag : Byte) (ps : List Byte)
  /-- UNIT_STATUS (R313): Returns tick, profile, weir class, pair, power-good, safe-state and host-time status. -/
  | unitStatus (tag : Byte) (ps : List Byte)
  /-- UNIT_PROFILE (R29): Requests a change of profile, which takes effect at a later tick edge and pair-wide in a pair. -/
  | unitProfile (tag : Byte) (ps : List Byte)
  /-- HOST_LINK_SET (R314): Sets the SPI width and the event mask; the new width applies after the reply has been read. -/
  | hostLinkSet (tag : Byte) (ps : List Byte)
  /-- INDICATOR_SET (R92): Changes the masked bits of DEV_MUXIND.IND, which MUXBUS indicator slots 16 and 17 carry. -/
  | indicatorSet (tag : Byte) (ps : List Byte)
  /-- UNIT_RESET (R315): Resets the unit at once, or first hands its ports over and then resets. -/
  | unitReset (tag : Byte) (ps : List Byte)
  /-- RESET_AFTER_HANDOVER (R315): The unit resets at the first edge after its UNIT_RESET completion has been read, or 10 ms after the event was queued. -/
  | resetAfterHandover
  /-- QUAD_SET (R316): Writes QD_JCFG of one quad, effective at the next edge, and refuses any change of SEG. -/
  | quadSet (tag : Byte) (ps : List Byte)
  /-- QUAD_STATUS (R313): Returns QD_JCFG, QD_JST, QD_JEV and the PMBus segment of one quad. -/
  | quadStatus (tag : Byte) (ps : List Byte)
  /-- PORT_ENABLE (R317): Enables a port: leaves Disabled, sets REQ to sink after a sink trip, or is deferred until t_OFF_MIN has elapsed. -/
  | portEnable (tag : Byte) (ps : List Byte)
  /-- PORT_DISABLE (R317): Urgent command that writes FORCE = 0b10 and replies OK when the port enters Disabled. -/
  | portDisable (tag : Byte) (ps : List Byte)
  /-- PORT_STATUS (R318): Returns the port's state registers, answered from the mirror record on a shadowed port. -/
  | portStatus (tag : Byte) (ps : List Byte)
  /-- PORT_MEASURE (R318): Returns the unit's own converter results, ELAST and EHEAD for a port. -/
  | portMeasure (tag : Byte) (ps : List Byte)
  /-- PORT_SET (R319): Writes up to 64 port registers as working values, all effective at the same edge, or none of them. -/
  | portSet (tag : Byte) (ps : List Byte)
  /-- PORT_GET (R320): Reads up to 64 port registers. -/
  | portGet (tag : Byte) (ps : List Byte)
  /-- PORT_RECOVER (R317): Writes FORCE = 0b01 so that the attach block enters ErrorRecovery. -/
  | portRecover (tag : Byte) (ps : List Byte)
  /-- PD_CAPS_SET (R321): Replaces one capability, identity or manufacturer block of the port's extension block. -/
  | pdCapsSet (tag : Byte) (ps : List Byte)
  /-- PD_REPLY_SET (R148): Writes the chosen entries of the pre-authorised reply table, which take effect at the edge after completion. -/
  | pdReplySet (tag : Byte) (ps : List Byte)
  /-- PD_ANSWER (R322): Urgent command that answers an open raise with a reply action or a given message. -/
  | pdAnswer (tag : Byte) (ps : List Byte)
  /-- PD_SEND (R323): Queues a message for the port's host PD transmit queue; it completes at the message's GoodCRC. -/
  | pdSend (tag : Byte) (ps : List Byte)
  /-- PD_SWAP (R168): Requests a PR_Swap, DR_Swap or VCONN_Swap on a port. -/
  | pdSwap (tag : Byte) (ps : List Byte)
  /-- PD_EPR (R167): Requests entry to EPR mode as sink, or exit from it. -/
  | pdEpr (tag : Byte) (ps : List Byte)
  /-- PD_SOFT_RESET (R512): Sends Soft_Reset on the named SOP type. -/
  | pdSoftReset (tag : Byte) (ps : List Byte)
  /-- PD_HARD_RESET (R512): Urgent command that sends Hard_Reset and restarts the escalation count. -/
  | pdHardReset (tag : Byte) (ps : List Byte)
  /-- PD_CABLE_RESET (R512): Sends Cable_Reset while the port is the VCONN source. -/
  | pdCableReset (tag : Byte) (ps : List Byte)
  /-- PD_BIST (R142): Starts the port's own BIST Carrier Mode or BIST Test Data transmission. -/
  | pdBist (tag : Byte) (ps : List Byte)
  /-- PD_STATUS (R324): Returns PD link status, the open raise, timer 2 and the host queue depth. -/
  | pdStatus (tag : Byte) (ps : List Byte)
  /-- PD_REPLY_GET (R324): Returns the 16 reply-table entries. -/
  | pdReplyGet (tag : Byte) (ps : List Byte)
  /-- MODE_MAP_SET (R247): Writes MAP1 to MAP4 of the integrator SVID's mode positions. -/
  | modeMapSet (tag : Byte) (ps : List Byte)
  /-- MUX_SET (R257): Writes the port's mux state through the owning engine. -/
  | muxSet (tag : Byte) (ps : List Byte)
  /-- MUX_STATUS (R313): Returns PRT_MUX, PRT_MUXCFG and PRT_MODEST. -/
  | muxStatus (tag : Byte) (ps : List Byte)
  /-- PAIR_STATUS (R313): Returns pair state, link errors, skew and the twin's versions without clearing any RC field. -/
  | pairStatus (tag : Byte) (ps : List Byte)
  /-- PAIR_HANDOVER (R279): Proposes a planned handover that gives or takes the ports of MASK. -/
  | pairHandover (tag : Byte) (ps : List Byte)
  /-- PAIR_WITHDRAW (R290): Gives every owned port to the twin and then withdraws the unit. -/
  | pairWithdraw (tag : Byte) (ps : List Byte)
  /-- PAIR_REBALANCE (R278): Starts at once the handover that restores the HOME split. -/
  | pairRebalance (tag : Byte) (ps : List Byte)
  /-- PAIR_RETRAIN (R260): Takes both directions of the pair link to Training. -/
  | pairRetrain (tag : Byte) (ps : List Byte)
  /-- PAIR_CFG_SET (R325): Writes PAIR_CFG.HOME and REBALDLY. -/
  | pairCfgSet (tag : Byte) (ps : List Byte)
  /-- WEIR_STATUS (R313): Returns the sticky words, highest class, FAULT_N level and recovery counts. -/
  | weirStatus (tag : Byte) (ps : List Byte)
  /-- WEIR_CLEAR (R411): Clears sticky and severe bits, releases latched reactions, or writes a FAULT_N release. -/
  | weirClear (tag : Byte) (ps : List Byte)
  /-- WEIR_CLASS_SET (R399): Sets the class, N and W of a source as a working value from the next edge. -/
  | weirClassSet (tag : Byte) (ps : List Byte)
  /-- WEIR_FORCE (R395): Writes a source's force bit; a 0-to-1 change records an event. -/
  | weirForce (tag : Byte) (ps : List Byte)
  /-- WDG_STATUS (R326): Returns the retained watchdog reset counts and the cause of the last unit reset. -/
  | wdgStatus (tag : Byte) (ps : List Byte)
  /-- CNT_CONFIG (R470): Configures a counter's event, port mask and mode, and clears it at the next edge. -/
  | cntConfig (tag : Byte) (ps : List Byte)
  /-- CNT_READ (R327): Returns the count and snapshot of each selected counter. -/
  | cntRead (tag : Byte) (ps : List Byte)
  /-- CNT_CLEAR (R474): Clears the selected counters at the edge after acceptance. -/
  | cntClear (tag : Byte) (ps : List Byte)
  /-- LOG_MARK (R482): Writes one or two host mark records to the strandline log. -/
  | logMark (tag : Byte) (ps : List Byte)
  /-- LOG_READ (R483): Returns up to 31 strandline records from INDEX. -/
  | logRead (tag : Byte) (ps : List Byte)
  /-- LOG_STATUS (R327): Returns the oldest and next record numbers and the wrap count. -/
  | logStatus (tag : Byte) (ps : List Byte)
  /-- CFG_WRITE (R313): Writes bytes into the 64 KiB configuration staging buffer. -/
  | cfgWrite (tag : Byte) (ps : List Byte)
  /-- CFG_COMMIT (R460): Stores the staged blob as a new version and makes it the trial at a later apply edge, locally or pair-wide. -/
  | cfgCommit (tag : Byte) (ps : List Byte)
  /-- CFG_CONFIRM (R461): Confirms the trial configuration version. -/
  | cfgConfirm (tag : Byte) (ps : List Byte)
  /-- CFG_REVERT (R462): Applies the previous or a named held configuration version as confirmed. -/
  | cfgRevert (tag : Byte) (ps : List Byte)
  /-- CFG_STATUS (R328): Returns the configuration versions in force, on trial and previous, and the window left. -/
  | cfgStatus (tag : Byte) (ps : List Byte)
  /-- CFG_READ (R313): Reads bytes of a configuration version held in the store. -/
  | cfgRead (tag : Byte) (ps : List Byte)
  /-- CFG_PAIR_SYNC (R465): Copies a confirmed configuration version to the twin, and both units apply it. -/
  | cfgPairSync (tag : Byte) (ps : List Byte)
  /-- CAL_RUN (R231): Starts a live calibration of one port's converter through the eddy converter. -/
  | calRun (tag : Byte) (ps : List Byte)
  /-- CAL_SAVE (R467): Stores the working trims as a new calibration version on trial. -/
  | calSave (tag : Byte) (ps : List Byte)
  /-- CAL_CONFIRM (R468): Confirms the trial calibration version. -/
  | calConfirm (tag : Byte) (ps : List Byte)
  /-- CAL_REVERT (R468): Returns to the previous or a named calibration version and rewrites the trims. -/
  | calRevert (tag : Byte) (ps : List Byte)
  /-- CAL_STATUS (R328): Returns the calibration versions and the window left. -/
  | calStatus (tag : Byte) (ps : List Byte)
  /-- FW_STAGE_BEGIN (R329): Opens a staging session and erases the sectors of a firmware slot, or stages into the pool in loader mode. -/
  | fwStageBegin (tag : Byte) (ps : List Byte)
  /-- FW_STAGE_DATA (R329): Programs image bytes into the slot being staged. -/
  | fwStageData (tag : Byte) (ps : List Byte)
  /-- FW_STAGE_END (R444): Checks the staged image's format and digest and marks the slot complete or void. -/
  | fwStageEnd (tag : Byte) (ps : List Byte)
  /-- FW_ACTIVATE (R449): Activates a slot, either at the next boot or by live exchange of every engine now. -/
  | fwActivate (tag : Byte) (ps : List Byte)
  /-- FW_STATUS (R329): Returns the running and next-boot slots, staging state and image identities. -/
  | fwStatus (tag : Byte) (ps : List Byte)
  /-- FW_PAIR_SYNC (R456): Copies a complete firmware slot to the twin's same slot. -/
  | fwPairSync (tag : Byte) (ps : List Byte)
  /-- OTP_READ (R330): Reads words of an OTP region at normal margin, with their marginal flags. -/
  | otpRead (tag : Byte) (ps : List Byte)
  /-- OTP_PROGRAM (R429): Programs bits of one OTP word with strict-margin verify and up to 3 rounds. -/
  | otpProgram (tag : Byte) (ps : List Byte)
  /-- OTP_LOCK (R430): Checks a region's integrity word and blows its write or read lock. -/
  | otpLock (tag : Byte) (ps : List Byte)
  /-- OTP_STATUS (R330): Returns the region lock, integrity and marginal masks, the life cycle and the wiring mode. -/
  | otpStatus (tag : Byte) (ps : List Byte)
  /-- LC_ADVANCE (R433): Advances the life-cycle state by programming the target's fuse group. -/
  | lcAdvance (tag : Byte) (ps : List Byte)
  /-- REG_READ (R331): Host debug read of a register, which clears RC fields. -/
  | regRead (tag : Byte) (ps : List Byte)
  /-- REG_WRITE (R331): Host debug write of a register. -/
  | regWrite (tag : Byte) (ps : List Byte)
  /-- MEM_READ (R331): Host debug read of engine memory. -/
  | memRead (tag : Byte) (ps : List Byte)
  /-- MEM_WRITE (R331): Host debug write of engine memory through arbitration. -/
  | memWrite (tag : Byte) (ps : List Byte)
  /-- ENGINE_STATUS (R331): Returns each engine's state, active bank and cycles used. -/
  | engineStatus (tag : Byte) (ps : List Byte)
  /-- PRESENCE_STATUS (R332): Returns the presence state, wiring mode, check result and window time left. -/
  | presenceStatus (tag : Byte) (ps : List Byte)
  /-- TIME_BIND (R69): Binds a host time to a target tick edge, pair-wide in a pair. -/
  | timeBind (tag : Byte) (ps : List Byte)
  /-- TIME_READ (R332): Returns the tick count, cycle, host time and binding. -/
  | timeRead (tag : Byte) (ps : List Byte)
  /-- PRESENCE_END (R332): Ends any presence window at once. -/
  | presenceEnd (tag : Byte) (ps : List Byte)
  /-- TICK_EDGE (R40): At each tick edge the count advances, comparators are copied, the slots restart, harbour state freezes and engines are released. -/
  | tickEdge (i : EdgeIn)
  /-- ENERGY_JUDGEMENT (R46): At cycle 2 the previous tick's energy sum is compared with the headroom, and the port trips when it exceeds it. -/
  | energyJudgement (p : Port)
  /-- CONVERSION_COMPLETE (R42): A converter slot's result is corrected and registered. -/
  | conversionComplete (p : Port) (slot : Fin 8) (raw : BitVec 13)
  /-- CALIBRATION_END (R232): At edge n + 65 the calibration residuals are judged, and the trims are written or rejected. -/
  | calibrationEnd (r : Residuals)
  /-- EDDY_SELF_TRIM (R234): Every 4,096 ticks the idle eddy converter updates DEV_EDDYTRIM. -/
  | eddySelfTrim (gain offs : BitVec 16)
  /-- EDDY_CHECK_FAIL (R234): The eddy check-bandgap result is out for 16 ticks, which sets CHKFAIL and records the source. -/
  | eddyCheckFail
  /-- HARD_TRIP (R197): The hard-trip comparator pulls the gate down and the port enters Tripped. -/
  | hardTrip (p : Port)
  /-- LIMIT_ENTRY (R196): The limit-active comparator registers 1, PG clears and the limit counts start. -/
  | limitEntry (p : Port)
  /-- REVERSE_CURRENT_BLOCK (R206): Reverse current pulls the gate down; the port enters Blocked in source mode or Off in sink mode. -/
  | reverseCurrentBlock (p : Port)
  /-- VBUS_OV_TRIP (R208): A registered VBUS overvoltage puts the port in Tripped. -/
  | vbusOvTrip (p : Port)
  /-- COMPARATOR_OUTPUT_CHANGE (R239): A comparator's registered output changes and sets its event bit at the edge. -/
  | comparatorOutputChange (p : Port) (c : Fin 9) (level : Bool)
  /-- FRS_SOURCE_TURN_ON (R173): On an FRS-armed port after detection, the VBUS UV crossing turns the path to source mode in hardware. -/
  | frsSourceTurnOn (p : Port)
  /-- FRS_SIGNAL_DETECTED (R134): The active CC held low for 20 µs is detected as the FRS signal and sets HOLDATT. -/
  | frsSignalDetected (p : Port)
  /-- CC_OVERVOLTAGE (R122): The CC overvoltage detector disconnects the ball and the port enters ErrorRecovery. -/
  | ccOvervoltage (p : Port)
  /-- VCONN_OVERCURRENT (R120): The VCONN switch's time in limit reaches TFLT and it opens. -/
  | vconnOvercurrent (p : Port)
  /-- VCONN_INPUT_UNDERVOLTAGE (R121): Q(q)_VCONN below 4.60 V opens the quad's four VCONN switches. -/
  | vconnInputUndervoltage (q : Quad)
  /-- REFERENCE_DIVERGENCE (R242): The bandgaps differ by more than 0.25 % for 1 µs, which records the class 3 source. -/
  | referenceDivergence (dev : Byte)
  /-- VDRV_UNDERVOLTAGE (R394): VDRV below 10.0 V for 250 cyc records unit source 7. -/
  | vdrvUndervoltage
  /-- DIE_OVER_TEMPERATURE (R394): A port slice above 140 °C in 8 results records unit source 8. -/
  | dieOverTemperature (p : Port)
  /-- FEED_LOST (R222): A quad's feed A or feed B monitor changes and its event is recorded. -/
  | feedLost (q : Quad) (feedB : Bool) (present : Bool)
  /-- QUAD_BUS_UNDERVOLTAGE (R222): The quad bus falls below BUSUV; FRS generation may follow. -/
  | quadBusUndervoltage (q : Quad) (under : Bool)
  /-- JUNCTION_REVERSE_TURN_OFF (R220): An ideal-diode controller turns its FET off on reverse voltage. -/
  | junctionReverseTurnOff (q : Quad) (ctl : Fin 3)
  /-- DB_OFF_RISE (R82): DB_OFF rising removes the dead-battery clamps. -/
  | dbOffRise
  /-- POWER_ON_RESET (R490): Power-on reset ends 1 ms after the last supply becomes valid and starts the boot sequence. -/
  | powerOnReset
  /-- SUPPLY_INVALID (R491): A supply becoming invalid puts the unit in reset within 2 µs. -/
  | supplyInvalid (supply : Supply)
  /-- RESET_N_ASSERT (R492): A filtered RESET_N low resets the unit. -/
  | resetNAssert
  /-- STRAP_SAMPLING (R84): MUXBUS is read four times and latched into DEV_STRAP, or sampling starts again. -/
  | strapSampling (r : StrapIn)
  /-- PLL_LOCK (R38): The PLL locks and the first tick edge falls. -/
  | pllLock
  /-- REFOK (R243): Both references have settled and the divergence detector is armed. -/
  | refok
  /-- REFOK_TIMEOUT (R243): REFOK not set within 10 ms holds the unit in reset. -/
  | refokTimeout
  /-- OTP_BOOT_READ (R426): The OTP is read at both margins and the regions are judged for integrity at boot. -/
  | otpBootRead (normal strict : List (BitVec 64))
  /-- BOOT_COMPLETE (R446): The selected image is verified and loaded, boot completes and READY is queued. -/
  | bootComplete
  /-- BOOT_PAIR_WINDOW_EXPIRY (R15): 256 ticks pass without a twin heard, and boot completes owning ports under case 5. -/
  | bootPairWindowExpiry
  /-- FORMATION_EDGE (R276): At formation edge f each unit takes its HOME set. -/
  | formationEdge
  /-- SYNC_EDGE_RECEIVED (R96): A tick edge on SYNC is received, and a follower aligns to it or steers its PLL by it. -/
  | syncEdgeReceived (skew : BitVec 8)
  /-- SYNC_HEARTBEAT_RECEIVED (R98): A 32-bit heartbeat word on SYNC is received and checked. -/
  | syncHeartbeatReceived (w : BitVec 32)
  /-- LISTEN_TIME_EXPIRY (R55): The listening time ends, and the unit becomes master or follower. -/
  | listenTimeExpiry
  /-- SYNC_LOCK_ACQUIRED (R56): The follower's skew settles and SYNC_LOCK sets. -/
  | syncLockAcquired
  /-- SYNC_MASTER_LOST (R59): A follower hearing no master edge for 2 ticks becomes master. -/
  | syncMasterLost
  /-- SKEW_FAULT (R58): Skew above 16 cyc for 4 ticks sets SKEW_FAULT. -/
  | skewFault
  /-- MIRROR_FREEZE (R53): The framer freezes a port's last committed record and sticky word for the superframe. -/
  | mirrorFreeze (p : Port)
  /-- MIRROR_RECORD_RECEIVE (R268): A received mirror record is checked and written as the shadow's inbound record. -/
  | mirrorRecordReceive (p : Port) (words : List (BitVec 64)) (intact : Bool)
  /-- HARBOUR_STATE_APPLY (R270): An intact harbour state from the twin is applied. -/
  | harbourStateApply (words : List (BitVec 64))
  /-- SUPERFRAME_TRAILER (R262): The superframe trailer CRC is checked and drives link training and loss. -/
  | superframeTrailer (f : Frame)
  /-- LINK_TRAINING_TIMEOUT (R260): Training without 4 good trailers in 16 ticks returns the direction to Down. -/
  | linkTrainingTimeout
  /-- LANE_LOSS (R260): A lane without symbol lock for 2 ticks degrades the link or takes it Down. -/
  | laneLoss (lane : Fin 2)
  /-- BULK_MESSAGE_RECEIVE (R272): A bulk message on the pair link is received and credits are returned. -/
  | bulkMessageReceive (m : BulkMsg)
  /-- BULK_RETRANSMIT (R272): A bulk message not acknowledged within 4 ticks is sent again. -/
  | bulkRetransmit
  /-- TRANSFER_OPEN (R455): A channel 2 open message starts a transfer at the receiver. -/
  | transferOpen (m : List Byte)
  /-- TRANSFER_DATA (R455): A channel 2 data message is programmed at the receiver. -/
  | transferData (m : List Byte)
  /-- TRANSFER_CLOSE (R455): A channel 2 close message is checked and the receiver sends a result. -/
  | transferClose (m : List Byte)
  /-- TRANSFER_RESULT (R455): A channel 2 result ends a transfer and completes its command. -/
  | transferResult (m : List Byte)
  /-- HEARTBEAT_LOST (R283): Two missed heartbeats start a takeover of the twin's ports. -/
  | heartbeatLost
  /-- TAKEOVER_FIRST_OWNED_EDGE (R284): At the first owned edge the hardware loads the port state from the record. -/
  | takeoverFirstOwnedEdge
  /-- RELEASE_TAKE (R286): The twin takes ports whose OWN bit dropped without a handover. -/
  | releaseTake (mask : BitVec 16)
  /-- HANDOVER_COMMIT (R279): The proposer carries COMMIT or ABORT after reading the answer. -/
  | handoverCommit
  /-- HANDOVER_SWITCH (R281): At edge s the giver releases and the receiver applies the moving ports. -/
  | handoverSwitch
  /-- HANDOVER_KEPT_RELEASE (R281): The receiver releases at s + 1 a port the giver kept. -/
  | handoverKeptRelease
  /-- REBALANCE_DELAY_EXPIRY (R278): Ownership off HOME for REBALDLY starts a rebalancing handover. -/
  | rebalanceDelayExpiry
  /-- PROFILE_CHANGE_EDGE (R29): A profile change takes effect at its edge. -/
  | profileChangeEdge
  /-- TIME_BIND_TARGET_EDGE (R69): A host time binding takes effect at its target edge. -/
  | timeBindTargetEdge
  /-- PACKET_RECEIVED (R130): A PD packet is received on the active CC and GoodCRC is prepared by hardware. -/
  | packetReceived (p : Port) (k : PacketIn)
  /-- GOODCRC_RECEIVED (R138): A matching GoodCRC completes a transmission and advances the MessageID counter. -/
  | goodcrcReceived (p : Port) (sop : Fin 3) (id : BitVec 3)
  /-- HARD_RESET_RECEIVED (R133): A received Hard_Reset flushes queues, resets IDs and stops timers. -/
  | hardResetReceived (p : Port)
  /-- CABLE_RESET_RECEIVED (R133): A received Cable_Reset is ignored and counted. -/
  | cableResetReceived (p : Port)
  /-- PACKET_TRANSMIT_START (R129): A queued packet's preamble begins once the line is idle and the gap has passed. -/
  | packetTransmitStart (p : Port)
  /-- PACKET_TRANSMIT_END (R140): A packet's EOP is sent and CRCReceiveTimer starts. -/
  | packetTransmitEnd (p : Port)
  /-- FRS_SIGNAL_END (R134): The 90 µs FRS signal ends and BMC receive resumes. -/
  | frsSignalEnd (p : Port)
  /-- PD_MESSAGE_PARSE (R135): The rill engine parses a received message and answers, decides it from the table or raises it. -/
  | pdMessageParse (p : Port)
  /-- CRC_RECEIVE_TIMER_EXPIRY (R140): Timer 0 expires and the PHY retries or sets TXERR. -/
  | crcReceiveTimerExpiry (p : Port)
  /-- SENDER_RESPONSE_TIMEOUT (R144): Timer 1 expires and escalation applies. -/
  | senderResponseTimeout (p : Port)
  /-- ANSWER_TIMER_EXPIRY (R150): Timer 2 expires and the fallback reply is sent. -/
  | answerTimerExpiry (p : Port)
  /-- CHUNK_TIMER_EXPIRY (R143): Timer 3 or 4 expires and the chunked message is abandoned. -/
  | chunkTimerExpiry (p : Port) (k : Bool)
  /-- SOURCE_CAPABILITY_TIMEOUT (R144): Timer 5 expires and Source_Capabilities is sent again. -/
  | sourceCapabilityTimeout (p : Port)
  /-- SINK_WAIT_CAP_TIMEOUT (R143): Timer 6 expires and Hard_Reset is sent. -/
  | sinkWaitCapTimeout (p : Port)
  /-- PS_TRANSITION_TIMEOUT (R162): Timer 7 or 8 expires before PS_RDY and Hard_Reset is sent. -/
  | psTransitionTimeout (p : Port) (epr : Bool)
  /-- NO_RESPONSE_TIMEOUT (R144): Timer 9 expires; the port sends Hard_Reset or marks the partner unresponsive. -/
  | noResponseTimeout (p : Port)
  /-- HARD_RESET_COMPLETE_TIMEOUT (R143): Timer 10 expires and the hard reset is taken as sent. -/
  | hardResetCompleteTimeout (p : Port)
  /-- DISCOVER_IDENTITY_TIMEOUT (R152): Timer 11 expires and the next cable discovery attempt is made. -/
  | discoverIdentityTimeout (p : Port)
  /-- VDM_RESPONSE_TIMEOUT (R144): Timer 12 expires and the VDM request is reported without escalation. -/
  | vdmResponseTimeout (p : Port)
  /-- VDM_MODE_ENTRY_TIMEOUT (R252): Timer 13 expires and mode entry fails. -/
  | vdmModeEntryTimeout (p : Port)
  /-- BIST_CONT_MODE_TIMEOUT (R142): Timer 14 expires and the BIST carrier ends. -/
  | bistContModeTimeout (p : Port)
  /-- SINK_EPR_ENTER_TIMEOUT (R143): Timer 15 expires and Soft_Reset is sent. -/
  | sinkEprEnterTimeout (p : Port)
  /-- SINK_EPR_KEEPALIVE_TIMEOUT (R143): Timer 16 expires and EPR_KeepAlive is sent. -/
  | sinkEprKeepaliveTimeout (p : Port)
  /-- SOURCE_EPR_KEEPALIVE_TIMEOUT (R144): Timer 17 expires and Hard_Reset is sent. -/
  | sourceEprKeepaliveTimeout (p : Port)
  /-- SINK_PPS_PERIODIC_TIMEOUT (R143): Timer 18 expires and the last Request is repeated. -/
  | sinkPpsPeriodicTimeout (p : Port)
  /-- SOURCE_PPS_COMM_TIMEOUT (R144): Timer 19 expires and Hard_Reset is sent. -/
  | sourcePpsCommTimeout (p : Port)
  /-- HELD_MESSAGE_TIMEOUT (R155): A message held for 2 s is discarded and its command completes with TIMEOUT. -/
  | heldMessageTimeout (p : Port)
  /-- DRP_SHARE_END (R113): The source or sink share of tDRP ends and the DRP port toggles its Unattached state. -/
  | drpShareEnd (p : Port)
  /-- CC_DEBOUNCE_EXPIRY (R113): tCCDebounce elapses with stable levels and the port attaches. -/
  | ccDebounceExpiry (p : Port)
  /-- PD_DEBOUNCE_EXPIRY (R113): tPDDebounce elapses with no Rp and the port returns to Unattached.SNK. -/
  | pdDebounceExpiry (p : Port)
  /-- TRY_CC_DEBOUNCE_EXPIRY (R113): tTryCCDebounce elapses in a Try state and the port attaches. -/
  | tryCcDebounceExpiry (p : Port)
  /-- DRP_TRY_EXPIRY (R113): tDRPTry elapses and the Try or TryWait state moves on. -/
  | drpTryExpiry (p : Port)
  /-- TRY_TIMEOUT_EXPIRY (R113): tTryTimeout elapses in Try.SNK and the port enters TryWait.SRC. -/
  | tryTimeoutExpiry (p : Port)
  /-- ERROR_RECOVERY_EXPIRY (R113): tErrorRecovery elapses with VSAFE0 and the port enters its first Unattached state. -/
  | errorRecoveryExpiry (p : Port)
  /-- SRC_DISCONNECT_EXPIRY (R113): tSRCDisconnect elapses with the active CC open and the source detaches. -/
  | srcDisconnectExpiry (p : Port)
  /-- SINK_TX_WAIT_EXPIRY (R123): tSinkTx elapses after SinkTxNG and the source starts its Atomic Message Sequence. -/
  | sinkTxWaitExpiry (p : Port)
  /-- CONTRACT_TRANSITION_STEP (R161): A source contract transition moves to its next step. -/
  | contractTransitionStep (p : Port)
  /-- SRC_READY_TIMEOUT (R161): VBUS misses the window within tSrcReady, which sends Hard_Reset and records the source. -/
  | srcReadyTimeout (p : Port)
  /-- SINK_TRANSITION_STEP (R162): A sink contract transition sets its thresholds at its next step. -/
  | sinkTransitionStep (p : Port)
  /-- SNK_NEW_POWER_EXPIRY (R161): tSnkNewPower elapses and the current limits are lowered. -/
  | snkNewPowerExpiry (p : Port)
  /-- PPS_CURRENT_LIMIT_STEP (R164): After 16 ticks over or under the current, VOUT_COMMAND is stepped down or up. -/
  | ppsCurrentLimitStep (p : Port)
  /-- PR_SWAP_STEP (R169): A PR_Swap moves to its next step on its awaited event. -/
  | prSwapStep (p : Port)
  /-- SRC_TRANSITION_EXPIRY (R169): tSrcTransition elapses and the next transition or swap step begins. -/
  | srcTransitionExpiry (p : Port)
  /-- PS_SOURCE_OFF_TIMEOUT (R169): PSSourceOffTimer expires and Hard_Reset is sent. -/
  | psSourceOffTimeout (p : Port)
  /-- PS_SOURCE_ON_TIMEOUT (R169): PSSourceOnTimer expires and Hard_Reset is sent. -/
  | psSourceOnTimeout (p : Port)
  /-- VCONN_SWAP_STEP (R171): A VCONN_Swap advances on PS_RDY or once the switch has closed. -/
  | vconnSwapStep (p : Port)
  /-- VCONN_ON_TIMEOUT (R171): VCONNOnTimer expires and Hard_Reset is sent. -/
  | vconnOnTimeout (p : Port)
  /-- VCONN_SOURCE_ON_EXPIRY (R171): tVCONNSourceOn elapses and PS_RDY is sent. -/
  | vconnSourceOnExpiry (p : Port)
  /-- FRS_SWAP_STEP (R173): The engine queues FR_Swap and completes the Fast Role Swap at PS_RDY. -/
  | frsSwapStep (p : Port)
  /-- HARD_RESET_SEQUENCE_STEP (R179): The source or sink hard-reset sequence moves on at its timer or VBUS event. -/
  | hardResetSequenceStep (p : Port)
  /-- PS_HARD_RESET_EXPIRY (R179): tPSHardReset elapses and the source turns off and discharges. -/
  | psHardResetExpiry (p : Port)
  /-- SRC_RECOVER_EXPIRY (R179): tSrcRecover elapses and vSafe5V is applied again. -/
  | srcRecoverExpiry (p : Port)
  /-- SINK_HARD_RESET_TIMEOUT (R179): 1,925 ms pass without VBUSOK and the sink detaches. -/
  | sinkHardResetTimeout (p : Port)
  /-- MODE_HOLD_RELEASE (R252): The TSETTLE wait ends and the held mode message is released or the next mux state written. -/
  | modeHoldRelease (p : Port)
  /-- OFF_MIN_ELAPSED (R190): t_OFF_MIN elapses in Off and a deferred PORT_ENABLE is applied. -/
  | offMinElapsed (p : Port)
  /-- QUIET_ELAPSED (R187): t_QUIET elapses and Tripped may leave for Off. -/
  | quietElapsed (p : Port)
  /-- GATE_RISE_TIMEOUT (R192): t_GATE_RISE expires without GATEOK and the port trips. -/
  | gateRiseTimeout (p : Port)
  /-- GATE_STUCK_ON (R193): Current is present for 16 ticks with the gate pulled down, which records the source. -/
  | gateStuckOn (p : Port)
  /-- LIMIT_TIME_CAP (R202): The limit-time count reaches LIMCAP and the port trips. -/
  | limitTimeCap (p : Port)
  /-- FIXED_TIMER_EXPIRY (R205): The fixed fault timer reaches TFIX and the port trips. -/
  | fixedTimerExpiry (p : Port)
  /-- DISCHARGE_TIMEOUT (R211): t_DIS elapses in Discharging and the port enters Off. -/
  | dischargeTimeout (p : Port)
  /-- REGULATOR_START_TIMEOUT (R218): The rail misses the vSafe5V window within 20 ms and the port does not start. -/
  | regulatorStartTimeout (p : Port)
  /-- PMBUS_TRANSACTION_COMPLETE (R217): A PMBus transaction completes and STATUS_WORD is handled. -/
  | pmbusTransactionComplete (p : Port) (data : BitVec 16)
  /-- PMBUS_TRANSACTION_FAIL (R217): A NACK, PEC mismatch or 35 ms timeout fails a transaction, which is retried. -/
  | pmbusTransactionFail (p : Port)
  /-- PMBUS_ARBITRATION_LOST (R81): A master that loses arbitration retries in the next tick. -/
  | pmbusArbitrationLost (p : Port)
  /-- STATUS_WORD_POLL (R216): Every 64 ticks the engine posts a STATUS_WORD read. -/
  | statusWordPoll (p : Port)
  /-- PMBUS_ALERT (R216): PMB(k)_ALERT_N asserted leads to a STATUS_WORD read within a tick. -/
  | pmbusAlert (k : Fin 2)
  /-- WATCHDOG_EXPIRY (R415): A window without a good service expires and the engine is reset. -/
  | watchdogExpiry (e : Eng)
  /-- RILL_HOLD_EXPIRED (R417): An engine not resumed by edge r + 64 puts its port in safe state. -/
  | rillHoldExpired (p : Port)
  /-- WEIR_QUIET_ELAPSED (R408): A reaction's quiet count reaches its period and the reaction leaves. -/
  | weirQuietElapsed (scope : Fin 17)
  /-- WEIR_RELEASE_WINDOW_CLOSE (R410): A scope's release window closes after ESCW. -/
  | weirReleaseWindowClose (scope : Fin 17)
  /-- WEIR_EVENT_WINDOW_CLOSE (R398): An index's counting window closes after W ticks. -/
  | weirEventWindowClose (scope : Fin 17) (i : Fin 64)
  /-- FAULT_N_PULSE_END (R406): The 2-tick FAULT_N pulse ends and a pending release takes effect. -/
  | faultNPulseEnd
  /-- MAILBOX_STALL (R387): Both mailbox ends aged above 64 set STALL and record the source. -/
  | mailboxStall (m : Fin 20)
  /-- PRESENCE_LEVEL_CONFIRMED (R437): A PRESENCE_N level held for 50 ms is confirmed and presence is granted or ended by mode. -/
  | presenceLevelConfirmed (level : Bool)
  /-- PRESENCE_WINDOW_END (R437): The 120 s button window ends. -/
  | presenceWindowEnd
  /-- LOG_RECORD_WRITE (R481): EH programs a buffered strandline record into flash. -/
  | logRecordWrite
  /-- FLASH_OPERATION_COMPLETE (R442): A flash erase or program completes. -/
  | flashOperationComplete
  /-- CONFIG_APPLY_EDGE (R459): A configuration version takes effect at its apply edge. -/
  | configApplyEdge
  /-- CONFIRM_WINDOW_EXPIRY (R461): An unconfirmed configuration trial returns to the previous version. -/
  | confirmWindowExpiry
  /-- CAL_TRIAL_EXPIRY (R468): An unconfirmed calibration trial returns and the trims are rewritten. -/
  | calTrialExpiry
  /-- ENGINE_EXCHANGE (R376): A rill engine waiting in WTICK is held and then restarted from its exchanged bank. -/
  | engineExchange (p : Port)
  /-- EH_EXCHANGE (R377): EH is held for 125 ticks and starts its new bank. -/
  | ehExchange
  /-- EH_EXCHANGE_RELEASE (R377): EH is released at word 0x000C after its hold. -/
  | ehExchangeRelease
  /-- INTERRUPT_ENTRY (R351): A pending enabled interrupt saves PC and PSW, slides the window and vectors to 0x0008. -/
  | interruptEntry (e : Eng)
  /-- NOP (R355): Does nothing for one cycle. -/
  | nop (e : Eng) (at_ : Slot)
  /-- MOV (R355): Copies a register. -/
  | mov (e : Eng) (at_ : Slot) (dst src : BitVec 5)
  /-- ADD (R355): Adds two registers and sets CZNV. -/
  | add (e : Eng) (at_ : Slot) (dst src : BitVec 5)
  /-- ADC (R355): Adds with carry. -/
  | adc (e : Eng) (at_ : Slot) (dst src : BitVec 5)
  /-- SUB (R355): Subtracts, with C as borrow. -/
  | sub (e : Eng) (at_ : Slot) (dst src : BitVec 5)
  /-- SBC (R355): Subtracts with borrow. -/
  | sbc (e : Eng) (at_ : Slot) (dst src : BitVec 5)
  /-- AND (R355): Bitwise AND. -/
  | and (e : Eng) (at_ : Slot) (dst src : BitVec 5)
  /-- OR (R355): Bitwise OR. -/
  | or (e : Eng) (at_ : Slot) (dst src : BitVec 5)
  /-- XOR (R355): Bitwise XOR. -/
  | xor (e : Eng) (at_ : Slot) (dst src : BitVec 5)
  /-- CMP (R355): Compares two registers, setting flags only. -/
  | cmp (e : Eng) (at_ : Slot) (a b : BitVec 5)
  /-- TST (R355): ANDs two registers, setting flags only. -/
  | tst (e : Eng) (at_ : Slot) (a b : BitVec 5)
  /-- MOVI (R355): Loads a 5-bit immediate. -/
  | movi (e : Eng) (at_ : Slot) (dst u : BitVec 5)
  /-- ADDI (R355): Adds a signed immediate, in short or long form. -/
  | addi (e : Eng) (reg : BitVec 5) (v : Imm)
  /-- CMPI (R355): Compares with an immediate, in short or long form. -/
  | cmpi (e : Eng) (reg : BitVec 5) (v : Imm)
  /-- SHL (R355): Shifts left into C. -/
  | shl (e : Eng) (at_ : Slot) (dst : BitVec 5)
  /-- SHR (R355): Shifts right logically into C. -/
  | shr (e : Eng) (at_ : Slot) (dst : BitVec 5)
  /-- ASR (R355): Shifts right arithmetically. -/
  | asr (e : Eng) (at_ : Slot) (dst : BitVec 5)
  /-- ROL (R355): Rotates left. -/
  | rol (e : Eng) (at_ : Slot) (dst : BitVec 5)
  /-- ROR (R355): Rotates right. -/
  | ror (e : Eng) (at_ : Slot) (dst : BitVec 5)
  /-- RLC (R355): Rotates left through C. -/
  | rlc (e : Eng) (at_ : Slot) (dst : BitVec 5)
  /-- RRC (R355): Rotates right through C. -/
  | rrc (e : Eng) (at_ : Slot) (dst : BitVec 5)
  /-- NOT (R355): Complements a register. -/
  | not (e : Eng) (at_ : Slot) (dst : BitVec 5)
  /-- NEG (R355): Negates a register. -/
  | neg (e : Eng) (at_ : Slot) (dst : BitVec 5)
  /-- INC (R355): Increments a register. -/
  | inc (e : Eng) (at_ : Slot) (dst : BitVec 5)
  /-- DEC (R355): Decrements a register. -/
  | dec (e : Eng) (at_ : Slot) (dst : BitVec 5)
  /-- SWAPN (R355): Exchanges a register's nibbles. -/
  | swapn (e : Eng) (at_ : Slot) (dst : BitVec 5)
  /-- CLR (R355): Clears a register. -/
  | clr (e : Eng) (at_ : Slot) (dst : BitVec 5)
  /-- BSET (R355): Sets a bit. -/
  | bset (e : Eng) (at_ : Slot) (dst : BitVec 5) (n : BitVec 3)
  /-- BCLR (R355): Clears a bit. -/
  | bclr (e : Eng) (at_ : Slot) (dst : BitVec 5) (n : BitVec 3)
  /-- BTST (R355): Tests a bit into Z. -/
  | btst (e : Eng) (at_ : Slot) (dst : BitVec 5) (n : BitVec 3)
  /-- BTGL (R355): Toggles a bit. -/
  | btgl (e : Eng) (at_ : Slot) (dst : BitVec 5) (n : BitVec 3)
  /-- LD (R341): Loads a byte through a pointer or an address, with a load-delay slot. -/
  | ld (e : Eng) (reg : BitVec 5) (a : Addr)
  /-- ST (R339): Stores a byte through a pointer or an address. -/
  | st (e : Eng) (reg : BitVec 5) (a : Addr)
  /-- LDW (R339): Loads a 16-bit pointer pair from an aligned address. -/
  | ldw (e : Eng) (reg : BitVec 5) (a : LAddr)
  /-- STW (R339): Stores a 16-bit pointer pair to an aligned address. -/
  | stw (e : Eng) (reg : BitVec 5) (a : LAddr)
  /-- PADD (R355): Adds a zero-extended register to a pointer pair. -/
  | padd (e : Eng) (at_ : Slot) (k : BitVec 3) (src : BitVec 5)
  /-- PSUB (R355): Subtracts a zero-extended register from a pointer pair. -/
  | psub (e : Eng) (at_ : Slot) (k : BitVec 3) (src : BitVec 5)
  /-- MOVP (R355): Moves a byte between a register and a pointer pair. -/
  | movp (e : Eng) (at_ : Slot) (reg : BitVec 5) (toPtr : Bool) (k : BitVec 3) (high : Bool)
  /-- BR (R356): Branches on a condition, in short or long form. -/
  | br (e : Eng) (b : Br)
  /-- WTICK (R357): Ends the tick list and waits for the next release. -/
  | wtick (e : Eng) (at_ : Slot)
  /-- RET (R344): Returns through w7:w6 and slides the window back. -/
  | ret (e : Eng) (at_ : Slot)
  /-- RETI (R353): Returns from the innermost interrupt or trap handler. -/
  | reti (e : Eng) (at_ : Slot)
  /-- EI (R355): Enables interrupts. -/
  | ei (e : Eng) (at_ : Slot)
  /-- DI (R355): Disables interrupts. -/
  | di (e : Eng) (at_ : Slot)
  /-- LPOP (R347): Pops one loop level. -/
  | lpop (e : Eng) (at_ : Slot)
  /-- BRK (R352): Takes a breakpoint trap. -/
  | brk (e : Eng) (at_ : Slot)
  /-- LDI (R358): Loads an 8-bit immediate. -/
  | ldi (e : Eng) (reg : BitVec 5) (v : Byte)
  /-- SUBI (R358): Subtracts an 8-bit immediate. -/
  | subi (e : Eng) (reg : BitVec 5) (v : Byte)
  /-- ANDI (R358): ANDs an 8-bit immediate. -/
  | andi (e : Eng) (reg : BitVec 5) (v : Byte)
  /-- ORI (R358): ORs an 8-bit immediate. -/
  | ori (e : Eng) (reg : BitVec 5) (v : Byte)
  /-- XORI (R358): XORs an 8-bit immediate. -/
  | xori (e : Eng) (reg : BitVec 5) (v : Byte)
  /-- BANK (R358): Sets BANK from the next word. -/
  | bank (e : Eng) (v : Byte)
  /-- LDIP (R358): Loads a pointer pair with a 16-bit immediate. -/
  | ldip (e : Eng) (k : BitVec 3) (v : BitVec 16)
  /-- PADDI (R358): Adds a signed 16-bit immediate to a pointer pair. -/
  | paddi (e : Eng) (k : BitVec 3) (v : BitVec 16)
  /-- PCMPI (R358): Compares a pointer pair with an immediate. -/
  | pcmpi (e : Eng) (k : BitVec 3) (v : BitVec 16)
  /-- PCPY (R358): Copies one pointer pair to another. -/
  | pcpy (e : Eng) (k j : BitVec 3)
  /-- CALL (R344): Calls a target and slides the window forward. -/
  | call (e : Eng) (target : BitVec 15)
  /-- JMPP (R358): Jumps to the address in a pointer pair. -/
  | jmpp (e : Eng) (k : BitVec 3)
  /-- CALLP (R344): Calls the address in a pointer pair. -/
  | callp (e : Eng) (k : BitVec 3)
  /-- LOOP (R347): Pushes a hardware loop level with an immediate or pointer count. -/
  | loop (e : Eng) (n : LoopCount) (last : BitVec 12)
  /-- REP (R349): Repeats the next word n times. -/
  | rep (e : Eng) (n : RepCount) (word : BitVec 32)
  /-- MOVS (R337): Reads a special register into a pointer pair. -/
  | movs (e : Eng) (k : BitVec 3) (sreg : BitVec 6)
  /-- MOVTS (R337): Writes a special register from a pointer pair. -/
  | movts (e : Eng) (k : BitVec 3) (sreg : BitVec 6)
  /-- RXPOP (R360): Copies and frees the oldest PD receive buffer. -/
  | rxpop (e : Eng) (k : BitVec 3) (reg : BitVec 5)
  /-- TXLOAD (R360): Loads a PD transmit descriptor. -/
  | txload (e : Eng) (k : BitVec 3)
  /-- TXGO (R360): Queues the loaded packet in a transmit class. -/
  | txgo (e : Eng) (sel : BitVec 2)
  /-- TXSTAT (R360): Returns the PD transmit status. -/
  | txstat (e : Eng) (reg : BitVec 5)
  /-- ORDSET (R133): Requests a Hard_Reset or Cable_Reset ordered set. -/
  | ordset (e : Eng) (sel : BitVec 2)
  /-- TSTART (R143): Starts a PD timer. -/
  | tstart (e : Eng) (k : BitVec 5)
  /-- TSTOP (R143): Stops a PD timer. -/
  | tstop (e : Eng) (k : BitVec 5)
  /-- TREAD (R360): Reads a PD timer's remaining count. -/
  | tread (e : Eng) (p : BitVec 3) (reg k : BitVec 5)
  /-- IDRST (R360): Resets one SOP type's MessageIDs. -/
  | idrst (e : Eng) (sel : BitVec 2)
  /-- FRSTX (R134): Generates the FRS signal on the active CC. -/
  | frstx (e : Eng)
  /-- CLRA (R361): Clears an accumulator. -/
  | clra (e : Eng) (acc : Bool)
  /-- MUL (R361): Signed multiply into an accumulator. -/
  | mul (e : Eng) (acc : Bool) (i j : BitVec 3)
  /-- MULU (R361): Unsigned multiply into an accumulator. -/
  | mulu (e : Eng) (acc : Bool) (i j : BitVec 3)
  /-- MULSU (R361): Signed-by-unsigned multiply into an accumulator. -/
  | mulsu (e : Eng) (acc : Bool) (i j : BitVec 3)
  /-- MAC (R361): Signed multiply-accumulate. -/
  | mac (e : Eng) (acc : Bool) (i j : BitVec 3)
  /-- MACU (R361): Unsigned multiply-accumulate. -/
  | macu (e : Eng) (acc : Bool) (i j : BitVec 3)
  /-- MACSU (R361): Signed-by-unsigned multiply-accumulate. -/
  | macsu (e : Eng) (acc : Bool) (i j : BitVec 3)
  /-- MACM (R361): Multiply-accumulates two words from memory and advances both pointers. -/
  | macm (e : Eng) (acc : Bool) (i j : BitVec 3)
  /-- SHA (R361): Shifts an accumulator arithmetically. -/
  | sha (e : Eng) (acc : Bool) (sh : BitVec 6)
  /-- ADDA (R361): Adds one accumulator to another. -/
  | adda (e : Eng) (acc src : Bool)
  /-- SATA (R361): Saturates an accumulator to 32 bits and sets V. -/
  | sata (e : Eng) (acc : Bool)
  /-- RDA (R361): Reads part of an accumulator. -/
  | rda (e : Eng) (acc : Bool) (k : BitVec 3) (part : BitVec 2)
  /-- WRA (R361): Writes part of an accumulator. -/
  | wra (e : Eng) (acc : Bool) (k : BitVec 3) (part : BitVec 2)
  /-- CRCI (R362): Initialises the CRC unit in CRC-32 or CRC-8 mode. -/
  | crci (e : Eng) (mode : Bool)
  /-- CRCB (R362): Feeds one byte to the CRC. -/
  | crcb (e : Eng) (reg : BitVec 5)
  /-- CRCM (R362): Feeds n bytes from memory to the CRC. -/
  | crcm (e : Eng) (loc : Bool) (k : BitVec 3) (n : BitVec 12)
  /-- CRCR (R362): Reads half of the final CRC value. -/
  | crcr (e : Eng) (k : BitVec 3) (half : Bool)
  /-- ECCG (R362): Generates SECDED check bits for 8 bytes. -/
  | eccg (e : Eng) (reg : BitVec 5) (k : BitVec 3)
  /-- ECCC (R362): Checks and corrects 8 bytes against their check byte. -/
  | eccc (e : Eng) (reg : BitVec 5) (k : BitVec 3)
  /-- MBX_PUSH (R380): A store to byte 7 of MBX_TX pushes the staged word into the other end's queue. -/
  | mbxPush (e : Eng) (base : BitVec 16) (b : Byte)
  /-- MBX_POP (R380): A load of byte 7 of MBX_RX pops the head word. -/
  | mbxPop (e : Eng) (base : BitVec 16)
  /-- MBX_ACK (R382): A store to MBX_ACK acknowledges the oldest popped message. -/
  | mbxAck (e : Eng) (base : BitVec 16) (b : Byte)
  /-- MBX_ACKIN_READ (R382): A read of MBX_ACKIN byte 0 removes the oldest acknowledgement. -/
  | mbxAckinRead (e : Eng) (base : BitVec 16)
  /-- LOCK_TAKE (R389): A load of byte 0 of a lock takes it when free or returns the owner. -/
  | lockTake (e : Eng) (off : BitVec 16)
  /-- LOCK_RELEASE (R390): A store of 0x00 by the owner releases the lock. -/
  | lockRelease (e : Eng) (off : BitVec 16) (b : Byte)
  /-- MIRROR_COMMIT (R267): Writing PRT_MIRCMT.COMMIT exchanges the outbound record buffers. -/
  | mirrorCommit (p : Port)
  /-- WDG_CHECK_IN (R415): A task's write to WDG_CHK records its check-in. -/
  | wdgCheckIn (e : Eng) (b : Byte)
  /-- WDG_SERVICE (R415): A write to WDG_SVC is judged early, refused or good. -/
  | wdgService (e : Eng) (b : Byte)
  /-- WEIR_PREC_WRITE (R395): An engine write to WEIR_PREC records an event of a port index. -/
  | weirPrecWrite (p : Port) (v : BitVec 16)
  /-- WEIR_UREC_WRITE (R395): An EH write to WEIR_UREC records an event of a unit index. -/
  | weirUrecWrite (v : BitVec 16)
  /-- FAULT_N_RELEASE (R406): Writing WEIR_CTL.FREL releases FAULT_N after its pulse in pulse mode. -/
  | faultNRelease
  /-- EDDY_START (R231): Writing DEV_EDDY.START begins calibration of a port's converter from the next edge. -/
  | eddyStart (v : BitVec 16)
  /-- SWAP_REQUEST (R375): Setting DEV_SWAP.REQ bits requests live exchanges of engine banks. -/
  | swapRequest (v : BitVec 32)
  /-- FLASH_WINDOW_PLACE (R368): Writing FL_WIN places the flash window at the next edge or is refused. -/
  | flashWindowPlace (v : BitVec 16)
  /-- FORCE_ERROR_RECOVERY (R115): PRT_CCCTL.FORCE 0b01 puts the attach block in ErrorRecovery at the next edge. -/
  | forceErrorRecovery (p : Port)
  /-- FORCE_DISABLED (R115): PRT_CCCTL.FORCE 0b10 puts the attach block in Disabled at the next edge. -/
  | forceDisabled (p : Port)
  /-- FORCE_LEAVE_DISABLED (R113): PRT_CCCTL.FORCE 0b11 takes a Disabled port to its first Unattached state. -/
  | forceLeaveDisabled (p : Port)
  /-- ROLESW (R117): PRT_CCCTL.ROLESW exchanges Rp and Rd at the next edge. -/
  | rolesw (p : Port)
  /-- LIM_WRITE (R195): A write of PRT_ILIM.LIM loads the limit, hard-trip and limit-active thresholds at the next edge. -/
  | limWrite (p : Port) (v : BitVec 32)
  /-- OTP_CTL_READ_NORMAL (R425): OTP_CTL OP 0 reads a word at normal margin. -/
  | otpCtlReadNormal (v : BitVec 32)
  /-- OTP_CTL_READ_STRICT (R425): OTP_CTL OP 1 reads a word at strict margin. -/
  | otpCtlReadStrict (v : BitVec 32)
  /-- OTP_CTL_PROGRAM (R429): OTP_CTL OP 2 programs a word, or lock fuses with RAW. -/
  | otpCtlProgram (v : BitVec 32)
  /-- OTP_CTL_LOCK (R430): OTP_CTL OP 3 locks a region. -/
  | otpCtlLock (v : BitVec 32)
  /-- OTP_CTL_LC_ADVANCE (R433): OTP_CTL OP 4 advances the life-cycle state. -/
  | otpCtlLcAdvance (v : BitVec 32)
  /-- PAIR_CTL_GIVE (R279): PAIR_CTL OP 0b01 proposes giving the ports of MASK. -/
  | pairCtlGive (mask : BitVec 16)
  /-- PAIR_CTL_TAKE (R279): PAIR_CTL OP 0b10 proposes taking the ports of MASK. -/
  | pairCtlTake (mask : BitVec 16)
  /-- PAIR_CTL_RETRAIN (R260): PAIR_CTL.RETRAIN takes both link directions to Training. -/
  | pairCtlRetrain
  /-- PAIR_CTL_WITHDRAW (R290): PAIR_CTL.WITHDRAW starts withdrawal of the unit. -/
  | pairCtlWithdraw
  /-- PAIR_CTL_REBAL (R278): PAIR_CTL.REBAL starts the rebalancing handover now. -/
  | pairCtlRebal
  /-- CNT_CTL_CLEAR (R474): Writing CNT_CTL.CLR clears the selected counters at the next edge. -/
  | cntCtlClear (mask : BitVec 32)
  /-- TICK_COUNT_READ (R68): A read of byte 0 of a 48-bit value latches its upper bytes for a coherent read. -/
  | tickCountRead (e : Eng)
  /-- RC_REGISTER_READ (R9): A read of an RC field returns it and then clears it. -/
  | rcRegisterRead (addr : BitVec 24) (size : Nat)
  /-- REGISTER_WRITE (R9): A write to a register with no row of its own acts by its fields' access codes. -/
  | registerWrite (e : Eng) (addr : BitVec 24) (bytes : List Byte)
  /-- CC_SCAN_COMPARISON (R105): At cycles 249 and 499 of each scan phase (or cycle 1,999 in Neap), a CC threshold comparison is judged and its latch may change. -/
  | ccScanComparison (p : Port) (v1 v2 : BitVec 23) (busy1 busy2 : Bool)
  /-- MUXBUS_SLOT (R89): In each of the 18 slots, at cycles 100 + 100s, the unit drives the address and data bytes with their strobes, sampling PG and SAFE at the slot's first cycle. -/
  | muxbusSlot (slot : Fin 18)
  /-- DB_OFF_FALL (R82): DB_OFF falling below its threshold brings the dead-battery clamps back on the CC balls. -/
  | dbOffFall
  /-- VDRV_INVALID (R489): VDRV falling below 9.0 V stops the charge pumps and ramp sources, so enhanced gates are no longer maintained. -/
  | vdrvInvalid
  /-- VDRV_VALID (R489): VDRV rising above 9.5 V lets the charge pumps and ramp sources run again. -/
  | vdrvValid
  /-- VCONN_INPUT_RECOVERED (R121): Q(q)_VCONN rising above 4.70 V lets the quad's VCONN switches close again. -/
  | vconnInputRecovered (q : Quad)
  /-- OTP_OPERATION_COMPLETE (R425): An OTP read, program pulse round, lock or life-cycle operation finishes; OTP_ST.BUSY clears and RESULT and MARG are set. -/
  | otpOperationComplete (took weak : BitVec 64)
  /-- TAP_TCK_EDGE (R77): An edge on TCK clocks the IEEE 1149.1 TAP with TMS and TDI, driving TDO while shifting, until TAPOFF makes the TAP ignored. -/
  | tapTckEdge (rise tms : Bool) (i : TapIn)
  deriving DecidableEq, Repr

end Sys2Proof
end

