-- ==== Sys2Proof/Decode.lean ====
section
/-!
DEFINITION. The command a word of spec/opcode_table.json spells. The table gives its rows no bits (commands
reach the block as transactions, events and register accesses), so every word is refused.
-/
namespace Sys2Proof

/-- The command that `nbits` bits `w` spell: none, since no row of the table has bits. -/
def decodeTableWord (nbits w : Nat) : Option Instr :=
  match nbits, w with
  | _, _ => none

end Sys2Proof
end

