-- ==== Sys2Proof/Crypto.lean ====
section
/-!
DEFINITION. The checks the spec names by their public definitions: CRC-32 (R5), CRC-8 (R97), SHA-256
and the ECDSA P-256 signature of a firmware image (R443, R446; FIPS 180-4 and FIPS 186-4).
-/
namespace Sys2Proof.Crypto

/-! ## CRC-32 (R5) and CRC-8 (R97) -/

/-- `n` reflected shifts of the CRC-32 register. -/
def crcShift : Nat -> Nat -> Nat
  | 0, c => c
  | n + 1, c => crcShift n (if c % 2 = 1 then (c / 2) ^^^ 0xEDB88320 else c / 2)

/-- One byte fed to the CRC-32 register. -/
def crcStep (c : Nat) (b : Byte) : Nat := crcShift 8 (c ^^^ b.toNat)

/-- The CRC-32 of a list of bytes. -/
def crc32 (l : List Byte) : Nat := l.foldl crcStep 0xFFFFFFFF ^^^ 0xFFFFFFFF

/-- `n` shifts of the CRC-8 register. -/
def crc8Shift : Nat -> Nat -> Nat
  | 0, c => c
  | n + 1, c => crc8Shift n (if 128 ≤ c then (c * 2 % 256) ^^^ 0x07 else c * 2)

/-- One byte fed to the CRC-8 register. -/
def crc8Step (c : Nat) (b : Byte) : Nat := crc8Shift 8 (c ^^^ b.toNat)

/-- The CRC-8 of a list of bytes. -/
def crc8 (l : List Byte) : Nat := l.foldl crc8Step 0

/-! ## SHA-256 (FIPS 180-4) -/

abbrev W32 := BitVec 32

/-- The round constants. -/
def shaK : List W32 :=
  [0x428a2f98, 0x71374491, 0xb5c0fbcf, 0xe9b5dba5, 0x3956c25b, 0x59f111f1, 0x923f82a4, 0xab1c5ed5] ++
  [0xd807aa98, 0x12835b01, 0x243185be, 0x550c7dc3, 0x72be5d74, 0x80deb1fe, 0x9bdc06a7, 0xc19bf174] ++
  [0xe49b69c1, 0xefbe4786, 0x0fc19dc6, 0x240ca1cc, 0x2de92c6f, 0x4a7484aa, 0x5cb0a9dc, 0x76f988da] ++
  [0x983e5152, 0xa831c66d, 0xb00327c8, 0xbf597fc7, 0xc6e00bf3, 0xd5a79147, 0x06ca6351, 0x14292967] ++
  [0x27b70a85, 0x2e1b2138, 0x4d2c6dfc, 0x53380d13, 0x650a7354, 0x766a0abb, 0x81c2c92e, 0x92722c85] ++
  [0xa2bfe8a1, 0xa81a664b, 0xc24b8b70, 0xc76c51a3, 0xd192e819, 0xd6990624, 0xf40e3585, 0x106aa070] ++
  [0x19a4c116, 0x1e376c08, 0x2748774c, 0x34b0bcb5, 0x391c0cb3, 0x4ed8aa4a, 0x5b9cca4f, 0x682e6ff3] ++
  [0x748f82ee, 0x78a5636f, 0x84c87814, 0x8cc70208, 0x90befffa, 0xa4506ceb, 0xbef9a3f7, 0xc67178f2]

/-- The initial hash value. -/
def shaH : List W32 :=
  [0x6a09e667, 0xbb67ae85, 0x3c6ef372, 0xa54ff53a, 0x510e527f, 0x9b05688c, 0x1f83d9ab, 0x5be0cd19]

/-- Words from bytes, most significant first. -/
def beWords : List Byte → List W32
  | a :: b :: c :: d :: t => (a ++ b ++ c ++ d : BitVec 32) :: beWords t
  | _ => []

/-- Bytes of a word, most significant first. -/
def beBytes (w : W32) : List Byte := (toBytes 4 w.toNat).reverse

/-- `n` further words of the message schedule; `l` holds the last 16, oldest first. -/
def shaSched : Nat → List W32 → List W32
  | 0, _ => []
  | n + 1, l =>
    let x := l.getD 1 0
    let y := l.getD 14 0
    let s0 := x.rotateRight 7 ^^^ x.rotateRight 18 ^^^ x >>> 3
    let s1 := y.rotateRight 17 ^^^ y.rotateRight 19 ^^^ y >>> 10
    let w := l.getD 0 0 + s0 + l.getD 9 0 + s1
    w :: shaSched n (l.tail ++ [w])

/-- One round on the working variables a to h. -/
def shaRound (v : List W32) (kw : W32 × W32) : List W32 :=
  match v with
  | [a, b, c, d, e, f, g, h] =>
    let s1 := e.rotateRight 6 ^^^ e.rotateRight 11 ^^^ e.rotateRight 25
    let t1 := h + s1 + ((e &&& f) ^^^ (~~~e &&& g)) + kw.1 + kw.2
    let s0 := a.rotateRight 2 ^^^ a.rotateRight 13 ^^^ a.rotateRight 22
    let t2 := s0 + ((a &&& b) ^^^ (a &&& c) ^^^ (b &&& c))
    [t1 + t2, a, b, c, d + t1, e, f, g]
  | _ => v

/-- One 64-byte block taken into the hash value. -/
def shaBlock (h : List W32) (blk : List Byte) : List W32 :=
  let w := beWords blk
  let v := (shaK.zip (w ++ shaSched 48 w)).foldl shaRound h
  (h.zip v).map fun p => p.1 + p.2

/-- `n` blocks taken in, from the front of a padded message. -/
def shaBlocks : Nat → List W32 → List Byte → List W32
  | 0, h, _ => h
  | n + 1, h, l => shaBlocks n (shaBlock h (l.take 64)) (l.drop 64)

/-- The message with its padding: 0x80, zeros, and the length in bits as 8 bytes. -/
def shaPad (l : List Byte) : List Byte :=
  let z := (119 - l.length % 64) % 64
  l ++ [0x80] ++ List.replicate z 0 ++ (toBytes 8 (8 * l.length)).reverse

/-- The SHA-256 digest, 32 bytes. -/
def sha256 (l : List Byte) : List Byte :=
  let m := shaPad l
  (shaBlocks (m.length / 64) shaH m).flatMap beBytes

/-! ## ECDSA P-256 (FIPS 186-4) -/

/-- The field prime, the group order, the curve constant b and the base point. -/
def p256 : Nat := 0xFFFFFFFF00000001000000000000000000000000FFFFFFFFFFFFFFFFFFFFFFFF
def n256 : Nat := 0xFFFFFFFF00000000FFFFFFFFFFFFFFFFBCE6FAADA7179E84F3B9CAC2FC632551
def b256 : Nat := 0x5AC635D8AA3A93E7B3EBBD55769886BC651D06B0CC53B0F63BCE3C3E27D2604B
def g256 : Nat × Nat :=
  (0x6B17D1F2E12C4247F8BCE6E563A440F277037D812DEB33A0F4A13945D898C296,
   0x4FE342E2FE1A7F9B8EE7EB4A7C0F9E162BCE33576B315ECECBB6406837BF51F5)

/-- `b` to the power `e` modulo `m`, for an exponent of at most `n` bits. -/
def powMod (m : Nat) : Nat → Nat → Nat → Nat
  | 0, _, _ => 1
  | n + 1, b, e =>
    let h := powMod m n (b * b % m) (e / 2)
    if e % 2 = 1 then b * h % m else h

/-- The inverse modulo a prime. -/
def invMod (m a : Nat) : Nat := powMod m 256 (a % m) (m - 2)

/-- `a - b` in the field. -/
def subP (a b : Nat) : Nat := (a + p256 - b % p256) % p256

/-- The third point on the line of slope `l` through `a` and a point of abscissa `x`, reflected. -/
def chord (l : Nat) (a : Nat × Nat) (x : Nat) : Nat × Nat :=
  let x3 := subP (subP (l * l) a.1) x
  (x3, subP (l * subP a.1 x3) a.2)

/-- The sum of two points; none is the point at infinity. -/
def addPt : Option (Nat × Nat) → Option (Nat × Nat) → Option (Nat × Nat)
  | none, b => b
  | a, none => a
  | some a, some b =>
    if a.1 = b.1 then
      if (a.2 + b.2) % p256 = 0 then none
      else some (chord (subP (3 * a.1 * a.1) 3 * invMod p256 (2 * a.2) % p256) a b.1)
    else some (chord (subP b.2 a.2 * invMod p256 (subP b.1 a.1) % p256) a b.1)

/-- `k` times a point, for `k` of at most `n` bits. -/
def mulPt : Nat → Nat → Option (Nat × Nat) → Option (Nat × Nat)
  | 0, _, _ => none
  | n + 1, k, a =>
    let h := mulPt n (k / 2) (addPt a a)
    if k % 2 = 1 then addPt a h else h

/-- A point lies on the curve. -/
def onCurve (q : Nat × Nat) : Bool :=
  decide (q.1 < p256) && decide (q.2 < p256) &&
    decide (q.2 * q.2 % p256 = (q.1 * q.1 * q.1 + (p256 - 3) * q.1 + b256) % p256)

/-- A big-endian number. -/
def ofBig (l : List Byte) : Nat := ofBytes l.reverse

/-- The signature r, s (64 bytes) by the public key X, Y (64 bytes) over a digest verifies. -/
def ecdsaOk (digest key sig : List Byte) : Bool :=
  let q := (ofBig (key.take 32), ofBig (key.drop 32))
  let r := ofBig (sig.take 32)
  let t := ofBig (sig.drop 32)
  if r = 0 ∨ n256 ≤ r ∨ t = 0 ∨ n256 ≤ t ∨ onCurve q = false then false
  else
    let w := invMod n256 t
    let u1 := ofBig digest * w % n256
    let u2 := r * w % n256
    match addPt (mulPt 256 u1 (some g256)) (mulPt 256 u2 (some q)) with
    | none => false
    | some x => decide (x.1 % n256 = r)

end Sys2Proof.Crypto
end

