-- ==== Sys2Proof/Config.lean ====
section
/-!
DEFINITION. What the spec leaves open: the free values, which have no body, so that nothing can be
proved of the value they give, and the properties of one die that the spec does not number.
-/
namespace Sys2Proof.Config

/-- A free value of `w` bits. The step hands it a counter of the state that it then advances, so two
uses never share one value (log entry 2). -/
opaque freeBits : (w : Nat) → Nat → BitVec w

/-- The choices that fix the matrix of the SECDED (72,64) code of R6, which the spec names without its matrix:
which of the columns still free a data bit takes (log entry 3). -/
opaque eccPick : Nat → Nat

/-- The FET temperature in thousandths of a degree that an NTC code means, by the curve's B value and
resistance in kΩ and the bias code (R200, R228). The spec gives no formula (log entry 13). -/
opaque ntcTemp : (beta r25 bias code : Nat) → Int

/-- What a superframe carries in the words that no rule fills: bulk words left over and lane alignment (R261; log
entry 88). -/
opaque linkFill : Nat → BitVec 64

/-- The silicon revision that UNIT_INFO returns (R313); the spec gives no number. -/
opaque siliconRevision : BitVec 8

end Sys2Proof.Config
end

