-- ==== Sys2Proof/Machine/Store.lean ====
section
/-!
DEFINITION. Tables kept in one canonical form, and the place of one register field.

A `Tab` is a list of keys and values, keys strictly rising, no entry equal to what an unlisted key
reads as. Registers, memory, flash and the indexed hardware of the unit are all held in this form, so
that equal contents are equal data.
-/
namespace Sys2Proof.Machine

/-- A table from keys to values. -/
abbrev Tab (α : Type) := List (Nat × α)

namespace Tab

/-- The value at key `k`; an unlisted key reads as `d`. -/
def get {α : Type} (d : α) (k : Nat) : Tab α → α
  | [] => d
  | (n, v) :: t => if n = k then v else get d k t

/-- The table without its entries for key `k`. -/
def drop {α : Type} (k : Nat) : Tab α → Tab α
  | [] => []
  | (n, v) :: t => if n = k then drop k t else (n, v) :: drop k t

/-- The table with the entry `k, v` put before the first larger key. -/
def ins {α : Type} (k : Nat) (v : α) : Tab α → Tab α
  | [] => [(k, v)]
  | (n, w) :: t => if k < n then (k, v) :: (n, w) :: t else (n, w) :: ins k v t

/-- Write `v` at key `k`. Writing what an unlisted key reads as removes the entry. -/
def put {α : Type} [DecidableEq α] (d : α) (k : Nat) (v : α) (t : Tab α) : Tab α :=
  if v = d then t.drop k else (t.drop k).ins k v

/-- Keys strictly rising. -/
def rising {α : Type} : Tab α → Bool
  | [] => true
  | [_] => true
  | (a, _) :: (b, w) :: t => decide (a < b) && rising ((b, w) :: t)

/-- The canonical form: keys strictly rising and no entry equal to the default. -/
def wf {α : Type} [DecidableEq α] (d : α) (t : Tab α) : Bool :=
  t.rising && t.all fun e => decide (e.2 ≠ d)

end Tab

/-- The place of one register field: the byte address of its register at index 0 in EH's 24-bit
space, the step from one index (port, quad, engine) to the next, its low bit, its width, and its
value after unit reset at each index. -/
structure Fld where
  base : Nat
  stride : Nat
  lo : Nat
  w : Nat
  rst : Nat → Nat

/-- The key of field `f` at index `i`: no two fields of the register tables share one. -/
def Fld.key (f : Fld) (i : Nat) : Nat := (f.base + f.stride * i) * 64 + f.lo

end Sys2Proof.Machine
end

