-- ==== Sys2Proof/Machine/Regs.lean ====
section
/-!
DEFINITION. The register tables of the spec (chapters 02 to 17), field by field.

Each field is a `Fld`: the byte address of its register in EH's 24-bit space (port n's registers at
0xFC:0x1000n, quad q's at 0xFD:0x1000q, R365), the step to the next port, quad or engine, its low
bit, its width and its reset value. Each register is a `Reg`, which lists its fields with their
access codes (R9). Bits that no field covers are reserved (R10).
-/
namespace Sys2Proof.Machine

/-- The access codes of R9. `rwEh` and `w1cEh` are RW and W1C for EH (and host debug) only. -/
inductive Acc
  | rw | ro | w1c | w1s | wo | rc | rwEh | w1cEh
  deriving DecidableEq, Repr

/-- One register: first byte address, index stride, number of indices, size in bytes, fields. -/
structure Reg where
  base : Nat
  stride : Nat
  count : Nat
  bytes : Nat
  flds : List (Acc × Fld)

/-! TICK_COUNT: 02_tide_tick.md. -/
def TICK_COUNT.COUNT : Fld := ⟨0xF00000, 0x0, 0, 48, fun _ => 0⟩
def TICK_COUNT.reg : Reg := ⟨0xF00000, 0x0, 1, 6,
  [(.ro, TICK_COUNT.COUNT)]⟩

/-! TICK_CYCLE: 02_tide_tick.md. -/
def TICK_CYCLE.CYCLE : Fld := ⟨0xF00008, 0x0, 0, 11, fun _ => 0⟩
def TICK_CYCLE.reg : Reg := ⟨0xF00008, 0x0, 1, 2,
  [(.ro, TICK_CYCLE.CYCLE)]⟩

/-! TICK_STATUS: 02_tide_tick.md. -/
def TICK_STATUS.ADOPTED : Fld := ⟨0xF0000C, 0x0, 7, 1, fun _ => 0⟩
def TICK_STATUS.HBOUND : Fld := ⟨0xF0000C, 0x0, 6, 1, fun _ => 0⟩
def TICK_STATUS.SYNC_LOST : Fld := ⟨0xF0000C, 0x0, 5, 1, fun _ => 0⟩
def TICK_STATUS.SKEW_FAULT : Fld := ⟨0xF0000C, 0x0, 4, 1, fun _ => 0⟩
def TICK_STATUS.FREERUN : Fld := ⟨0xF0000C, 0x0, 3, 1, fun _ => 0⟩
def TICK_STATUS.SYNC_LOCK : Fld := ⟨0xF0000C, 0x0, 2, 1, fun _ => 0⟩
def TICK_STATUS.MASTER : Fld := ⟨0xF0000C, 0x0, 1, 1, fun _ => 0⟩
def TICK_STATUS.PLL_LOCK : Fld := ⟨0xF0000C, 0x0, 0, 1, fun _ => 0⟩
def TICK_STATUS.reg : Reg := ⟨0xF0000C, 0x0, 1, 2,
  [(.ro, TICK_STATUS.ADOPTED), (.ro, TICK_STATUS.HBOUND), (.w1c, TICK_STATUS.SYNC_LOST), (.w1c, TICK_STATUS.SKEW_FAULT), (.ro, TICK_STATUS.FREERUN), (.ro, TICK_STATUS.SYNC_LOCK), (.ro, TICK_STATUS.MASTER), (.ro, TICK_STATUS.PLL_LOCK)]⟩

/-! TICK_SKEW: 02_tide_tick.md. -/
def TICK_SKEW.SKEW : Fld := ⟨0xF0000E, 0x0, 0, 8, fun _ => 0⟩
def TICK_SKEW.reg : Reg := ⟨0xF0000E, 0x0, 1, 1,
  [(.ro, TICK_SKEW.SKEW)]⟩

/-! TICK_OVR: 02_tide_tick.md. -/
def TICK_OVR.EH : Fld := ⟨0xF00010, 0x0, 16, 1, fun _ => 0⟩
def TICK_OVR.EN : Fld := ⟨0xF00010, 0x0, 0, 16, fun _ => 0⟩
def TICK_OVR.reg : Reg := ⟨0xF00010, 0x0, 1, 4,
  [(.w1c, TICK_OVR.EH), (.w1c, TICK_OVR.EN)]⟩

/-! PRT_AUXSEL: 02_tide_tick.md. -/
def PRT_AUXSEL.EN : Fld := ⟨0xFC0030, 0x1000, 0, 8, fun _ => 255⟩
def PRT_AUXSEL.reg : Reg := ⟨0xFC0030, 0x1000, 16, 1,
  [(.rw, PRT_AUXSEL.EN)]⟩

/-! DEV_STRAP: 03_pins.md. -/
def DEV_STRAP.PCHK : Fld := ⟨0xF10000, 0x0, 10, 2, fun _ => 0⟩
def DEV_STRAP.BOOT_IGN : Fld := ⟨0xF10000, 0x0, 9, 1, fun _ => 0⟩
def DEV_STRAP.PRES : Fld := ⟨0xF10000, 0x0, 8, 1, fun _ => 0⟩
def DEV_STRAP.STRAP : Fld := ⟨0xF10000, 0x0, 0, 8, fun _ => 0⟩
def DEV_STRAP.reg : Reg := ⟨0xF10000, 0x0, 1, 2,
  [(.ro, DEV_STRAP.PCHK), (.ro, DEV_STRAP.BOOT_IGN), (.ro, DEV_STRAP.PRES), (.ro, DEV_STRAP.STRAP)]⟩

/-! DEV_MUXIND: 03_pins.md. -/
def DEV_MUXIND.IND : Fld := ⟨0xF10004, 0x0, 0, 14, fun _ => 0⟩
def DEV_MUXIND.reg : Reg := ⟨0xF10004, 0x0, 1, 2,
  [(.rw, DEV_MUXIND.IND)]⟩

/-! PRT_CCCFG: 04_attach.md. -/
def PRT_CCCFG.START : Fld := ⟨0xFC0100, 0x1000, 11, 1, fun _ => 0⟩
def PRT_CCCFG.ATTWAKE : Fld := ⟨0xFC0100, 0x1000, 10, 1, fun _ => 1⟩
def PRT_CCCFG.VCONN_EN : Fld := ⟨0xFC0100, 0x1000, 9, 1, fun _ => 0⟩
def PRT_CCCFG.DBGSRC : Fld := ⟨0xFC0100, 0x1000, 8, 1, fun _ => 0⟩
def PRT_CCCFG.DEBUG : Fld := ⟨0xFC0100, 0x1000, 7, 1, fun _ => 0⟩
def PRT_CCCFG.AUDIO : Fld := ⟨0xFC0100, 0x1000, 6, 1, fun _ => 0⟩
def PRT_CCCFG.RPLVL : Fld := ⟨0xFC0100, 0x1000, 4, 2, fun _ => 0⟩
def PRT_CCCFG.TRY : Fld := ⟨0xFC0100, 0x1000, 2, 2, fun _ => 0⟩
def PRT_CCCFG.ROLE : Fld := ⟨0xFC0100, 0x1000, 0, 2, fun _ => 2⟩
def PRT_CCCFG.reg : Reg := ⟨0xFC0100, 0x1000, 16, 2,
  [(.rw, PRT_CCCFG.START), (.rw, PRT_CCCFG.ATTWAKE), (.rw, PRT_CCCFG.VCONN_EN), (.rw, PRT_CCCFG.DBGSRC), (.rw, PRT_CCCFG.DEBUG), (.rw, PRT_CCCFG.AUDIO), (.rw, PRT_CCCFG.RPLVL), (.rw, PRT_CCCFG.TRY), (.rw, PRT_CCCFG.ROLE)]⟩

/-! PRT_CCCTL: 04_attach.md. -/
def PRT_CCCTL.VCONNON : Fld := ⟨0xFC0104, 0x1000, 6, 1, fun _ => 0⟩
def PRT_CCCTL.RPSET : Fld := ⟨0xFC0104, 0x1000, 4, 2, fun _ => 0⟩
def PRT_CCCTL.ROLESW : Fld := ⟨0xFC0104, 0x1000, 3, 1, fun _ => 0⟩
def PRT_CCCTL.HOLDATT : Fld := ⟨0xFC0104, 0x1000, 2, 1, fun _ => 0⟩
def PRT_CCCTL.FORCE : Fld := ⟨0xFC0104, 0x1000, 0, 2, fun _ => 0⟩
def PRT_CCCTL.reg : Reg := ⟨0xFC0104, 0x1000, 16, 2,
  [(.rw, PRT_CCCTL.VCONNON), (.rw, PRT_CCCTL.RPSET), (.wo, PRT_CCCTL.ROLESW), (.rw, PRT_CCCTL.HOLDATT), (.wo, PRT_CCCTL.FORCE)]⟩

/-! PRT_ATTST: 04_attach.md. -/
def PRT_ATTST.MSTATE : Fld := ⟨0xFC0108, 0x1000, 12, 4, fun _ => 0⟩
def PRT_ATTST.HOLD : Fld := ⟨0xFC0108, 0x1000, 11, 1, fun _ => 0⟩
def PRT_ATTST.RPADV : Fld := ⟨0xFC0108, 0x1000, 9, 2, fun _ => 0⟩
def PRT_ATTST.VCONN : Fld := ⟨0xFC0108, 0x1000, 8, 1, fun _ => 0⟩
def PRT_ATTST.KIND : Fld := ⟨0xFC0108, 0x1000, 5, 3, fun _ => 0⟩
def PRT_ATTST.ORIENT : Fld := ⟨0xFC0108, 0x1000, 4, 1, fun _ => 0⟩
def PRT_ATTST.STATE : Fld := ⟨0xFC0108, 0x1000, 0, 4, fun _ => 15⟩
def PRT_ATTST.reg : Reg := ⟨0xFC0108, 0x1000, 16, 2,
  [(.ro, PRT_ATTST.MSTATE), (.ro, PRT_ATTST.HOLD), (.ro, PRT_ATTST.RPADV), (.ro, PRT_ATTST.VCONN), (.ro, PRT_ATTST.KIND), (.ro, PRT_ATTST.ORIENT), (.ro, PRT_ATTST.STATE)]⟩

/-! PRT_CCSTAT: 04_attach.md. -/
def PRT_CCSTAT.CCOV : Fld := ⟨0xFC010C, 0x1000, 10, 1, fun _ => 0⟩
def PRT_CCSTAT.VBUSOK : Fld := ⟨0xFC010C, 0x1000, 9, 1, fun _ => 0⟩
def PRT_CCSTAT.VSAFE0 : Fld := ⟨0xFC010C, 0x1000, 8, 1, fun _ => 0⟩
def PRT_CCSTAT.INBAND2 : Fld := ⟨0xFC010C, 0x1000, 7, 1, fun _ => 0⟩
def PRT_CCSTAT.INBAND1 : Fld := ⟨0xFC010C, 0x1000, 6, 1, fun _ => 0⟩
def PRT_CCSTAT.CC2LVL : Fld := ⟨0xFC010C, 0x1000, 3, 3, fun _ => 7⟩
def PRT_CCSTAT.CC1LVL : Fld := ⟨0xFC010C, 0x1000, 0, 3, fun _ => 7⟩
def PRT_CCSTAT.reg : Reg := ⟨0xFC010C, 0x1000, 16, 2,
  [(.ro, PRT_CCSTAT.CCOV), (.ro, PRT_CCSTAT.VBUSOK), (.ro, PRT_CCSTAT.VSAFE0), (.ro, PRT_CCSTAT.INBAND2), (.ro, PRT_CCSTAT.INBAND1), (.ro, PRT_CCSTAT.CC2LVL), (.ro, PRT_CCSTAT.CC1LVL)]⟩

/-! PRT_CCHYS: 04_attach.md. -/
def PRT_CCHYS.ASSUME : Fld := ⟨0xFC0110, 0x1000, 6, 1, fun _ => 0⟩
def PRT_CCHYS.HYST : Fld := ⟨0xFC0110, 0x1000, 0, 6, fun _ => 10⟩
def PRT_CCHYS.reg : Reg := ⟨0xFC0110, 0x1000, 16, 2,
  [(.rw, PRT_CCHYS.ASSUME), (.rw, PRT_CCHYS.HYST)]⟩

/-! PRT_ATTEV: 04_attach.md. -/
def PRT_ATTEV.FRCDONE : Fld := ⟨0xFC0114, 0x1000, 7, 1, fun _ => 0⟩
def PRT_ATTEV.SHDIS : Fld := ⟨0xFC0114, 0x1000, 6, 1, fun _ => 0⟩
def PRT_ATTEV.INBAND : Fld := ⟨0xFC0114, 0x1000, 5, 1, fun _ => 0⟩
def PRT_ATTEV.CCOV : Fld := ⟨0xFC0114, 0x1000, 4, 1, fun _ => 0⟩
def PRT_ATTEV.VCONNUV : Fld := ⟨0xFC0114, 0x1000, 3, 1, fun _ => 0⟩
def PRT_ATTEV.VCONNOC : Fld := ⟨0xFC0114, 0x1000, 2, 1, fun _ => 0⟩
def PRT_ATTEV.ACC : Fld := ⟨0xFC0114, 0x1000, 1, 1, fun _ => 0⟩
def PRT_ATTEV.STCHG : Fld := ⟨0xFC0114, 0x1000, 0, 1, fun _ => 0⟩
def PRT_ATTEV.reg : Reg := ⟨0xFC0114, 0x1000, 16, 2,
  [(.w1c, PRT_ATTEV.FRCDONE), (.w1c, PRT_ATTEV.SHDIS), (.w1c, PRT_ATTEV.INBAND), (.w1c, PRT_ATTEV.CCOV), (.w1c, PRT_ATTEV.VCONNUV), (.w1c, PRT_ATTEV.VCONNOC), (.w1c, PRT_ATTEV.ACC), (.w1c, PRT_ATTEV.STCHG)]⟩

/-! PRT_VCONN: 04_attach.md. -/
def PRT_VCONN.TFLT : Fld := ⟨0xFC0118, 0x1000, 8, 4, fun _ => 2⟩
def PRT_VCONN.ILIM : Fld := ⟨0xFC0118, 0x1000, 0, 8, fun _ => 110⟩
def PRT_VCONN.reg : Reg := ⟨0xFC0118, 0x1000, 16, 2,
  [(.rw, PRT_VCONN.TFLT), (.rw, PRT_VCONN.ILIM)]⟩

/-! PRT_CCTIM0: 04_attach.md. -/
def PRT_CCTIM0.TPDDB : Fld := ⟨0xFC0120, 0x1000, 24, 8, fun _ => 15⟩
def PRT_CCTIM0.TCCDB : Fld := ⟨0xFC0120, 0x1000, 16, 8, fun _ => 150⟩
def PRT_CCTIM0.DCSRC : Fld := ⟨0xFC0120, 0x1000, 8, 8, fun _ => 50⟩
def PRT_CCTIM0.TDRP : Fld := ⟨0xFC0120, 0x1000, 0, 8, fun _ => 75⟩
def PRT_CCTIM0.reg : Reg := ⟨0xFC0120, 0x1000, 16, 4,
  [(.rw, PRT_CCTIM0.TPDDB), (.rw, PRT_CCTIM0.TCCDB), (.rw, PRT_CCTIM0.DCSRC), (.rw, PRT_CCTIM0.TDRP)]⟩

/-! PRT_CCTIM1: 04_attach.md. -/
def PRT_CCTIM1.TERREC : Fld := ⟨0xFC0124, 0x1000, 24, 8, fun _ => 25⟩
def PRT_CCTIM1.TTRYTO : Fld := ⟨0xFC0124, 0x1000, 16, 8, fun _ => 80⟩
def PRT_CCTIM1.TDRPTRY : Fld := ⟨0xFC0124, 0x1000, 8, 8, fun _ => 100⟩
def PRT_CCTIM1.TTRYCCDB : Fld := ⟨0xFC0124, 0x1000, 0, 8, fun _ => 15⟩
def PRT_CCTIM1.reg : Reg := ⟨0xFC0124, 0x1000, 16, 4,
  [(.rw, PRT_CCTIM1.TERREC), (.rw, PRT_CCTIM1.TTRYTO), (.rw, PRT_CCTIM1.TDRPTRY), (.rw, PRT_CCTIM1.TTRYCCDB)]⟩

/-! PRT_CCTIM2: 04_attach.md. -/
def PRT_CCTIM2.TSINKTX : Fld := ⟨0xFC0128, 0x1000, 8, 8, fun _ => 16⟩
def PRT_CCTIM2.TSRCDIS : Fld := ⟨0xFC0128, 0x1000, 0, 8, fun _ => 10⟩
def PRT_CCTIM2.reg : Reg := ⟨0xFC0128, 0x1000, 16, 4,
  [(.rw, PRT_CCTIM2.TSINKTX), (.rw, PRT_CCTIM2.TSRCDIS)]⟩

/-! PRT_PDCFG: 05_pd_link.md. -/
def PRT_PDCFG.LATE : Fld := ⟨0xFC0200, 0x1000, 14, 2, fun _ => 0⟩
def PRT_PDCFG.ESC : Fld := ⟨0xFC0200, 0x1000, 13, 1, fun _ => 0⟩
def PRT_PDCFG.CBLDISC : Fld := ⟨0xFC0200, 0x1000, 12, 1, fun _ => 1⟩
def PRT_PDCFG.BISTEN : Fld := ⟨0xFC0200, 0x1000, 11, 1, fun _ => 1⟩
def PRT_PDCFG.UVDM : Fld := ⟨0xFC0200, 0x1000, 10, 1, fun _ => 0⟩
def PRT_PDCFG.REV : Fld := ⟨0xFC0200, 0x1000, 8, 2, fun _ => 2⟩
def PRT_PDCFG.PDEN : Fld := ⟨0xFC0200, 0x1000, 0, 1, fun _ => 1⟩
def PRT_PDCFG.reg : Reg := ⟨0xFC0200, 0x1000, 16, 4,
  [(.rw, PRT_PDCFG.LATE), (.rw, PRT_PDCFG.ESC), (.rw, PRT_PDCFG.CBLDISC), (.rw, PRT_PDCFG.BISTEN), (.rw, PRT_PDCFG.UVDM), (.rw, PRT_PDCFG.REV), (.rw, PRT_PDCFG.PDEN)]⟩

/-! PRT_PDST: 05_pd_link.md. -/
def PRT_PDST.TXID0 : Fld := ⟨0xFC0208, 0x1000, 29, 3, fun _ => 0⟩
def PRT_PDST.TXID1 : Fld := ⟨0xFC0208, 0x1000, 26, 3, fun _ => 0⟩
def PRT_PDST.TXID2 : Fld := ⟨0xFC0208, 0x1000, 23, 3, fun _ => 0⟩
def PRT_PDST.RXID0 : Fld := ⟨0xFC0208, 0x1000, 20, 3, fun _ => 0⟩
def PRT_PDST.RXID1 : Fld := ⟨0xFC0208, 0x1000, 17, 3, fun _ => 0⟩
def PRT_PDST.RXID2 : Fld := ⟨0xFC0208, 0x1000, 14, 3, fun _ => 0⟩
def PRT_PDST.RXVAL : Fld := ⟨0xFC0208, 0x1000, 11, 3, fun _ => 0⟩
def PRT_PDST.HELD : Fld := ⟨0xFC0208, 0x1000, 10, 1, fun _ => 0⟩
def PRT_PDST.AWAITGC : Fld := ⟨0xFC0208, 0x1000, 9, 1, fun _ => 0⟩
def PRT_PDST.AWAITRSP : Fld := ⟨0xFC0208, 0x1000, 8, 1, fun _ => 0⟩
def PRT_PDST.NEGREV : Fld := ⟨0xFC0208, 0x1000, 6, 2, fun _ => 0⟩
def PRT_PDST.CONTRACT : Fld := ⟨0xFC0208, 0x1000, 5, 1, fun _ => 0⟩
def PRT_PDST.EPR : Fld := ⟨0xFC0208, 0x1000, 4, 1, fun _ => 0⟩
def PRT_PDST.SOPPEN : Fld := ⟨0xFC0208, 0x1000, 3, 1, fun _ => 0⟩
def PRT_PDST.BIST : Fld := ⟨0xFC0208, 0x1000, 2, 1, fun _ => 0⟩
def PRT_PDST.ESCSTEP : Fld := ⟨0xFC0208, 0x1000, 0, 2, fun _ => 0⟩
def PRT_PDST.reg : Reg := ⟨0xFC0208, 0x1000, 16, 4,
  [(.ro, PRT_PDST.TXID0), (.ro, PRT_PDST.TXID1), (.ro, PRT_PDST.TXID2), (.ro, PRT_PDST.RXID0), (.ro, PRT_PDST.RXID1), (.ro, PRT_PDST.RXID2), (.ro, PRT_PDST.RXVAL), (.ro, PRT_PDST.HELD), (.ro, PRT_PDST.AWAITGC), (.ro, PRT_PDST.AWAITRSP), (.ro, PRT_PDST.NEGREV), (.ro, PRT_PDST.CONTRACT), (.ro, PRT_PDST.EPR), (.ro, PRT_PDST.SOPPEN), (.ro, PRT_PDST.BIST), (.ro, PRT_PDST.ESCSTEP)]⟩

/-! PRT_PDEV: 05_pd_link.md. -/
def PRT_PDEV.BISTEV : Fld := ⟨0xFC020C, 0x1000, 12, 1, fun _ => 0⟩
def PRT_PDEV.CABLE : Fld := ⟨0xFC020C, 0x1000, 11, 1, fun _ => 0⟩
def PRT_PDEV.OVFL : Fld := ⟨0xFC020C, 0x1000, 10, 1, fun _ => 0⟩
def PRT_PDEV.DUP : Fld := ⟨0xFC020C, 0x1000, 9, 1, fun _ => 0⟩
def PRT_PDEV.DBGSOP : Fld := ⟨0xFC020C, 0x1000, 8, 1, fun _ => 0⟩
def PRT_PDEV.HELD : Fld := ⟨0xFC020C, 0x1000, 7, 1, fun _ => 0⟩
def PRT_PDEV.HRST : Fld := ⟨0xFC020C, 0x1000, 6, 1, fun _ => 0⟩
def PRT_PDEV.SRST : Fld := ⟨0xFC020C, 0x1000, 5, 1, fun _ => 0⟩
def PRT_PDEV.SRTO : Fld := ⟨0xFC020C, 0x1000, 4, 1, fun _ => 0⟩
def PRT_PDEV.TXERR : Fld := ⟨0xFC020C, 0x1000, 3, 1, fun _ => 0⟩
def PRT_PDEV.SUPSD : Fld := ⟨0xFC020C, 0x1000, 2, 1, fun _ => 0⟩
def PRT_PDEV.ANSLATE : Fld := ⟨0xFC020C, 0x1000, 1, 1, fun _ => 0⟩
def PRT_PDEV.RAISED : Fld := ⟨0xFC020C, 0x1000, 0, 1, fun _ => 0⟩
def PRT_PDEV.reg : Reg := ⟨0xFC020C, 0x1000, 16, 2,
  [(.w1c, PRT_PDEV.BISTEV), (.w1c, PRT_PDEV.CABLE), (.w1c, PRT_PDEV.OVFL), (.w1c, PRT_PDEV.DUP), (.w1c, PRT_PDEV.DBGSOP), (.w1c, PRT_PDEV.HELD), (.w1c, PRT_PDEV.HRST), (.w1c, PRT_PDEV.SRST), (.w1c, PRT_PDEV.SRTO), (.w1c, PRT_PDEV.TXERR), (.w1c, PRT_PDEV.SUPSD), (.w1c, PRT_PDEV.ANSLATE), (.w1c, PRT_PDEV.RAISED)]⟩

/-! PRT_PDCBL: 05_pd_link.md. -/
def PRT_PDCBL.VALID : Fld := ⟨0xFC0210, 0x1000, 31, 1, fun _ => 0⟩
def PRT_PDCBL.EPRCAP : Fld := ⟨0xFC0210, 0x1000, 30, 1, fun _ => 0⟩
def PRT_PDCBL.IMAX : Fld := ⟨0xFC0210, 0x1000, 28, 2, fun _ => 1⟩
def PRT_PDCBL.VMAX : Fld := ⟨0xFC0210, 0x1000, 26, 2, fun _ => 0⟩
def PRT_PDCBL.ACTIVE : Fld := ⟨0xFC0210, 0x1000, 25, 1, fun _ => 0⟩
def PRT_PDCBL.ATTEMPTS : Fld := ⟨0xFC0210, 0x1000, 20, 5, fun _ => 0⟩
def PRT_PDCBL.reg : Reg := ⟨0xFC0210, 0x1000, 16, 4,
  [(.ro, PRT_PDCBL.VALID), (.ro, PRT_PDCBL.EPRCAP), (.ro, PRT_PDCBL.IMAX), (.ro, PRT_PDCBL.VMAX), (.ro, PRT_PDCBL.ACTIVE), (.ro, PRT_PDCBL.ATTEMPTS)]⟩

/-! PRT_PDTIM: 05_pd_link.md. -/
def PRT_PDTIM.STATE (k : Nat) : Fld := ⟨0xFC0280 + 4 * k, 0x1000, 30, 2, fun _ => 0⟩
def PRT_PDTIM.LOAD (k : Nat) : Fld := ⟨0xFC0280 + 4 * k, 0x1000, 0, 24, fun _ => ([125, 3500, 1878, 3375, 3375, 18750, 58125, 62500, 115625, 625000, 550, 5625, 3375, 5625, 5625, 62500, 46875, 109375, 1000000, 1687500].getD k 0)⟩
def PRT_PDTIM.reg (k : Nat) : Reg := ⟨0xFC0280 + 4 * k, 0x1000, 16, 4,
  [(.ro, PRT_PDTIM.STATE k), (if k = 2 then .ro else .rw, PRT_PDTIM.LOAD k)]⟩

/-! PRT_PDRT: 05_pd_link.md. -/
def PRT_PDRT.VMAX (e : Nat) : Fld := ⟨0xFC0300 + 8 * e, 0x1000, 48, 16, fun _ => 0⟩
def PRT_PDRT.IMAX (e : Nat) : Fld := ⟨0xFC0300 + 8 * e, 0x1000, 32, 16, fun _ => 0⟩
def PRT_PDRT.REPLY (e : Nat) : Fld := ⟨0xFC0300 + 8 * e, 0x1000, 24, 8, fun _ => 0⟩
def PRT_PDRT.COND (e : Nat) : Fld := ⟨0xFC0300 + 8 * e, 0x1000, 16, 8, fun _ => 0⟩
def PRT_PDRT.POS (e : Nat) : Fld := ⟨0xFC0300 + 8 * e, 0x1000, 8, 8, fun _ => 0⟩
def PRT_PDRT.KIND (e : Nat) : Fld := ⟨0xFC0300 + 8 * e, 0x1000, 0, 8, fun _ => 0⟩
def PRT_PDRT.reg (e : Nat) : Reg := ⟨0xFC0300 + 8 * e, 0x1000, 16, 8,
  [(.ro, PRT_PDRT.VMAX e), (.ro, PRT_PDRT.IMAX e), (.ro, PRT_PDRT.REPLY e), (.ro, PRT_PDRT.COND e), (.ro, PRT_PDRT.POS e), (.ro, PRT_PDRT.KIND e)]⟩

/-! PRT_ROLE: 06_roles_and_swaps.md. -/
def PRT_ROLE.FRSARM : Fld := ⟨0xFC0380, 0x1000, 11, 1, fun _ => 0⟩
def PRT_ROLE.SWSTEP : Fld := ⟨0xFC0380, 0x1000, 8, 3, fun _ => 0⟩
def PRT_ROLE.SWAP : Fld := ⟨0xFC0380, 0x1000, 5, 3, fun _ => 0⟩
def PRT_ROLE.BASEPWR : Fld := ⟨0xFC0380, 0x1000, 4, 1, fun _ => 0⟩
def PRT_ROLE.VCSRC : Fld := ⟨0xFC0380, 0x1000, 2, 1, fun _ => 0⟩
def PRT_ROLE.DATA : Fld := ⟨0xFC0380, 0x1000, 1, 1, fun _ => 0⟩
def PRT_ROLE.PWR : Fld := ⟨0xFC0380, 0x1000, 0, 1, fun _ => 0⟩
def PRT_ROLE.reg : Reg := ⟨0xFC0380, 0x1000, 16, 2,
  [(.ro, PRT_ROLE.FRSARM), (.ro, PRT_ROLE.SWSTEP), (.ro, PRT_ROLE.SWAP), (.ro, PRT_ROLE.BASEPWR), (.ro, PRT_ROLE.VCSRC), (.ro, PRT_ROLE.DATA), (.ro, PRT_ROLE.PWR)]⟩

/-! PRT_SWCFG: 06_roles_and_swaps.md. -/
def PRT_SWCFG.PPSCL : Fld := ⟨0xFC0384, 0x1000, 4, 1, fun _ => 1⟩
def PRT_SWCFG.FRSGEN : Fld := ⟨0xFC0384, 0x1000, 3, 1, fun _ => 0⟩
def PRT_SWCFG.FRSEN : Fld := ⟨0xFC0384, 0x1000, 2, 1, fun _ => 0⟩
def PRT_SWCFG.COLL : Fld := ⟨0xFC0384, 0x1000, 0, 2, fun _ => 0⟩
def PRT_SWCFG.reg : Reg := ⟨0xFC0384, 0x1000, 16, 2,
  [(.rw, PRT_SWCFG.PPSCL), (.rw, PRT_SWCFG.FRSGEN), (.rw, PRT_SWCFG.FRSEN), (.rw, PRT_SWCFG.COLL)]⟩

/-! PRT_CONTRACT: 06_roles_and_swaps.md. -/
def PRT_CONTRACT.TYPE : Fld := ⟨0xFC0388, 0x1000, 29, 3, fun _ => 0⟩
def PRT_CONTRACT.POS : Fld := ⟨0xFC0388, 0x1000, 25, 4, fun _ => 0⟩
def PRT_CONTRACT.VOLT : Fld := ⟨0xFC0388, 0x1000, 13, 12, fun _ => 0⟩
def PRT_CONTRACT.CUR : Fld := ⟨0xFC0388, 0x1000, 3, 10, fun _ => 0⟩
def PRT_CONTRACT.CL : Fld := ⟨0xFC0388, 0x1000, 0, 1, fun _ => 0⟩
def PRT_CONTRACT.reg : Reg := ⟨0xFC0388, 0x1000, 16, 4,
  [(.ro, PRT_CONTRACT.TYPE), (.ro, PRT_CONTRACT.POS), (.ro, PRT_CONTRACT.VOLT), (.ro, PRT_CONTRACT.CUR), (.ro, PRT_CONTRACT.CL)]⟩

/-! PRT_SWEV: 06_roles_and_swaps.md. -/
def PRT_SWEV.TRTO : Fld := ⟨0xFC038C, 0x1000, 8, 1, fun _ => 0⟩
def PRT_SWEV.FRSDET : Fld := ⟨0xFC038C, 0x1000, 7, 1, fun _ => 0⟩
def PRT_SWEV.EPRX : Fld := ⟨0xFC038C, 0x1000, 6, 1, fun _ => 0⟩
def PRT_SWEV.CONTRACT : Fld := ⟨0xFC038C, 0x1000, 5, 1, fun _ => 0⟩
def PRT_SWEV.HRSW : Fld := ⟨0xFC038C, 0x1000, 4, 1, fun _ => 0⟩
def PRT_SWEV.INTR : Fld := ⟨0xFC038C, 0x1000, 3, 1, fun _ => 0⟩
def PRT_SWEV.COLL : Fld := ⟨0xFC038C, 0x1000, 2, 1, fun _ => 0⟩
def PRT_SWEV.FAIL : Fld := ⟨0xFC038C, 0x1000, 1, 1, fun _ => 0⟩
def PRT_SWEV.DONE : Fld := ⟨0xFC038C, 0x1000, 0, 1, fun _ => 0⟩
def PRT_SWEV.reg : Reg := ⟨0xFC038C, 0x1000, 16, 2,
  [(.w1c, PRT_SWEV.TRTO), (.w1c, PRT_SWEV.FRSDET), (.w1c, PRT_SWEV.EPRX), (.w1c, PRT_SWEV.CONTRACT), (.w1c, PRT_SWEV.HRSW), (.w1c, PRT_SWEV.INTR), (.w1c, PRT_SWEV.COLL), (.w1c, PRT_SWEV.FAIL), (.w1c, PRT_SWEV.DONE)]⟩

/-! PRT_SWTIM0: 06_roles_and_swaps.md. -/
def PRT_SWTIM0.TSRCRDY : Fld := ⟨0xFC0390, 0x1000, 16, 16, fun _ => 285⟩
def PRT_SWTIM0.TSRCTR : Fld := ⟨0xFC0390, 0x1000, 0, 16, fun _ => 30⟩
def PRT_SWTIM0.reg : Reg := ⟨0xFC0390, 0x1000, 16, 4,
  [(.rw, PRT_SWTIM0.TSRCRDY), (.rw, PRT_SWTIM0.TSRCTR)]⟩

/-! PRT_SWTIM1: 06_roles_and_swaps.md. -/
def PRT_SWTIM1.TSRCREC : Fld := ⟨0xFC0394, 0x1000, 16, 16, fun _ => 800⟩
def PRT_SWTIM1.TPSHR : Fld := ⟨0xFC0394, 0x1000, 0, 16, fun _ => 30⟩
def PRT_SWTIM1.reg : Reg := ⟨0xFC0394, 0x1000, 16, 4,
  [(.rw, PRT_SWTIM1.TSRCREC), (.rw, PRT_SWTIM1.TPSHR)]⟩

/-! PRT_SWTIM2: 06_roles_and_swaps.md. -/
def PRT_SWTIM2.PSON : Fld := ⟨0xFC0398, 0x1000, 16, 16, fun _ => 435⟩
def PRT_SWTIM2.PSOFF : Fld := ⟨0xFC0398, 0x1000, 0, 16, fun _ => 835⟩
def PRT_SWTIM2.reg : Reg := ⟨0xFC0398, 0x1000, 16, 4,
  [(.rw, PRT_SWTIM2.PSON), (.rw, PRT_SWTIM2.PSOFF)]⟩

/-! PRT_SWTIM3: 06_roles_and_swaps.md. -/
def PRT_SWTIM3.TVCONNON : Fld := ⟨0xFC039C, 0x1000, 16, 16, fun _ => 10⟩
def PRT_SWTIM3.VCONNTO : Fld := ⟨0xFC039C, 0x1000, 0, 16, fun _ => 150⟩
def PRT_SWTIM3.reg : Reg := ⟨0xFC039C, 0x1000, 16, 4,
  [(.rw, PRT_SWTIM3.TVCONNON), (.rw, PRT_SWTIM3.VCONNTO)]⟩

/-! PRT_PWRCFG: 07_power_path.md. -/
def PRT_PWRCFG.MARGIN : Fld := ⟨0xFC0400, 0x1000, 24, 8, fun _ => 32⟩
def PRT_PWRCFG.HTRATIO : Fld := ⟨0xFC0400, 0x1000, 18, 6, fun _ => 16⟩
def PRT_PWRCFG.AUTORETRY : Fld := ⟨0xFC0400, 0x1000, 17, 1, fun _ => 1⟩
def PRT_PWRCFG.FORM : Fld := ⟨0xFC0400, 0x1000, 16, 1, fun _ => 0⟩
def PRT_PWRCFG.FWD : Fld := ⟨0xFC0400, 0x1000, 12, 4, fun _ => 2⟩
def PRT_PWRCFG.SHUNT : Fld := ⟨0xFC0400, 0x1000, 0, 12, fun _ => 500⟩
def PRT_PWRCFG.reg : Reg := ⟨0xFC0400, 0x1000, 16, 4,
  [(.rw, PRT_PWRCFG.MARGIN), (.rw, PRT_PWRCFG.HTRATIO), (.rw, PRT_PWRCFG.AUTORETRY), (.rw, PRT_PWRCFG.FORM), (.rw, PRT_PWRCFG.FWD), (.rw, PRT_PWRCFG.SHUNT)]⟩

/-! PRT_PWRCTL: 07_power_path.md. -/
def PRT_PWRCTL.FRSPRE : Fld := ⟨0xFC0404, 0x1000, 3, 1, fun _ => 0⟩
def PRT_PWRCTL.DISON : Fld := ⟨0xFC0404, 0x1000, 2, 1, fun _ => 0⟩
def PRT_PWRCTL.REQ : Fld := ⟨0xFC0404, 0x1000, 0, 2, fun _ => 0⟩
def PRT_PWRCTL.reg : Reg := ⟨0xFC0404, 0x1000, 16, 2,
  [(.rw, PRT_PWRCTL.FRSPRE), (.rw, PRT_PWRCTL.DISON), (.rw, PRT_PWRCTL.REQ)]⟩

/-! PRT_PWRST: 07_power_path.md. -/
def PRT_PWRST.TRIP : Fld := ⟨0xFC0408, 0x1000, 13, 3, fun _ => 0⟩
def PRT_PWRST.DEFER : Fld := ⟨0xFC0408, 0x1000, 12, 1, fun _ => 0⟩
def PRT_PWRST.DIS : Fld := ⟨0xFC0408, 0x1000, 11, 1, fun _ => 0⟩
def PRT_PWRST.GATEOK : Fld := ⟨0xFC0408, 0x1000, 10, 1, fun _ => 0⟩
def PRT_PWRST.LIMIT : Fld := ⟨0xFC0408, 0x1000, 9, 1, fun _ => 0⟩
def PRT_PWRST.MODE : Fld := ⟨0xFC0408, 0x1000, 8, 1, fun _ => 0⟩
def PRT_PWRST.PG : Fld := ⟨0xFC0408, 0x1000, 7, 1, fun _ => 0⟩
def PRT_PWRST.PGCNT : Fld := ⟨0xFC0408, 0x1000, 4, 3, fun _ => 0⟩
def PRT_PWRST.STATE : Fld := ⟨0xFC0408, 0x1000, 0, 3, fun _ => 6⟩
def PRT_PWRST.reg : Reg := ⟨0xFC0408, 0x1000, 16, 2,
  [(.ro, PRT_PWRST.TRIP), (.ro, PRT_PWRST.DEFER), (.ro, PRT_PWRST.DIS), (.ro, PRT_PWRST.GATEOK), (.ro, PRT_PWRST.LIMIT), (.ro, PRT_PWRST.MODE), (.ro, PRT_PWRST.PG), (.ro, PRT_PWRST.PGCNT), (.ro, PRT_PWRST.STATE)]⟩

/-! PRT_PWREV: 07_power_path.md. -/
def PRT_PWREV.REGWARN : Fld := ⟨0xFC040C, 0x1000, 12, 1, fun _ => 0⟩
def PRT_PWREV.OTEMP : Fld := ⟨0xFC040C, 0x1000, 11, 1, fun _ => 0⟩
def PRT_PWREV.REGNR : Fld := ⟨0xFC040C, 0x1000, 10, 1, fun _ => 0⟩
def PRT_PWREV.REGFLT : Fld := ⟨0xFC040C, 0x1000, 9, 1, fun _ => 0⟩
def PRT_PWREV.GSTUCK : Fld := ⟨0xFC040C, 0x1000, 8, 1, fun _ => 0⟩
def PRT_PWREV.GWR : Fld := ⟨0xFC040C, 0x1000, 7, 1, fun _ => 0⟩
def PRT_PWREV.DISTO : Fld := ⟨0xFC040C, 0x1000, 6, 1, fun _ => 0⟩
def PRT_PWREV.STALE : Fld := ⟨0xFC040C, 0x1000, 5, 1, fun _ => 0⟩
def PRT_PWREV.REVBLK : Fld := ⟨0xFC040C, 0x1000, 4, 1, fun _ => 0⟩
def PRT_PWREV.LIMIN : Fld := ⟨0xFC040C, 0x1000, 3, 1, fun _ => 0⟩
def PRT_PWREV.PGCHG : Fld := ⟨0xFC040C, 0x1000, 2, 1, fun _ => 0⟩
def PRT_PWREV.TRIP : Fld := ⟨0xFC040C, 0x1000, 1, 1, fun _ => 0⟩
def PRT_PWREV.STCHG : Fld := ⟨0xFC040C, 0x1000, 0, 1, fun _ => 0⟩
def PRT_PWREV.reg : Reg := ⟨0xFC040C, 0x1000, 16, 2,
  [(.w1c, PRT_PWREV.REGWARN), (.w1c, PRT_PWREV.OTEMP), (.w1c, PRT_PWREV.REGNR), (.w1c, PRT_PWREV.REGFLT), (.w1c, PRT_PWREV.GSTUCK), (.w1c, PRT_PWREV.GWR), (.w1c, PRT_PWREV.DISTO), (.w1c, PRT_PWREV.STALE), (.w1c, PRT_PWREV.REVBLK), (.w1c, PRT_PWREV.LIMIN), (.w1c, PRT_PWREV.PGCHG), (.w1c, PRT_PWREV.TRIP), (.w1c, PRT_PWREV.STCHG)]⟩

/-! PRT_GATE: 07_power_path.md. -/
def PRT_GATE.TRISE : Fld := ⟨0xFC0410, 0x1000, 8, 5, fun _ => 2⟩
def PRT_GATE.IRAMP : Fld := ⟨0xFC0410, 0x1000, 0, 7, fun _ => 10⟩
def PRT_GATE.reg : Reg := ⟨0xFC0410, 0x1000, 16, 2,
  [(.rw, PRT_GATE.TRISE), (.rw, PRT_GATE.IRAMP)]⟩

/-! PRT_ILIM: 07_power_path.md. -/
def PRT_ILIM.AUTO : Fld := ⟨0xFC0414, 0x1000, 31, 1, fun _ => 1⟩
def PRT_ILIM.LIM : Fld := ⟨0xFC0414, 0x1000, 16, 10, fun _ => 0⟩
def PRT_ILIM.reg : Reg := ⟨0xFC0414, 0x1000, 16, 4,
  [(.rw, PRT_ILIM.AUTO), (.rw, PRT_ILIM.LIM)]⟩

/-! PRT_BRKTIM: 07_power_path.md. -/
def PRT_BRKTIM.LIMCAP : Fld := ⟨0xFC0418, 0x1000, 16, 16, fun _ => 12500⟩
def PRT_BRKTIM.TFIX : Fld := ⟨0xFC0418, 0x1000, 0, 16, fun _ => 1000⟩
def PRT_BRKTIM.reg : Reg := ⟨0xFC0418, 0x1000, 16, 4,
  [(.rw, PRT_BRKTIM.LIMCAP), (.rw, PRT_BRKTIM.TFIX)]⟩

/-! PRT_PWRTIM: 07_power_path.md. -/
def PRT_PWRTIM.TOFFMIN : Fld := ⟨0xFC0438, 0x1000, 24, 8, fun _ => 20⟩
def PRT_PWRTIM.TDIS : Fld := ⟨0xFC0438, 0x1000, 12, 12, fun _ => 650⟩
def PRT_PWRTIM.TQUIET : Fld := ⟨0xFC0438, 0x1000, 0, 12, fun _ => 100⟩
def PRT_PWRTIM.reg : Reg := ⟨0xFC0438, 0x1000, 16, 4,
  [(.rw, PRT_PWRTIM.TOFFMIN), (.rw, PRT_PWRTIM.TDIS), (.rw, PRT_PWRTIM.TQUIET)]⟩

/-! PRT_EACC: 07_power_path.md. -/
def PRT_EACC.SUM : Fld := ⟨0xFC0420, 0x1000, 0, 32, fun _ => 0⟩
def PRT_EACC.reg : Reg := ⟨0xFC0420, 0x1000, 16, 4,
  [(.ro, PRT_EACC.SUM)]⟩

/-! PRT_ELAST: 07_power_path.md. -/
def PRT_ELAST.SUM : Fld := ⟨0xFC0424, 0x1000, 0, 32, fun _ => 0⟩
def PRT_ELAST.reg : Reg := ⟨0xFC0424, 0x1000, 16, 4,
  [(.ro, PRT_ELAST.SUM)]⟩

/-! PRT_EHEAD: 07_power_path.md. -/
def PRT_EHEAD.HEAD : Fld := ⟨0xFC0428, 0x1000, 0, 32, fun _ => 0⟩
def PRT_EHEAD.reg : Reg := ⟨0xFC0428, 0x1000, 16, 4,
  [(.rw, PRT_EHEAD.HEAD)]⟩

/-! PRT_ESTALE: 07_power_path.md. -/
def PRT_ESTALE.HEAD : Fld := ⟨0xFC042C, 0x1000, 0, 32, fun _ => 0⟩
def PRT_ESTALE.reg : Reg := ⟨0xFC042C, 0x1000, 16, 4,
  [(.rw, PRT_ESTALE.HEAD)]⟩

/-! PRT_VWIN: 07_power_path.md. -/
def PRT_VWIN.WHI : Fld := ⟨0xFC0430, 0x1000, 16, 13, fun _ => 550⟩
def PRT_VWIN.WLO : Fld := ⟨0xFC0430, 0x1000, 0, 13, fun _ => 475⟩
def PRT_VWIN.reg : Reg := ⟨0xFC0430, 0x1000, 16, 4,
  [(.rw, PRT_VWIN.WHI), (.rw, PRT_VWIN.WLO)]⟩

/-! PRT_VMARG: 07_power_path.md. -/
def PRT_VMARG.OVM : Fld := ⟨0xFC0434, 0x1000, 8, 8, fun _ => 100⟩
def PRT_VMARG.UVM : Fld := ⟨0xFC0434, 0x1000, 0, 8, fun _ => 50⟩
def PRT_VMARG.reg : Reg := ⟨0xFC0434, 0x1000, 16, 2,
  [(.rw, PRT_VMARG.OVM), (.rw, PRT_VMARG.UVM)]⟩

/-! PRT_REG: 07_power_path.md. -/
def PRT_REG.EXP : Fld := ⟨0xFC0440, 0x1000, 27, 5, fun _ => 0⟩
def PRT_REG.FAILS : Fld := ⟨0xFC0440, 0x1000, 24, 3, fun _ => 0⟩
def PRT_REG.OFFS : Fld := ⟨0xFC0440, 0x1000, 16, 8, fun _ => 0⟩
def PRT_REG.RATE : Fld := ⟨0xFC0440, 0x1000, 0, 16, fun _ => 0⟩
def PRT_REG.reg : Reg := ⟨0xFC0440, 0x1000, 16, 4,
  [(.ro, PRT_REG.EXP), (.ro, PRT_REG.FAILS), (.rw, PRT_REG.OFFS), (.rw, PRT_REG.RATE)]⟩

/-! PRT_REGSTAT: 07_power_path.md. -/
def PRT_REGSTAT.STATUS : Fld := ⟨0xFC0444, 0x1000, 0, 16, fun _ => 0⟩
def PRT_REGSTAT.reg : Reg := ⟨0xFC0444, 0x1000, 16, 2,
  [(.ro, PRT_REGSTAT.STATUS)]⟩

/-! PRT_FRS: 07_power_path.md. -/
def PRT_FRS.VPRE : Fld := ⟨0xFC0448, 0x1000, 0, 10, fun _ => 490⟩
def PRT_FRS.reg : Reg := ⟨0xFC0448, 0x1000, 16, 2,
  [(.rw, PRT_FRS.VPRE)]⟩

/-! QD_JCFG: 07_power_path.md. -/
def QD_JCFG.BUSUV : Fld := ⟨0xFD0000, 0x1000, 24, 8, fun _ => 180⟩
def QD_JCFG.FMIN : Fld := ⟨0xFD0000, 0x1000, 16, 8, fun _ => 160⟩
def QD_JCFG.SEG : Fld := ⟨0xFD0000, 0x1000, 8, 1, fun q => if q < 2 then 0 else 1⟩
def QD_JCFG.PREF : Fld := ⟨0xFD0000, 0x1000, 0, 2, fun _ => 0⟩
def QD_JCFG.reg : Reg := ⟨0xFD0000, 0x1000, 4, 4,
  [(.rw, QD_JCFG.BUSUV), (.rw, QD_JCFG.FMIN), (.rw, QD_JCFG.SEG), (.rw, QD_JCFG.PREF)]⟩

/-! QD_JST: 07_power_path.md. -/
def QD_JST.BUSUV : Fld := ⟨0xFD0004, 0x1000, 5, 1, fun _ => 0⟩
def QD_JST.FBPRES : Fld := ⟨0xFD0004, 0x1000, 4, 1, fun _ => 0⟩
def QD_JST.FAPRES : Fld := ⟨0xFD0004, 0x1000, 3, 1, fun _ => 0⟩
def QD_JST.RTON : Fld := ⟨0xFD0004, 0x1000, 2, 1, fun _ => 0⟩
def QD_JST.FBON : Fld := ⟨0xFD0004, 0x1000, 1, 1, fun _ => 0⟩
def QD_JST.FAON : Fld := ⟨0xFD0004, 0x1000, 0, 1, fun _ => 0⟩
def QD_JST.reg : Reg := ⟨0xFD0004, 0x1000, 4, 2,
  [(.ro, QD_JST.BUSUV), (.ro, QD_JST.FBPRES), (.ro, QD_JST.FAPRES), (.ro, QD_JST.RTON), (.ro, QD_JST.FBON), (.ro, QD_JST.FAON)]⟩

/-! QD_JEV: 07_power_path.md. -/
def QD_JEV.REV : Fld := ⟨0xFD0008, 0x1000, 4, 1, fun _ => 0⟩
def QD_JEV.BUSUV : Fld := ⟨0xFD0008, 0x1000, 3, 1, fun _ => 0⟩
def QD_JEV.FBLOST : Fld := ⟨0xFD0008, 0x1000, 2, 1, fun _ => 0⟩
def QD_JEV.FALOST : Fld := ⟨0xFD0008, 0x1000, 1, 1, fun _ => 0⟩
def QD_JEV.FRET : Fld := ⟨0xFD0008, 0x1000, 0, 1, fun _ => 0⟩
def QD_JEV.reg : Reg := ⟨0xFD0008, 0x1000, 4, 2,
  [(.w1c, QD_JEV.REV), (.w1c, QD_JEV.BUSUV), (.w1c, QD_JEV.FBLOST), (.w1c, QD_JEV.FALOST), (.w1c, QD_JEV.FRET)]⟩

/-! PRT_RISNS: 08_sensing.md. -/
def PRT_RISNS.EDDY : Fld := ⟨0xFC0500, 0x1000, 15, 1, fun _ => 0⟩
def PRT_RISNS.SAT : Fld := ⟨0xFC0500, 0x1000, 14, 1, fun _ => 0⟩
def PRT_RISNS.CODE : Fld := ⟨0xFC0500, 0x1000, 0, 12, fun _ => 0⟩
def PRT_RISNS.reg : Reg := ⟨0xFC0500, 0x1000, 16, 2,
  [(.ro, PRT_RISNS.EDDY), (.ro, PRT_RISNS.SAT), (.ro, PRT_RISNS.CODE)]⟩

/-! PRT_RVBUS: 08_sensing.md. -/
def PRT_RVBUS.EDDY : Fld := ⟨0xFC0502, 0x1000, 15, 1, fun _ => 0⟩
def PRT_RVBUS.SAT : Fld := ⟨0xFC0502, 0x1000, 14, 1, fun _ => 0⟩
def PRT_RVBUS.CODE : Fld := ⟨0xFC0502, 0x1000, 0, 12, fun _ => 0⟩
def PRT_RVBUS.reg : Reg := ⟨0xFC0502, 0x1000, 16, 2,
  [(.ro, PRT_RVBUS.EDDY), (.ro, PRT_RVBUS.SAT), (.ro, PRT_RVBUS.CODE)]⟩

/-! PRT_RRAIL: 08_sensing.md. -/
def PRT_RRAIL.EDDY : Fld := ⟨0xFC0504, 0x1000, 15, 1, fun _ => 0⟩
def PRT_RRAIL.SAT : Fld := ⟨0xFC0504, 0x1000, 14, 1, fun _ => 0⟩
def PRT_RRAIL.CODE : Fld := ⟨0xFC0504, 0x1000, 0, 12, fun _ => 0⟩
def PRT_RRAIL.reg : Reg := ⟨0xFC0504, 0x1000, 16, 2,
  [(.ro, PRT_RRAIL.EDDY), (.ro, PRT_RRAIL.SAT), (.ro, PRT_RRAIL.CODE)]⟩

/-! PRT_RIMEAN: 08_sensing.md. -/
def PRT_RIMEAN.EDDY : Fld := ⟨0xFC0506, 0x1000, 15, 1, fun _ => 0⟩
def PRT_RIMEAN.SAT : Fld := ⟨0xFC0506, 0x1000, 14, 1, fun _ => 0⟩
def PRT_RIMEAN.CODE : Fld := ⟨0xFC0506, 0x1000, 0, 12, fun _ => 0⟩
def PRT_RIMEAN.reg : Reg := ⟨0xFC0506, 0x1000, 16, 2,
  [(.ro, PRT_RIMEAN.EDDY), (.ro, PRT_RIMEAN.SAT), (.ro, PRT_RIMEAN.CODE)]⟩

/-! PRT_RAUX: 08_sensing.md. -/
def PRT_RAUX.EDDY (j : Nat) : Fld := ⟨0xFC0510 + 2 * j, 0x1000, 15, 1, fun _ => 0⟩
def PRT_RAUX.SAT (j : Nat) : Fld := ⟨0xFC0510 + 2 * j, 0x1000, 14, 1, fun _ => 0⟩
def PRT_RAUX.CODE (j : Nat) : Fld := ⟨0xFC0510 + 2 * j, 0x1000, 0, 12, fun _ => 0⟩
def PRT_RAUX.reg (j : Nat) : Reg := ⟨0xFC0510 + 2 * j, 0x1000, 16, 2,
  [(.ro, PRT_RAUX.EDDY j), (.ro, PRT_RAUX.SAT j), (.ro, PRT_RAUX.CODE j)]⟩

/-! PRT_ADCTRIM: 08_sensing.md. -/
def PRT_ADCTRIM.GAIN (g : Nat) : Fld := ⟨0xFC0520 + 4 * g, 0x1000, 16, 16, fun _ => 0⟩
def PRT_ADCTRIM.OFFS (g : Nat) : Fld := ⟨0xFC0520 + 4 * g, 0x1000, 0, 16, fun _ => 0⟩
def PRT_ADCTRIM.reg (g : Nat) : Reg := ⟨0xFC0520 + 4 * g, 0x1000, 16, 4,
  [(.rw, PRT_ADCTRIM.GAIN g), (.rw, PRT_ADCTRIM.OFFS g)]⟩

/-! PRT_NTC: 08_sensing.md. -/
def PRT_NTC.TFAIL : Fld := ⟨0xFC0530, 0x1000, 3, 8, fun _ => 100⟩
def PRT_NTC.IBIAS : Fld := ⟨0xFC0530, 0x1000, 0, 3, fun _ => 3⟩
def PRT_NTC.reg : Reg := ⟨0xFC0530, 0x1000, 16, 2,
  [(.rw, PRT_NTC.TFAIL), (.rw, PRT_NTC.IBIAS)]⟩

/-! PRT_CHKREF: 08_sensing.md. -/
def PRT_CHKREF.TOL : Fld := ⟨0xFC0532, 0x1000, 12, 4, fun _ => 8⟩
def PRT_CHKREF.NOM : Fld := ⟨0xFC0532, 0x1000, 0, 12, fun _ => 1638⟩
def PRT_CHKREF.reg : Reg := ⟨0xFC0532, 0x1000, 16, 2,
  [(.rw, PRT_CHKREF.TOL), (.rw, PRT_CHKREF.NOM)]⟩

/-! PRT_CALST: 08_sensing.md. -/
def PRT_CALST.DONE : Fld := ⟨0xFC0534, 0x1000, 31, 1, fun _ => 0⟩
def PRT_CALST.REJ : Fld := ⟨0xFC0534, 0x1000, 30, 1, fun _ => 0⟩
def PRT_CALST.ABORT : Fld := ⟨0xFC0534, 0x1000, 29, 1, fun _ => 0⟩
def PRT_CALST.GRP : Fld := ⟨0xFC0534, 0x1000, 27, 2, fun _ => 0⟩
def PRT_CALST.DGAIN : Fld := ⟨0xFC0534, 0x1000, 16, 11, fun _ => 0⟩
def PRT_CALST.DOFFS : Fld := ⟨0xFC0534, 0x1000, 0, 16, fun _ => 0⟩
def PRT_CALST.reg : Reg := ⟨0xFC0534, 0x1000, 16, 4,
  [(.w1c, PRT_CALST.DONE), (.w1c, PRT_CALST.REJ), (.w1c, PRT_CALST.ABORT), (.ro, PRT_CALST.GRP), (.ro, PRT_CALST.DGAIN), (.ro, PRT_CALST.DOFFS)]⟩

/-! PRT_CMPMODE: 08_sensing.md. -/
def PRT_CMPMODE.ACTIVE : Fld := ⟨0xFC0538, 0x1000, 2, 2, fun _ => 1⟩
def PRT_CMPMODE.MODE : Fld := ⟨0xFC0538, 0x1000, 0, 2, fun _ => 0⟩
def PRT_CMPMODE.reg : Reg := ⟨0xFC0538, 0x1000, 16, 2,
  [(.ro, PRT_CMPMODE.ACTIVE), (.rw, PRT_CMPMODE.MODE)]⟩

/-! PRT_CMPEV: 08_sensing.md. -/
def PRT_CMPEV.CHG : Fld := ⟨0xFC0540, 0x1000, 0, 9, fun _ => 0⟩
def PRT_CMPEV.reg : Reg := ⟨0xFC0540, 0x1000, 16, 2,
  [(.w1c, PRT_CMPEV.CHG)]⟩

/-! PRT_CMPST: 08_sensing.md. -/
def PRT_CMPST.INBAND5 : Fld := ⟨0xFC053C, 0x1000, 11, 1, fun _ => 0⟩
def PRT_CMPST.INBAND4 : Fld := ⟨0xFC053C, 0x1000, 10, 1, fun _ => 0⟩
def PRT_CMPST.INBAND3 : Fld := ⟨0xFC053C, 0x1000, 9, 1, fun _ => 0⟩
def PRT_CMPST.OUT : Fld := ⟨0xFC053C, 0x1000, 0, 9, fun _ => 8⟩
def PRT_CMPST.reg : Reg := ⟨0xFC053C, 0x1000, 16, 2,
  [(.ro, PRT_CMPST.INBAND5), (.ro, PRT_CMPST.INBAND4), (.ro, PRT_CMPST.INBAND3), (.ro, PRT_CMPST.OUT)]⟩

/-! PRT_CMPNOW: 08_sensing.md. -/
def PRT_CMPNOW.OUT : Fld := ⟨0xFC053E, 0x1000, 0, 9, fun _ => 8⟩
def PRT_CMPNOW.reg : Reg := ⟨0xFC053E, 0x1000, 16, 2,
  [(.ro, PRT_CMPNOW.OUT)]⟩

/-! PRT_CMP: 08_sensing.md. -/
def PRT_CMP.BLANK (c : Nat) : Fld := ⟨0xFC0544 + 4 * c, 0x1000, 24, 8, fun _ => 64⟩
def PRT_CMP.ASSUME (c : Nat) : Fld := ⟨0xFC0544 + 4 * c, 0x1000, 23, 1, fun _ => 0⟩
def PRT_CMP.HYST (c : Nat) : Fld := ⟨0xFC0544 + 4 * c, 0x1000, 16, 6, fun _ => ([8, 4, 16, 5, 5, 3, 10, 10, 10].getD c 0)⟩
def PRT_CMP.THR (c : Nat) : Fld := ⟨0xFC0544 + 4 * c, 0x1000, 0, 10, fun _ => ([0, 0, 64, 108, 61, 13, 0, 0, 168].getD c 0)⟩
def PRT_CMP.reg (c : Nat) : Reg := ⟨0xFC0544 + 4 * c, 0x1000, 16, 4,
  [(.rw, PRT_CMP.BLANK c), (.rw, PRT_CMP.ASSUME c), (.rw, PRT_CMP.HYST c), (.rw, PRT_CMP.THR c)]⟩

/-! DEV_REFST: 08_sensing.md. -/
def DEV_REFST.DIV : Fld := ⟨0xF10010, 0x0, 10, 1, fun _ => 0⟩
def DEV_REFST.DIVSTK : Fld := ⟨0xF10010, 0x0, 9, 1, fun _ => 0⟩
def DEV_REFST.REFOK : Fld := ⟨0xF10010, 0x0, 8, 1, fun _ => 0⟩
def DEV_REFST.DEVMAX : Fld := ⟨0xF10010, 0x0, 0, 8, fun _ => 0⟩
def DEV_REFST.reg : Reg := ⟨0xF10010, 0x0, 1, 2,
  [(.ro, DEV_REFST.DIV), (.w1c, DEV_REFST.DIVSTK), (.ro, DEV_REFST.REFOK), (.ro, DEV_REFST.DEVMAX)]⟩

/-! DEV_EDDY: 08_sensing.md. -/
def DEV_EDDY.TICKS : Fld := ⟨0xF10014, 0x0, 7, 7, fun _ => 0⟩
def DEV_EDDY.CHKFAIL : Fld := ⟨0xF10014, 0x0, 6, 1, fun _ => 0⟩
def DEV_EDDY.BUSY : Fld := ⟨0xF10014, 0x0, 5, 1, fun _ => 0⟩
def DEV_EDDY.START : Fld := ⟨0xF10014, 0x0, 4, 1, fun _ => 0⟩
def DEV_EDDY.PORT : Fld := ⟨0xF10014, 0x0, 0, 4, fun _ => 0⟩
def DEV_EDDY.reg : Reg := ⟨0xF10014, 0x0, 1, 2,
  [(.ro, DEV_EDDY.TICKS), (.ro, DEV_EDDY.CHKFAIL), (.ro, DEV_EDDY.BUSY), (.wo, DEV_EDDY.START), (.rw, DEV_EDDY.PORT)]⟩

/-! DEV_EDDYTRIM: 08_sensing.md. -/
def DEV_EDDYTRIM.GAIN : Fld := ⟨0xF10018, 0x0, 16, 16, fun _ => 0⟩
def DEV_EDDYTRIM.OFFS : Fld := ⟨0xF10018, 0x0, 0, 16, fun _ => 0⟩
def DEV_EDDYTRIM.reg : Reg := ⟨0xF10018, 0x0, 1, 4,
  [(.ro, DEV_EDDYTRIM.GAIN), (.ro, DEV_EDDYTRIM.OFFS)]⟩

/-! DEV_CALLIM: 08_sensing.md. -/
def DEV_CALLIM.GAINLIM : Fld := ⟨0xF1001C, 0x0, 8, 8, fun _ => 50⟩
def DEV_CALLIM.OFFLIM : Fld := ⟨0xF1001C, 0x0, 0, 8, fun _ => 8⟩
def DEV_CALLIM.reg : Reg := ⟨0xF1001C, 0x0, 1, 2,
  [(.rw, DEV_CALLIM.GAINLIM), (.rw, DEV_CALLIM.OFFLIM)]⟩

/-! PRT_MUX: 09_alternate_modes.md. -/
def PRT_MUX.FORCED : Fld := ⟨0xFC0600, 0x1000, 8, 1, fun _ => 0⟩
def PRT_MUX.LATCHED : Fld := ⟨0xFC0600, 0x1000, 4, 4, fun _ => 0⟩
def PRT_MUX.STATE : Fld := ⟨0xFC0600, 0x1000, 0, 4, fun _ => 0⟩
def PRT_MUX.reg : Reg := ⟨0xFC0600, 0x1000, 16, 2,
  [(.ro, PRT_MUX.FORCED), (.ro, PRT_MUX.LATCHED), (.rw, PRT_MUX.STATE)]⟩

/-! PRT_MUXCFG: 09_alternate_modes.md. -/
def PRT_MUXCFG.TSETTLE : Fld := ⟨0xFC0604, 0x1000, 24, 8, fun _ => 2⟩
def PRT_MUXCFG.ACCCFG : Fld := ⟨0xFC0604, 0x1000, 17, 3, fun _ => 0⟩
def PRT_MUXCFG.USBCFG : Fld := ⟨0xFC0604, 0x1000, 16, 1, fun _ => 1⟩
def PRT_MUXCFG.MAP4 : Fld := ⟨0xFC0604, 0x1000, 9, 3, fun _ => 0⟩
def PRT_MUXCFG.MAP3 : Fld := ⟨0xFC0604, 0x1000, 6, 3, fun _ => 0⟩
def PRT_MUXCFG.MAP2 : Fld := ⟨0xFC0604, 0x1000, 3, 3, fun _ => 0⟩
def PRT_MUXCFG.MAP1 : Fld := ⟨0xFC0604, 0x1000, 0, 3, fun _ => 0⟩
def PRT_MUXCFG.reg : Reg := ⟨0xFC0604, 0x1000, 16, 4,
  [(.rw, PRT_MUXCFG.TSETTLE), (.rw, PRT_MUXCFG.ACCCFG), (.rw, PRT_MUXCFG.USBCFG), (.rw, PRT_MUXCFG.MAP4), (.rw, PRT_MUXCFG.MAP3), (.rw, PRT_MUXCFG.MAP2), (.rw, PRT_MUXCFG.MAP1)]⟩

/-! PRT_MODEST: 09_alternate_modes.md. -/
def PRT_MODEST.HOLD : Fld := ⟨0xFC0608, 0x1000, 4, 2, fun _ => 0⟩
def PRT_MODEST.ENTERED : Fld := ⟨0xFC0608, 0x1000, 3, 1, fun _ => 0⟩
def PRT_MODEST.POS : Fld := ⟨0xFC0608, 0x1000, 0, 3, fun _ => 0⟩
def PRT_MODEST.reg : Reg := ⟨0xFC0608, 0x1000, 16, 2,
  [(.ro, PRT_MODEST.HOLD), (.ro, PRT_MODEST.ENTERED), (.ro, PRT_MODEST.POS)]⟩

/-! PRT_MODEEV: 09_alternate_modes.md. -/
def PRT_MODEEV.LOST : Fld := ⟨0xFC060A, 0x1000, 3, 1, fun _ => 0⟩
def PRT_MODEEV.FAIL : Fld := ⟨0xFC060A, 0x1000, 2, 1, fun _ => 0⟩
def PRT_MODEEV.EXIT : Fld := ⟨0xFC060A, 0x1000, 1, 1, fun _ => 0⟩
def PRT_MODEEV.ENTER : Fld := ⟨0xFC060A, 0x1000, 0, 1, fun _ => 0⟩
def PRT_MODEEV.reg : Reg := ⟨0xFC060A, 0x1000, 16, 2,
  [(.w1c, PRT_MODEEV.LOST), (.w1c, PRT_MODEEV.FAIL), (.w1c, PRT_MODEEV.EXIT), (.w1c, PRT_MODEEV.ENTER)]⟩

/-! DEV_SVID: 09_alternate_modes.md. -/
def DEV_SVID.SVID : Fld := ⟨0xF10020, 0x0, 0, 16, fun _ => 0⟩
def DEV_SVID.reg : Reg := ⟨0xF10020, 0x0, 1, 2,
  [(.ro, DEV_SVID.SVID)]⟩

/-! PAIR_ST: 10_twin_pair.md. -/
def PAIR_ST.OWN : Fld := ⟨0xF20000, 0x0, 16, 16, fun _ => 0⟩
def PAIR_ST.TWINPWR : Fld := ⟨0xF20000, 0x0, 15, 1, fun _ => 0⟩
def PAIR_ST.WITHDRAWN : Fld := ⟨0xF20000, 0x0, 14, 1, fun _ => 0⟩
def PAIR_ST.ABLE : Fld := ⟨0xF20000, 0x0, 13, 1, fun _ => 0⟩
def PAIR_ST.HOOPEN : Fld := ⟨0xF20000, 0x0, 12, 1, fun _ => 0⟩
def PAIR_ST.TWINOK : Fld := ⟨0xF20000, 0x0, 11, 1, fun _ => 0⟩
def PAIR_ST.TWINABLE : Fld := ⟨0xF20000, 0x0, 10, 1, fun _ => 0⟩
def PAIR_ST.LANES : Fld := ⟨0xF20000, 0x0, 8, 2, fun _ => 0⟩
def PAIR_ST.LSTATE : Fld := ⟨0xF20000, 0x0, 5, 3, fun _ => 0⟩
def PAIR_ST.FORM : Fld := ⟨0xF20000, 0x0, 2, 3, fun _ => 0⟩
def PAIR_ST.POS : Fld := ⟨0xF20000, 0x0, 0, 2, fun _ => 0⟩
def PAIR_ST.reg : Reg := ⟨0xF20000, 0x0, 1, 4,
  [(.ro, PAIR_ST.OWN), (.ro, PAIR_ST.TWINPWR), (.ro, PAIR_ST.WITHDRAWN), (.ro, PAIR_ST.ABLE), (.ro, PAIR_ST.HOOPEN), (.ro, PAIR_ST.TWINOK), (.ro, PAIR_ST.TWINABLE), (.ro, PAIR_ST.LANES), (.ro, PAIR_ST.LSTATE), (.ro, PAIR_ST.FORM), (.ro, PAIR_ST.POS)]⟩

/-! PAIR_SHOK: 10_twin_pair.md. -/
def PAIR_SHOK.UNSYNC : Fld := ⟨0xF20004, 0x0, 32, 16, fun _ => 0⟩
def PAIR_SHOK.TWINOWN : Fld := ⟨0xF20004, 0x0, 16, 16, fun _ => 0⟩
def PAIR_SHOK.FRESH : Fld := ⟨0xF20004, 0x0, 0, 16, fun _ => 0⟩
def PAIR_SHOK.reg : Reg := ⟨0xF20004, 0x0, 1, 6,
  [(.ro, PAIR_SHOK.UNSYNC), (.ro, PAIR_SHOK.TWINOWN), (.ro, PAIR_SHOK.FRESH)]⟩

/-! PAIR_CFG: 10_twin_pair.md. -/
def PAIR_CFG.REBALDLY : Fld := ⟨0xF2000C, 0x0, 24, 8, fun _ => 50⟩
def PAIR_CFG.HOME : Fld := ⟨0xF2000C, 0x0, 0, 16, fun _ => 255⟩
def PAIR_CFG.reg : Reg := ⟨0xF2000C, 0x0, 1, 4,
  [(.rw, PAIR_CFG.REBALDLY), (.rw, PAIR_CFG.HOME)]⟩

/-! PAIR_CTL: 10_twin_pair.md. -/
def PAIR_CTL.MASK : Fld := ⟨0xF20010, 0x0, 16, 16, fun _ => 0⟩
def PAIR_CTL.RETRAIN : Fld := ⟨0xF20010, 0x0, 4, 1, fun _ => 0⟩
def PAIR_CTL.WITHDRAW : Fld := ⟨0xF20010, 0x0, 3, 1, fun _ => 0⟩
def PAIR_CTL.REBAL : Fld := ⟨0xF20010, 0x0, 2, 1, fun _ => 0⟩
def PAIR_CTL.OP : Fld := ⟨0xF20010, 0x0, 0, 2, fun _ => 0⟩
def PAIR_CTL.reg : Reg := ⟨0xF20010, 0x0, 1, 4,
  [(.wo, PAIR_CTL.MASK), (.wo, PAIR_CTL.RETRAIN), (.wo, PAIR_CTL.WITHDRAW), (.wo, PAIR_CTL.REBAL), (.wo, PAIR_CTL.OP)]⟩

/-! PAIR_HO: 10_twin_pair.md. -/
def PAIR_HO.EDGE : Fld := ⟨0xF20018, 0x0, 16, 48, fun _ => 0⟩
def PAIR_HO.HOID : Fld := ⟨0xF20018, 0x0, 8, 8, fun _ => 0⟩
def PAIR_HO.PHASE : Fld := ⟨0xF20018, 0x0, 5, 3, fun _ => 0⟩
def PAIR_HO.PROP : Fld := ⟨0xF20018, 0x0, 4, 1, fun _ => 0⟩
def PAIR_HO.DIR : Fld := ⟨0xF20018, 0x0, 3, 1, fun _ => 0⟩
def PAIR_HO.REASON : Fld := ⟨0xF20018, 0x0, 0, 3, fun _ => 0⟩
def PAIR_HO.reg : Reg := ⟨0xF20018, 0x0, 1, 8,
  [(.ro, PAIR_HO.EDGE), (.ro, PAIR_HO.HOID), (.ro, PAIR_HO.PHASE), (.ro, PAIR_HO.PROP), (.ro, PAIR_HO.DIR), (.ro, PAIR_HO.REASON)]⟩

/-! PAIR_EV: 10_twin_pair.md. -/
def PAIR_EV.JOIN : Fld := ⟨0xF20020, 0x0, 10, 1, fun _ => 0⟩
def PAIR_EV.HOKEPT : Fld := ⟨0xF20020, 0x0, 9, 1, fun _ => 0⟩
def PAIR_EV.CONFLICT : Fld := ⟨0xF20020, 0x0, 8, 1, fun _ => 0⟩
def PAIR_EV.COLL : Fld := ⟨0xF20020, 0x0, 7, 1, fun _ => 0⟩
def PAIR_EV.HOFAIL : Fld := ⟨0xF20020, 0x0, 6, 1, fun _ => 0⟩
def PAIR_EV.HODONE : Fld := ⟨0xF20020, 0x0, 5, 1, fun _ => 0⟩
def PAIR_EV.RELTAKE : Fld := ⟨0xF20020, 0x0, 4, 1, fun _ => 0⟩
def PAIR_EV.TAKEOVER : Fld := ⟨0xF20020, 0x0, 3, 1, fun _ => 0⟩
def PAIR_EV.LINKCHG : Fld := ⟨0xF20020, 0x0, 2, 1, fun _ => 0⟩
def PAIR_EV.STALL : Fld := ⟨0xF20020, 0x0, 1, 1, fun _ => 0⟩
def PAIR_EV.UNCORR : Fld := ⟨0xF20020, 0x0, 0, 1, fun _ => 0⟩
def PAIR_EV.reg : Reg := ⟨0xF20020, 0x0, 1, 2,
  [(.w1c, PAIR_EV.JOIN), (.w1c, PAIR_EV.HOKEPT), (.w1c, PAIR_EV.CONFLICT), (.w1c, PAIR_EV.COLL), (.w1c, PAIR_EV.HOFAIL), (.w1c, PAIR_EV.HODONE), (.w1c, PAIR_EV.RELTAKE), (.w1c, PAIR_EV.TAKEOVER), (.w1c, PAIR_EV.LINKCHG), (.w1c, PAIR_EV.STALL), (.w1c, PAIR_EV.UNCORR)]⟩

/-! PAIR_LERR: 10_twin_pair.md. -/
def PAIR_LERR.CORR : Fld := ⟨0xF20028, 0x0, 16, 16, fun _ => 0⟩
def PAIR_LERR.UNCORR : Fld := ⟨0xF20028, 0x0, 8, 8, fun _ => 0⟩
def PAIR_LERR.CRCFAIL : Fld := ⟨0xF20028, 0x0, 0, 8, fun _ => 0⟩
def PAIR_LERR.reg : Reg := ⟨0xF20028, 0x0, 1, 4,
  [(.rc, PAIR_LERR.CORR), (.rc, PAIR_LERR.UNCORR), (.rc, PAIR_LERR.CRCFAIL)]⟩

/-! PAIR_CREDIT: 10_twin_pair.md. -/
def PAIR_CREDIT.HELD : Fld := ⟨0xF2002C, 0x0, 8, 8, fun _ => 64⟩
def PAIR_CREDIT.STALLS : Fld := ⟨0xF2002C, 0x0, 0, 8, fun _ => 0⟩
def PAIR_CREDIT.reg : Reg := ⟨0xF2002C, 0x0, 1, 2,
  [(.ro, PAIR_CREDIT.HELD), (.rc, PAIR_CREDIT.STALLS)]⟩

/-! PAIR_HSOUT: 10_twin_pair.md. -/
def PAIR_HSOUT.WORD (j : Nat) : Fld := ⟨0xF20100 + 8 * j, 0x0, 0, 64, fun _ => 0⟩
def PAIR_HSOUT.reg (j : Nat) : Reg := ⟨0xF20100 + 8 * j, 0x0, 1, 8,
  [(.rw, PAIR_HSOUT.WORD j)]⟩

/-! PAIR_HSIN: 10_twin_pair.md. -/
def PAIR_HSIN.WORD (j : Nat) : Fld := ⟨0xF20180 + 8 * j, 0x0, 0, 64, fun _ => 0⟩
def PAIR_HSIN.reg (j : Nat) : Reg := ⟨0xF20180 + 8 * j, 0x0, 1, 8,
  [(.ro, PAIR_HSIN.WORD j)]⟩

/-! PRT_MIRCMT: 10_twin_pair.md. -/
def PRT_MIRCMT.SEQ : Fld := ⟨0xFC0700, 0x1000, 8, 8, fun _ => 0⟩
def PRT_MIRCMT.STALE : Fld := ⟨0xFC0700, 0x1000, 2, 1, fun _ => 0⟩
def PRT_MIRCMT.WBUF : Fld := ⟨0xFC0700, 0x1000, 1, 1, fun _ => 0⟩
def PRT_MIRCMT.COMMIT : Fld := ⟨0xFC0700, 0x1000, 0, 1, fun _ => 0⟩
def PRT_MIRCMT.reg : Reg := ⟨0xFC0700, 0x1000, 16, 2,
  [(.ro, PRT_MIRCMT.SEQ), (.ro, PRT_MIRCMT.STALE), (.ro, PRT_MIRCMT.WBUF), (.wo, PRT_MIRCMT.COMMIT)]⟩

/-! PRT_SHADOW: 10_twin_pair.md. -/
def PRT_SHADOW.HEARD : Fld := ⟨0xFC0704, 0x1000, 24, 8, fun _ => 0⟩
def PRT_SHADOW.CHG : Fld := ⟨0xFC0704, 0x1000, 23, 1, fun _ => 0⟩
def PRT_SHADOW.FTICK : Fld := ⟨0xFC0704, 0x1000, 0, 16, fun _ => 0⟩
def PRT_SHADOW.reg : Reg := ⟨0xFC0704, 0x1000, 16, 4,
  [(.ro, PRT_SHADOW.HEARD), (.ro, PRT_SHADOW.CHG), (.ro, PRT_SHADOW.FTICK)]⟩

/-! FL_WIN: 13_engine_runtime.md. -/
def FL_WIN.REFUSED : Fld := ⟨0xF50000, 0x0, 15, 1, fun _ => 0⟩
def FL_WIN.BASE : Fld := ⟨0xF50000, 0x0, 0, 10, fun _ => 0⟩
def FL_WIN.reg : Reg := ⟨0xF50000, 0x0, 1, 2,
  [(.w1c, FL_WIN.REFUSED), (.rw, FL_WIN.BASE)]⟩

/-! DEV_IBSEL: 13_engine_runtime.md. -/
def DEV_IBSEL.HALF : Fld := ⟨0xF10048, 0x0, 5, 1, fun _ => 0⟩
def DEV_IBSEL.ENG : Fld := ⟨0xF10048, 0x0, 0, 5, fun _ => 0⟩
def DEV_IBSEL.reg : Reg := ⟨0xF10048, 0x0, 1, 2,
  [(.rw, DEV_IBSEL.HALF), (.rw, DEV_IBSEL.ENG)]⟩

/-! DEV_SWAP: 13_engine_runtime.md. -/
def DEV_SWAP.BUSY : Fld := ⟨0xF10040, 0x0, 31, 1, fun _ => 0⟩
def DEV_SWAP.REQ : Fld := ⟨0xF10040, 0x0, 0, 17, fun _ => 0⟩
def DEV_SWAP.reg : Reg := ⟨0xF10040, 0x0, 1, 4,
  [(.ro, DEV_SWAP.BUSY), (.w1s, DEV_SWAP.REQ)]⟩

/-! DEV_SWAPST: 13_engine_runtime.md. -/
def DEV_SWAPST.FAIL : Fld := ⟨0xF10050, 0x0, 32, 17, fun _ => 0⟩
def DEV_SWAPST.DONE : Fld := ⟨0xF10050, 0x0, 0, 17, fun _ => 0⟩
def DEV_SWAPST.reg : Reg := ⟨0xF10050, 0x0, 1, 8,
  [(.w1c, DEV_SWAPST.FAIL), (.w1c, DEV_SWAPST.DONE)]⟩

/-! WEIR_CFG: 14_faults_watchdog.md. -/
def WEIR_CFG.Q3 : Fld := ⟨0xF30000, 0x0, 48, 16, fun _ => 10000⟩
def WEIR_CFG.Q2 : Fld := ⟨0xF30000, 0x0, 32, 16, fun _ => 1000⟩
def WEIR_CFG.Q1 : Fld := ⟨0xF30000, 0x0, 16, 16, fun _ => 100⟩
def WEIR_CFG.ESCW : Fld := ⟨0xF30000, 0x0, 8, 8, fun _ => 10⟩
def WEIR_CFG.ESCN : Fld := ⟨0xF30000, 0x0, 4, 4, fun _ => 8⟩
def WEIR_CFG.FLVL : Fld := ⟨0xF30000, 0x0, 2, 2, fun _ => 1⟩
def WEIR_CFG.FMODE : Fld := ⟨0xF30000, 0x0, 0, 1, fun _ => 0⟩
def WEIR_CFG.reg : Reg := ⟨0xF30000, 0x0, 1, 8,
  [(.rw, WEIR_CFG.Q3), (.rw, WEIR_CFG.Q2), (.rw, WEIR_CFG.Q1), (.rw, WEIR_CFG.ESCW), (.rw, WEIR_CFG.ESCN), (.rw, WEIR_CFG.FLVL), (.rw, WEIR_CFG.FMODE)]⟩

/-! WEIR_ST: 14_faults_watchdog.md. -/
def WEIR_ST.URCNT : Fld := ⟨0xF30008, 0x0, 16, 16, fun _ => 0⟩
def WEIR_ST.HICLASS : Fld := ⟨0xF30008, 0x0, 8, 8, fun _ => 255⟩
def WEIR_ST.FLT : Fld := ⟨0xF30008, 0x0, 7, 1, fun _ => 1⟩
def WEIR_ST.ESC : Fld := ⟨0xF30008, 0x0, 6, 1, fun _ => 0⟩
def WEIR_ST.USAFE : Fld := ⟨0xF30008, 0x0, 5, 1, fun _ => 0⟩
def WEIR_ST.C2 : Fld := ⟨0xF30008, 0x0, 4, 1, fun _ => 0⟩
def WEIR_ST.COMPAT : Fld := ⟨0xF30008, 0x0, 3, 1, fun _ => 0⟩
def WEIR_ST.reg : Reg := ⟨0xF30008, 0x0, 1, 4,
  [(.ro, WEIR_ST.URCNT), (.ro, WEIR_ST.HICLASS), (.ro, WEIR_ST.FLT), (.ro, WEIR_ST.ESC), (.ro, WEIR_ST.USAFE), (.ro, WEIR_ST.C2), (.ro, WEIR_ST.COMPAT)]⟩

/-! WEIR_CTL: 14_faults_watchdog.md. -/
def WEIR_CTL.FREL : Fld := ⟨0xF3000C, 0x0, 0, 1, fun _ => 0⟩
def WEIR_CTL.reg : Reg := ⟨0xF3000C, 0x0, 1, 2,
  [(.wo, WEIR_CTL.FREL)]⟩

/-! WEIR_USTK: 14_faults_watchdog.md. -/
def WEIR_USTK.STK : Fld := ⟨0xF30010, 0x0, 0, 64, fun _ => 0⟩
def WEIR_USTK.reg : Reg := ⟨0xF30010, 0x0, 1, 8,
  [(.w1c, WEIR_USTK.STK)]⟩

/-! WEIR_USEV: 14_faults_watchdog.md. -/
def WEIR_USEV.SEV : Fld := ⟨0xF30018, 0x0, 0, 64, fun _ => 0⟩
def WEIR_USEV.reg : Reg := ⟨0xF30018, 0x0, 1, 8,
  [(.w1c, WEIR_USEV.SEV)]⟩

/-! WEIR_UFRC: 14_faults_watchdog.md. -/
def WEIR_UFRC.FRC : Fld := ⟨0xF30020, 0x0, 0, 64, fun _ => 0⟩
def WEIR_UFRC.reg : Reg := ⟨0xF30020, 0x0, 1, 8,
  [(.rw, WEIR_UFRC.FRC)]⟩

/-! WEIR_UREC: 14_faults_watchdog.md. -/
def WEIR_UREC.INDEX : Fld := ⟨0xF30028, 0x0, 0, 6, fun _ => 0⟩
def WEIR_UREC.reg : Reg := ⟨0xF30028, 0x0, 1, 2,
  [(.wo, WEIR_UREC.INDEX)]⟩

/-! WEIR_ECC: 14_faults_watchdog.md. -/
def WEIR_ECC.UADDR : Fld := ⟨0xF30030, 0x0, 40, 24, fun _ => 0⟩
def WEIR_ECC.UMEM : Fld := ⟨0xF30030, 0x0, 32, 8, fun _ => 255⟩
def WEIR_ECC.CADDR : Fld := ⟨0xF30030, 0x0, 8, 24, fun _ => 0⟩
def WEIR_ECC.CMEM : Fld := ⟨0xF30030, 0x0, 0, 8, fun _ => 255⟩
def WEIR_ECC.reg : Reg := ⟨0xF30030, 0x0, 1, 8,
  [(.ro, WEIR_ECC.UADDR), (.ro, WEIR_ECC.UMEM), (.ro, WEIR_ECC.CADDR), (.ro, WEIR_ECC.CMEM)]⟩

/-! WEIR_UCFG: 14_faults_watchdog.md. -/
def WEIR_UCFG.W (i : Nat) : Fld := ⟨0xF30100 + 4 * i, 0x0, 16, 16, fun _ => 1⟩
def WEIR_UCFG.N (i : Nat) : Fld := ⟨0xF30100 + 4 * i, 0x0, 8, 8, fun _ => 1⟩
def WEIR_UCFG.CLASS (i : Nat) : Fld := ⟨0xF30100 + 4 * i, 0x0, 0, 2, fun _ => (if i < 7 then 3 else if i = 7 then 2 else if i = 8 then 2 else if i = 39 then 2 else 0)⟩
def WEIR_UCFG.reg (i : Nat) : Reg := ⟨0xF30100 + 4 * i, 0x0, 1, 4,
  [(.rwEh, WEIR_UCFG.W i), (.rwEh, WEIR_UCFG.N i), (.rwEh, WEIR_UCFG.CLASS i)]⟩

/-! WEIR_PCFG: 14_faults_watchdog.md. -/
def WEIR_PCFG.W (i : Nat) : Fld := ⟨0xF30240 + 4 * i, 0x100, 16, 16, fun _ => 1⟩
def WEIR_PCFG.N (i : Nat) : Fld := ⟨0xF30240 + 4 * i, 0x100, 8, 8, fun _ => 1⟩
def WEIR_PCFG.CLASS (i : Nat) : Fld := ⟨0xF30240 + 4 * i, 0x100, 0, 2, fun _ => ([1, 1, 1, 0, 1, 3, 1, 0, 1, 0, 1, 0, 0, 1, 1, 0, 0, 0, 0, 0, 0, 0, 1, 0].getD i 0)⟩
def WEIR_PCFG.reg (i : Nat) : Reg := ⟨0xF30240 + 4 * i, 0x100, 16, 4,
  [(.rwEh, WEIR_PCFG.W i), (.rwEh, WEIR_PCFG.N i), (.rwEh, WEIR_PCFG.CLASS i)]⟩

/-! WEIR_PSTK: 14_faults_watchdog.md. -/
def WEIR_PSTK.STK : Fld := ⟨0xF30200, 0x100, 0, 24, fun _ => 0⟩
def WEIR_PSTK.reg : Reg := ⟨0xF30200, 0x100, 16, 4,
  [(.w1c, WEIR_PSTK.STK)]⟩

/-! WEIR_PSEV: 14_faults_watchdog.md. -/
def WEIR_PSEV.SEV : Fld := ⟨0xF30204, 0x100, 0, 24, fun _ => 0⟩
def WEIR_PSEV.reg : Reg := ⟨0xF30204, 0x100, 16, 4,
  [(.w1cEh, WEIR_PSEV.SEV)]⟩

/-! WEIR_PFRC: 14_faults_watchdog.md. -/
def WEIR_PFRC.FRC : Fld := ⟨0xF30208, 0x100, 0, 24, fun _ => 0⟩
def WEIR_PFRC.reg : Reg := ⟨0xF30208, 0x100, 16, 4,
  [(.rwEh, WEIR_PFRC.FRC)]⟩

/-! WEIR_PST: 14_faults_watchdog.md. -/
def WEIR_PST.RCNT : Fld := ⟨0xF3020C, 0x100, 16, 16, fun _ => 0⟩
def WEIR_PST.ESC : Fld := ⟨0xF3020C, 0x100, 2, 1, fun _ => 0⟩
def WEIR_PST.HOLD : Fld := ⟨0xF3020C, 0x100, 1, 1, fun _ => 0⟩
def WEIR_PST.SAFE : Fld := ⟨0xF3020C, 0x100, 0, 1, fun _ => 0⟩
def WEIR_PST.reg : Reg := ⟨0xF3020C, 0x100, 16, 4,
  [(.ro, WEIR_PST.RCNT), (.ro, WEIR_PST.ESC), (.ro, WEIR_PST.HOLD), (.ro, WEIR_PST.SAFE)]⟩

/-! WEIR_PREC: 14_faults_watchdog.md. -/
def WEIR_PREC.INDEX : Fld := ⟨0xF30210, 0x100, 0, 5, fun _ => 0⟩
def WEIR_PREC.reg : Reg := ⟨0xF30210, 0x100, 16, 2,
  [(.wo, WEIR_PREC.INDEX)]⟩

/-! WDG_CFG: 14_faults_watchdog.md. -/
def WDG_CFG.FIRST : Fld := ⟨0xF31800, 0x20, 48, 16, fun k => if k < 16 then 1250 else 12500⟩
def WDG_CFG.CLOSE : Fld := ⟨0xF31800, 0x20, 32, 16, fun k => if k < 16 then 4 else 16⟩
def WDG_CFG.OPEN : Fld := ⟨0xF31800, 0x20, 16, 16, fun _ => 1⟩
def WDG_CFG.MASK : Fld := ⟨0xF31800, 0x20, 0, 8, fun _ => 1⟩
def WDG_CFG.reg : Reg := ⟨0xF31800, 0x20, 17, 8,
  [(.rwEh, WDG_CFG.FIRST), (.rwEh, WDG_CFG.CLOSE), (.rwEh, WDG_CFG.OPEN), (.rwEh, WDG_CFG.MASK)]⟩

/-! WDG_CHK: 14_faults_watchdog.md. -/
def WDG_CHK.CIN : Fld := ⟨0xF31808, 0x20, 0, 8, fun _ => 0⟩
def WDG_CHK.reg : Reg := ⟨0xF31808, 0x20, 17, 1,
  [(.w1s, WDG_CHK.CIN)]⟩

/-! WDG_SVC: 14_faults_watchdog.md. -/
def WDG_SVC.KEY : Fld := ⟨0xF3180A, 0x20, 0, 8, fun _ => 0⟩
def WDG_SVC.reg : Reg := ⟨0xF3180A, 0x20, 17, 1,
  [(.wo, WDG_SVC.KEY)]⟩

/-! WDG_ST: 14_faults_watchdog.md. -/
def WDG_ST.T : Fld := ⟨0xF3180C, 0x20, 16, 16, fun _ => 0⟩
def WDG_ST.SUSP : Fld := ⟨0xF3180C, 0x20, 7, 1, fun _ => 0⟩
def WDG_ST.BADKEY : Fld := ⟨0xF3180C, 0x20, 6, 1, fun _ => 0⟩
def WDG_ST.REFUSED : Fld := ⟨0xF3180C, 0x20, 5, 1, fun _ => 0⟩
def WDG_ST.LAST : Fld := ⟨0xF3180C, 0x20, 3, 2, fun _ => 0⟩
def WDG_ST.reg : Reg := ⟨0xF3180C, 0x20, 17, 4,
  [(.ro, WDG_ST.T), (.ro, WDG_ST.SUSP), (.w1c, WDG_ST.BADKEY), (.w1c, WDG_ST.REFUSED), (.ro, WDG_ST.LAST)]⟩

/-! WDG_RCNT: 14_faults_watchdog.md. -/
def WDG_RCNT.COUNT (k : Nat) : Fld := ⟨0xF80000 + 2 * k, 0x0, 0, 16, fun _ => 0⟩
def WDG_RCNT.reg (k : Nat) : Reg := ⟨0xF80000 + 2 * k, 0x0, 1, 2,
  [(.ro, WDG_RCNT.COUNT k)]⟩

/-! WDG_CAUSE: 14_faults_watchdog.md. -/
def WDG_CAUSE.CAUSE : Fld := ⟨0xF80022, 0x0, 0, 8, fun _ => 0⟩
def WDG_CAUSE.reg : Reg := ⟨0xF80022, 0x0, 1, 1,
  [(.ro, WDG_CAUSE.CAUSE)]⟩

/-! WEIR_RET: 14_faults_watchdog.md. -/
def WEIR_RET.ESCSTART : Fld := ⟨0xF80024, 0x0, 16, 48, fun _ => 0⟩
def WEIR_RET.ESCCNT : Fld := ⟨0xF80024, 0x0, 8, 8, fun _ => 0⟩
def WEIR_RET.C3HOLD : Fld := ⟨0xF80024, 0x0, 0, 1, fun _ => 0⟩
def WEIR_RET.reg : Reg := ⟨0xF80024, 0x0, 1, 8,
  [(.ro, WEIR_RET.ESCSTART), (.ro, WEIR_RET.ESCCNT), (.ro, WEIR_RET.C3HOLD)]⟩

/-! OTP_CTL: 15_fuses_presence.md. -/
def OTP_CTL.START : Fld := ⟨0xF60000, 0x0, 31, 1, fun _ => 0⟩
def OTP_CTL.OP : Fld := ⟨0xF60000, 0x0, 16, 4, fun _ => 0⟩
def OTP_CTL.RAW : Fld := ⟨0xF60000, 0x0, 12, 1, fun _ => 0⟩
def OTP_CTL.REGION : Fld := ⟨0xF60000, 0x0, 8, 4, fun _ => 0⟩
def OTP_CTL.WORD : Fld := ⟨0xF60000, 0x0, 0, 3, fun _ => 0⟩
def OTP_CTL.reg : Reg := ⟨0xF60000, 0x0, 1, 4,
  [(.wo, OTP_CTL.START), (.rw, OTP_CTL.OP), (.rw, OTP_CTL.RAW), (.rw, OTP_CTL.REGION), (.rw, OTP_CTL.WORD)]⟩

/-! OTP_DATA: 15_fuses_presence.md. -/
def OTP_DATA.DATA : Fld := ⟨0xF60008, 0x0, 0, 64, fun _ => 0⟩
def OTP_DATA.reg : Reg := ⟨0xF60008, 0x0, 1, 8,
  [(.rw, OTP_DATA.DATA)]⟩

/-! OTP_ST: 15_fuses_presence.md. -/
def OTP_ST.BUSY : Fld := ⟨0xF60010, 0x0, 15, 1, fun _ => 0⟩
def OTP_ST.MARG : Fld := ⟨0xF60010, 0x0, 8, 1, fun _ => 0⟩
def OTP_ST.RESULT : Fld := ⟨0xF60010, 0x0, 0, 8, fun _ => 0⟩
def OTP_ST.reg : Reg := ⟨0xF60010, 0x0, 1, 2,
  [(.ro, OTP_ST.BUSY), (.ro, OTP_ST.MARG), (.ro, OTP_ST.RESULT)]⟩

/-! OTP_LOCKST: 15_fuses_presence.md. -/
def OTP_LOCKST.RL : Fld := ⟨0xF60018, 0x0, 16, 16, fun _ => 0⟩
def OTP_LOCKST.WL : Fld := ⟨0xF60018, 0x0, 0, 16, fun _ => 0⟩
def OTP_LOCKST.reg : Reg := ⟨0xF60018, 0x0, 1, 4,
  [(.ro, OTP_LOCKST.RL), (.ro, OTP_LOCKST.WL)]⟩

/-! OTP_REGST: 15_fuses_presence.md. -/
def OTP_REGST.DEFLT : Fld := ⟨0xF60020, 0x0, 32, 16, fun _ => 0⟩
def OTP_REGST.MARG : Fld := ⟨0xF60020, 0x0, 16, 16, fun _ => 0⟩
def OTP_REGST.GOOD : Fld := ⟨0xF60020, 0x0, 0, 16, fun _ => 0⟩
def OTP_REGST.reg : Reg := ⟨0xF60020, 0x0, 1, 8,
  [(.ro, OTP_REGST.DEFLT), (.ro, OTP_REGST.MARG), (.ro, OTP_REGST.GOOD)]⟩

/-! OTP_MARGW: 15_fuses_presence.md. -/
def OTP_MARGW.MW (j : Nat) : Fld := ⟨0xF60030 + 8 * j, 0x0, 0, 64, fun _ => 0⟩
def OTP_MARGW.reg (j : Nat) : Reg := ⟨0xF60030 + 8 * j, 0x0, 1, 8,
  [(.ro, OTP_MARGW.MW j)]⟩

/-! OTP_LCST: 15_fuses_presence.md. -/
def OTP_LCST.CERTOK : Fld := ⟨0xF60028, 0x0, 7, 1, fun _ => 0⟩
def OTP_LCST.TAPOFF : Fld := ⟨0xF60028, 0x0, 4, 1, fun _ => 0⟩
def OTP_LCST.DBGLOCK : Fld := ⟨0xF60028, 0x0, 3, 1, fun _ => 0⟩
def OTP_LCST.LC : Fld := ⟨0xF60028, 0x0, 0, 3, fun _ => 0⟩
def OTP_LCST.reg : Reg := ⟨0xF60028, 0x0, 1, 2,
  [(.ro, OTP_LCST.CERTOK), (.ro, OTP_LCST.TAPOFF), (.ro, OTP_LCST.DBGLOCK), (.ro, OTP_LCST.LC)]⟩

/-! DEV_PRES: 15_fuses_presence.md. -/
def DEV_PRES.LEFT : Fld := ⟨0xF10060, 0x0, 32, 32, fun _ => 0⟩
def DEV_PRES.SEALBRK : Fld := ⟨0xF10060, 0x0, 7, 1, fun _ => 0⟩
def DEV_PRES.LONG : Fld := ⟨0xF10060, 0x0, 6, 1, fun _ => 0⟩
def DEV_PRES.MODE : Fld := ⟨0xF10060, 0x0, 4, 2, fun _ => 0⟩
def DEV_PRES.PIN : Fld := ⟨0xF10060, 0x0, 1, 1, fun _ => 0⟩
def DEV_PRES.GRANT : Fld := ⟨0xF10060, 0x0, 0, 1, fun _ => 0⟩
def DEV_PRES.reg : Reg := ⟨0xF10060, 0x0, 1, 8,
  [(.ro, DEV_PRES.LEFT), (.ro, DEV_PRES.SEALBRK), (.w1c, DEV_PRES.LONG), (.ro, DEV_PRES.MODE), (.ro, DEV_PRES.PIN), (.ro, DEV_PRES.GRANT)]⟩

/-! DEV_SEALRET: 15_fuses_presence.md. -/
def DEV_SEALRET.BROKE : Fld := ⟨0xF80030, 0x0, 0, 1, fun _ => 0⟩
def DEV_SEALRET.reg : Reg := ⟨0xF80030, 0x0, 1, 1,
  [(.ro, DEV_SEALRET.BROKE)]⟩

/-! DEV_FWST: 16_update_config_calibration.md. -/
def DEV_FWST.UNPROVEN : Fld := ⟨0xF10070, 0x0, 15, 1, fun _ => 0⟩
def DEV_FWST.RUN : Fld := ⟨0xF10070, 0x0, 13, 2, fun _ => 0⟩
def DEV_FWST.NEXT : Fld := ⟨0xF10070, 0x0, 11, 2, fun _ => 0⟩
def DEV_FWST.XFER : Fld := ⟨0xF10070, 0x0, 10, 1, fun _ => 0⟩
def DEV_FWST.ACT : Fld := ⟨0xF10070, 0x0, 9, 1, fun _ => 0⟩
def DEV_FWST.reg : Reg := ⟨0xF10070, 0x0, 1, 2,
  [(.ro, DEV_FWST.UNPROVEN), (.ro, DEV_FWST.RUN), (.ro, DEV_FWST.NEXT), (.ro, DEV_FWST.XFER), (.ro, DEV_FWST.ACT)]⟩

/-! DEV_CFGST: 16_update_config_calibration.md. -/
def DEV_CFGST.INFORCE : Fld := ⟨0xF10078, 0x0, 48, 16, fun _ => 0⟩
def DEV_CFGST.TRIAL : Fld := ⟨0xF10078, 0x0, 32, 16, fun _ => 0⟩
def DEV_CFGST.PREV : Fld := ⟨0xF10078, 0x0, 16, 16, fun _ => 0⟩
def DEV_CFGST.LEFT : Fld := ⟨0xF10078, 0x0, 4, 12, fun _ => 0⟩
def DEV_CFGST.PAIR : Fld := ⟨0xF10078, 0x0, 3, 1, fun _ => 0⟩
def DEV_CFGST.XFER : Fld := ⟨0xF10078, 0x0, 2, 1, fun _ => 0⟩
def DEV_CFGST.reg : Reg := ⟨0xF10078, 0x0, 1, 8,
  [(.ro, DEV_CFGST.INFORCE), (.ro, DEV_CFGST.TRIAL), (.ro, DEV_CFGST.PREV), (.ro, DEV_CFGST.LEFT), (.ro, DEV_CFGST.PAIR), (.ro, DEV_CFGST.XFER)]⟩

/-! DEV_CALST: 16_update_config_calibration.md. -/
def DEV_CALST.INFORCE : Fld := ⟨0xF10080, 0x0, 24, 8, fun _ => 0⟩
def DEV_CALST.TRIAL : Fld := ⟨0xF10080, 0x0, 16, 8, fun _ => 0⟩
def DEV_CALST.PREV : Fld := ⟨0xF10080, 0x0, 8, 8, fun _ => 0⟩
def DEV_CALST.LEFT : Fld := ⟨0xF10080, 0x0, 0, 8, fun _ => 0⟩
def DEV_CALST.reg : Reg := ⟨0xF10080, 0x0, 1, 4,
  [(.ro, DEV_CALST.INFORCE), (.ro, DEV_CALST.TRIAL), (.ro, DEV_CALST.PREV), (.ro, DEV_CALST.LEFT)]⟩

/-! CNT_CFG: 17_counters_log.md. -/
def CNT_CFG.PMASK (k : Nat) : Fld := ⟨0xF40000 + 4 * k, 0x0, 16, 16, fun _ => 0⟩
def CNT_CFG.EVENT (k : Nat) : Fld := ⟨0xF40000 + 4 * k, 0x0, 8, 8, fun _ => 0⟩
def CNT_CFG.EN (k : Nat) : Fld := ⟨0xF40000 + 4 * k, 0x0, 2, 1, fun _ => 0⟩
def CNT_CFG.SNAP (k : Nat) : Fld := ⟨0xF40000 + 4 * k, 0x0, 1, 1, fun _ => 0⟩
def CNT_CFG.LEVEL (k : Nat) : Fld := ⟨0xF40000 + 4 * k, 0x0, 0, 1, fun _ => 0⟩
def CNT_CFG.reg (k : Nat) : Reg := ⟨0xF40000 + 4 * k, 0x0, 1, 4,
  [(.rw, CNT_CFG.PMASK k), (.rw, CNT_CFG.EVENT k), (.rw, CNT_CFG.EN k), (.rw, CNT_CFG.SNAP k), (.rw, CNT_CFG.LEVEL k)]⟩

/-! CNT_VAL: 17_counters_log.md. -/
def CNT_VAL.COUNT (k : Nat) : Fld := ⟨0xF40100 + 8 * k, 0x0, 0, 48, fun _ => 0⟩
def CNT_VAL.reg (k : Nat) : Reg := ⟨0xF40100 + 8 * k, 0x0, 1, 8,
  [(.ro, CNT_VAL.COUNT k)]⟩

/-! CNT_SNAP: 17_counters_log.md. -/
def CNT_SNAP.SNAP (k : Nat) : Fld := ⟨0xF40200 + 8 * k, 0x0, 0, 48, fun _ => 0⟩
def CNT_SNAP.reg (k : Nat) : Reg := ⟨0xF40200 + 8 * k, 0x0, 1, 8,
  [(.ro, CNT_SNAP.SNAP k)]⟩

/-! CNT_CTL: 17_counters_log.md. -/
def CNT_CTL.CLR : Fld := ⟨0xF40300, 0x0, 0, 32, fun _ => 0⟩
def CNT_CTL.reg : Reg := ⟨0xF40300, 0x0, 1, 4,
  [(.wo, CNT_CTL.CLR)]⟩

/-! CNT_SNAPCFG: 17_counters_log.md. -/
def CNT_SNAPCFG.LOG : Fld := ⟨0xF40308, 0x0, 32, 1, fun _ => 0⟩
def CNT_SNAPCFG.PERIOD : Fld := ⟨0xF40308, 0x0, 0, 32, fun _ => 0⟩
def CNT_SNAPCFG.reg : Reg := ⟨0xF40308, 0x0, 1, 8,
  [(.rw, CNT_SNAPCFG.LOG), (.rw, CNT_SNAPCFG.PERIOD)]⟩

/-! CNT_SNAPTICK: 17_counters_log.md. -/
def CNT_SNAPTICK.EDGE : Fld := ⟨0xF40310, 0x0, 0, 48, fun _ => 0⟩
def CNT_SNAPTICK.reg : Reg := ⟨0xF40310, 0x0, 1, 6,
  [(.ro, CNT_SNAPTICK.EDGE)]⟩

/-! LOG_OLDEST: 17_counters_log.md. -/
def LOG_OLDEST.NUM : Fld := ⟨0xF40400, 0x0, 0, 32, fun _ => 0⟩
def LOG_OLDEST.reg : Reg := ⟨0xF40400, 0x0, 1, 4,
  [(.ro, LOG_OLDEST.NUM)]⟩

/-! LOG_NEXT: 17_counters_log.md. -/
def LOG_NEXT.NUM : Fld := ⟨0xF40404, 0x0, 0, 32, fun _ => 0⟩
def LOG_NEXT.reg : Reg := ⟨0xF40404, 0x0, 1, 4,
  [(.ro, LOG_NEXT.NUM)]⟩

/-! LOG_WRAP: 17_counters_log.md. -/
def LOG_WRAP.COUNT : Fld := ⟨0xF40408, 0x0, 0, 32, fun _ => 0⟩
def LOG_WRAP.reg : Reg := ⟨0xF40408, 0x0, 1, 4,
  [(.ro, LOG_WRAP.COUNT)]⟩

/-! LOG_ST: 17_counters_log.md. -/
def LOG_ST.DROP : Fld := ⟨0xF4040C, 0x0, 16, 16, fun _ => 0⟩
def LOG_ST.ERASE : Fld := ⟨0xF4040C, 0x0, 10, 1, fun _ => 0⟩
def LOG_ST.READY : Fld := ⟨0xF4040C, 0x0, 9, 1, fun _ => 0⟩
def LOG_ST.FREE : Fld := ⟨0xF4040C, 0x0, 0, 9, fun _ => 256⟩
def LOG_ST.reg : Reg := ⟨0xF4040C, 0x0, 1, 4,
  [(.rc, LOG_ST.DROP), (.ro, LOG_ST.ERASE), (.ro, LOG_ST.READY), (.ro, LOG_ST.FREE)]⟩

/-! TICK_HTICK: 02_tide_tick.md. -/
def TICK_HTICK.HTICK : Fld := ⟨0xF00018, 0x0, 0, 48, fun _ => 0⟩
def TICK_HTICK.reg : Reg := ⟨0xF00018, 0x0, 1, 6,
  [(.ro, TICK_HTICK.HTICK)]⟩

/-! TICK_HTIME: 02_tide_tick.md. -/
def TICK_HTIME.HTIME : Fld := ⟨0xF00020, 0x0, 0, 64, fun _ => 0⟩
def TICK_HTIME.reg : Reg := ⟨0xF00020, 0x0, 1, 8,
  [(.ro, TICK_HTIME.HTIME)]⟩

/-- The registers of 02_tide_tick.md. -/
def regTable02 : List Reg :=
  [TICK_COUNT.reg] ++
  [TICK_CYCLE.reg] ++
  [TICK_STATUS.reg] ++
  [TICK_SKEW.reg] ++
  [TICK_OVR.reg] ++
  [PRT_AUXSEL.reg] ++
  [TICK_HTICK.reg] ++
  [TICK_HTIME.reg]


/-- The registers of 03_pins.md. -/
def regTable03 : List Reg :=
  [DEV_STRAP.reg] ++
  [DEV_MUXIND.reg]


/-- The registers of 04_attach.md. -/
def regTable04 : List Reg :=
  [PRT_CCCFG.reg] ++
  [PRT_CCCTL.reg] ++
  [PRT_ATTST.reg] ++
  [PRT_CCSTAT.reg] ++
  [PRT_CCHYS.reg] ++
  [PRT_ATTEV.reg] ++
  [PRT_VCONN.reg] ++
  [PRT_CCTIM0.reg] ++
  [PRT_CCTIM1.reg] ++
  [PRT_CCTIM2.reg]


/-- The registers of 05_pd_link.md. -/
def regTable05 : List Reg :=
  [PRT_PDCFG.reg] ++
  [PRT_PDST.reg] ++
  [PRT_PDEV.reg] ++
  [PRT_PDCBL.reg] ++
  (List.range 20).map PRT_PDTIM.reg ++
  (List.range 16).map PRT_PDRT.reg


/-- The registers of 06_roles_and_swaps.md. -/
def regTable06 : List Reg :=
  [PRT_ROLE.reg] ++
  [PRT_SWCFG.reg] ++
  [PRT_CONTRACT.reg] ++
  [PRT_SWEV.reg] ++
  [PRT_SWTIM0.reg] ++
  [PRT_SWTIM1.reg] ++
  [PRT_SWTIM2.reg] ++
  [PRT_SWTIM3.reg]


/-- The registers of 07_power_path.md. -/
def regTable07 : List Reg :=
  [PRT_PWRCFG.reg] ++
  [PRT_PWRCTL.reg] ++
  [PRT_PWRST.reg] ++
  [PRT_PWREV.reg] ++
  [PRT_GATE.reg] ++
  [PRT_ILIM.reg] ++
  [PRT_BRKTIM.reg] ++
  [PRT_PWRTIM.reg] ++
  [PRT_EACC.reg] ++
  [PRT_ELAST.reg] ++
  [PRT_EHEAD.reg] ++
  [PRT_ESTALE.reg] ++
  [PRT_VWIN.reg] ++
  [PRT_VMARG.reg] ++
  [PRT_REG.reg] ++
  [PRT_REGSTAT.reg] ++
  [PRT_FRS.reg] ++
  [QD_JCFG.reg] ++
  [QD_JST.reg] ++
  [QD_JEV.reg]


/-- The registers of 08_sensing.md. -/
def regTable08 : List Reg :=
  [PRT_RISNS.reg] ++
  [PRT_RVBUS.reg] ++
  [PRT_RRAIL.reg] ++
  [PRT_RIMEAN.reg] ++
  (List.range 8).map PRT_RAUX.reg ++
  (List.range 4).map PRT_ADCTRIM.reg ++
  [PRT_NTC.reg] ++
  [PRT_CHKREF.reg] ++
  [PRT_CALST.reg] ++
  [PRT_CMPMODE.reg] ++
  [PRT_CMPEV.reg] ++
  [PRT_CMPST.reg] ++
  [PRT_CMPNOW.reg] ++
  (List.range 9).map PRT_CMP.reg ++
  [DEV_REFST.reg] ++
  [DEV_EDDY.reg] ++
  [DEV_EDDYTRIM.reg] ++
  [DEV_CALLIM.reg]


/-- The registers of 09_alternate_modes.md. -/
def regTable09 : List Reg :=
  [PRT_MUX.reg] ++
  [PRT_MUXCFG.reg] ++
  [PRT_MODEST.reg] ++
  [PRT_MODEEV.reg] ++
  [DEV_SVID.reg]


/-- The registers of 10_twin_pair.md. -/
def regTable10 : List Reg :=
  [PAIR_ST.reg] ++
  [PAIR_SHOK.reg] ++
  [PAIR_CFG.reg] ++
  [PAIR_CTL.reg] ++
  [PAIR_HO.reg] ++
  [PAIR_EV.reg] ++
  [PAIR_LERR.reg] ++
  [PAIR_CREDIT.reg] ++
  (List.range 16).map PAIR_HSOUT.reg ++
  (List.range 16).map PAIR_HSIN.reg ++
  [PRT_MIRCMT.reg] ++
  [PRT_SHADOW.reg]


/-- The registers of 13_engine_runtime.md. -/
def regTable13 : List Reg :=
  [FL_WIN.reg] ++
  [DEV_IBSEL.reg] ++
  [DEV_SWAP.reg] ++
  [DEV_SWAPST.reg]


/-- The registers of 14_faults_watchdog.md. -/
def regTable14 : List Reg :=
  [WEIR_CFG.reg] ++
  [WEIR_ST.reg] ++
  [WEIR_CTL.reg] ++
  [WEIR_USTK.reg] ++
  [WEIR_USEV.reg] ++
  [WEIR_UFRC.reg] ++
  [WEIR_UREC.reg] ++
  [WEIR_ECC.reg] ++
  (List.range 64).map WEIR_UCFG.reg ++
  (List.range 24).map WEIR_PCFG.reg ++
  [WEIR_PSTK.reg] ++
  [WEIR_PSEV.reg] ++
  [WEIR_PFRC.reg] ++
  [WEIR_PST.reg] ++
  [WEIR_PREC.reg] ++
  [WDG_CFG.reg] ++
  [WDG_CHK.reg] ++
  [WDG_SVC.reg] ++
  [WDG_ST.reg] ++
  (List.range 17).map WDG_RCNT.reg ++
  [WDG_CAUSE.reg] ++
  [WEIR_RET.reg]


/-- The registers of 15_fuses_presence.md. -/
def regTable15 : List Reg :=
  [OTP_CTL.reg] ++
  [OTP_DATA.reg] ++
  [OTP_ST.reg] ++
  [OTP_LOCKST.reg] ++
  [OTP_REGST.reg] ++
  (List.range 2).map OTP_MARGW.reg ++
  [OTP_LCST.reg] ++
  [DEV_PRES.reg] ++
  [DEV_SEALRET.reg]


/-- The registers of 16_update_config_calibration.md. -/
def regTable16 : List Reg :=
  [DEV_FWST.reg] ++
  [DEV_CFGST.reg] ++
  [DEV_CALST.reg]


/-- The registers of 17_counters_log.md. -/
def regTable17 : List Reg :=
  (List.range 32).map CNT_CFG.reg ++
  (List.range 32).map CNT_VAL.reg ++
  (List.range 32).map CNT_SNAP.reg ++
  [CNT_CTL.reg] ++
  [CNT_SNAPCFG.reg] ++
  [CNT_SNAPTICK.reg] ++
  [LOG_OLDEST.reg] ++
  [LOG_NEXT.reg] ++
  [LOG_WRAP.reg] ++
  [LOG_ST.reg]

/-- Every register of the register tables. -/
def regTable : List Reg :=
  regTable02 ++ regTable03 ++ regTable04 ++ regTable05 ++ regTable06 ++ regTable07 ++ regTable08 ++ regTable09 ++ regTable10 ++ regTable13 ++ regTable14 ++ regTable15 ++ regTable16 ++ regTable17

end Sys2Proof.Machine
end

