-- ==== Sys2Proof/Machine/State.lean ====
section
/-!
DEFINITION. The state of one unit as plain data, and the state right after power-on reset.

Register fields are held in `State.regs`, keyed by their place (`Fld.key`); an unlisted field has its
reset value. The structures below hold what the spec gives the unit beyond its registers: timers,
latches, queues and engines.
-/
namespace Sys2Proof.Machine

/-- Why a step can stop with a fault. No command of this hardware does. -/
inductive Fault
  /-- Raised by no step: the spec gives every command an effect. Safe: nothing stops. -/
  | none_
  deriving DecidableEq, Repr

/-- Why a step can be refused. -/
inductive Refusal
  /-- Raised by `exec` for a row of the table that has no meaning yet. Safe: the run stops. -/
  | notModelled (mnemonic : String)
  deriving DecidableEq, Repr

/-! ## Faults and evidence (chapters 14 and 17) -/

/-- The counting window of one weir index (R398), and what the index saw (R395, R408). -/
structure WeirIdx where
  opened : Bool := false
  start : Nat := 0
  cnt : Nat := 0
  /-- The condition of the index is true. -/
  cond : Bool := false
  /-- The index recorded an event in the tick now running. -/
  hit : Bool := false
  deriving DecidableEq, Repr

/-- The reaction in force on one scope (R400 to R411); class 0 is none. -/
structure React where
  cls : Nat := 0
  quiet : Nat := 0
  /-- Made in the tick now running: the quiet count starts at the next edge. -/
  fresh : Bool := false
  latched : Bool := false
  /-- WEIR_CLEAR ends the latched reaction at the next edge (R411). -/
  leave : Bool := false
  deriving DecidableEq, Repr

/-- The release window of one scope (R410). -/
structure RelWin where
  opened : Bool := false
  start : Nat := 0
  cnt : Nat := 0
  deriving DecidableEq, Repr

/-- What the weir holds beyond its registers. Scopes 0 to 15 are the ports, 16 the unit. -/
structure WeirHw where
  idx : Tab WeirIdx := []
  react : Tab React := []
  rel : Tab RelWin := []
  /-- Ports in safe state under R417, and those whose engine has not resumed yet. -/
  holdPorts : Nat := 0
  /-- Edges left of the FAULT_N pulse (R406); `some 0` is due. -/
  pulse : Option Nat := none
  release : Bool := false
  /-- The ports the unit owned when it entered unit safe state (R94). -/
  ownedSafe : Nat := 0
  /-- A class at or above FLVL was classified severe during boot (R405). -/
  bootSevere : Bool := false
  deriving DecidableEq, Repr

/-- One strandline record without its check (R478). -/
structure LogRec where
  code : Nat
  src : Nat
  tick : Nat
  htime : Nat
  data : List Byte
  deriving DecidableEq, Repr

/-- What the strandline log holds beyond its registers (R477 to R484). -/
structure LogHw where
  /-- Records waiting, oldest first. -/
  buf : List LogRec := []
  /-- Sector being written (0 to 799) and next position in it. -/
  sector : Nat := 0
  pos : Nat := 0
  /-- Records dropped since the last record of code 0x10, and the tick of the first. -/
  drops : Nat := 0
  dropTick : Nat := 0
  deriving DecidableEq, Repr

/-- What one counter holds beyond its registers: the ports that qualified in this tick (R472). -/
structure CntHw where
  qual : Nat := 0
  /-- The setting was written: count and snapshot clear at the next edge (R470). -/
  fresh : Bool := false
  deriving DecidableEq, Repr

/-- One watchdog beyond its registers (R414). -/
structure WdgHw where
  /-- The first window after reset is running. -/
  first : Bool := true
  /-- The window has begun. -/
  begun : Bool := false
  openT : Nat := 1
  limit : Nat := 0
  /-- An early service was written in this tick. -/
  early : Bool := false
  /-- The mask in force in this window. -/
  mask : Nat := 1
  /-- Edges left before an engine hold expires (R417). -/
  hold : Option Nat := none
  /-- EH: the ticks of the flash erase wait it stands in (R418). -/
  waited : Nat := 0
  deriving DecidableEq, Repr

/-! ## Host link (chapter 11) -/

/-- Which places of the entry queue an entry takes (R307). -/
inductive Place | completion | raise | event | refusal
  deriving DecidableEq, Repr

/-- A reply, completion, event or front-end refusal waiting to be read (R301). -/
structure Entry where
  place : Place
  op : Nat
  tag : Nat
  flags : Nat
  status : Nat
  data : List Byte
  deriving DecidableEq, Repr

/-- A command packet the front end accepted (R302). -/
structure Packet where
  op : Nat
  tag : Nat
  params : List Byte
  /-- Its descriptor stands in the host mailbox (R386). -/
  posted : Bool := false
  /-- An edge has passed since its tag was accepted: it may be taken up (R29, R305). -/
  late : Bool := false
  deriving DecidableEq, Repr

/-- A command that answered ACCEPTED or DEFERRED and awaits its completion (R302). -/
structure OpenCmd where
  op : Nat
  tag : Nat
  port : Nat
  deriving DecidableEq, Repr

/-- The host link front end and the interpreter's queues. -/
structure HostHw where
  entries : List Entry := []
  /-- The entry most recently removed (REREAD). -/
  last : Option Entry := none
  /-- Tags in flight (R302), and the packet slot each tag was last given. -/
  tags : List Nat := []
  slots : Tab Nat := []
  /-- MBX_HRLEN: reply data bytes (R386). -/
  hrlen : Nat := 0
  urgent : List Packet := []
  fast : List Packet := []
  slow : List Packet := []
  /-- Commands of the fast queue taken up in this tick, of the 8 that EH takes (R305). -/
  took : Nat := 0
  opened : List OpenCmd := []
  evMask : Nat := 0xFFFF
  width : Nat := 0
  /-- A width that applies once the reply with this tag has been read (R314). -/
  widthNext : Option (Nat × Nat) := none
  /-- Events were dropped since the last one queued (R307). -/
  lost : Bool := false
  /-- Bytes the unit drives back in the transaction in progress. -/
  out : List Byte := []
  /-- A UNIT_RESET that resets at the first edge after its event or reply was read (R315): its tag,
  the ticks left of the 10 ms, and whether the entry has been read. -/
  resetPend : Option (Nat × Nat × Bool) := none
  deriving DecidableEq, Repr

/-! ## Power path (chapter 7) -/

/-- What the power path of one port holds beyond its registers. Timers count ticks at edges:
`none` is stopped, `some 0` is due. -/
structure PwrHw where
  /-- Rises of the two poles of the energy model, Q12.20 K (R200), and the ticks since the engine last
  advanced them (R203). -/
  t1 : Nat := 0
  t2 : Nat := 0
  idle : Nat := 0
  /-- t_OFF_MIN since Off was entered (R187, R190). -/
  offMin : Option Nat := none
  quiet : Option Nat := none
  dis : Option Nat := none
  gateRise : Option Nat := none
  /-- 20 ms for the rail to reach the vSafe5V window, and the consecutive ticks it has held it (R218). -/
  regStart : Option Nat := none
  railOk : Nat := 0
  /-- Consecutive edges in On with GATEOK at 0 and no limit-active (R192). -/
  gateLow : Nat := 0
  /-- Limit-active was registered in this tick. -/
  limTick : Bool := false
  /-- The limit-time count of R202 runs, its value, and the edges since limit-active. -/
  limOn : Bool := false
  limCnt : Nat := 0
  limIdle : Nat := 0
  /-- Consecutive ticks of excess current with the gate pulled down, and this tick's (R193). -/
  stuck : Nat := 0
  isnsHigh : Bool := true
  isnsSeen : Bool := false
  /-- The gate driver is in the 1 µs of fast pull-down (R185). -/
  fastPull : Bool := false
  /-- Every condition of a clean tick has held so far (R209): state, VBUS results, GATEOK. -/
  clean : Bool := false
  vbusSeen : Nat := 0
  /-- Reverse current was registered in this tick, and the forward condition of R207 held. -/
  revTick : Bool := false
  revPrev : Bool := false
  fwdOk : Bool := false
  /-- PRT_EHEAD was written in this tick, and in the tick before (R201). -/
  headNow : Bool := false
  headPrev : Bool := false
  /-- Headroom as written for the judgement of the tick just ended. -/
  headVal : Nat := 0
  /-- PRT_ELAST of the last 8 ticks, newest first (R204). -/
  elastHist : List Nat := []
  /-- This unit owned the port from the edge of the tick now running (R204). -/
  judged : Bool := false
  /-- A bit of PRT_PWREV has been set since the last POWER event (log entry 52). -/
  news : Bool := false
  /-- A trip the engine has not reported yet (R212), and a retry it owes. -/
  tripReport : Bool := false
  retrySink : Bool := false
  /-- A sink-mode port waits in Off for PORT_ENABLE (R206, R212). -/
  waitSink : Bool := false
  /-- The deferred PORT_ENABLE's tag (R190). -/
  deferTag : Option Nat := none
  deriving DecidableEq, Repr

/-- A PMBus transaction to a port's regulator (R215, R216). -/
inductive PmTxn
  | voutMode
  | clearFaults
  | operation (b : Nat)
  | voutCommand (w : Nat)
  | transitionRate (w : Nat)
  | statusWord
  | statusVout
  | statusIout
  | statusInput
  | statusTemperature
  deriving DecidableEq, Repr

/-- The regulator of one port as its engine drives it (R215 to R218). -/
structure RegHw where
  /-- The transaction in flight, and those posted after it. -/
  txn : Option PmTxn := none
  waiting : List PmTxn := []
  /-- VOUT_MODE has been read, and its mode was linear. -/
  modeRead : Bool := false
  linear : Bool := false
  /-- Status register bits the last reads showed, for REGWARN (R217). -/
  seenWord : Nat := 0
  seenVout : Nat := 0
  seenIout : Nat := 0
  seenInput : Nat := 0
  seenTemp : Nat := 0
  /-- Writes the engine owes once the mode is known, a VOUT_COMMAND among them with its voltage in
  10 mV (R215). -/
  owed : List PmTxn := []
  /-- The port was taken while it sourced: its output is not switched off at the first reads. -/
  live : Bool := false
  /-- Edges since the last STATUS_WORD poll (R216). -/
  poll : Nat := 0
  deriving DecidableEq, Repr

/-- One quad's junction (R220 to R222): what its monitors register now. -/
structure QuadHw where
  faPres : Bool := false
  fbPres : Bool := false
  busUv : Bool := false
  faOn : Bool := false
  fbOn : Bool := false
  rtOn : Bool := false
  /-- Q{q}_VCONN lies below its threshold, so the VCONN switches refuse to close (R121). -/
  vconnUv : Bool := false
  deriving DecidableEq, Repr

/-! ## Attach (chapter 4) -/

/-- A command that writes PRT_CCCTL.FORCE and replies at the edge its value is applied (R317). -/
structure ForceCmd where
  op : Nat
  tag : Nat
  /-- The reply is a completion event: the command answered DEFERRED. -/
  event : Bool
  deriving DecidableEq, Repr

/-- What the attach block of one port holds beyond its registers. Timers count ticks at edges. -/
structure AttHw where
  /-- Threshold latches: bits 0 to 4 are CC1's vRa, vOpen, vRd-Connect, vRd-1.5, vRd-3.0; bits 5 to
  9 are CC2's (R104). Preset 0 side: vRa and vOpen at 1 (R110). -/
  latches : Nat := 0b0001100011
  /-- Comparisons made in the scan in progress, and what they saw on each CC. -/
  scanPos : Nat := 0
  disc1 : Bool := false
  disc2 : Bool := false
  /-- Thresholds, numbered as `latches`, whose last comparison of the scan lay in the hysteresis
  band (R109). -/
  band : Nat := 0
  /-- What the scan that has ended shows, until the next edge copies it (R108): the level on CC1 and
  on CC2, and their INBAND bits. -/
  scan : Option (Nat × Nat × Bool × Bool) := none
  /-- A bit of PRT_ATTEV has been set since the last ATTACH event (log entry 52). -/
  news : Bool := false
  /-- The Rp level applied since the last edge (R107, R123), and the tick in which the last scan began, which
  Low Water counts its 32 ticks from (R106). -/
  rpNow : Nat := 0
  scanAt : Nat := 0
  /-- The accessory or powered cable now seen has set PRT_ATTEV.ACC (R112). -/
  accSeen : Bool := false
  /-- The terminations changed in this tick (R107). -/
  termChg : Bool := false
  /-- Levels at the start of the debounce interval. -/
  ref1 : Nat := 7
  ref2 : Nat := 7
  drp : Option Nat := none
  ccDb : Option Nat := none
  pdDb : Option Nat := none
  tryCcDb : Option Nat := none
  drpTry : Option Nat := none
  tryTo : Option Nat := none
  errRec : Option Nat := none
  srcDis : Option Nat := none
  sinkTx : Option Nat := none
  /-- PRT_CCCTL.FORCE written since the last edge (R115); 0 none. -/
  force : Nat := 0
  /-- The command whose FORCE value is waiting for the edge. -/
  forceCmd : Option ForceCmd := none
  roleSw : Bool := false
  /-- The CC overvoltage detector has tripped and ErrorRecovery has not been entered (R122). -/
  ovPend : Bool := false
  /-- A ROLESW that is still to be applied is reversed at the edge after that (R178). -/
  roleBack : Bool := false
  /-- The block made its transition of this edge (R115). -/
  moved : Bool := false
  /-- Consecutive scans in which the shadow's levels disagree (R126). -/
  shDis : Nat := 0
  /-- No termination has replaced the dead-battery clamps since reset (R83): they are present while this
  holds and DB_OFF is low (R82). -/
  clamp : Bool := true
  deriving DecidableEq, Repr

/-! ## Power Delivery (chapters 5, 6 and 9) -/

/-- A Power Delivery message: SOP type (0 SOP, 1 SOP', 2 SOP''), the header's Extended bit, type,
object count, MessageID and revision, its bits 5 and 8 (roles) as received, and everything after the
header. -/
structure Msg where
  sop : Nat := 0
  ext : Bool := false
  typ : Nat := 0
  ndo : Nat := 0
  id : Nat := 0
  rev : Nat := 0
  bit5 : Bool := false
  bit8 : Bool := false
  data : List Byte := []
  deriving DecidableEq, Repr

/-- What the GoodCRC of a transmitted message does beyond ending its transmission. -/
inductive OnAck
  | nothing
  /-- The Accept of a contract (R161, R168). -/
  | acceptContract
  /-- The Accept of a swap of this kind (PRT_ROLE.SWAP code). -/
  | acceptSwap (kind : Nat)
  /-- PS_RDY of a contract transition, of a PR_Swap, a VCONN_Swap, a Fast Role Swap. -/
  | rdyContract
  | rdyPrSwap
  | rdyVconn
  | rdyFrs
  /-- EPR_Mode Enter_Succeeded and Exit (R165, R167). -/
  | eprEntered
  | eprExit
  /-- Soft_Reset, and the Accept that answers one (R138). -/
  | softReset
  /-- Source_Capabilities before any contract (R144). -/
  | srcCaps
  /-- The ACK of Enter Mode, and of Exit Mode, as responder (R253, R254). -/
  | modeAck
  | exitAck
  /-- Discover Identity on SOP' (R152). -/
  | cable
  /-- The Accept of Data_Reset (R255). -/
  | dataReset
  deriving DecidableEq, Repr

/-- A message queued for transmission. -/
structure TxItem where
  msg : Msg
  onAck : OnAck := .nothing
  /-- The host command that waits on it: opcode and tag. -/
  cmd : Option (Nat × Nat) := none
  /-- It answers a raised message, by PD_ANSWER or the fallback (R151). -/
  answers : Bool := false
  deriving DecidableEq, Repr

/-- A request that awaits its response (R511). -/
structure ReqWait where
  sop : Nat
  code : Nat
  /-- SVID and command of a structured VDM. -/
  svid : Nat := 0
  vcmd : Nat := 0
  cmd : Option (Nat × Nat) := none
  deriving DecidableEq, Repr

/-- What is on the line from the port. -/
inductive Line
  | idle
  /-- A GoodCRC of this SOP type, with its header (R130). -/
  | goodCrc (sop head : Nat)
  | packet
  | hardReset
  | cableReset
  deriving DecidableEq, Repr

/-- An open raise (R149): its number and message. -/
structure Raise where
  num : Nat
  msg : Msg
  deriving DecidableEq, Repr

/-- A contract as proposed or in force, voltages of the window in 10 mV. -/
structure Contract where
  typ : Nat := 0
  pos : Nat := 0
  volt : Nat := 0
  /-- The voltage for VOUT_COMMAND, in 10 mV (R163). -/
  mv10 : Nat := 500
  cur : Nat := 0
  lo : Nat := 475
  hi : Nat := 550
  deriving DecidableEq, Repr

/-- The Power Delivery link of one port beyond its registers (chapter 5). Timer k of R143 is entry
k of `tim`: none is idle, `some 0` is due. -/
structure PdHw where
  tim : Tab (Option Nat) := []
  /-- Timers that were due and have been started again: their expiry is still to be acted on (R143). -/
  owedT : List Nat := []
  rx : List Msg := []
  /-- A GoodCRC the hardware has prepared. -/
  gcrc : Option (Nat × Nat) := none
  /-- Ordered sets requested: Hard_Reset, Cable_Reset, and the command that asked for each. -/
  ordHard : Bool := false
  ordCable : Bool := false
  ordCmd : Option (Nat × Nat) := none
  ordCabCmd : Option (Nat × Nat) := none
  replies : List TxItem := []
  engine : List TxItem := []
  hostq : List TxItem := []
  /-- Entry of the extension block's ring that holds the head of `hostq` (QHEAD, R266). -/
  qhead : Nat := 0
  /-- The packet being sent or awaiting GoodCRC, its retries left, and whether it must be sent
  (again). -/
  cur : Option TxItem := none
  retries : Nat := 0
  resend : Bool := false
  line : Line := .idle
  wait : Option ReqWait := none
  raise : Option Raise := none
  raiseNum : Nat := 0
  /-- Hard_Resets sent since the last good SOP packet (R144). -/
  hardSent : Nat := 0
  /-- Source_Capabilities sent without a GoodCRC (R144). -/
  capsSent : Nat := 0
  /-- Block 0 or 1 changed under a contract: the capabilities are sent at the next edge (R321). -/
  capsOwed : Bool := false
  /-- Partner's source objects as last received, and the list a transition keeps (R162). -/
  srcCaps : List Nat := []
  keptCaps : List Nat := []
  partnerDrp : Bool := false
  /-- Objects last advertised as source (R145). -/
  offered : List Nat := []
  /-- The last Request or EPR_Request the port sent as sink (R143, timer 18). -/
  lastReq : Option Msg := none
  /-- EPR Mode Capable in the last Request received (R165). -/
  eprCapable : Bool := false
  /-- Extended message in assembly: first chunk, data so far, next chunk (R141). -/
  asm : Option (Msg × List Byte × Nat) := none
  /-- Chunks still to send of an extended message, and the message they belong to, whose GoodCRC is that of its
  last chunk. -/
  chunks : List Msg := []
  chunkOf : Option TxItem := none
  /-- Ticks the head of the queue has been held (R155). -/
  heldFor : Nat := 0
  /-- The last two packets overheard on a shadowed port, newest last: whether the port's owner sent it,
  and whether a GoodCRC followed (R157). -/
  heard : List (Msg × Bool × Bool) := []
  /-- FRS signal: detected and FR_Swap not yet queued; detected and the hardware turn-on not yet made
  (R173); and being generated (R134). -/
  frsSeen : Bool := false
  frsDet : Bool := false
  frsGen : Bool := false
  /-- The PHY has woken since the unit entered Low Water (R25, R34). -/
  phyOn : Bool := false
  /-- Descriptor loaded by TXLOAD (R156). -/
  txDesc : Option Msg := none
  lastAck : Nat := 0
  /-- BIST carrier on the line (R142). -/
  carrier : Bool := false
  deriving DecidableEq, Repr

/-- Contract transitions, swaps and hard-reset sequences of one port (chapter 6). -/
structure SwapHw where
  /-- The contract a transition leads to, and whether its Accept has been acknowledged. -/
  goal : Option Contract := none
  go : Bool := false
  /-- An Accept has been taken whose GoodCRC the port has still to finish sending: the code of the
  request it answers (R168). -/
  acc : Option Nat := none
  /-- The contract in force. -/
  held : Contract := {}
  srcTr : Option Nat := none
  srcRdy : Option Nat := none
  newPwr : Option Nat := none
  psOff : Option Nat := none
  psOn : Option Nat := none
  vconnTo : Option Nat := none
  vconnOn : Option Nat := none
  psHr : Option Nat := none
  srcRec : Option Nat := none
  sinkHr : Option Nat := none
  /-- Consecutive ticks with both VBUS results in the window awaited. -/
  okTicks : Nat := 0
  /-- PS_RDY has been received and its step not taken; the PS_RDY of the step has been queued. -/
  rdySeen : Bool := false
  rdySent : Bool := false
  /-- Hard-reset sequence: 0 none, source 1 tPSHardReset, 2 discharge,
  3 tSrcRecover, 4 rise; sink 5 until VBUSOK falls, 6 until it returns. -/
  hrSeq : Nat := 0
  /-- Attach state held when the swap began (R178). -/
  baseAtt : Nat := 0
  /-- ROLESW has been applied in this swap. -/
  swDone : Bool := false
  ppsOver : Nat := 0
  ppsUnder : Nat := 0
  /-- VOUT as last commanded, 10 mV. -/
  vout : Nat := 500
  /-- The hardware turn-on of R173 has happened. -/
  frsOn : Bool := false
  /-- The host command that began the swap. -/
  cmd : Option (Nat × Nat) := none
  deriving DecidableEq, Repr

/-- A message held for TSETTLE (R252 to R254): what it is, the ticks left, and the message. -/
structure MuxHold where
  kind : Nat
  left : Nat
  item : Option TxItem := none
  deriving DecidableEq, Repr

/-- The mux of one port beyond its registers (chapter 9). -/
structure MuxHw where
  hold : Option MuxHold := none
  /-- An entry or exit is in progress: 0 none, 1 entry, 2 exit. -/
  busy : Nat := 0
  /-- Object position of the entry or exit in progress. -/
  pos : Nat := 0
  /-- CFG of R251 is owed once HOLDATT clears (R255). -/
  owed : Bool := false
  deriving DecidableEq, Repr

/-! ## Converters and comparators (chapter 8) -/

/-- The converter and comparators of one port beyond their registers. -/
structure AdcHw where
  /-- The tick's slot 1 and slot 5 VBUS codes (R161, R209), and its slot 3 RAIL code. -/
  vb1 : Option Nat := none
  vb5 : Option Nat := none
  rail : Option Nat := none
  /-- Sum and number of this tick's ISNS codes, for the mean (R199, PRT_RIMEAN). -/
  isum : Int := 0
  icnt : Nat := 0
  /-- Consecutive NTC results outside their limits, and the latest inside them (R228). -/
  ntcBad : Nat := 0
  ntc : Option Nat := none
  chkBad : Nat := 0
  hot : Nat := 0
  overTemp : Bool := false
  /-- Comparator outputs that changed in this tick (PRT_CMPEV), and those that still hold their
  preset (R238). -/
  chg : Nat := 0
  preset : Nat := 0b111000
  deriving DecidableEq, Repr

/-- The eddy converter beyond DEV_EDDY (R231 to R234): the port it calibrates, the edges left until
the residuals are judged, and the ticks its check has been out of and within limits. -/
structure EddyHw where
  port : Nat := 0
  left : Option Nat := none
  okTicks : Nat := 0
  outTicks : Nat := 0
  /-- Ticks since the last self-trim. -/
  since : Nat := 0
  deriving DecidableEq, Repr

/-- The energy model of one port as configured (R200): coefficients as the configuration carries
them, junction limit and guard in °C and K, and the NTC curve. -/
structure EnergyCfg where
  coeffs : List Nat := []
  tjmax : Nat := 125
  guard : Nat := 10
  beta : Nat := 3435
  r25 : Nat := 10
  deriving DecidableEq, Repr

/-- The hardware of one port beyond its registers. -/
structure PortHw where
  energy : EnergyCfg := {}
  adc : AdcHw := {}
  pd : PdHw := {}
  sw : SwapHw := {}
  mux : MuxHw := {}
  pwr : PwrHw := {}
  att : AttHw := {}
  reg : RegHw := {}
  deriving DecidableEq, Repr

/-! ## Profile and boot (chapters 1 and 3) -/

/-- The profile (1 Flood, 2 Ebb, 3 Low Water) and the changes that wait (R25 to R36). -/
structure ProfHw where
  cur : Nat := 1
  /-- Changes and the edges they take effect at, in rising order. -/
  pend : List (Nat × Nat) := []
  /-- A UNIT_PROFILE deferred under R32: profile and tag. -/
  deferred : Option (Nat × Nat) := none
  /-- The request this unit carries in H4 until the twin shows the profile (R29), and the tick in which it
  was accepted (R31). -/
  request : Option (Nat × Nat) := none
  /-- WAKE in this unit's heartbeat word (R35). -/
  wake : Bool := false
  deriving DecidableEq, Repr

/-- Where the unit stands between reset and the end of boot (chapters 3, 15, 16, 18). -/
inductive Phase
  /-- In reset: supplies or RESET_N hold it. -/
  | reset
  /-- Reset has ended; straps, references, fuses, PLL and image are being taken up. -/
  | boot
  /-- Boot is complete. -/
  | run
  deriving DecidableEq, Repr

/-- The boot sequence. -/
structure BootHw where
  phase : Phase := .boot
  /-- A class 3 source before the end of boot holds the unit in reset (R403). -/
  hold : Bool := false
  /-- The pair position latched at the previous strap sampling (R73); none after power-on reset. -/
  lastPos : Option Nat := none
  /-- How EH's last watchdog reset was judged, for the record of the next boot (R416). -/
  ehLast : Nat := 0
  /-- What the straps, the PLL, the references, the OTP and the image have reached. -/
  strapped : Bool := false
  /-- Edges since the PLL locked, and the ticks' worth of time from the start of the reset to the lock,
  which nothing in the unit counts (R187; log entry 78). -/
  ticks : Nat := 0
  early : Nat := 0
  otpRead : Bool := false
  loader : Bool := false
  /-- Ticks since boot completed, while the twin is awaited (R276). -/
  formT : Option Nat := none
  /-- The profile the configuration names for after boot (R30, R458); 0 none. -/
  profile : Nat := 0
  deriving DecidableEq, Repr

/-! ## Engines, mailboxes and locks (chapters 12 and 13) -/

/-- One hardware loop level (R347). -/
structure Loop where
  ls : Nat
  le : Nat
  lc : Nat
  deriving DecidableEq, Repr

/-- What an engine is doing. -/
inductive Run
  /-- Not released since reset, in unit safe state, or held for an exchange. -/
  | held
  | running
  /-- In WTICK. -/
  | waiting
  /-- Stopped by a double trap (R352). -/
  | stopped
  deriving DecidableEq, Repr

/-- One engine (R335 to R337). -/
structure Engine where
  run : Run := .held
  /-- Window file (0 to 127), x0 to x7 (128 to 135) and p0 to p7 (136 to 143). -/
  rf : Tab Nat := []
  bank : Nat := 0
  pc : Nat := 0
  a0 : Nat := 0
  a1 : Nat := 0
  crc : Nat := 0xFFFFFFFF
  crc8 : Bool := false
  /-- C, Z, N, V, IE, INT and TRAP at their PSW bits. -/
  psw : Nat := 0
  /-- Loop levels, innermost first. -/
  loops : List Loop := []
  base : Nat := 0
  resg : Nat := 2
  ssp : Nat := 0x3800
  ssb : Nat := 0x3800
  ssl : Nat := 0x3C00
  rc : Nat := 0
  ipc : Nat := 0
  ipsw : Nat := 0
  tpc : Nat := 0
  tpsw : Nat := 0
  tcause : Nat := 0
  tval : Nat := 0
  tbank : Nat := 0
  imask : Nat := 0
  cyc : Nat := 0
  /-- Cycles used in the last tick, and the most since reset (ENGINE_STATUS). -/
  cycLast : Nat := 0
  cycMost : Nat := 0
  /-- Frames above the one in force at engine reset (R346). -/
  depth : Nat := 0
  /-- Loads and pointer updates that land at the end of the next word (R341): register file key and
  value, and whether it is a post-increment. -/
  delay : List (Nat × Nat × Bool) := []
  /-- The word just issued was a load (R351). -/
  loaded : Bool := false
  /-- The bank the word just issued reached without a wait (R340). -/
  lastBank : Option Nat := none
  /-- Engine cycles until A0 and A1 are ready (R361). -/
  busy0 : Nat := 0
  busy1 : Nat := 0
  /-- A release waits to be used by the next WTICK (R48, R357). -/
  latched : Bool := false
  /-- The handler in force was entered from a WTICK wait. -/
  inWait : Bool := false
  /-- Released from reset and not in WTICK since: the engine has not resumed (R417). -/
  fresh : Bool := true
  /-- The engine runs in the tick now running, and ran in the one before: in Low Water only where it has
  been woken (R34, R45). -/
  awake : Bool := true
  awoke : Bool := true
  /-- It has issued a word since its release and has not reached WTICK (R48). -/
  stepped : Bool := false
  /-- It has overrun the tick that ended and is still in that list (R48). -/
  behind : Bool := false
  /-- What a read of byte 0 latched of each coherent register, by its address (R68). -/
  coh : Tab (Option Nat) := []
  /-- The instruction bank in use (R374): false bank 0, true bank 1. -/
  act : Bool := false
  /-- An exchange: 0 none, 1 first attempt due, 2 second, 3 held; and the edges left of the hold. -/
  swap : Nat := 0
  swapLeft : Nat := 0
  deriving DecidableEq, Repr

/-- A word in an inbound mailbox queue: its 64 bits, and whether it starts and ends a message. -/
structure MbxWord where
  bits : Nat
  first : Bool
  last : Bool
  deriving DecidableEq, Repr

/-- One mailbox end (R379 to R387). -/
structure MbxEnd where
  staged : Nat := 0
  rx : List MbxWord := []
  /-- Words still to come of the message being sent, and the first word of the one being popped. -/
  txLeft : Nat := 0
  rxFirst : Nat := 0
  txSeq : Nat := 0
  /-- Messages sent and not acknowledged, oldest first: SEQ and age in edges. -/
  unack : List (Nat × Nat) := []
  /-- First words of the messages popped and not acknowledged, oldest first. -/
  popped : List Nat := []
  /-- Acknowledgements received: SEQ and code. -/
  ackin : List (Nat × Nat) := []
  /-- The acknowledgement entry whose byte 0 was last read (bytes 1 to 3 of MBX_ACKIN). -/
  ackRead : Nat := 0
  ev : Nat := 0
  ie : Nat := 0
  /-- Both ages are above 64 and the stall has been recorded. -/
  stalled : Bool := false
  deriving DecidableEq, Repr

/-! ## OTP and presence (chapter 15) -/

/-- An operation of the OTP controller in progress. -/
structure OtpOp where
  op : Nat
  region : Nat
  word : Nat
  raw : Bool
  data : Nat
  /-- The command that asked: opcode and tag; none for OTP_CTL. -/
  cmd : Option (Nat × Nat)
  /-- A reading at strict margin. -/
  strict : Bool := false
  deriving DecidableEq, Repr

/-- The fuse array: 128 data words and the control row (WL 15:0, RL 31:16, DBGLOCK 32, TAPOFF 33), as
they read at normal and at strict margin, and the values boot formed (R426, R428). -/
structure OtpHw where
  normal : Tab Nat := []
  strict : Tab Nat := []
  ctlNormal : Nat := 0
  ctlStrict : Nat := 0
  used : Tab Nat := []
  op : Option OtpOp := none
  deriving DecidableEq, Repr

/-- The presence monitor (R437, R438). -/
structure PresHw where
  /-- The level sampled at the last edges and for how many. -/
  sample : Bool := true
  count : Nat := 0
  /-- A level has been confirmed since reset. -/
  known : Bool := false
  /-- Ticks since a press was confirmed low. -/
  press : Option Nat := none
  /-- Ticks left of the button window. -/
  window : Option Nat := none
  /-- Consecutive ticks sampled high, and whether they have reached 1 s (STUCK, R100). -/
  highFor : Nat := 0
  unstuck : Bool := false
  deriving DecidableEq, Repr

/-! ## The pair (chapter 10) -/

/-- An open handover as this unit knows it (R279): whether it proposed, whether the proposer takes,
its ports, number and switch edge, the tick of the proposal, the phase this unit carries in H2, and the
command that asked. -/
structure Handover where
  prop : Bool
  take : Bool
  mask : Nat
  id : Nat
  edge : Nat
  start : Nat
  phase : Nat
  /-- The answerer has read COMMIT. -/
  commit : Bool := false
  cmd : Option (Nat × Nat) := none
  /-- It withdraws the unit when it completes (R290), and a UNIT_RESET waits for it (R315). -/
  withdraw : Bool := false
  resets : Bool := false
  deriving DecidableEq, Repr

/-- A bulk message queued or sent (R272): channel, sequence, port and words after the header. -/
structure BulkOut where
  chan : Nat
  seq : Nat
  port : Nat
  words : List Nat
  deriving DecidableEq, Repr

/-- A host command that completes when the twin has acknowledged the copy of a port's extension block
(R274). -/
structure ExtWait where
  port : Nat
  op : Nat
  tag : Nat
  /-- Acknowledgements of the port's copies still to come, its own among them. -/
  left : Nat := 0
  /-- A PD_SEND whose GoodCRC has arrived. -/
  ready : Bool := false
  /-- PD_CAPS_SET changed block 0 or 1. -/
  caps : Bool := false
  /-- The reply table entries of PD_REPLY_SET: number and value. -/
  table : List (Nat × Nat) := []
  deriving DecidableEq, Repr

/-- Ports this unit is about to own: their mask, the first owned edge, and why (R480: 3 takeover, 4
release taken). -/
structure Assume where
  mask : Nat
  edge : Nat
  why : Nat
  deriving DecidableEq, Repr

/-- What the unit holds about its twin beyond the registers of bank 0xF2. -/
structure PairHw where
  /-- Ticks of listening time left (R55), and whether an edge was heard in it. -/
  listen : Option Nat := none
  edgeHeard : Bool := false
  /-- Ticks without a master edge (R59), and with a skew above 16 cyc (R58). -/
  noEdge : Nat := 0
  skewBig : Nat := 0
  /-- The count to take at the next edge (R60). -/
  adopt : Option Nat := none
  /-- Ticks since a follower was heard (FREERUN). -/
  noFollower : Nat := 0
  /-- H0 to H7 as last applied; empty before the first. -/
  hin : List Nat := []
  /-- The tick in which harbour state was last applied. -/
  hinTick : Nat := 0
  /-- A valid heartbeat word arrived in this tick by link and by SYNC, and its SEQ. -/
  linkHb : Bool := false
  syncHb : Bool := false
  linkSeq : Option Nat := none
  syncSeq : Option Nat := none
  /-- The twin's last valid word. -/
  word : Nat := 0
  missed : Nat := 0
  /-- Two missed heartbeats have been judged, and the loss has been acted on. -/
  lost : Bool := false
  heard : Bool := false
  /-- OWN of the twin in the tick last judged, and of this unit in the tick that ended (R286, R288). -/
  twinWas : Nat := 0
  ownWas : Nat := 0
  /-- Consecutive superframes with a good and with a failing trailer, and ticks in Training. -/
  good : Nat := 0
  bad : Nat := 0
  train : Nat := 0
  /-- Lanes the twin reports it receives: the transmit direction (R262). -/
  txLanes : Nat := 0
  /-- Ports whose record of the last freeze point was written intact with OWNED (R268). -/
  recOk : Nat := 0
  /-- Ports committed since their last freeze (R53). -/
  committed : Nat := 0
  /-- The records frozen for the link, as numbers of 64 bytes. -/
  frozen : Tab Nat := []
  ho : Option Handover := none
  assume : Option Assume := none
  /-- Ports released in this tick, whose OWN bits fall at the next edge (R275, R286). -/
  gone : Nat := 0
  /-- Ports this unit owned last, and those of them turned off because neither heartbeat showed an owner
  (R286). -/
  mine : Nat := 0
  orphan : Nat := 0
  /-- The follower becomes master at the next edge unless it hears an edge before (R59). -/
  rise : Bool := false
  /-- SEQ of this unit's heartbeat word (R97). -/
  seq : Nat := 0
  /-- The profile of the pair has been taken after boot (R30). -/
  joined : Bool := false
  /-- The link has trained, and the base straps have not been compared since (R87). -/
  trained : Bool := false
  /-- Ports the twin stopped showing as owned without a handover (R286). -/
  dropped : Nat := 0
  /-- Ports received at the switch edge, to be compared with the giver's heartbeat (R281). -/
  received : Nat := 0
  receivedAt : Nat := 0
  /-- The formation edge (R276), in force or carried in H4. -/
  form : Option Nat := none
  /-- Ticks for which ownership has differed from HOME (R278). -/
  rebal : Nat := 0
  bulk : List BulkOut := []
  /-- Words of the head message already sent. -/
  bulkPos : Nat := 0
  /-- H2 and H3 as this unit carries them, H0 to H23 as frozen for this tick, and bits 7:0 of this tick's
  heartbeat word (R97, R270). -/
  h2 : Nat := 0
  h3 : Nat := 0
  hout : List Nat := []
  beat : Nat := 0
  /-- The superframe's sequence, the bulk words it carries, the corrected and uncorrectable words of the tick that
  ended and of this one, and the credits it returns and those gathered for the next (R262, R272). -/
  frame : Nat := 0
  bulkOut : List Nat := []
  errs : Nat × Nat := (0, 0)
  errsNow : Nat × Nat := (0, 0)
  credit : Nat := 0
  creditNow : Nat := 0
  /-- Bulk messages sent and not acknowledged, with the ticks since. -/
  sent : List (BulkOut × Nat) := []
  bulkSeq : Nat := 0
  rxSeq : Nat := 0
  ext : List ExtWait := []
  /-- Copies of each port's extension block sent and not acknowledged. -/
  copies : Tab Nat := []
  /-- A time binding on its way to its target edge: edge and host time (R69). -/
  bind : Option (Nat × Nat) := none
  /-- The tick in which this unit's host gave that binding. -/
  bindAt : Option Nat := none
  /-- Commands of unit B that unit A's in the same tick would refuse, not yet answered: opcode, tag and
  the tick they were accepted in (R31, R67). -/
  answers : List (Nat × Nat × Nat) := []
  /-- A twin of this unit's own position has been recorded (R15). -/
  mismatch : Bool := false
  deriving DecidableEq, Repr

/-! ## Flash, versions and firmware (chapter 16) -/

/-- A flash operation (R442): an erase of `n` bytes from `a`, bytes programmed from `a` on, or bytes
put in place of what stood there (a copy of the boot selector, R445). -/
inductive FlashOp
  | erase (a n : Nat)
  | program (a : Nat) (bytes : List Byte)
  | replace (a : Nat) (bytes : List Byte)
  deriving DecidableEq, Repr

/-- What the completion of a flash operation leads to. -/
inductive FlashEnd
  | nothing
  /-- A strandline record written, and the erase of the sector after the one entered. -/
  | log
  | logErase
  /-- FW_STAGE_BEGIN's last erase: its tag, slot, size and identity. -/
  | stageOpen (tag slot size ident : Nat)
  /-- FW_STAGE_DATA programmed up to a byte of the image. -/
  | staged (tag n : Nat)
  /-- The descriptor FW_STAGE_END writes: its tag, final status and slot. -/
  | stageClosed (tag status slot : Nat)
  /-- The boot selector written by FW_ACTIVATE. -/
  | selected (tag slot : Nat)
  /-- The last page of a new configuration version: the command's tag, version, confirm window in
  seconds, and whether the twin gets it too. -/
  | cfgStored (tag version window : Nat) (pair : Bool)
  /-- The last page of a new calibration version. -/
  | calStored (tag version : Nat)
  /-- The last of a transfer received from the twin is programmed: the result to send. -/
  | received (status : Nat)
  deriving DecidableEq, Repr

/-- A flash operation in the queue (R24). -/
structure FlashJob where
  op : FlashOp
  done : FlashEnd := .nothing
  deriving DecidableEq, Repr

/-- A version about to take effect (R459 to R463): its apply edge, the version, how (1 trial, 2 trial
confirmed, 4 reverted to, 5 synchronised with the twin), its confirm window in seconds, whether the twin
applies it too, and the command. -/
structure ApplyAt where
  edge : Nat
  version : Nat
  how : Nat
  window : Nat := 0
  pair : Bool := false
  cmd : Option (Nat × Nat) := none
  deriving DecidableEq, Repr

/-- The run-time side of one version store: the next application, the expiry edge of the confirm window,
and the previous version as it stood before the trial. -/
structure VerHw where
  next : Option ApplyAt := none
  expiry : Option Nat := none
  before : Nat := 0
  deriving DecidableEq, Repr

/-- A transfer with the twin (R455): object, version, bytes, identity, the place or slot it is written
to, content received so far, and ticks the link has been away. -/
structure Transfer where
  object : Nat
  version : Nat
  size : Nat
  ident : Nat
  /-- This unit sends; the command that asked. -/
  sends : Bool
  cmd : Option (Nat × Nat) := none
  window : Nat := 0
  base : Nat := 0
  got : Nat := 0
  bad : Bool := false
  down : Nat := 0
  deriving DecidableEq, Repr

/-- Staging and activation of firmware. -/
structure FwHw where
  /-- The staging session: slot, size, identity. -/
  session : Option (Nat × Nat × Nat) := none
  staged : Nat := 0
  /-- The last session ended with a complete image (FW_STATUS). -/
  complete : Bool := false
  /-- Activation in progress: the tag of its command, and the slot. -/
  act : Option (Nat × Nat) := none
  /-- The exchange of an engine failed twice, and engines are being restored (R450). -/
  restore : Bool := false
  /-- IDENT of the running image (UNIT_INFO.FWID, H7). -/
  ident : Nat := 0
  /-- Engines whose failed exchange has been requested once more. -/
  again : Nat := 0
  /-- Loader mode: the image staged in the shared pool is complete (R454). -/
  loaded : Bool := false
  xfer : Option Transfer := none
  /-- A unit reset at the next edge, with its cause (R450, R315). -/
  resetNext : Option Nat := none
  /-- The flash words found uncorrectable and not erased since (R413). -/
  bad : List Nat := []
  deriving DecidableEq, Repr

/-! ## Pins (chapters 3, 15 and 18) -/

/-- The IEEE 1149.1 test access port: controller state, instruction and data shift registers, the
instruction in force, and TDO while it shifts. -/
structure TapHw where
  st : Nat := 0xF
  irShift : Nat := 0
  ir : Nat := 3
  drShift : Nat := 0
  tdo : Option Bool := none
  deriving DecidableEq, Repr

/-- Supplies, resets and the MUXBUS as the unit's pins show them. -/
structure PinHw where
  vcc33 : Bool := true
  vcore : Bool := true
  vfl : Bool := true
  vdrv : Bool := true
  dbOff : Bool := false
  /-- MUXBUS carries slots: the first edge after boot has passed (R88). -/
  muxOn : Bool := false
  /-- Ports in port safe state at the last edge, and in bit 16 unit safe state (R250). -/
  muxSafe : Nat := 0
  /-- Address and data byte of the slot last driven. -/
  muxAddr : Nat := 0
  muxData : Nat := 0
  /-- Attempts at strap sampling that did not agree (R84). -/
  attempts : Nat := 0
  tap : TapHw := {}
  deriving DecidableEq, Repr

/-! ## The unit -/

/-- The state of one unit. -/
structure State where
  /-- Commands waiting, first in first out. -/
  pending : List Instr := []
  /-- Register fields by place; unlisted fields have their reset value. -/
  regs : Tab Nat := []
  /-- Values in force of fields that latch later than they are written. -/
  eff : Tab Nat := []
  /-- Memory bytes by memory code (WEIR_ECC.UMEM) times 2^24 plus offset. -/
  mem : List Host.Cell := []
  /-- Flash bytes by address; unlisted bytes are erased. -/
  flash : List Host.Cell := []
  ports : Tab PortHw := []
  quads : Tab QuadHw := []
  weir : WeirHw := {}
  log : LogHw := {}
  cnts : Tab CntHw := []
  wdgs : Tab WdgHw := []
  host : HostHw := {}
  prof : ProfHw := {}
  boot : BootHw := {}
  eddy : EddyHw := {}
  engines : Tab Engine := []
  /-- Mailbox ends by `MbxId` and lock owners by number (0 to 15 general, 16 to 23 shared ends). -/
  mbx : Tab MbxEnd := []
  locks : Tab Nat := []
  lockEv : Tab Nat := []
  otp : OtpHw := {}
  pres : PresHw := {}
  pair : PairHw := {}
  jobs : List FlashJob := []
  /-- Field values of the configuration version in force (R459); unlisted fields have their reset
  value. -/
  cfgVals : Tab Nat := []
  cfg : VerHw := {}
  cal : VerHw := {}
  fw : FwHw := {}
  pins : PinHw := {}
  /-- The counter that free values are drawn by (log entry 2). -/
  free : Nat := 0
  deriving DecidableEq, Repr

/-- The unit right after power-on reset. -/
def State.reset : State := {}

end Sys2Proof.Machine
end

