-- ==== Sys2Proof/Machine/Ops.lean ====
section
/-!
DEFINITION. The named operations every meaning is built from: register fields and values in force,
memory and flash, the hardware of a port, free values, counters, the strandline log, and the replies
and events of the host link.
-/
namespace Sys2Proof.Machine

/-- An engine as its reset leaves it (R335, R337): EH (16) has its own spill stack. -/
def Engine.init (e : Nat) : Engine :=
  if e = 16 then { ssp := 0xF800, ssb := 0xF800, ssl := 0xFC00 } else {}

namespace State

/-! ## Register fields -/

/-- Field `f` at index `i` as a read shows it. -/
def fget (s : State) (f : Fld) (i : Nat := 0) : Nat := s.regs.get (f.rst i) (f.key i)

/-- Field `f` at index `i` made `v`; bits beyond the field's width are lost. -/
def fset (s : State) (f : Fld) (i : Nat) (v : Nat) : State :=
  { s with regs := s.regs.put (f.rst i) (f.key i) (v % 2 ^ f.w) }

/-- Field `f` at index `i` is 1 (a one-bit field) or not 0. -/
def fon (s : State) (f : Fld) (i : Nat := 0) : Bool := s.fget f i != 0

/-- The value of field `f` in force, where it latches later than it is written. -/
def eget (s : State) (f : Fld) (i : Nat := 0) : Nat := s.eff.get (f.rst i) (f.key i)

/-- The written value of field `f` comes into force. -/
def latch (s : State) (f : Fld) (i : Nat) : State :=
  { s with eff := s.eff.put (f.rst i) (f.key i) (s.fget f i) }

/-- Every listed field comes into force at index `i`. -/
def latchAll (s : State) (fs : List Fld) (i : Nat) : State :=
  fs.foldl (fun s f => s.latch f i) s

/-- One bit of a field set or cleared. -/
def fbit (s : State) (f : Fld) (i : Nat) (b : Nat) (v : Bool) : State :=
  s.fset f i (setBit (s.fget f i) b v)

/-- A field increased by 1 that stays at its largest value (saturating counts). -/
def finc (s : State) (f : Fld) (i : Nat) : State :=
  s.fset f i (min (s.fget f i + 1) (2 ^ f.w - 1))

/-- The content of register `r` at index `i`: its fields at their bits, reserved bits 0 (R10). -/
def rget (s : State) (r : Reg) (i : Nat := 0) : Nat :=
  r.flds.foldl (fun a f => a + s.fget f.2 i * 2 ^ f.2.lo) 0

/-- The content of register `r` as little-endian bytes (R4). -/
def rbytes (s : State) (r : Reg) (i : Nat := 0) : List Byte := toBytes r.bytes (s.rget r i)

/-- Every field of register `r` at index `i` made its part of `v`, whatever its access code. -/
def rput (s : State) (r : Reg) (i : Nat) (v : Nat) : State :=
  r.flds.foldl (fun s f => s.fset f.2 i (v / 2 ^ f.2.lo)) s

/-! ## Control -/

/-- `g` where `c` holds. -/
def when (s : State) (c : Bool) (g : State → State) : State := if c then g s else s

/-- `g` for each number of a list, in order. -/
def forEach (s : State) (l : List Nat) (g : Nat → State → State) : State :=
  l.foldl (fun s i => g i s) s

/-- `g` for each port P0 to P15, in order. -/
def forPorts (s : State) (g : Nat → State → State) : State := s.forEach (List.range 16) g

/-- A free value of `w` bits, and the state that has used it (log entry 2). -/
def draw (s : State) (w : Nat) : Nat × State :=
  ((Config.freeBits w s.free).toNat, { s with free := s.free + 1 })

/-! ## The hardware of a port -/

/-- What port `p` holds beyond its registers. -/
def port (s : State) (p : Nat) : PortHw := s.ports.get {} p

/-- Port `p`'s hardware made `h`. -/
def setPort (s : State) (p : Nat) (h : PortHw) : State :=
  { s with ports := s.ports.put {} p h }

/-- The power path hardware of port `p`. -/
def pwr (s : State) (p : Nat) : PwrHw := (s.port p).pwr

/-- The power path hardware of port `p` changed by `g`. -/
def onPwr (s : State) (p : Nat) (g : PwrHw → PwrHw) : State :=
  s.setPort p { s.port p with pwr := g (s.port p).pwr }

/-- The attach block of port `p`. -/
def att (s : State) (p : Nat) : AttHw := (s.port p).att

/-- The attach block of port `p` changed by `g`. -/
def onAtt (s : State) (p : Nat) (g : AttHw → AttHw) : State :=
  s.setPort p { s.port p with att := g (s.port p).att }

/-- The regulator of port `p`. -/
def vreg (s : State) (p : Nat) : RegHw := (s.port p).reg

/-- The regulator of port `p` changed by `g`. -/
def onReg (s : State) (p : Nat) (g : RegHw → RegHw) : State :=
  s.setPort p { s.port p with reg := g (s.port p).reg }

/-- The junction of quad `q`. -/
def quad (s : State) (q : Nat) : QuadHw := s.quads.get {} q

/-- The junction of quad `q` changed by `g`. -/
def onQuad (s : State) (q : Nat) (g : QuadHw → QuadHw) : State :=
  { s with quads := s.quads.put {} q (g (s.quad q)) }

/-- The Power Delivery link of port `p`. -/
def pd (s : State) (p : Nat) : PdHw := (s.port p).pd

/-- The Power Delivery link of port `p` changed by `g`. -/
def onPd (s : State) (p : Nat) (g : PdHw → PdHw) : State :=
  s.setPort p { s.port p with pd := g (s.port p).pd }

/-- The transitions and swaps of port `p`. -/
def sw (s : State) (p : Nat) : SwapHw := (s.port p).sw

/-- The transitions and swaps of port `p` changed by `g`. -/
def onSw (s : State) (p : Nat) (g : SwapHw → SwapHw) : State :=
  s.setPort p { s.port p with sw := g (s.port p).sw }

/-- The mux of port `p`. -/
def mux (s : State) (p : Nat) : MuxHw := (s.port p).mux

/-- The mux of port `p` changed by `g`. -/
def onMux (s : State) (p : Nat) (g : MuxHw → MuxHw) : State :=
  s.setPort p { s.port p with mux := g (s.port p).mux }

/-- The converter of port `p`. -/
def adc (s : State) (p : Nat) : AdcHw := (s.port p).adc

/-- The converter of port `p` changed by `g`. -/
def onAdc (s : State) (p : Nat) (g : AdcHw → AdcHw) : State :=
  s.setPort p { s.port p with adc := g (s.port p).adc }

/-- Engine `e`. -/
def engine (s : State) (e : Nat) : Engine := s.engines.get (Engine.init e) e

/-- Engine `e` changed by `g`. -/
def onEngine (s : State) (e : Nat) (g : Engine → Engine) : State :=
  { s with engines := s.engines.put (Engine.init e) e (g (s.engine e)) }

/-! ## Memory -/

/-- The key of byte `off` of the memory with code `m` (WEIR_ECC.UMEM, 14_faults_watchdog). -/
def memKey (m off : Nat) : Nat := m * 2 ^ 24 + off

/-- Byte `off` of memory `m`; SRAM that nothing has written reads 0 (R369). -/
def memGet (s : State) (m off : Nat) : Byte := Tab.get 0 (memKey m off) s.mem

/-- Byte `off` of memory `m` written. -/
def memPut (s : State) (m off : Nat) (b : Byte) : State :=
  { s with mem := Tab.put 0 (memKey m off) b s.mem }

/-- `n` bytes of memory `m` from `off`. -/
def memRead (s : State) (m off : Nat) : Nat → List Byte
  | 0 => []
  | n + 1 => s.memGet m off :: memRead s m (off + 1) n

/-- Bytes written to memory `m` from `off` on. -/
def memWrite (s : State) (m off : Nat) : List Byte → State
  | [] => s
  | b :: t => memWrite (s.memPut m off b) m (off + 1) t

/-- Every byte of memory `m` cleared to 0. -/
def memClear (s : State) (m : Nat) : State :=
  { s with mem := s.mem.filter fun e => e.1 / 2 ^ 24 != m }

/-- Flash byte `a`; an unlisted byte is erased, 0xFF (log entry 5). -/
def flashGet (s : State) (a : Nat) : Byte := Tab.get 0xFF a s.flash

/-- Flash byte `a` set. -/
def flashPut (s : State) (a : Nat) (b : Byte) : State :=
  { s with flash := Tab.put 0xFF a b s.flash }

/-- `n` flash bytes from `a`. -/
def flashRead (s : State) (a : Nat) : Nat → List Byte
  | 0 => []
  | n + 1 => s.flashGet a :: flashRead s (a + 1) n

/-- Bytes programmed into flash from `a` on: programming clears bits only. -/
def flashProgram (s : State) (a : Nat) : List Byte → State
  | [] => s
  | b :: t => flashProgram (s.flashPut a (s.flashGet a &&& b)) (a + 1) t

/-- `n` flash bytes from `a` erased; an erased word reads without error. -/
def flashErase (s : State) (a n : Nat) : State :=
  { s with
    flash := s.flash.filter fun e => !(decide (a ≤ e.1) && decide (e.1 < a + n))
    fw := { s.fw with bad := s.fw.bad.filter fun w => !(decide (a ≤ 8 * w) && decide (8 * w < a + n)) } }

/-- The first uncorrectable word among the `n` flash bytes from `a` (R413). -/
def flashBad (s : State) (a n : Nat) : Option Nat :=
  s.fw.bad.find? fun w => decide (a < 8 * w + 8) && decide (8 * w < a + n)

/-- `n` flash bytes from `a` read without error. -/
def flashSound (s : State) (a n : Nat) : Bool := (s.flashBad a n).isNone

/-! ## Tick and host time -/

/-- The number of the tick now running. -/
def tick (s : State) : Nat := s.fget TICK_COUNT.COUNT

/-- The host time of edge `t` (R70); 0 while no binding is in force. -/
def hostTimeAt (s : State) (t : Nat) : Nat :=
  if s.fon TICK_STATUS.HBOUND then
    ofSigned 64 (s.fget TICK_HTIME.HTIME + ((t : Int) - s.fget TICK_HTICK.HTICK) * 8)
  else 0

/-- The host time of the edge of the tick now running. -/
def hostTime (s : State) : Nat := s.hostTimeAt s.tick

/-- The unit owns port `p`: its bit of PAIR_ST.OWN is 1, and the port was not released in this tick (R275,
R286). -/
def owns (s : State) (p : Nat) : Bool := bit (s.fget PAIR_ST.OWN) p && !bit s.pair.gone p

/-- The quiet ticks of a committed handover on a port this unit gives: no message is parsed and no
record committed (R279). -/
def hoQuiet (s : State) (p : Nat) : Bool :=
  match s.pair.ho with
  | some h => h.commit && bit h.mask p && s.owns p && decide (h.start + 4 ≤ s.tick) &&
      decide (s.tick < h.edge)
  | none => false

/-! ## Counters (R469 to R474) -/

/-- Counter `k` counts `code` on port or engine `p`, or on the unit (`none`). -/
def cntSelects (s : State) (k code : Nat) (p : Option Nat) : Bool :=
  s.eget (CNT_CFG.EN k) == 1 && s.eget (CNT_CFG.EVENT k) == code &&
    match p with
    | some n => bit (s.eget (CNT_CFG.PMASK k)) n
    | none => true

/-- `n` added to counter `k`, which stays at its largest value (R473). -/
def cntAdd (s : State) (k n : Nat) : State :=
  s.fset (CNT_VAL.COUNT k) 0 (min (s.fget (CNT_VAL.COUNT k) + n) (2 ^ 48 - 1))

/-- A port qualifies for counter `k` in this tick (R472). -/
def cntQual (s : State) (k p : Nat) : State :=
  let c := s.cnts.get {} k
  { s with cnts := s.cnts.put {} k { c with qual := setBit c.qual p true } }

/-- One event of `code`, on port or engine `p` or on the unit: edge counters add 1 (R471), level
counters note the port (R472). -/
def cntEvent (s : State) (code : Nat) (p : Option Nat := none) : State :=
  s.forEach (List.range 32) fun k s =>
    s.when (s.cntSelects k code p) fun s =>
      if s.eget (CNT_CFG.LEVEL k) = 1 then s.cntQual k (p.getD 0) else s.cntAdd k 1

/-! ## The strandline log (R478 to R481) -/

/-- `l` cut or zero-padded to `n` bytes. -/
def pad (n : Nat) (l : List Byte) : List Byte := (l ++ List.replicate n 0).take n

/-- The record buffer's free places shown (LOG_ST.FREE). -/
def logFree (s : State) : State := s.fset LOG_ST.FREE 0 (256 - s.log.buf.length)

/-- A record put in the buffer of 256 places, or dropped and counted when it is full (R481). -/
def logPush (s : State) (r : LogRec) : State :=
  if 256 ≤ s.log.buf.length then
    let l := s.log
    ({ s with log := { l with drops := l.drops + 1,
                              dropTick := if l.drops = 0 then r.tick else l.dropTick } }
      |>.finc LOG_ST.DROP 0).cntEvent 0xA4
  else ({ s with log := { s.log with buf := s.log.buf ++ [r] } }).logFree

/-- An automatic record of this tick (R480). -/
def logRec (s : State) (code src : Nat) (data : List Byte) : State :=
  s.logPush ⟨code, src, s.tick, s.hostTime, pad 12 data⟩

/-! ## Replies and events (R301 to R308) -/

/-- Entries waiting in the places of one kind. -/
def placeUsed (s : State) (k : Place) : Nat :=
  (s.host.entries.filter fun e => decide (e.place = k)).length

/-- One entry put at the end of the queue; the first event after events that were dropped has LOST (R301,
R307). -/
def queueEntry (s : State) (e : Entry) : State :=
  let late := bit e.flags 0 && s.host.lost
  { s with host := { s.host with
      lost := s.host.lost && !late
      entries := s.host.entries ++ [{ e with flags := e.flags + 8 * b2n late }] } }

/-- A reply to the command with this opcode and tag; bit 2 of `flags` is MIRR. -/
def reply (s : State) (op : Nat) (tag : Byte) (status : Nat) (data : List Byte := [])
    (flags : Nat := 0) : State :=
  s.queueEntry ⟨.completion, op, tag.toNat, flags, status, data⟩

/-- The completion event of a command that answered ACCEPTED or DEFERRED (R302). -/
def complete (s : State) (op tag status : Nat) (data : List Byte := []) : State :=
  ({ s with host := { s.host with
      opened := s.host.opened.filter fun c => !(c.op == op && c.tag == tag) } }).queueEntry
    ⟨.completion, op, tag, 1, status, data⟩

/-- The command waits for its completion. -/
def openCmd (s : State) (op : Nat) (tag : Byte) (port : Nat := 0xFF) : State :=
  { s with host := { s.host with opened := s.host.opened ++ [⟨op, tag.toNat, port⟩] } }

/-- Every open command of this opcode and port completes with the status. -/
def completeAll (s : State) (op port status : Nat) (data : List Byte := []) : State :=
  (s.host.opened.filter fun c => c.op == op && c.port == port).foldl
    (fun s c => s.complete c.op c.tag status data) s

/-- An unsolicited event of `kind`: READY (0) and PD_RAISE (2) are never masked; a masked event is
not queued; a full set of 64 places drops it, and the next event delivered has LOST (R307, R308). -/
def hostEvent (s : State) (kind : Nat) (data : List Byte) : State :=
  if kind = 2 then s.queueEntry ⟨.raise, kind, 0xFF, 1, 0, data⟩
  else if kind ≠ 0 ∧ bit s.host.evMask kind = false then s
  else if kind ≠ 0 ∧ 64 ≤ s.placeUsed .event then
    ({ s with host := { s.host with lost := true } }).cntEvent 0x54
  else s.queueEntry ⟨.event, kind, 0xFF, 1, 0, data⟩

/-- A byte. -/
def byte (n : Nat) : Byte := BitVec.ofNat 8 n

/-- A port's own event with the given registers: only the owner reports it (R308). -/
def portEvent (s : State) (kind p : Nat) (data : List Byte) : State :=
  s.when (s.owns p) fun s => s.hostEvent kind ([byte p, 0] ++ data)

/-- ATTACH (R308). -/
def evAttach (s : State) (p : Nat) : State :=
  (s.portEvent 1 p (s.rbytes PRT_ATTST.reg p ++ s.rbytes PRT_CCSTAT.reg p ++
    s.rbytes PRT_ATTEV.reg p)).onAtt p fun h => { h with news := false }

/-- A bit of PRT_ATTEV is set: the owner's engine reports it in its tick list (log entry 52). -/
def attEv (s : State) (f : Fld) (p : Nat) : State :=
  (s.fset f p 1).when (s.owns p) fun s => s.onAtt p fun h => { h with news := true }

/-- CONTRACT (R308, R181). -/
def evContract (s : State) (p : Nat) : State :=
  s.portEvent 4 p (s.rbytes PRT_SWEV.reg p ++ s.rbytes PRT_ROLE.reg p ++ [0, 0] ++
    s.rbytes PRT_CONTRACT.reg p)

/-- POWER (R308). -/
def evPower (s : State) (p : Nat) : State :=
  (s.portEvent 5 p (s.rbytes PRT_PWRST.reg p ++ s.rbytes PRT_PWREV.reg p ++
    s.rbytes PRT_REGSTAT.reg p)).onPwr p fun h => { h with news := false }

/-- A bit of PRT_PWREV is set: the owner's engine reports it in its tick list (log entry 52). -/
def pwrEv (s : State) (f : Fld) (p : Nat) : State :=
  (s.fset f p 1).when (s.owns p) fun s => s.onPwr p fun h => { h with news := true }

/-- MODE (R308). -/
def evMode (s : State) (p : Nat) : State :=
  s.portEvent 6 p (s.rbytes PRT_MUX.reg p ++ s.rbytes PRT_MODEST.reg p ++ s.rbytes PRT_MODEEV.reg p)

/-- PD_LINK (R308). -/
def evPdLink (s : State) (p : Nat) : State :=
  s.portEvent 7 p (s.rbytes PRT_PDEV.reg p ++ s.rbytes PRT_PDST.reg p)

/-- PAIR (R308). -/
def evPair (s : State) : State :=
  s.hostEvent 9 (s.rbytes PAIR_EV.reg ++ [0, 0] ++ s.rbytes PAIR_ST.reg)

/-- QUAD (R308). -/
def evQuad (s : State) (q : Nat) : State :=
  s.hostEvent 10 ([byte q, 0] ++ s.rbytes QD_JEV.reg q ++ s.rbytes QD_JST.reg q ++ [0, 0])

end State

/-- What a meaning answers. -/
abbrev Out := Host.Outcome State Fault Refusal

end Sys2Proof.Machine
end

