-- ==== Sys2Proof/Machine/Weir.lean ====
section
/-!
DEFINITION. Power states and the weir: entering a power state, port safe state, releasing ports,
recording a source's event, classifying it and making its reaction (R187 to R190, R395 to R413).
-/
namespace Sys2Proof.Machine.State

/-! ## Power states (R187) -/

/-- Milliseconds as ticks. -/
def msTicks (ms : Nat) : Nat := ms * 125

/-- The unit has completed boot. -/
def booted (s : State) : Bool := decide (s.boot.phase = .run)

/-- The port's power state code. -/
def pwrState (s : State) (p : Nat) : Nat := s.fget PRT_PWRST.STATE p

/-- PG and PGCNT cleared; a change of PG sets PGCHG (R209). -/
def clearPg (s : State) (p : Nat) : State :=
  ((s.when (s.fon PRT_PWRST.PG p) fun s => s.pwrEv PRT_PWREV.PGCHG p).fset PRT_PWRST.PG p 0).fset
    PRT_PWRST.PGCNT p 0

/-- P{n}_DIS as the state gives it (R187, R211). -/
def setDis (s : State) (p : Nat) : State :=
  let on : Bool :=
    match s.pwrState p with
    | 2 => s.fon PRT_PWRCTL.DISON p
    | 4 => true
    | 5 => s.fon PRT_PWRST.MODE p && !s.fon PRT_CCSTAT.VSAFE0 p
    | _ => false
  s.fset PRT_PWRST.DIS p (b2n on)

/-- A state whose gate driver is in fast pull-down or hold-off (R187, R193). -/
def pulledDown (st : Nat) : Bool := decide (st = 0 ∨ st = 3 ∨ st = 4 ∨ st = 5)

/-- The power path enters state `st`: PG falls when On is left, STCHG sets, the timers of the state left
stop and those of `st` start (R187, R192, R211), and a turn-off begins in fast pull-down (R185). The count
of R193 goes on between states that pull the gate down; a tick in which the gate was driven counts as no
tick of it. -/
def setPwr (s : State) (p st : Nat) : State :=
  let was := s.pwrState p
  let s := s.when (decide (was ≠ st)) fun s => s.pwrEv PRT_PWREV.STCHG p
  let s := s.when (decide (st ≠ 2)) fun s => s.clearPg p
  let s := (s.fset PRT_PWRST.STATE p st).onPwr p fun h => { h with
    gateRise := if st = 1 then some (msTicks (s.fget PRT_GATE.TRISE p)) else none
    dis := if st = 4 then some (msTicks (s.fget PRT_PWRTIM.TDIS p)) else none
    quiet := if st = 5 then some (msTicks (s.fget PRT_PWRTIM.TQUIET p)) else none
    offMin := if st = 0 then some (msTicks (s.fget PRT_PWRTIM.TOFFMIN p)) else h.offMin
    gateLow := 0, clean := false
    stuck := if pulledDown st then h.stuck else 0
    isnsHigh := h.isnsHigh && pulledDown was
    fastPull := pulledDown st && (decide (was = 1 ∨ was = 2) || h.fastPull) }
  s.setDis p

/-- A deferred PORT_ENABLE ends with `status` (R190). -/
def endDefer (s : State) (p status : Nat) : State :=
  match (s.pwr p).deferTag with
  | some t => ((s.fset PRT_PWRST.DEFER p 0).onPwr p fun h => { h with deferTag := none }).complete
      0x10 t status
  | none => s

/-- The port enters Tripped with a cause of PRT_PWRST.TRIP, 0 where the weir alone forces it; the
first cause stands until Tripped is left (R189). A trip ends a deferred enable (R190) and leaves the
engine a report to make (R212). -/
def enterTripped (s : State) (p cause : Nat) : State :=
  if s.pwrState p = 6 then s
  else if s.pwrState p = 5 then
    s.when (decide (s.fget PRT_PWRST.TRIP p = 0)) fun s => s.fset PRT_PWRST.TRIP p cause
  else
    let s := ((s.setPwr p 5).fset PRT_PWRST.TRIP p cause).pwrEv PRT_PWREV.TRIP p
    let s := (s.setDis p).onPwr p fun h => { h with tripReport := true }
    let s := s.when (s.owns p) fun s => s.logRec 0x07 p
      ([byte cause, byte (s.fget PRT_PWRST.MODE p)] ++ s.rbytes PRT_ELAST.reg p ++
        s.rbytes PRT_RISNS.reg p ++ s.rbytes PRT_RVBUS.reg p)
    s.endDefer p 0x22

/-- The VCONN switch opens. -/
def openVconn (s : State) (p : Nat) : State := s.fset PRT_ATTST.VCONN p 0

/-- The urgent commands posted to the engine of port `p` and not acted on complete with the status. -/
def dropUrgent (s : State) (p status : Nat) : State :=
  let mine := fun (k : Packet) => ((k.params.headD 0).toNat == p)
  let gone := s.host.urgent.filter mine
  if gone = [] then s
  else
    let box := s.mbx.get {} (32 + p)
    let front := s.mbx.get {} (64 + p)
    let s := { s with
      host := { s.host with urgent := s.host.urgent.filter fun k => !mine k }
      mbx := (s.mbx.put {} (32 + p) { box with rx := [], popped := [] }).put {} (64 + p)
        { front with unack := [] } }
    gone.foldl (fun s k => s.reply k.op (byte k.tag) status) s

/-- Every host command still open for a port that leaves this unit completes with NOT_OWNER, except the
queued PD_SENDs, which the new owner completes (R282). -/
def closeCommands (s : State) (p : Nat) : State :=
  let s := s.dropUrgent p 0x40
  let mine := s.host.opened.filter fun c => c.port == p
  let s := { s with host := { s.host with
    opened := s.host.opened.filter fun c => c.port != p
    tags := s.host.tags.filter fun t => !(mine.any fun c => c.op == 0x33 && c.tag == t) } }
  let s := mine.foldl (fun s c => s.when (c.op != 0x33) fun s => s.complete c.op c.tag 0x40) s
  match (s.att p).forceCmd with
  | some f => if f.event then s else s.reply f.op (byte f.tag) 0x40
  | none => s

/-- The port is driven as a shadow port (R80, R286): power state and attach state Shadow, gate and
terminations released, its regulator no longer mastered (R81), no timer, queue or swap of it left here; the
accumulator's history goes on (R204). -/
def toShadow (s : State) (p : Nat) : State :=
  let s := ((s.setPwr p 6).openVconn p).fset PRT_ATTST.STATE p 0xF
  let h := s.port p
  s.setPort p { energy := h.energy, adc := h.adc,
                reg := { h.reg with txn := none, waiting := [], owed := [] },
                pwr := { elastHist := h.pwr.elastHist, revTick := h.pwr.revTick },
                att := { latches := h.att.latches, clamp := h.att.clamp, scanPos := h.att.scanPos } }

/-! ## Scopes: 0 to 15 are the ports, 16 the unit -/

/-- The class of an index in force (R399). -/
def weirClass (s : State) (sc i : Nat) : Nat :=
  if sc < 16 then s.eget (WEIR_PCFG.CLASS i) sc else s.eget (WEIR_UCFG.CLASS i)

/-- Events to become severe, in force. -/
def weirN (s : State) (sc i : Nat) : Nat :=
  if sc < 16 then s.eget (WEIR_PCFG.N i) sc else s.eget (WEIR_UCFG.N i)

/-- The counting window in ticks, in force. -/
def weirW (s : State) (sc i : Nat) : Nat :=
  if sc < 16 then s.eget (WEIR_PCFG.W i) sc else s.eget (WEIR_UCFG.W i)

/-- The sticky word of a scope. -/
def stickyOf (sc : Nat) : Fld := if sc < 16 then WEIR_PSTK.STK else WEIR_USTK.STK

/-- The severe word of a scope. -/
def severeOf (sc : Nat) : Fld := if sc < 16 then WEIR_PSEV.SEV else WEIR_USEV.SEV

/-- The force bits of a scope. -/
def forceOf (sc : Nat) : Fld := if sc < 16 then WEIR_PFRC.FRC else WEIR_UFRC.FRC

/-- The register index of a scope. -/
def scIdx (sc : Nat) : Nat := if sc < 16 then sc else 0

/-- How many indices a scope has in use. -/
def scCount (sc : Nat) : Nat := if sc < 16 then 24 else 50

/-- SRC of an index (R326). -/
def srcOf (sc i : Nat) : Nat := (if sc < 16 then sc else 0xFF) * 256 + i

/-- The window and flags of an index. -/
def weirIdx (s : State) (sc i : Nat) : WeirIdx := s.weir.idx.get {} (sc * 64 + i)

/-- The window and flags of an index changed. -/
def onIdx (s : State) (sc i : Nat) (g : WeirIdx → WeirIdx) : State :=
  { s with weir := { s.weir with
      idx := s.weir.idx.put {} (sc * 64 + i) (g (s.weirIdx sc i)) } }

/-- The reaction in force on a scope. -/
def react (s : State) (sc : Nat) : React := s.weir.react.get {} sc

/-- The reaction of a scope made `r`. -/
def setReact (s : State) (sc : Nat) (r : React) : State :=
  { s with weir := { s.weir with react := s.weir.react.put {} sc r } }

/-- The highest class among the indices whose severe bit is 1, or 0xFF (R397). -/
def highClass (s : State) : Nat :=
  let cs := (List.range 17).flatMap fun sc =>
    let w := s.fget (severeOf sc) (scIdx sc)
    if w = 0 then [] else
      ((List.range (scCount sc)).filter fun i => bit w i).map fun i => s.weirClass sc i
  cs.foldl (fun a c => if a = 0xFF then c else max a c) 0xFF

/-- HICLASS, and in static mode FAULT_N, follow the severe bits (R397, R406); unit safe state and a
hold in reset assert FAULT_N whatever the mode (R402, R403). -/
def refreshFault (s : State) : State :=
  let h := s.highClass
  let s := s.fset WEIR_ST.HICLASS 0 h
  if s.boot.hold || s.fon WEIR_ST.USAFE || !s.booted then s.fset WEIR_ST.FLT 0 1
  else if s.fget WEIR_CFG.FMODE = 1 then
    s.fset WEIR_ST.FLT 0 (b2n (decide (h ≠ 0xFF) && decide (s.fget WEIR_CFG.FLVL ≤ h)))
  else s

/-- A severe classification of class `c` drives FAULT_N (R400, R406): in pulse mode a 2-tick pulse
starts and a pending release is cancelled. -/
def faultAssert (s : State) (c : Nat) : State :=
  if c < s.fget WEIR_CFG.FLVL then s.refreshFault
  else if s.fget WEIR_CFG.FMODE = 0 then
    ({ s with weir := { s.weir with pulse := some 2, release := false, bootSevere := true } }.fset
      WEIR_ST.FLT 0 1).refreshFault
  else s.refreshFault

/-! ## Reactions (R400 to R404) -/

/-- Port safe state (R401). On a port the unit shadows it sets SAFE and drives nothing. -/
def portSafe (s : State) (p : Nat) : State :=
  let s := s.fset WEIR_PST.SAFE p 1
  s.when (s.owns p) fun s => (s.enterTripped p 0).openVconn p

/-- OWN becomes `own`: the ownership record with its cause and HOID (R480). A port gained is turned off no
more (R286). -/
def setOwn (s : State) (own cause hoid : Nat) : State :=
  let before := s.fget PAIR_ST.OWN
  if before = own then s
  else ({ s.fset PAIR_ST.OWN 0 own with
      pair := { s.pair with orphan := s.pair.orphan - (s.pair.orphan &&& own) } }).logRec 0x0A 0xFF
    (toBytes 2 before ++ toBytes 2 own ++ [byte cause, byte hoid])

/-- The ports of `mask` that the unit drives are driven as shadow ports (R80). -/
def dropPorts (s : State) (mask : Nat) : State :=
  s.forPorts fun p s => s.when (bit mask p && s.owns p) fun s => (s.closeCommands p).toShadow p

/-- Ports given up at an edge: the unit drives them as shadow ports and its OWN bits drop (R275). -/
def releasePorts (s : State) (mask cause : Nat) (hoid : Nat := 0) : State :=
  let before := s.fget PAIR_ST.OWN
  (s.dropPorts mask).setOwn (before - (before &&& mask)) cause hoid

/-- The ports that the unit drives. -/
def drives (s : State) : Nat := s.fget PAIR_ST.OWN - (s.fget PAIR_ST.OWN &&& s.pair.gone)

/-- Every port released within a tick: driven as a shadow port at once, its OWN bit dropping at the next edge
(R275, R286). -/
def releaseNow (s : State) : State :=
  let mask := s.drives
  let s := s.dropPorts mask
  { s with pair := { s.pair with gone := s.pair.gone ||| mask } }

/-- At an edge the OWN bits of the ports released in the tick that ended drop (R275, R286). -/
def dropGone (s : State) : State :=
  let left := s.drives
  let s := s.setOwn left 4 0
  { s with pair := { s.pair with gone := 0 } }

/-- The unit is one of a pair: its position strap is A or B (PAIR_ST.POS 1 or 2). -/
def paired (s : State) : Bool := s.fget PAIR_ST.POS != 0

/-- Every owned port is released when the twin's last applied ABLE is 1, and enters port safe state
otherwise (R400, R402). -/
def releaseOrSafe (s : State) : State :=
  if s.paired && s.fon PAIR_ST.TWINABLE then s.releaseNow
  else
    let own := s.drives
    s.forPorts fun p s => s.when (bit own p) fun s => s.portSafe p

/-- A class 1 reaction on port `p`: port safe state, or only a fresh quiet count where one is in
force; a unit reaction in force stands (R404). -/
def reactPort (s : State) (p : Nat) : State :=
  if 2 ≤ (s.react 16).cls then s
  else if (s.react p).cls = 1 then
    s.setReact p { s.react p with quiet := 0, fresh := true }
  else (s.setReact p { cls := 1, fresh := true }).portSafe p

/-- A class 2 reaction: ABLE clears, and the ports are released or made safe (R400). -/
def reactUnit2 (s : State) : State :=
  match (s.react 16).cls with
  | 3 => s
  | 2 => s.setReact 16 { s.react 16 with quiet := 0, fresh := true }
  | _ =>
    let s := ((s.setReact 16 { cls := 2, fresh := true }).fset WEIR_ST.C2 0 1).fset PAIR_ST.ABLE 0 0
    let s := s.forPorts fun p s => s.setReact p {}
    s.releaseOrSafe

/-- A class 3 reaction: unit safe state (R402), under the compatibility profile with C3HOLD (R412). -/
def reactUnit3 (s : State) : State :=
  if (s.react 16).cls = 3 then s.setReact 16 { s.react 16 with quiet := 0, fresh := true }
  else
    let s := ((s.setReact 16 { cls := 3, fresh := true }).fset WEIR_ST.USAFE 0 1).fset PAIR_ST.ABLE 0 0
    let s := { s with weir := { s.weir with ownedSafe := s.fget PAIR_ST.OWN } }
    let s := (s.fset WEIR_ST.C2 0 0).forPorts fun p s => s.setReact p {}
    let s := s.when (s.fon WEIR_ST.COMPAT) fun s => s.fset WEIR_RET.C3HOLD 0 1
    s.releaseOrSafe.refreshFault

/-- The ports a class 1 reaction of an index covers: its own port, or for a quad source every port
of the quad the unit owns (R400). -/
def class1Ports (s : State) (sc i : Nat) : List Nat :=
  if sc < 16 then [sc]
  else if 20 ≤ i ∧ i < 36 then
    (List.range 16).filter fun p => p / 4 == i % 4 && s.owns p
  else []

/-- A change of profile that takes effect at edge `e`, in place of any due then or later. -/
def profileAt (s : State) (prof e : Nat) : State :=
  { s with prof := { s.prof with pend := (s.prof.pend.filter fun c => decide (c.2 < e)) ++ [(prof, e)] } }

/-- The profile in force is Low Water. -/
def lowWater (s : State) : Bool := s.prof.cur == 3

/-- A reaction of class 1 to 3 moves the unit out of Low Water to Flood, at the edges of R35; a pair's unit
carries the profile in H4 until its twin shows it (R36; log entry 85). -/
def wakeToFlood (s : State) : State :=
  s.when s.lowWater fun s =>
    if s.paired then
      ({ s with prof := { s.prof with wake := true, request := some (1, s.tick) } }).profileAt 1 (s.tick + 2)
    else s.profileAt 1 (s.tick + 1)

/-- The reaction of class `c` for a severe index (R400). Before boot completes a class 3 source
holds the unit in reset instead (R403). -/
def reactTo (s : State) (sc i c : Nat) : State :=
  if c = 3 ∧ !s.booted then { s with boot := { s.boot with hold := true } }
  else (match c with
    | 0 => s
    | 1 => s.forEach (s.class1Ports sc i) fun p s => s.reactPort p
    | 2 => s.reactUnit2
    | _ => s.reactUnit3).when (decide (c ≠ 0)) wakeToFlood

/-- What an index classified severe makes: its severe bit, the counter events, the strandline record,
the WEIR event, FAULT_N and the reaction (R397 to R400). Of a shadowed port only a reaction is logged (R480; log entry
144). -/
def severe (s : State) (sc i cnt : Nat) : State :=
  let c := s.weirClass sc i
  let s := s.fbit (severeOf sc) (scIdx sc) i true
  let s := if sc < 16 then s.cntEvent 0x88 (some sc) else s.cntEvent 0x90
  let src := toBytes 2 (srcOf sc i)
  let s := s.when (decide (16 ≤ sc ∨ 1 ≤ c) || s.owns sc) fun s =>
    s.logRec 0x04 (if sc < 16 then sc else 0xFF) (src ++ [byte c, byte c, byte cnt])
  let s := s.reactTo sc i c
  let s := s.hostEvent 8 (src ++ [byte c, byte c, byte cnt, 0, 0, 0] ++ toBytes 6 s.tick ++ [0, 0])
  s.faultAssert c

/-- One event of index `i` of scope `sc` (R395, R396, R398): the sticky bit, the counter events, the
counting window, and where the count reaches N the severe classification. -/
def weirEvent (s : State) (sc i : Nat) : State :=
  let h := s.weirIdx sc i
  let w := s.weirW sc i
  let live := h.opened && decide (s.tick < h.start + w)
  let start := if live then h.start else s.tick
  let cnt := (if live then h.cnt else 0) + 1
  let s := s.fbit (stickyOf sc) (scIdx sc) i true
  let s := if sc < 16 then s.cntEvent (0x70 + i) (some sc) else s.cntEvent 0x92
  if s.weirN sc i ≤ cnt then
    (s.onIdx sc i fun h => { h with opened := false, start := start, cnt := 0, hit := true }).severe
      sc i cnt
  else s.onIdx sc i fun h => { h with opened := true, start := start, cnt := cnt, hit := true }

/-- A port source records one event. -/
def portSource (s : State) (p i : Nat) : State := s.weirEvent p i

/-- A unit source records one event. -/
def unitSource (s : State) (i : Nat) : State := s.weirEvent 16 i

/-- The condition an index watches becomes `c`; going true records one event (R395). -/
def weirCond (s : State) (sc i : Nat) (c : Bool) : State :=
  let was := (s.weirIdx sc i).cond
  let s := s.onIdx sc i fun h => { h with cond := c }
  s.when (c && !was) fun s => s.weirEvent sc i

/-- The condition of an index is true: what it watches, or its force bit held at 1 (R395). -/
def weirTrue (s : State) (sc i : Nat) : Bool :=
  (s.weirIdx sc i).cond || bit (s.fget (forceOf sc) (scIdx sc)) i

/-! ## Memory errors (R413) -/

/-- A corrected word of memory `m`: the location, and source 45 for flash, 44 otherwise. -/
def eccCorrected (s : State) (m word : Nat) : State :=
  let s := (s.fset WEIR_ECC.CMEM 0 m).fset WEIR_ECC.CADDR 0 word
  if m = 0x45 then (s.cntEvent 0xA1).unitSource 45 else s.unitSource 44

/-- An uncorrectable word of memory `m`: source 46 for flash, 5 for a bus word, 6 otherwise. -/
def eccUncorrectable (s : State) (m word : Nat) : State :=
  let s := (s.fset WEIR_ECC.UMEM 0 m).fset WEIR_ECC.UADDR 0 word
  s.unitSource (if m = 0x45 then 46 else if m = 0x44 then 5 else 6)

/-- A reader of `n` flash bytes from `a` goes on as `ok` says; one that meets an uncorrectable word as `bad`
says, and the word is recorded (R413). -/
def flashReader (s : State) (a n : Nat) (bad ok : State → State) : State :=
  match s.flashBad a n with
  | some w => bad (s.eccUncorrectable 0x45 w)
  | none => ok s

end Sys2Proof.Machine.State
end

