-- ==== Sys2Proof/Machine/Power.lean ====
section
/-!
DEFINITION. The power path of a port (chapter 7): its trips, timers and edge transitions, the energy
judgement, the regulator over PMBus, and the meanings of those rows of the table.
-/
namespace Sys2Proof.Machine
namespace State

/-! ## Trips -/

/-- The port records a weir source and enters Tripped with `cause`; `code` is the counter event. -/
def trip (s : State) (p cause idx code : Nat) : State :=
  ((s.enterTripped p cause).portSource p idx).cntEvent code (some p)

/-- Ramp, On or Blocked: the states any trip leaves (R187). -/
def tripsAny (s : State) (p : Nat) : Bool :=
  decide (1 ≤ s.pwrState p ∧ s.pwrState p ≤ 3)

/-- The hard-trip comparator acts in every state except Shadow (R197); a shadow records "shadow trip
seen" (R240). -/
def hardTrip (s : State) (p : Nat) : State :=
  if s.pwrState p = 6 then s.portSource p 9 else s.trip p 1 0 0x23

/-- Limit entry: LIMIT shows the comparator, PG clears, LIMIN sets and the limit counts start (R196,
R202, R209). A shadow's comparators act on nothing (R240). -/
def limitEntry (s : State) (p : Nat) : State :=
  if s.pwrState p = 6 then s else
  let s := ((s.fset PRT_PWRST.LIMIT p 1).pwrEv PRT_PWREV.LIMIN p).clearPg p
  let s := s.onPwr p fun h => { h with
    limTick := true, limOn := true, limCnt := if h.limOn then h.limCnt else 0, limIdle := 0 }
  s.cntEvent 0x22 (some p)

/-- Registered reverse current (R206): in source mode Blocked, in sink mode Off with REQ off; the
engine reports it, and retries as R212 gives for sink mode. -/
def reverseBlock (s : State) (p : Nat) : State :=
  let s := s.onPwr p fun h => { h with revTick := true }
  if s.pwrState p = 1 ∨ s.pwrState p = 2 then
    let s := s.pwrEv PRT_PWREV.REVBLK p
    let s := if s.fon PRT_PWRST.MODE p then s.setPwr p 3
      else ((s.setPwr p 0).fset PRT_PWRCTL.REQ p 0).onPwr p fun h =>
        { h with retrySink := decide (s.eget PRT_PWRCFG.AUTORETRY p = 1)
                 waitSink := decide (s.eget PRT_PWRCFG.AUTORETRY p = 0) }
    (((s.portSource p 3).cntEvent 0x26 (some p))).evPower p
  else s

/-- Registered VBUS overvoltage trips the port in Ramp, On, Blocked and Discharging (R208). -/
def overvoltage (s : State) (p : Nat) : State :=
  if s.tripsAny p || s.pwrState p == 4 then s.trip p 4 6 0x27 else s

/-- The registered output of comparator `c` becomes `level` (R239): its own effect, the counter event
of its change and PRT_CMPNOW. -/
def cmpOut (s : State) (p c : Nat) (level : Bool) : State :=
  let was := bit (s.fget PRT_CMPNOW.OUT p) c
  if was = level then s else
  let s := ((s.fbit PRT_CMPNOW.OUT p c level).onAdc p fun h => { h with
    chg := setBit h.chg c true, preset := setBit h.preset c false }).cntEvent (0x30 + c) (some p)
  match c, level with
  | 0, true => s.hardTrip p
  | 1, true => s.limitEntry p
  | 1, false => s.fset PRT_PWRST.LIMIT p 0
  | 2, true => s.reverseBlock p
  | 3, true => s.overvoltage p
  | _, _ => s

/-! ## The energy judgement (R46, R199 to R204) -/

/-- The headroom the judgement uses: the value written in the tick judged, or without one the
smaller of the last value and PRT_ESTALE (R201). -/
def headroom (s : State) (p : Nat) : Nat :=
  if (s.pwr p).headPrev then (s.pwr p).headVal
  else min (s.pwr p).headVal (s.fget PRT_ESTALE.HEAD p)

/-- The accumulator of the tick just ended moves to PRT_ELAST and restarts (R199). -/
def closeEnergy (s : State) (p : Nat) : State :=
  let e := s.fget PRT_EACC.SUM p
  ((s.fset PRT_ELAST.SUM p e).fset PRT_EACC.SUM p 0).onPwr p fun h =>
    { h with elastHist := (e :: h.elastHist).take 8 }

/-- The tick mean of the forward ISNS code: the weighted sum over 8, rounded (R226). -/
def closeMean (s : State) (p : Nat) : State :=
  let h := s.adc p
  (s.fset PRT_RIMEAN.CODE p (ofSigned 12 ((h.isum + 4) / 8))).onAdc p fun h =>
    { h with isum := 0, icnt := 0 }

/-- The judgement of an owned port in energy form. -/
def judgeEnergy (s : State) (p : Nat) : State :=
  let e := s.fget PRT_ELAST.SUM p
  let head := s.headroom p
  let s := s.when (!(s.pwr p).headPrev) fun s => (s.pwrEv PRT_PWREV.STALE p).portSource p 9
  s.when (decide (head < e) && s.tripsAny p) fun s => s.trip p 2 1 0x24

/-! ## The energy model (R200, R203, R204; log entry 81) -/

/-- e^(−n/d) in 2^−40, by the first 16 terms of its series. -/
def decay (n d : Nat) : Nat :=
  ((List.range 16).foldl (fun (a : Int × Int) (k : Nat) => (a.1 + a.2, -(a.2 * n / (d * (k + 1) : Nat))))
    (0, 2 ^ 40)).1.toNat

/-- The coefficients a1, b1, a2, b2, g and kp of the model: those of the configuration in force, or what
the firmware computes from the reset values of R200's fields and the shunt. a is in 2^−32, b in 2^−26 K/W, g
in u per K and kp in 2^−40 W per u. -/
def coeffs (s : State) (p : Nat) : List Nat :=
  match (s.port p).energy.coeffs with
  | [] =>
    let a1 := decay 8 1000 / 2 ^ 8
    let a2 := decay 8 10000 / 2 ^ 8
    let b1 := (2 ^ 32 - a1) / 2 ^ 6
    let b2 := 2 * (2 ^ 32 - a2) / 2 ^ 6
    let kp := 375000 * 2 ^ 14 / s.eget PRT_PWRCFG.SHUNT p
    [a1, b1, a2, b2, 2 ^ 66 / ((b1 + b2) * kp), kp]
  | l => l

/-- Coefficient `i`. -/
def coeff (s : State) (p i : Nat) : Nat := (s.coeffs p).getD i 0

/-- a^k for a fraction `a` in 2^−32 and a count below 2^32. -/
def powFrac (a k : Nat) : Nat :=
  ((List.range 32).foldl (fun (r : Nat × Nat) i =>
    (if bit k i then r.1 * r.2 / 2 ^ 32 else r.1, r.2 * r.2 / 2 ^ 32)) (2 ^ 32, a)).1

/-- A pole's rise after a tick of energy `e`: T × a + P × b, with P = e × kp. -/
def poleStep (t a b kp e : Nat) : Nat :=
  min (2 ^ 32 - 1) (t * a / 2 ^ 32 + (e * kp / 2 ^ 20) * b / 2 ^ 26)

/-- Both poles advanced through one tick of energy `e`. -/
def polesStep (s : State) (p e : Nat) : State :=
  let c := s.coeffs p
  let k := fun i => c.getD i 0
  s.onPwr p fun h => { h with
    t1 := poleStep h.t1 (k 0) (k 1) (k 5) e, t2 := poleStep h.t2 (k 2) (k 3) (k 5) e }

/-- The FET temperature in thousandths of a degree: the latest NTC result inside its limits, or TFAIL
while there is none or an NTC fault stands (R228). -/
def fetTemp (s : State) (p : Nat) : Int :=
  let e := (s.port p).energy
  match (s.adc p).ntc with
  | some c =>
    if (s.adc p).ntcBad = 8 then s.fget PRT_NTC.TFAIL p * 1000
    else Config.ntcTemp e.beta e.r25 (s.fget PRT_NTC.IBIAS p) c
  | none => s.fget PRT_NTC.TFAIL p * 1000

/-- The headroom the poles leave: (L − Σ T_i × a_i) / Σ b_i as an energy, 0 where the bracket is not
positive. -/
def headOf (s : State) (p : Nat) : Nat :=
  let e := (s.port p).energy
  let h := s.pwr p
  let lim : Int := (((e.tjmax : Int) - e.guard) * 1000 - s.fetTemp p) * 2 ^ 20 / 1000
  let room : Int := lim - ((h.t1 * s.coeff p 0 + h.t2 * s.coeff p 2) / 2 ^ 32 : Nat)
  min (2 ^ 32 - 1) (room.toNat * s.coeff p 4 / 2 ^ 20)

/-- The engine's model step (R200): after `idle` stopped ticks the poles first cool without power (R203);
then the tick's energy advances them and the headroom is written. -/
def energyStep (s : State) (p : Nat) : State :=
  let a1 := s.coeff p 0
  let a2 := s.coeff p 2
  let s := s.onPwr p fun h => { h with
    t1 := h.t1 * powFrac a1 h.idle / 2 ^ 32, t2 := h.t2 * powFrac a2 h.idle / 2 ^ 32, idle := 0 }
  let s := s.polesStep p (s.fget PRT_ELAST.SUM p)
  (s.fset PRT_EHEAD.HEAD p (s.headOf p)).onPwr p fun h => { h with headNow := true }

/-- The taking engine advances the mirrored poles through the `k` ticks since the record was frozen, with
the energies its own accumulator kept, and writes the headroom in the tick before the first owned one; the
first owned tick is judged (R204). -/
def energyTake (s : State) (p t1 t2 k : Nat) : State :=
  let s := s.onPwr p fun h => { h with t1 := t1, t2 := t2, idle := 0 }
  let s := (((s.pwr p).elastHist.take k).reverse).foldl (fun s e => s.polesStep p e) s
  let head := s.headOf p
  (s.fset PRT_EHEAD.HEAD p head).onPwr p fun h => { h with headPrev := true, headVal := head, judged := true }

/-- The engine of port `p` runs its tick list in the tick now running. -/
def listRuns (s : State) (p : Nat) : Bool :=
  let g := s.engine p
  g.awake && !g.behind && s.booted && !s.boot.loader && s.owns p && !s.fon WEIR_PST.HOLD p &&
    !s.fon WEIR_ST.USAFE && decide (g.run ≠ .stopped)

/-! ## Edge transitions (R187, R188) -/

/-- Ramp is entered; from Off the mode follows REQ, and PRT_PWRCFG comes into force. -/
def enterRamp (s : State) (p : Nat) : State :=
  let s := s.when (decide (s.pwrState p = 0)) fun s =>
    s.fset PRT_PWRST.MODE p (b2n (decide (s.fget PRT_PWRCTL.REQ p = 1)))
  let s := s.latchAll [PRT_PWRCFG.MARGIN, PRT_PWRCFG.HTRATIO, PRT_PWRCFG.AUTORETRY, PRT_PWRCFG.FORM,
    PRT_PWRCFG.FWD, PRT_PWRCFG.SHUNT] p
  (s.setPwr p 1).cntEvent 0x20 (some p)

/-- Discharging in source mode, Off in sink mode: what REQ off leads to. -/
def requestOff (s : State) (p : Nat) : State :=
  if s.fon PRT_PWRST.MODE p then (s.setPwr p 4).cntEvent 0x28 (some p) else s.setPwr p 0

/-- Tripped is left for Off: VSAFE0 or sink mode, t_QUIET elapsed, and the weir does not hold the
port (R187). -/
def leaveTripped (s : State) (p : Nat) : State :=
  if s.pwrState p = 5 ∧ (s.pwr p).quiet = none ∧ s.fget WEIR_PST.SAFE p = 0 ∧
      (s.fget PRT_CCSTAT.VSAFE0 p = 1 ∨ s.fget PRT_PWRST.MODE p = 0) then
    (s.fset PRT_PWRST.TRIP p 0).setPwr p 0
  else s

/-- "Gate won't rise" (R192). -/
def gateWontRise (s : State) (p : Nat) : State :=
  ((s.pwrEv PRT_PWREV.GWR p).enterTripped p 5).portSource p 4

/-- t_OFF_MIN has elapsed since Off was entered (R187). -/
def offDone (s : State) (p : Nat) : Bool := decide ((s.pwr p).offMin = none ∨ (s.pwr p).offMin = some 0)

/-- A trip of the path is due at this edge, and its row of the table takes it: it goes before every other
transition (R188). -/
def tripDue (s : State) (p : Nat) : Bool :=
  let h := s.pwr p
  (decide (s.pwrState p = 1 ∧ h.gateRise = some 0) && !s.fon PRT_PWRST.GATEOK p) ||
    decide (16 ≤ h.stuck) ||
    (h.limOn && decide (s.fget PRT_BRKTIM.LIMCAP p ≤ h.limCnt) && decide (s.eget PRT_PWRCFG.FORM p = 0) &&
      s.tripsAny p)

/-- The one transition the power path of an owned port makes at an edge, by the precedence of R188. -/
def powerTransition (s : State) (p : Nat) : State :=
  let st := s.pwrState p
  let req := s.fget PRT_PWRCTL.REQ p
  let h := s.pwr p
  if st = 2 ∧ 2 ≤ h.gateLow then s.gateWontRise p
  else if s.tripDue p then s
  else if (st = 1 ∨ st = 2 ∨ st = 3) ∧ req = 0 then s.requestOff p
  else if st = 1 ∧ s.fget PRT_PWRST.GATEOK p = 1 then s.setPwr p 2
  else if st = 0 ∧ (req = 1 ∨ req = 2) ∧ s.fget PRT_ILIM.LIM p ≠ 0 ∧ s.offDone p then
    s.enterRamp p
  else if st = 3 ∧ !h.revPrev ∧ h.fwdOk then s.enterRamp p
  else if st = 4 ∧ s.fget PRT_CCSTAT.VSAFE0 p = 1 then s.setPwr p 0
  else if st = 5 then s.leaveTripped p
  else s

/-- A timer counted down by one tick; 0 is due and stays so until its expiry row takes it. -/
def countDown : Option Nat → Option Nat
  | some (n + 1) => some n
  | t => t

/-- The timers and per-tick observations of the power path at an edge (R192, R193, R202, R207). -/
def powerCount (s : State) (p : Nat) (gateOk gateDip : Bool) : State :=
  let lim := s.fon PRT_PWRST.LIMIT p
  let down := pulledDown (s.pwrState p)
  let rev := bit (s.fget PRT_CMPNOW.OUT p) 2
  let s := s.fset PRT_PWRST.GATEOK p (b2n gateOk)
  let rise := msTicks (s.fget PRT_GATE.TRISE p)
  let head := s.fget PRT_EHEAD.HEAD p
  s.onPwr p fun h => { h with
    offMin := countDown h.offMin
    quiet := countDown h.quiet
    dis := countDown h.dis
    gateRise := if h.limTick then h.gateRise.map fun _ => rise else countDown h.gateRise
    regStart := countDown h.regStart
    gateLow := if gateOk || h.limTick then 0 else h.gateLow + 1
    limCnt := if h.limOn && h.limTick then h.limCnt + 1 else if h.limIdle = 3 then 0 else h.limCnt
    limOn := h.limOn && (h.limTick || decide (h.limIdle < 3))
    limIdle := if h.limTick then 0 else h.limIdle + 1
    limTick := lim
    stuck := if down ∧ h.isnsSeen ∧ h.isnsHigh then h.stuck + 1 else 0
    idle := if (s.engine p).awoke then h.idle else h.idle + 1
    isnsHigh := true
    isnsSeen := false
    clean := h.clean && decide (h.vbusSeen = 2) && !gateDip && gateOk && !h.limTick
    vbusSeen := 0
    revPrev := h.revTick || rev
    revTick := rev
    fastPull := false
    headPrev := h.headNow
    headNow := false
    headVal := head
    judged := s.owns p && (s.engine p).awoke }

/-- Power-good at an edge: PGCNT counts consecutive clean ticks to 4, and PG sets there (R209). -/
def powerGood (s : State) (p : Nat) : State :=
  let h := s.pwr p
  let s :=
    if h.clean then
      let n := min 4 (s.fget PRT_PWRST.PGCNT p + 1)
      let s := s.fset PRT_PWRST.PGCNT p n
      s.when (decide (n = 4) && !s.fon PRT_PWRST.PG p) fun s =>
        ((s.fset PRT_PWRST.PG p 1).pwrEv PRT_PWREV.PGCHG p).cntEvent 0x21 (some p)
    else s.clearPg p
  s

/-- A tick that begins with the state On may be clean (R209), and one that begins with the gate pulled
down may show it stuck on (R193). -/
def startClean (s : State) (p : Nat) : State :=
  let on := s.pwrState p = 2
  s.onPwr p fun h => { h with clean := on, isnsHigh := true }

/-- What the rill engine does about a trip in the tick list that sees it (R212): it reports, sets REQ
off, and retries by mode and AUTORETRY. -/
def tripService (s : State) (p : Nat) : State :=
  s.when (s.pwr p).tripReport fun s =>
    let s := (s.evPower p).fset PRT_PWRCTL.REQ p 0
    let auto := s.eget PRT_PWRCFG.AUTORETRY p = 1
    if s.fon PRT_PWRST.MODE p then
      (s.onPwr p fun h => { h with tripReport := false }).onAtt p fun h =>
        { h with force := if auto then 1 else 2 }
    else s.onPwr p fun h => { h with tripReport := false, retrySink := auto, waitSink := !auto }

/-- A PORT_ENABLE applied to an enabled port in Off: one that waits after a trip or a reverse block is
switched to sink again (R317). -/
def enableOff (s : State) (p : Nat) : State :=
  s.when ((s.pwr p).waitSink && decide (s.pwrState p = 0)) fun s =>
    (s.fset PRT_PWRCTL.REQ p 2).onPwr p fun h => { h with waitSink := false }

/-- The sink-mode retry of R206 and R212: REQ to sink once the port is in Off, t_OFF_MIN has elapsed
and VBUSOK is 1. -/
def sinkRetry (s : State) (p : Nat) : State :=
  let h := s.pwr p
  s.when (h.retrySink && decide (s.pwrState p = 0) && s.offDone p &&
      s.fon PRT_CCSTAT.VBUSOK p) fun s =>
    (s.fset PRT_PWRCTL.REQ p 2).onPwr p fun h => { h with retrySink := false }

/-! ## The regulator (R215 to R218) -/

/-- The segment of a port's quad (R14). -/
def segment (s : State) (p : Nat) : Nat := s.fget QD_JCFG.SEG (p / 4)

/-- A transaction that reads (R216). -/
def pmReads : PmTxn → Bool
  | .voutMode | .statusWord | .statusVout | .statusIout | .statusInput | .statusTemperature => true
  | _ => false

/-- A transaction joins the port's queue: a read that is already waiting is joined, one posted while
another transaction is in flight goes before the waiting writes, and no posted transaction is dropped
(R216). -/
def pmPost (r : RegHw) (t : PmTxn) : RegHw :=
  if pmReads t && r.waiting.contains t then r
  else if pmReads t && r.txn.isSome then
    { r with waiting := r.waiting.takeWhile pmReads ++ t :: r.waiting.dropWhile pmReads }
  else { r with waiting := r.waiting ++ [t] }

/-- A transaction posted for an owned port (R81), granted at an edge to come (R67). During an engine hold
none is made (R417). -/
def regPost (s : State) (p : Nat) (t : PmTxn) : State :=
  s.when (s.owns p && !s.fon WEIR_PST.HOLD p) fun s => s.onReg p fun r => pmPost r t

/-- Rank of requester `r` in tick `n` (R65): requester ((n + i) mod 18) + 1 has rank i. -/
def rank (n r : Nat) : Nat := (r + 17 - n % 18) % 18

/-- A transaction is in flight on segment `k`. -/
def segBusy (s : State) (k : Nat) : Bool :=
  (List.range 16).any fun p => decide (s.segment p = k) && (s.vreg p).txn.isSome

/-- The ports of segment `k` whose engines have posted a transaction, the highest ranked in tick `n` first:
the engine of port p is requester p + 1 (R20). -/
def claimants (s : State) (k n : Nat) : List Nat :=
  ((List.range 18).map fun i => (n + i) % 18).filter fun p =>
    decide (p < 16) && decide (s.segment p = k) && s.owns p && !s.fon WEIR_PST.HOLD p &&
      decide ((s.vreg p).waiting ≠ [])

/-- PMBus segment `k` is granted at the edge of tick `n`, among the requests posted in the previous tick
(R65, R67): one transaction of the segment at a time. -/
def segGrant (s : State) (n k : Nat) : State :=
  match s.segBusy k, s.claimants k n with
  | false, p :: _ => s.onReg p fun r =>
      { r with txn := r.waiting.head?, waiting := r.waiting.tail }
  | _, _ => s

/-- A transaction that failed or lost arbitration is made again from the next tick on (R81, R217). -/
def regRetry (s : State) (p : Nat) : State :=
  s.onReg p fun r => { r with txn := none, waiting := r.txn.toList ++ r.waiting }

/-- The PMBus exponent N as an integer (PRT_REG.EXP, 5-bit two's complement). -/
def voutExp (s : State) (p : Nat) : Int := toSigned 5 (s.fget PRT_REG.EXP p)

/-- The VOUT_COMMAND word for `v` in 10 mV: round((V + OFFS) × 2^(−N)) (R215). -/
def voutWord (s : State) (p v : Nat) : Nat :=
  let x : Int := (v : Int) + toSigned 8 (s.fget PRT_REG.OFFS p)
  let n := s.voutExp p
  let num : Int := if n ≤ 0 then x * (2 ^ n.natAbs : Nat) * 2 + 100 else x * 2 + 100 * (2 ^ n.natAbs : Nat)
  let den : Int := if n ≤ 0 then 200 else 200 * (2 ^ n.natAbs : Nat)
  (num / den).toNat % 65536

/-- A write to the port's regulator. Before the first one of all the engine reads VOUT_MODE, and holds the
write, a VOUT_COMMAND with its voltage in 10 mV, until it has (R215). A regulator whose mode is not linear
is only ever switched off. -/
def pmWrite (s : State) (p : Nat) (t : PmTxn) : State :=
  let r := s.vreg p
  if r.modeRead then
    s.when (r.linear || decide (t = .operation 0)) fun s => s.regPost p (match t with
      | .voutCommand v => .voutCommand (s.voutWord p v)
      | t => t)
  else if r.owed = [] ∧ t = .operation 0 then s.regPost p t
  else s.when (s.owns p && !s.fon WEIR_PST.HOLD p) fun s =>
    (s.onReg p fun r => { r with owed := r.owed ++ [t] }).when (decide (r.txn ≠ some .voutMode)) fun s =>
      s.regPost p .voutMode

/-- VOUT_COMMAND for `v` in 10 mV. -/
def voutCommand (s : State) (p v : Nat) : State := s.pmWrite p (.voutCommand v)

/-- OPERATION = `b`. -/
def operation (s : State) (p b : Nat) : State := s.pmWrite p (.operation b)

/-- "Regulator fault": REGFLT, one event, Tripped, and OPERATION = 0x00 (R217). -/
def regFault (s : State) (p : Nat) : State :=
  (((s.pwrEv PRT_PWREV.REGFLT p).enterTripped p 6).portSource p 10).operation p 0

/-- REGWARN and a POWER event where a read shows a bit the previous one did not (R217). -/
def regWarn (s : State) (p new : Nat) : State :=
  s.when (decide (new ≠ 0)) fun s => (s.pwrEv PRT_PWREV.REGWARN p).evPower p

/-- Bits of `a` that are not in `b`. -/
def newBits (a b : Nat) : Nat := a - (a &&& b)

/-- STATUS_WORD (R217): fault bits 5, 4 and 3 fault; a summary bit that no fault bit accounts for is
looked up in its own register next, and one that is 0 has its register's warnings forgotten; the other bits
are reported. -/
def statusWord (s : State) (p w : Nat) : State :=
  let old := (s.vreg p).seenWord
  let s := (s.fset PRT_REGSTAT.STATUS p w).onReg p fun r => { r with
    seenWord := w
    seenVout := if bit w 15 then r.seenVout else 0
    seenIout := if bit w 14 then r.seenIout else 0
    seenInput := if bit w 13 then r.seenInput else 0
    seenTemp := if bit w 2 then r.seenTemp else 0 }
  let look := (if bit w 15 && !bit w 5 then [PmTxn.statusVout] else []) ++
    (if bit w 14 && !bit w 4 then [PmTxn.statusIout] else []) ++
    (if bit w 13 && !bit w 3 then [PmTxn.statusInput] else []) ++
    (if bit w 2 then [PmTxn.statusTemperature] else [])
  let s := s.onReg p fun r => { r with waiting := look ++ r.waiting }
  let s := s.regWarn p (newBits (w &&& 0x1FC2) old)
  s.when (decide (w &&& 0x38 ≠ 0)) fun s => s.regFault p

/-- A status register of R217: a fault bit faults, any other set bit is a warning. -/
def statusByte (s : State) (p w faults old : Nat) : State :=
  if w &&& faults ≠ 0 then s.regFault p else s.regWarn p (newBits w old)

/-- What a completed transaction brings (R215, R217). -/
def regDone (s : State) (p : Nat) (t : PmTxn) (w : Nat) : State :=
  match t with
  | .voutMode =>
    let linear := decide (w / 32 % 8 = 0)
    let r := s.vreg p
    let s := (s.fset PRT_REG.EXP p w).onReg p fun r => { r with modeRead := true, linear := linear, owed := [] }
    if linear then
      let rate := s.fget PRT_REG.RATE p
      let s := s.when (!r.live) fun s =>
        ((s.regPost p .clearFaults).regPost p (.operation 0)).when (decide (rate ≠ 0)) fun s =>
          s.regPost p (.transitionRate rate)
      r.owed.foldl (fun s t => s.pmWrite p t) s
    else ((s.onPwr p fun h => { h with regStart := none }).pwrEv PRT_PWREV.REGFLT p).portSource p 10
  | .statusWord => s.statusWord p w
  | .statusVout =>
    (s.onReg p fun r => { r with seenVout := w }).statusByte p w 0x94 (s.vreg p).seenVout
  | .statusIout =>
    (s.onReg p fun r => { r with seenIout := w }).statusByte p w 0xDA (s.vreg p).seenIout
  | .statusInput =>
    (s.onReg p fun r => { r with seenInput := w }).statusByte p w 0x94 (s.vreg p).seenInput
  | .statusTemperature =>
    (s.onReg p fun r => { r with seenTemp := w }).statusByte p w 0x90 (s.vreg p).seenTemp
  | _ => s

/-- The engine starts the regulator towards a source (R218): VOUT 5.00 V, OPERATION 0x80, and 20 ms
for the rail to reach the vSafe5V window. A port whose regulator is not linear is never made source
(R215). -/
def regStart (s : State) (p : Nat) : State :=
  if (s.vreg p).modeRead && !(s.vreg p).linear then s
  else ((s.voutCommand p 500).operation p 0x80).onPwr p fun h =>
    { h with regStart := some 2500, railOk := 0 }

/-! ## Contract windows (R214) -/

/-- `v / 6` rounded to the nearest: 10 mV units to 60 mV comparator steps. -/
def vbusCode (v : Nat) : Nat := (v + 3) / 6

/-- PRT_VWIN and the VBUS comparator thresholds for a window in 10 mV; `uv` is the UV threshold. -/
def setWindow (s : State) (p lo hi uv : Nat) : State :=
  let s := (s.fset PRT_VWIN.WLO p lo).fset PRT_VWIN.WHI p hi
  let s := s.fset (PRT_CMP.THR 3) p (min 1023 (vbusCode (hi + s.fget PRT_VMARG.OVM p)))
  s.fset (PRT_CMP.THR 4) p (min 1023 (vbusCode uv))

/-- The UV threshold as source: WLO less UVM. -/
def uvAsSource (s : State) (p lo : Nat) : Nat := lo - s.fget PRT_VMARG.UVM p

/-- LIM from a current in 10 mA: round(I × (128 + MARGIN)/128 × R_shunt / 61.035 µV), at most 1,023
(R195), with the margin and shunt in force; 61.035 µV is 62.5 mV / 1,024. -/
def limCode (s : State) (p cur : Nat) : Nat :=
  let num := cur * (128 + s.eget PRT_PWRCFG.MARGIN p) * s.eget PRT_PWRCFG.SHUNT p * 1024
  let den := 128 * 625 * 1000
  min 1023 ((2 * num + den) / (2 * den))

/-- A write of PRT_ILIM.LIM: with AUTO it loads the hard-trip and limit-active thresholds, all in
force at the next edge (R195). -/
def writeLim (s : State) (p lim : Nat) : State :=
  let s := s.fset PRT_ILIM.LIM p lim
  s.when (s.fon PRT_ILIM.AUTO p) fun s =>
    (s.fset (PRT_CMP.THR 0) p (min 1023 (lim * s.eget PRT_PWRCFG.HTRATIO p / 8))).fset
      (PRT_CMP.THR 1) p (lim - lim / 16)

end State

/-! ## Meanings -/

open State

/-- ENERGY_JUDGEMENT (R46, R199 to R204): at cycle 2 the sum of the tick just ended moves to PRT_ELAST and
its mean current to PRT_RIMEAN (R226), and on a port owned from this tick's edge in energy form it is judged
against the headroom. A stopped tick of Low Water is not judged (R203). The engine's model step follows in its
tick list. -/
def execEnergyJudgement (p : Port) (s : State) : Out :=
  let s := (s.closeEnergy p).closeMean p
  let energy := decide (s.eget PRT_PWRCFG.FORM p = 0)
  let s := s.when ((s.pwr p).judged && s.owns p && energy) fun s => s.judgeEnergy p
  .next (s.when (s.listRuns p && energy) fun s => s.energyStep p)

/-- HARD_TRIP (R197): the hard-trip comparator's output rises. -/
def execHardTrip (p : Port) (s : State) : Out := .next (s.cmpOut p 0 true)

/-- LIMIT_ENTRY (R196): the limit-active comparator's output rises. -/
def execLimitEntry (p : Port) (s : State) : Out := .next (s.cmpOut p 1 true)

/-- REVERSE_CURRENT_BLOCK (R206): the reverse-current comparator's output rises. -/
def execReverseCurrentBlock (p : Port) (s : State) : Out := .next (s.cmpOut p 2 true)

/-- VBUS_OV_TRIP (R208): the VBUS OV comparator's output rises. -/
def execVbusOvTrip (p : Port) (s : State) : Out := .next (s.cmpOut p 3 true)

/-- OFF_MIN_ELAPSED (R190): t_OFF_MIN has elapsed; a deferred PORT_ENABLE is applied, through FORCE
0b11 where the attach block is in Disabled. -/
def execOffMinElapsed (p : Port) (s : State) : Out :=
  if (s.pwr p).offMin = some 0 then
    let s := s.onPwr p fun h => { h with offMin := none }
    match (s.pwr p).deferTag with
    | some t =>
      if s.fget PRT_ATTST.STATE p = 0 then
        .next (((s.fset PRT_PWRST.DEFER p 0).onPwr p fun h => { h with deferTag := none }).onAtt p
          fun h => { h with force := 3, forceCmd := some ⟨0x10, t, true⟩ })
      else .next ((s.enableOff p).endDefer p 0)
    | none => .next s
  else .next s

/-- QUIET_ELAPSED (R187): t_QUIET has elapsed, and Tripped is left for Off where nothing else holds
it. -/
def execQuietElapsed (p : Port) (s : State) : Out :=
  if (s.pwr p).quiet = some 0 then
    .next ((s.onPwr p fun h => { h with quiet := none }).leaveTripped p)
  else .next s

/-- GATE_RISE_TIMEOUT (R192): t_GATE_RISE expires with GATEOK at 0 in Ramp. -/
def execGateRiseTimeout (p : Port) (s : State) : Out :=
  if (s.pwr p).gateRise = some 0 then
    let s := s.onPwr p fun h => { h with gateRise := none }
    .next (s.when (decide (s.pwrState p = 1) && !s.fon PRT_PWRST.GATEOK p) fun s => s.gateWontRise p)
  else .next s

/-- GATE_STUCK_ON (R193): 16 consecutive ticks of current with the gate pulled down. -/
def execGateStuckOn (p : Port) (s : State) : Out :=
  if 16 ≤ (s.pwr p).stuck then
    .next (((s.onPwr p fun h => { h with stuck := 0 }).pwrEv PRT_PWREV.GSTUCK p).enterTripped p 7
      |>.portSource p 5)
  else .next s

/-- LIMIT_TIME_CAP (R202): in energy form, the limit-time count reaches LIMCAP. -/
def execLimitTimeCap (p : Port) (s : State) : Out :=
  if s.fget PRT_BRKTIM.LIMCAP p ≤ (s.pwr p).limCnt ∧ (s.pwr p).limOn ∧ s.eget PRT_PWRCFG.FORM p = 0 ∧
      s.tripsAny p then
    .next ((s.onPwr p fun h => { h with limOn := false, limCnt := 0 }).trip p 3 2 0x25)
  else .next s

/-- FIXED_TIMER_EXPIRY (R205): in fixed form, the timer of limit-active cycles reaches TFIX × 10 µs. The
ticks in which limit-active was registered, this one among them, hold that many cycles. -/
def execFixedTimerExpiry (p : Port) (s : State) : Out :=
  if (s.pwr p).limOn ∧ s.eget PRT_PWRCFG.FORM p = 1 ∧ s.tripsAny p ∧
      s.fget PRT_BRKTIM.TFIX p * 2500 ≤ ((s.pwr p).limCnt + 1) * 2000 then
    .next ((s.onPwr p fun h => { h with limOn := false, limCnt := 0 }).trip p 3 2 0x25)
  else .next s

/-- DISCHARGE_TIMEOUT (R211): t_DIS elapses in Discharging without VSAFE0. -/
def execDischargeTimeout (p : Port) (s : State) : Out :=
  if (s.pwr p).dis = some 0 ∧ s.pwrState p = 4 then
    .next (((s.setPwr p 0).pwrEv PRT_PWREV.DISTO p).portSource p 7)
  else .next s

/-- REGULATOR_START_TIMEOUT (R218): the rail misses the vSafe5V window for 20 ms. -/
def execRegulatorStartTimeout (p : Port) (s : State) : Out :=
  if (s.pwr p).regStart = some 0 then
    .next (((s.onPwr p fun h => { h with regStart := none }).pwrEv PRT_PWREV.REGFLT p).portSource p 10)
  else .next s

/-- PMBUS_TRANSACTION_COMPLETE (R217): the port's transaction in flight completes with the data read and
FAILS clears. -/
def execPmbusTransactionComplete (p : Port) (data : BitVec 16) (s : State) : Out :=
  match (s.vreg p).txn with
  | some t =>
    let s := (s.onReg p fun r => { r with txn := none }).fset PRT_REG.FAILS p 0
    .next (s.regDone p t data.toNat)
  | none => .next s

/-- PMBUS_TRANSACTION_FAIL (R217): FAILS counts, and at 3 "regulator no response" records one event
and a source trips; the transaction is made again from the next tick on. -/
def execPmbusTransactionFail (p : Port) (s : State) : Out :=
  if (s.vreg p).txn = none then .next s
  else
    let s := ((s.finc PRT_REG.FAILS p).cntEvent 0x2A (some p)).regRetry p
    .next (s.when (decide (s.fget PRT_REG.FAILS p = 3)) fun s =>
      let s := s.pwrEv PRT_PWREV.REGNR p
      (s.when (s.fon PRT_PWRST.MODE p && decide (s.pwrState p ≠ 0)) fun s => s.enterTripped p 6).portSource p 10)

/-- PMBUS_ARBITRATION_LOST (R81): the master retries in the next tick; the loss is counted. -/
def execPmbusArbitrationLost (p : Port) (s : State) : Out :=
  .next ((s.regRetry p).cntEvent 0x2B (some p))

/-- STATUS_WORD_POLL (R216): outside transitions, every 64 ticks the engine posts a STATUS_WORD read. -/
def execStatusWordPoll (p : Port) (s : State) : Out :=
  if 64 ≤ (s.vreg p).poll ∧ s.fget PRT_ROLE.SWAP p ≠ 5 then
    .next ((s.onReg p fun r => { r with poll := 0 }).regPost p .statusWord)
  else .next s

/-- PMBUS_ALERT (R216): an alert on segment `k` has STATUS_WORD read on its owned ports. -/
def execPmbusAlert (k : Fin 2) (s : State) : Out :=
  .next (s.forPorts fun p s => s.when (decide (s.segment p = k.val)) fun s => s.regPost p .statusWord)

/-- LIM_WRITE (R195): PRT_ILIM written; with AUTO the thresholds it loads come with it. -/
def execLimWrite (p : Port) (v : BitVec 32) (s : State) : Out :=
  .next ((s.fset PRT_ILIM.AUTO p (bits v.toNat 31 31)).writeLim p (bits v.toNat 25 16))

end Sys2Proof.Machine
end

