-- ==== Sys2Proof/Machine/Pd.lean ====
section
/-!
DEFINITION. The Power Delivery link (chapters 5, 6 and 9): messages and their headers, the timer bank,
queues and transmission, contracts and their windows, cancelling a swap or a mode, soft and hard
reset, and leaving an attach.

Message type numbers and object layouts are those of USB Power Delivery Revision 3.1, which R2 names
(PRESUMED, log entry 6).
-/
namespace Sys2Proof.Machine

/-! ## Message codes: control type t is t, data 32 + t, extended 64 + t, Extended_Control s 96 + s -/

namespace Code
def accept : Nat := 3
def reject : Nat := 4
def ping : Nat := 5
def psRdy : Nat := 6
def getSourceCap : Nat := 7
def getSinkCap : Nat := 8
def drSwap : Nat := 9
def prSwap : Nat := 10
def vconnSwap : Nat := 11
def wait : Nat := 12
def softReset : Nat := 13
def dataReset : Nat := 14
def dataResetComplete : Nat := 15
def notSupported : Nat := 16
def frSwap : Nat := 19
def sourceCaps : Nat := 33
def request : Nat := 34
def bist : Nat := 35
def sinkCaps : Nat := 36
def eprRequest : Nat := 41
def eprMode : Nat := 42
def vdm : Nat := 47
def eprKeepAlive : Nat := 99
def eprKeepAliveAck : Nat := 100
def eprSourceCaps : Nat := 81
end Code

/-- The little-endian 32-bit objects of a byte list. -/
def objects : List Byte → List Nat
  | a :: b :: c :: d :: t => ofBytes [a, b, c, d] :: objects t
  | _ => []

/-- The code of a message. -/
def Msg.code (m : Msg) : Nat :=
  if m.ext then
    if m.typ = 16 then 96 + ((m.data.getD 2 0).toNat % 32) else 64 + m.typ
  else if m.ndo = 0 then m.typ else 32 + m.typ

/-- Its data objects (after the extended header, where it has one). -/
def Msg.objs (m : Msg) : List Nat := objects (if m.ext then m.data.drop 2 else m.data)

/-- Object `i`, or 0. -/
def Msg.obj (m : Msg) (i : Nat) : Nat := m.objs.getD i 0

/-- A control message. -/
def ctl (typ : Nat) (sop : Nat := 0) : Msg := { sop := sop, typ := typ }

/-- A data message with these objects. -/
def dat (typ : Nat) (objs : List Nat) (sop : Nat := 0) : Msg :=
  { sop := sop, typ := typ, ndo := objs.length, data := objs.flatMap (toBytes 4) }

/-- An extended message of one chunk: extended header (Chunked 1, Data Size) and data. -/
def extMsg (typ : Nat) (data : List Byte) : Msg :=
  { ext := true, typ := typ, ndo := (data.length + 5) / 4,
    data := toBytes 2 (0x8000 + data.length) ++ data }

/-- An Extended_Control message. -/
def extCtl (t : Nat) : Msg := extMsg 16 [BitVec.ofNat 8 t, 0]

/-! ## Structured VDM headers -/

def vdmSvid (h : Nat) : Nat := bits h 31 16
def vdmStructured (h : Nat) : Bool := bit h 15
def vdmPos (h : Nat) : Nat := bits h 10 8
def vdmType (h : Nat) : Nat := bits h 7 6
def vdmCmd (h : Nat) : Nat := bits h 4 0

/-- The structured VDM header `h` answered with command type `t` (1 ACK, 2 NAK, 3 BUSY). -/
def vdmAnswer (h t : Nat) : Nat := h - vdmType h * 64 + t * 64

/-- The message is a structured VDM request. -/
def Msg.isVdmReq (m : Msg) : Bool :=
  m.code == Code.vdm && vdmStructured (m.obj 0) && vdmType (m.obj 0) == 0

/-- The messages that Revision 3.1 answers with a response (R511). -/
def Msg.isRequest (m : Msg) : Bool :=
  [34, 41, 33, 81, 7, 8, 97, 98, 17, 22, 23, 24, 70, 18, 20, 67, 68, 21, 39, 72, 74, 10, 9, 11, 19,
    14, 13, 99].contains m.code ||
  (m.code == Code.eprMode && bits (m.obj 0) 31 24 == 1) ||
  (m.isVdmReq && vdmCmd (m.obj 0) != 6)

namespace State

/-! ## Fields of the link -/

/-- The attach state code of port `p`. -/
def attState (s : State) (p : Nat) : Nat := s.fget PRT_ATTST.STATE p

/-- The link runs: an Attached or debug accessory state with PDEN in force (chapter 5). -/
def linkRuns (s : State) (p : Nat) : Bool :=
  (s.attState p == 4 || s.attState p == 7 || s.attState p == 0xD || s.attState p == 0xE) &&
    s.eget PRT_PDCFG.PDEN p == 1

/-- Revision 2.0 has been negotiated (R137). -/
def rev2 (s : State) (p : Nat) : Bool := s.fget PRT_PDST.NEGREV p == 1

/-- The port's power role is source. -/
def isSource (s : State) (p : Nat) : Bool := s.fon PRT_ROLE.PWR p

/-- The port is the VCONN source. -/
def vconnSource (s : State) (p : Nat) : Bool := s.fon PRT_ROLE.VCSRC p

/-- SOP' and SOP'' are enabled while the port is the VCONN source (R131). -/
def setSoppEn (s : State) (p : Nat) : State :=
  s.fset PRT_PDST.SOPPEN p (b2n (s.vconnSource p && s.linkRuns p))

/-- The revision of the headers the port sends, as a header codes it: the negotiated one, and before that
PRT_PDCFG.REV (R130, R137). -/
def linkRev (s : State) (p : Nat) : Nat :=
  if s.fget PRT_PDST.NEGREV p = 0 then max 1 (min 2 (s.eget PRT_PDCFG.REV p)) else s.fget PRT_PDST.NEGREV p

/-- The 16-bit header the hardware fills (R130, R156): on SOP the port's power and data roles, on SOP' and
SOP'' Cable Plug 0. -/
def msgHeader (s : State) (p : Nat) (m : Msg) : Nat :=
  m.typ % 32 + s.linkRev p * 64 + (m.id % 8) * 512 + (m.ndo % 8) * 4096 + b2n m.ext * 32768 +
    if m.sop = 0 then s.fget PRT_ROLE.DATA p * 32 + s.fget PRT_ROLE.PWR p * 256 else 0

/-- A message as bytes: header and data. -/
def msgBytes (s : State) (p : Nat) (m : Msg) : List Byte := toBytes 2 (s.msgHeader p m) ++ m.data

/-- A received message as bytes, with the header it came with. -/
def rxBytes (m : Msg) : List Byte :=
  toBytes 2 (m.typ % 32 + b2n m.bit5 * 32 + (m.rev % 4) * 64 + b2n m.bit8 * 256 + (m.id % 8) * 512 +
    (m.ndo % 8) * 4096 + b2n m.ext * 32768) ++ m.data

/-- The message that the bytes of a host command spell (header, extended header, data). -/
def msgOfBytes (sop : Nat) (b : List Byte) : Msg :=
  let h := ofBytes (b.take 2)
  { sop := sop, ext := bit h 15, typ := bits h 4 0, ndo := bits h 14 12, data := b.drop 2 }

/-- A command's final status reported, where a host command waits. -/
def finish (s : State) (c : Option (Nat × Nat)) (status : Nat) : State :=
  match c with
  | some (op, tag) => s.complete op tag status
  | none => s

/-! ## The timer bank (R143) -/

/-- The remaining count of timer `k`. -/
def timer (s : State) (p k : Nat) : Option Nat := (s.pd p).tim.get none k

/-- Timer `k` made `v`, its STATE shown. -/
def setTimer (s : State) (p k : Nat) (v : Option Nat) (st : Nat) : State :=
  (s.onPd p fun h => { h with tim := h.tim.put none k v }).fset (PRT_PDTIM.STATE k) p st

/-- Timer `k` takes its LOAD and runs; where it was due, its expiry is still to be acted on (R143). -/
def timStart (s : State) (p k : Nat) : State :=
  let s := s.when (s.timer p k == some 0) fun s => s.onPd p fun h => { h with
    owedT := if h.owedT.contains k then h.owedT else h.owedT ++ [k] }
  s.setTimer p k (some (s.fget (PRT_PDTIM.LOAD k) p)) 1

/-- Timer `k` stops. -/
def timStop (s : State) (p k : Nat) : State :=
  let s := s.onPd p fun h => { h with owedT := h.owedT.filter (· != k) }
  s.when (s.timer p k).isSome fun s => s.setTimer p k none 0

/-- Timer `k` is due, or was when it was started again. -/
def timDue (s : State) (p k : Nat) : Bool := s.timer p k == some 0 || (s.pd p).owedT.contains k

/-- The expiry of timer `k` is acted on: it stops, unless it has been started again. -/
def timExpire (s : State) (p k : Nat) : State :=
  if (s.pd p).owedT.contains k then s.onPd p fun h => { h with owedT := h.owedT.filter (· != k) }
  else s.setTimer p k none 2

/-- The timers of a port counted down at an edge. -/
def timCount (s : State) (p : Nat) : State :=
  s.onPd p fun h => { h with tim := h.tim.map fun e => (e.1, countDown e.2) }

/-! ## Queues (R154) -/

/-- A reply to a received message queued; at Revision 2.0 the port sends no extended message, and Reject goes
in its place (R135, R137). -/
def sendReply (s : State) (p : Nat) (m : Msg) (a : OnAck := .nothing) : State :=
  let i : TxItem := if s.rev2 p && m.ext then { msg := ctl Code.reject m.sop } else { msg := m, onAck := a }
  s.onPd p fun h => { h with replies := h.replies ++ [i] }

/-- An engine-originated message queued. -/
def sendEngine (s : State) (p : Nat) (m : Msg) (a : OnAck := .nothing)
    (c : Option (Nat × Nat) := none) : State :=
  s.onPd p fun h => { h with engine := h.engine ++ [{ msg := m, onAck := a, cmd := c }] }

/-- An engine-originated message queued ahead of all others. -/
def sendFirst (s : State) (p : Nat) (m : Msg) (a : OnAck := .nothing)
    (c : Option (Nat × Nat) := none) : State :=
  s.onPd p fun h => { h with engine := { msg := m, onAck := a, cmd := c } :: h.engine }

/-- Not_Supported, or Reject at Revision 2.0 (R135, R137). -/
def sendNo (s : State) (p : Nat) (sop : Nat := 0) : State :=
  s.sendReply p (ctl (if s.rev2 p then Code.reject else Code.notSupported) sop)

/-- The head of the host queue the port may transmit now. -/
def hostHead (s : State) (p : Nat) : Option TxItem := (s.pd p).hostq.head?

/-- A message with a PDEV bit set, reported in a PD_LINK event. -/
def linkEvent (s : State) (p : Nat) (f : Fld) : State := (s.fset f p 1).evPdLink p

/-! ## MessageIDs (R138, R139) -/

def txidOf (sop : Nat) : Fld :=
  if sop = 0 then PRT_PDST.TXID0 else if sop = 1 then PRT_PDST.TXID1 else PRT_PDST.TXID2

def rxidOf (sop : Nat) : Fld :=
  if sop = 0 then PRT_PDST.RXID0 else if sop = 1 then PRT_PDST.RXID1 else PRT_PDST.RXID2

/-- The counter and stored ID of one SOP type reset. -/
def idReset (s : State) (p sop : Nat) : State :=
  ((s.fset (txidOf sop) p 0).fset (rxidOf sop) p 0).fbit PRT_PDST.RXVAL p sop false

/-! ## Mux (R245 to R257) -/

/-- The mux state with configuration `cfg` and the port's orientation (R245). -/
def muxState (s : State) (p cfg : Nat) : Nat :=
  if cfg = 0 then 0 else cfg * 2 + s.fget PRT_ATTST.ORIENT p

/-- PRT_MUX.STATE written with configuration `cfg`. -/
def setMux (s : State) (p cfg : Nat) : State := s.fset PRT_MUX.STATE p (s.muxState p cfg)

/-- The configuration R251 gives the port's condition outside a mode. -/
def idleCfg (s : State) (p : Nat) : Nat :=
  let st := s.attState p
  if st = 4 ∨ st = 7 then s.fget PRT_MUXCFG.USBCFG p
  else if st = 0xC ∨ st = 0xD ∨ st = 0xE then s.fget PRT_MUXCFG.ACCCFG p
  else 0

/-- The configuration of object position `k` (R247). -/
def modeCfg (s : State) (p k : Nat) : Nat :=
  match k with
  | 1 => s.fget PRT_MUXCFG.MAP1 p
  | 2 => s.fget PRT_MUXCFG.MAP2 p
  | 3 => s.fget PRT_MUXCFG.MAP3 p
  | 4 => s.fget PRT_MUXCFG.MAP4 p
  | _ => 0

/-- A mode, or an entry or exit in progress, ends at once with configuration `cfg` (R255): LOST and
a MODE event where a mode was entered. -/
def modeLost (s : State) (p cfg : Nat) : State :=
  let was := s.fon PRT_MODEST.ENTERED p
  let s := (s.onMux p fun _ => {}).fset PRT_MODEST.HOLD p 0
  let s := ((s.fset PRT_MODEST.ENTERED p 0).fset PRT_MODEST.POS p 0).setMux p cfg
  s.when was fun s => (s.fset PRT_MODEEV.LOST p 1).evMode p

/-- The mode that was entered is left (R254). -/
def modeLeft (s : State) (p : Nat) : State :=
  (((s.fset PRT_MODEST.ENTERED p 0).fset PRT_MODEST.POS p 0).fset PRT_MODEEV.EXIT p 1).evMode p

/-- An entry is given up: the mux returns to the configuration of R251. -/
def entryOff (s : State) (p : Nat) : State :=
  (s.onMux p fun h => { h with busy := 0 }).setMux p (s.idleCfg p)


/-! ## Contracts (R147, R161 to R163, R214) -/

/-- The contract that a Request for object `pos` of a list makes. `rdo` is the request's object. A Fixed 5 V
contract has the vSafe5V row of R214, and 0.95 V and 1.05 V are rounded down to 10 mV (DESIGN CHOICE, log entry
83). -/
def contractOf (pdos : List Nat) (rdo : Nat) : Contract :=
  let pos := bits rdo 31 28
  let o := pdos.getD (pos - 1) 0
  match bits o 31 30 with
  | 0 =>
    let v := bits o 19 10 * 5
    { typ := if pos ≤ 7 then 1 else 4, pos := pos, volt := v / 2, mv10 := v, cur := bits rdo 19 10,
      lo := if v = 500 then 475 else v * 95 / 100, hi := if v = 500 then 550 else v * 105 / 100 }
  | 1 =>
    let vmax := bits o 29 20 * 5
    let vmin := bits o 19 10 * 5
    { typ := 2, pos := pos, volt := vmax / 2, mv10 := vmax,
      cur := if vmin = 0 then 0 else (bits rdo 19 10 * 2500 + vmin - 1) / vmin,
      lo := vmin * 95 / 100, hi := vmax * 105 / 100 }
  | 2 =>
    let vmax := bits o 29 20 * 5
    let vmin := bits o 19 10 * 5
    { typ := 2, pos := pos, volt := vmax / 2, mv10 := vmax, cur := bits rdo 19 10,
      lo := vmin * 95 / 100, hi := vmax * 105 / 100 }
  | _ =>
    if bits o 29 28 = 0 then
      let v := bits rdo 20 9 * 2
      { typ := 3, pos := pos, volt := v / 2, mv10 := v, cur := bits rdo 6 0 * 5,
        lo := v * 95 / 100 - 10, hi := v * 105 / 100 + 10 }
    else
      let v := bits rdo 20 9 * 5 / 2
      { typ := 5, pos := pos, volt := v / 2, mv10 := v, cur := bits rdo 6 0 * 5,
        lo := v * 95 / 100 - 10, hi := v * 105 / 100 + 10 }

/-- PRT_CONTRACT shows contract `c`, which is in force; a change sets CONTRACT and is reported. -/
def setContract (s : State) (p : Nat) (c : Contract) : State :=
  let old := s.rget PRT_CONTRACT.reg p
  let s := (((s.fset PRT_CONTRACT.TYPE p c.typ).fset PRT_CONTRACT.POS p c.pos).fset
    PRT_CONTRACT.VOLT p c.volt).fset PRT_CONTRACT.CUR p c.cur
  let s := (s.fset PRT_CONTRACT.CL p 0).onSw p fun h => { h with held := c }
  let s := s.fset PRT_PDST.CONTRACT p (b2n (decide (c.typ ≠ 0)))
  s.when (decide (s.rget PRT_CONTRACT.reg p ≠ old)) fun s =>
    ((s.fset PRT_SWEV.CONTRACT p 1).evContract p).cntEvent 0x1F (some p)

/-- No contract is in force: cleared at hard reset and detach. -/
def clearContract (s : State) (p : Nat) : State := s.setContract p {}

/-- PRT_VWIN and the VBUS thresholds of the row of R214 for no contract, which is that of vSafe5V; the UV
comparator is at 3.67 V unless the port is source (R114). -/
def noneWindow (s : State) (p : Nat) (src : Bool) : State :=
  s.setWindow p 475 550 (if src then s.uvAsSource p 475 else 367)

/-- A CONTRACT event and its strandline record for PRT_SWEV bit `f` (R181, R480). -/
def swEvent (s : State) (p : Nat) (f : Fld) : State :=
  let s := s.fset f p 1
  let s := s.when (s.owns p) fun s => s.logRec 0x09 p
    (s.rbytes PRT_CONTRACT.reg p ++ s.rbytes PRT_ROLE.reg p ++ s.rbytes PRT_SWEV.reg p)
  s.evContract p

/-- EPR mode ends: EPR clears, timers 15 to 17 stop (R167). -/
def eprEnd (s : State) (p : Nat) : State :=
  let was := s.fon PRT_PDST.EPR p
  let s := (((s.fset PRT_PDST.EPR p 0).timStop p 15).timStop p 16).timStop p 17
  s.when was fun s => s.swEvent p PRT_SWEV.EPRX

/-! ## Roles (R159, R178) -/

/-- The attach defaults of an attach state. -/
def defaultRoles (s : State) (p st : Nat) : State :=
  let src := b2n (decide (st = 7 ∨ st = 0xC ∨ st = 0xE))
  (((s.fset PRT_ROLE.PWR p src).fset PRT_ROLE.DATA p src).fset PRT_ROLE.VCSRC p src).setSoppEn p

/-- No swap and no contract transition is in progress. -/
def swapEnd (s : State) (p : Nat) : State :=
  let s := s.when (decide (s.fget PRT_ROLE.SWAP p = 4)) fun s =>
    (s.onPd p fun h => { h with frsDet := false }).onSw p fun h => { h with frsOn := false }
  ((s.fset PRT_ROLE.SWAP p 0).fset PRT_ROLE.SWSTEP p 0).onSw p fun h => { h with
    goal := none, go := false, acc := none, srcTr := none, srcRdy := none, psOff := none, psOn := none,
    vconnTo := none, vconnOn := none, okTicks := 0, rdySeen := false, rdySent := false, swDone := false,
    cmd := none }

/-- The swap in progress ends with FAIL and its command with `status` (R169 to R171, R324). -/
def swapFail (s : State) (p status : Nat) : State :=
  let c := (s.sw p).cmd
  ((s.swapEnd p).finish c status).swEvent p PRT_SWEV.FAIL

/-- The swap in progress is complete (R181). -/
def swapDone (s : State) (p : Nat) : State :=
  let c := (s.sw p).cmd
  (((s.swapEnd p).finish c 0).swEvent p PRT_SWEV.DONE).cntEvent 0x1E (some p)

/-- The open raise closes with no reply, and an answer to one that has not begun to be sent is dropped with
what it was to begin (R151). -/
def raiseSuperseded (s : State) (p : Nat) : State :=
  let h := s.pd p
  let held := (s.mux p).hold.any fun k => k.item.any (·.answers)
  let gone := (h.replies ++ h.engine).filter (·.answers)
  let s := s.when (h.raise.isSome || held || !gone.isEmpty) fun s =>
    ((s.onPd p fun h => { h with
      raise := none, replies := h.replies.filter (!·.answers)
      engine := h.engine.filter (!·.answers) }).timStop p 2).linkEvent p PRT_PDEV.SUPSD
  let s := s.when (gone.any fun i => i.onAck == .acceptContract) fun s => s.onSw p fun h =>
    { h with goal := none, go := false }
  let s := s.when (gone.any fun i => [1, 2, 3, 4].any fun k => i.onAck == .acceptSwap k) fun s => s.swapEnd p
  let s := s.when (gone.any fun i => i.onAck == .modeAck) fun s => s.entryOff p
  let s := s.when (gone.any fun i => i.onAck == .exitAck) fun s => s.modeLeft p
  s.when held fun s => ((s.onMux p fun h => { h with hold := none }).fset PRT_MODEST.HOLD p 0).entryOff p

/-- The bit of PRT_SWEV that a hard reset sets for what it ends (R178): a swap is cancelled, a Fast Role Swap
after its hardware turn-on counts as complete. -/
def cancelEvent (s : State) (p : Nat) : Option Fld :=
  if (s.sw p).frsOn then some PRT_SWEV.DONE
  else match s.fget PRT_ROLE.SWAP p with
  | 0 | 5 | 6 => none
  | _ => some PRT_SWEV.HRSW

/-- A ROLESW of the swap is reversed: at the first edge, or at the edge after the one that applies it (R178). -/
def roleReverse (s : State) (p : Nat) : State :=
  s.onAtt p fun a => if a.roleSw then { a with roleBack := true } else { a with roleSw := true }

/-- A hard reset cancels the swap or transition in progress (R178): the attach defaults of the attach
state it began in, a ROLESW reversed; a Fast Role Swap after its hardware turn-on counts as complete
instead. -/
def swapCancel (s : State) (p : Nat) : State :=
  let k := s.fget PRT_ROLE.SWAP p
  let h := s.sw p
  if h.frsOn then
    let s := s.when (!h.swDone) fun s => s.onAtt p fun a => { a with roleSw := true }
    let s := (s.onPd p fun d => { d with frsSeen := false }).onSw p fun h => { h with frsOn := false }
    (s.swapEnd p).defaultRoles p 7
  else if k = 0 then (s.swapEnd p).defaultRoles p (s.attState p)
  else if k = 5 ∨ k = 6 then
    (((s.fset PRT_PWRCTL.DISON p 0).setDis p).swapEnd p).defaultRoles p (s.attState p)
  else
    let gateOff := k = 1 ∧ s.fget PRT_ROLE.BASEPWR p = 0 ∧
      (s.fget PRT_ROLE.SWSTEP p = 5 ∨ s.fget PRT_ROLE.SWSTEP p = 6)
    let s := s.when h.swDone fun s => s.roleReverse p
    let s := s.when (decide gateOff) fun s =>
      (s.onPwr p fun w => { w with regStart := none, railOk := 0 }).operation p 0
    let s := s.when (decide (k = 1 ∧ s.fget PRT_ROLE.BASEPWR p = 0)) fun s =>
      s.fset PRT_PWRCTL.REQ p 0
    let s := (s.swapEnd p).finish h.cmd 0x22
    let s := s.defaultRoles p h.baseAtt
    s.when (!s.vconnSource p) fun s => s.fset PRT_CCCTL.VCONNON p 0

/-! ## Soft and hard reset (R133, R138, R144, R179) -/

/-- Soft_Reset on a SOP type, queued first. -/
def softReset (s : State) (p sop : Nat) (c : Option (Nat × Nat) := none) : State :=
  let s := s.when (decide (s.fget PRT_PDST.ESCSTEP p = 0)) fun s => s.fset PRT_PDST.ESCSTEP p 1
  let s := s.sendFirst p (ctl Code.softReset sop) .softReset c
  (s.cntEvent 0x19 (some p)).linkEvent p PRT_PDEV.SRST

/-- What is on the line once an ordered set is requested: a packet is aborted (R133). -/
def Line.aborted : Line → Line
  | .packet | .goodCrc _ _ => .idle
  | l => l

/-- Hard_Reset requested: ahead of every queued packet, timer 10 starts (R133, R143). A packet on the line is
aborted; the reset flushes it. -/
def hardReset (s : State) (p : Nat) (c : Option (Nat × Nat) := none) : State :=
  (s.onPd p fun h => { h with
    ordHard := true, ordCmd := c.or h.ordCmd, line := Line.aborted h.line }).timStart p 10

/-- Cable_Reset requested. A packet on the line is aborted, and is sent again after it (log entry 119). -/
def cableReset (s : State) (p : Nat) (c : Option (Nat × Nat) := none) : State :=
  s.onPd p fun h => { h with
    ordCable := true, ordCabCmd := c.or h.ordCabCmd, line := Line.aborted h.line
    resend := h.resend || decide (h.line = .packet) }

/-- Every host command waiting in the link's queues completes with `status`. -/
def flushCommands (s : State) (p status : Nat) : State :=
  let h := s.pd p
  let cs := h.hostq.map (·.cmd) ++ h.engine.map (·.cmd) ++
    (if h.chunkOf.isSome then h.chunkOf else h.cur).toList.map (·.cmd) ++ h.wait.toList.map (·.cmd)
  cs.foldl (fun s c => s.finish c status) s

/-- The queues, packets, IDs, timers (but 10) and message state of the link cleared. -/
def flushLink (s : State) (p : Nat) : State :=
  let t10 := s.timer p 10
  let s := (List.range 20).foldl (fun s k => if k = 10 then s else s.timStop p k) s
  let s := s.onPd p fun h => { h with
    tim := if t10.isSome then [(10, t10)] else []
    owedT := h.owedT.filter (· == 10)
    rx := [], gcrc := none, replies := [], engine := [], hostq := [], cur := none, resend := false,
    wait := none, asm := none, chunks := [], chunkOf := none, heldFor := 0, keptCaps := [], txDesc := none,
    carrier := false, capsSent := 0, capsOwed := false }
  let s := ((s.idReset p 0).idReset p 1).idReset p 2
  ((s.fset PRT_PDST.AWAITGC p 0).fset PRT_PDST.AWAITRSP p 0).fset PRT_PDST.HELD p 0

/-- The reply table cleared, with what a command has still to write to it (R148). -/
def clearTable (s : State) (p : Nat) : State :=
  let s := { s with pair := { s.pair with
    ext := s.pair.ext.map fun e => if e.port = p then { e with table := [] } else e } }
  (List.range 16).foldl (fun s e => s.rput (PRT_PDRT.reg e) p 0) s

/-- The cable record cleared (R152). -/
def clearCable (s : State) (p : Nat) : State :=
  s.rput PRT_PDCBL.reg p 0x10000000

/-- The hard-reset sequence of R179 starts: HOLDATT set, tPSHardReset as source, the wait for VBUSOK
as sink, whose 1,925 ms count while VBUSOK is 0. A tPSHardReset that is due is acted on first (R180). -/
def startHardSeq (s : State) (p : Nat) : State :=
  let s := s.when (decide ((s.sw p).psHr = some 0)) fun s =>
    (s.operation p 0).fset PRT_PWRCTL.REQ p 0
  let s := (s.fset PRT_CCCTL.HOLDATT p 1).onSw p fun h => { h with
    psHr := none, srcRec := none, sinkHr := none, okTicks := 0 }
  if s.isSource p then
    s.onSw p fun h => { h with hrSeq := 1, psHr := some (msTicks (s.fget PRT_SWTIM1.TPSHR p)) }
  else if s.fon PRT_CCSTAT.VBUSOK p then s.onSw p fun h => { h with hrSeq := 5 }
  else s.onSw p fun h => { h with hrSeq := 6, sinkHr := some 240625 }

/-- What a hard reset does at once when it is sent or received (R133, R144, R178, R179, R214, R255). The
swap is cancelled and the contract cleared before either is reported (R181). -/
def hardResetDone (s : State) (p : Nat) (sent : Bool) : State :=
  let oc := (s.pd p).ordCmd
  let cc := (s.pd p).ordCabCmd
  let s := (s.flushCommands p 0x22).raiseSuperseded p
  let s := (s.flushLink p).onPd p fun h =>
    { h with ordHard := false, ordCable := false, ordCmd := none, ordCabCmd := none, line := .idle,
             hardSent := if sent then h.hardSent + 1 else h.hardSent }
  let s := (s.finish oc (if sent then 0 else 0x22)).finish cc 0x22
  let s := s.when sent fun s => s.fset PRT_PDST.ESCSTEP p 2
  let s := s.timStart p 9
  let ev := s.cancelEvent p
  let s := ((s.swapCancel p).clearContract p).eprEnd p
  let s := s.noneWindow p (s.isSource p)
  let s := match ev with
    | some f => s.swEvent p f
    | none => s
  let s := (s.clearTable p).clearCable p
  let s := s.when (s.fon PRT_PDST.BIST p) fun s => (s.fset PRT_PDST.BIST p 0).fset PRT_PDEV.BISTEV p 1
  let s := (s.modeLost p 2).onMux p fun h => { h with owed := true }
  let s := s.startHardSeq p
  (s.cntEvent 0x1A (some p)).linkEvent p PRT_PDEV.HRST

/-- The link stops and every contract, swap, raise, mode and command of the attach ends (R113, R151,
R155, R255, R324). -/
def detachLink (s : State) (p : Nat) : State :=
  let c := (s.sw p).cmd
  let s := ((s.flushCommands p 0x22).raiseSuperseded p).finish c 0x22
  let s := (s.finish (s.pd p).ordCmd 0x22).finish (s.pd p).ordCabCmd 0x22
  let s := (s.flushLink p).timStop p 10
  let s := s.when (s.fon PRT_ROLE.FRSARM p && !s.isSource p) fun s => s.operation p 0
  let s := s.onPd p fun h => { h with
    ordHard := false, ordCable := false, ordCmd := none, ordCabCmd := none, line := .idle, hardSent := 0,
    srcCaps := [], offered := [], partnerDrp := false, eprCapable := false, lastReq := none,
    frsSeen := false, frsDet := false, tim := [], owedT := [] }
  let s := (((s.swapEnd p).clearContract p).eprEnd p).clearTable p
  let s := ((s.clearCable p).onSw p fun _ => {}).noneWindow p false
  let s := ((s.fset PRT_PDST.NEGREV p 0).fset PRT_PDST.ESCSTEP p 0).fset PRT_PDST.BIST p 0
  let s := ((s.fset PRT_ROLE.FRSARM p 0).fset PRT_PWRCTL.FRSPRE p 0).fset PRT_CCCTL.HOLDATT p 0
  let s := (s.fset PRT_PWRCTL.DISON p 0).setDis p
  let s := (s.fset PRT_PDST.SOPPEN p 0).fset PRT_CCCTL.RPSET p 0
  s.modeLost p 0

/-! ## The extension block (R273) -/

/-- The memory code of the mirror buffers, and the offset of port `p`'s extension block. -/
def extOff (p : Nat) : Nat := 0x1000 + 0x800 * p

/-- Bytes written into port `p`'s extension block, and its CRC-32 left to the engine's copy. -/
def extWrite (s : State) (p off : Nat) (b : List Byte) : State := s.memWrite 0x41 (extOff p + off) b

/-- Where capability block `b` stands in the block: a length byte, then its data (log entry 12). -/
def capsOff (b : Nat) : Nat := 0x80 + 40 * b

/-- Capability, identity or manufacturer block `b` (R321). -/
def caps (s : State) (p b : Nat) : List Byte :=
  s.memRead 0x41 (extOff p + capsOff b + 8) (s.memGet 0x41 (extOff p + capsOff b)).toNat

/-- Block `b` replaced. -/
def setCaps (s : State) (p b : Nat) (d : List Byte) : State :=
  s.extWrite p (capsOff b) (byte d.length :: List.replicate 7 0 ++ d)

/-- MAP1 to MAP4 written into the block, so that the twin continues with them (R274; log entry 12). -/
def writeMaps (s : State) (p : Nat) : State :=
  s.extWrite p 0x370 ([1, 2, 3, 4].map fun k => byte (s.modeCfg p k))

/-- The host PD transmit queue written into the block's ring of four entries: a descriptor (unit, tag,
length, SOP type) and the message (R273; log entry 12). -/
def writeQueue (s : State) (p : Nat) : State :=
  let h := s.pd p
  (h.hostq.zip (List.range 4)).foldl (fun s e =>
    let m := s.msgBytes p e.1.msg
    let tag := (e.1.cmd.map (·.2)).getD 0xFF
    s.extWrite p (0x380 + 272 * ((h.qhead + e.2) % 4))
      ([byte (s.fget PAIR_ST.POS), byte tag] ++ toBytes 2 m.length ++ [byte e.1.msg.sop, 0, 0, 0] ++ m)) s

/-- The head of the host queue taken off. -/
def hostPop (s : State) (p : Nat) : State :=
  s.onPd p fun h => { h with hostq := h.hostq.tail, qhead := (h.qhead + 1) % 4 }

/-- What the GoodCRC of a message brings, from the message and the step the port is at: for a message that
firmware loads or that a taking unit finds (R156, R158). -/
def ackOf (s : State) (p : Nat) (m : Msg) : OnAck :=
  let k := s.fget PRT_ROLE.SWAP p
  if m.code = Code.accept then
    if 1 ≤ k ∧ k ≤ 4 then .acceptSwap k else if (s.sw p).goal.isSome then .acceptContract else .nothing
  else if m.code = Code.psRdy then
    match k with
    | 1 => .rdyPrSwap
    | 3 => .rdyVconn
    | 4 => .rdyFrs
    | 5 => .rdyContract
    | _ => .nothing
  else if m.code = Code.eprMode then
    match bits (m.obj 0) 31 24 with
    | 3 => .eprEntered
    | 5 => .eprExit
    | _ => .nothing
  else if m.code = Code.sourceCaps ∨ m.code = Code.eprSourceCaps then .srcCaps
  else if m.code = Code.softReset then .softReset
  else if m.code = Code.dataResetComplete then .dataReset
  else if m.code = Code.vdm ∧ vdmStructured (m.obj 0) then
    if m.sop = 1 ∧ m.isVdmReq ∧ vdmCmd (m.obj 0) = 1 then .cable
    else if vdmType (m.obj 0) = 1 ∧ vdmCmd (m.obj 0) = 4 ∧ (s.mux p).busy = 1 then .modeAck
    else if vdmType (m.obj 0) = 1 ∧ vdmCmd (m.obj 0) = 5 ∧ s.fon PRT_MODEST.ENTERED p then .exitAck
    else .nothing
  else .nothing

/-- The command that a message of the host queue belongs to, by its message (R323, R324). -/
def hostOp (m : Msg) : Nat :=
  if m.code = Code.prSwap ∨ m.code = Code.drSwap ∨ m.code = Code.vconnSwap then 0x34
  else if m.code = Code.eprMode then 0x35 else 0x33

/-- A ring entry as queued (R158, R282). -/
def ringItem (s : State) (p : Nat) (e : List Byte) : TxItem :=
  let m := msgOfBytes (ofBytes (slice e 4 1)) (slice e 8 (ofBytes (slice e 2 2)))
  { msg := m, onAck := s.ackOf p m,
    cmd := if ofBytes (slice e 1 1) = 0xFF then none else some (hostOp m, ofBytes (slice e 1 1)) }

end State
end Sys2Proof.Machine
end

