-- ==== Sys2Proof/Machine/Swaps.lean ====
section
/-!
DEFINITION. Contract transitions, swaps, the Fast Role Swap, hard-reset sequences and mode holds
(chapters 6 and 9), with the meanings of their rows.
-/
namespace Sys2Proof.Machine
namespace State

/-! ## Windows of a contract (R214) -/

/-- A VBUS code (60 V / 4,096) lies in a window given in 10 mV. -/
def codeIn (c lo hi : Nat) : Bool :=
  decide (lo * 40960 ≤ c * 60000) && decide (c * 60000 ≤ hi * 40960)

/-- Both VBUS results of the tick lie in the window. -/
def vbusIn (s : State) (p lo hi : Nat) : Bool :=
  match (s.adc p).vb1, (s.adc p).vb5 with
  | some a, some b => codeIn a lo hi && codeIn b lo hi
  | _, _ => false

/-- The UV threshold of a contract for the port's role, in 10 mV: 3.67 V as sink at vSafe5V, 4.75 V
while FRS-armed, else WLO − UVM. -/
def uvOf (s : State) (p : Nat) (c : Contract) : Nat :=
  if s.fon PRT_ROLE.FRSARM p then 475
  else if !s.isSource p && c.lo == 475 && c.hi == 550 then 367
  else s.uvAsSource p c.lo

/-- The OV threshold set for a window top. -/
def setOv (s : State) (p hi : Nat) : State :=
  s.fset (PRT_CMP.THR 3) p (min 1023 (vbusCode (hi + s.fget PRT_VMARG.OVM p)))

/-- The UV threshold set, in 10 mV. -/
def setUv (s : State) (p uv : Nat) : State := s.fset (PRT_CMP.THR 4) p (min 1023 (vbusCode uv))

/-- PRT_VWIN set. -/
def setVwin (s : State) (p lo hi : Nat) : State :=
  (s.fset PRT_VWIN.WLO p lo).fset PRT_VWIN.WHI p hi

/-- LIM for a current in 10 mA. -/
def setLimFor (s : State) (p cur : Nat) : State := s.writeLim p (s.limCode p cur)

/-! ## Source transitions (R161, R163) -/

/-- A PPS or AVS change of 500 mV or less. -/
def smallStep (old new : Contract) : Bool :=
  (new.typ == 3 || new.typ == 5) &&
    decide (new.volt ≤ old.volt + 25) && decide (old.volt ≤ new.volt + 25)

/-- Step 1: limits and OV for a rise, PRT_VWIN the union of the windows. -/
def srcStep1 (s : State) (p : Nat) (old new : Contract) : State :=
  let s := (s.fset PRT_ROLE.SWAP p 5).fset PRT_ROLE.SWSTEP p 1
  let s := s.when (decide (old.cur < new.cur)) fun s => s.setLimFor p new.cur
  let s := s.when (decide (old.volt < new.volt)) fun s => s.setOv p new.hi
  (s.setVwin p (min old.lo new.lo) (max old.hi new.hi)).onSw p fun h => { h with go := false }

/-- Step 2: the wait of tSrcTransition, 0 for a small PPS or AVS step. -/
def srcStep2 (s : State) (p : Nat) (old new : Contract) : State :=
  (s.fset PRT_ROLE.SWSTEP p 2).onSw p fun h => { h with
    srcTr := some (if smallStep old new then 0 else msTicks (s.fget PRT_SWTIM0.TSRCTR p)) }

/-- P{n}_DIS on while VBUS is above the new window (R161, R211). -/
def disonFor (s : State) (p : Nat) (new : Contract) : State :=
  (s.fset PRT_PWRCTL.DISON p (b2n (decide (new.hi * 40960 < s.fget PRT_RVBUS.CODE p * 60000)))).setDis p

/-- Step 3: VOUT_COMMAND; for a fall the UV threshold, and P{n}_DIS while VBUS is above the window. -/
def srcStep3 (s : State) (p : Nat) (old new : Contract) : State :=
  let falling := decide (new.volt ≤ old.volt)
  let s := s.fset PRT_ROLE.SWSTEP p 3
  let s := s.when falling fun s => (s.setUv p (s.uvAsSource p new.lo)).disonFor p new
  (s.voutCommand p new.mv10).onSw p fun h => { h with
    srcTr := none, vout := new.mv10,
    srcRdy := some (if smallStep old new then 3125 else msTicks (s.fget PRT_SWTIM0.TSRCRDY p)) }

/-- The end of step 4 and step 5: the last threshold, PRT_VWIN, and PS_RDY. -/
def srcStep5 (s : State) (p : Nat) (old new : Contract) : State :=
  let s := if old.volt < new.volt then s.setUv p (s.uvAsSource p new.lo)
    else ((s.fset PRT_PWRCTL.DISON p 0).setDis p).setOv p new.hi
  let s := (s.setVwin p new.lo new.hi).fset PRT_ROLE.SWSTEP p 5
  (s.onSw p fun h => { h with srcRdy := none, okTicks := 0 }).sendReply p (ctl Code.psRdy) .rdyContract

/-- The next step of a source contract transition, where the one in progress has ended. -/
def contractStep (s : State) (p : Nat) : State :=
  let h := s.sw p
  match h.goal with
  | none => s
  | some new =>
    let old := h.held
    if s.fget PRT_ROLE.SWAP p ≠ 5 then
      if h.go ∧ s.isSource p ∧ s.fget PRT_ROLE.SWAP p = 0 then s.srcStep1 p old new else s
    else match s.fget PRT_ROLE.SWSTEP p with
    | 1 => s.srcStep2 p old new
    | 2 => if h.srcTr = some 0 then s.srcStep3 p old new else s
    | 3 => (s.fset PRT_ROLE.SWSTEP p 4).onSw p fun h => { h with okTicks := 0 }
    | 4 => if 4 ≤ h.okTicks then s.srcStep5 p old new else s
    | _ => s

/-- A PPS or an AVS contract, whose Requests run timer 19 (R163). -/
def Contract.apdo (c : Contract) : Bool := c.typ == 3 || c.typ == 5

/-- The GoodCRC of a contract's PS_RDY (R161 steps 5 and 6). A Request accepted during step 6 keeps its goal for
the transition that follows. -/
def contractReady (s : State) (p : Nat) : State :=
  match (s.sw p).goal with
  | none => s
  | some new =>
    let falls := decide (new.cur < (s.sw p).held.cur)
    let s := if falls then (s.fset PRT_ROLE.SWSTEP p 6).onSw p fun h => { h with
        newPwr := some 1875, goal := none, go := false }
      else s.swapEnd p
    (s.setContract p new).when (!Contract.apdo new) fun s => s.timStop p 19

/-! ## Sink transitions (R162) -/

/-- The next step of a sink contract transition, where the one in progress has ended. -/
def sinkStep (s : State) (p : Nat) : State :=
  let h := s.sw p
  match h.goal with
  | none => s
  | some new =>
    let old := h.held
    if s.fget PRT_ROLE.SWAP p ≠ 6 then
      if h.go ∧ !s.isSource p ∧ s.fget PRT_ROLE.SWAP p = 0 then
        let s := (s.fset PRT_ROLE.SWAP p 6).fset PRT_ROLE.SWSTEP p 1
        let s := s.setUv p (min (s.uvOf p old) (s.uvOf p new))
        let s := (s.setOv p (max old.hi new.hi)).setVwin p (min old.lo new.lo) (max old.hi new.hi)
        let s := s.when (decide (old.cur < new.cur)) fun s => s.setLimFor p new.cur
        s.onSw p fun h => { h with go := false }
      else s
    else match s.fget PRT_ROLE.SWSTEP p with
    | 1 => if h.rdySeen then (s.fset PRT_ROLE.SWSTEP p 2).onSw p fun h => { h with okTicks := 0 } else s
    | 2 =>
      if 4 ≤ h.okTicks then
        let s := ((s.setUv p (s.uvOf p new)).setOv p new.hi).setVwin p new.lo new.hi
        let s := s.setLimFor p new.cur
        (s.swapEnd p).onPd p fun h => { h with keptCaps := [] }
      else s
    | _ => s

/-! ## Swaps (R168 to R174) -/

/-- A swap of this kind begins with step 1 (R168): the base role and attach state are noted. -/
def swapBegin (s : State) (p kind : Nat) (c : Option (Nat × Nat)) : State :=
  let s := (s.fset PRT_ROLE.SWAP p kind).fset PRT_ROLE.SWSTEP p 1
  let s := s.fset PRT_ROLE.BASEPWR p (s.fget PRT_ROLE.PWR p)
  let st := s.attState p
  s.onSw p fun h => { h with
    baseAtt := st, cmd := c, go := false, rdySeen := false, rdySent := false, swDone := false }

/-- ROLESW is written for the next edge. -/
def roleSwap (s : State) (p : Nat) : State :=
  (s.onAtt p fun a => { a with roleSw := true }).onSw p fun h => { h with swDone := true }

/-- The next step of a PR_Swap on its awaited event (R169). -/
def prSwapStep (s : State) (p : Nat) : State :=
  let h := s.sw p
  if s.fget PRT_ROLE.SWAP p ≠ 1 then s
  else if s.fget PRT_ROLE.BASEPWR p = 1 then
    match s.fget PRT_ROLE.SWSTEP p with
    | 1 => if h.go then
        ((s.fset PRT_CCCTL.HOLDATT p 1).fset PRT_ROLE.SWSTEP p 2).onSw p fun h => { h with
          go := false, srcTr := some (msTicks (s.fget PRT_SWTIM0.TSRCTR p)) }
      else s
    | 3 => if s.fon PRT_CCSTAT.VSAFE0 p then
        (((s.fset PRT_ROLE.SWSTEP p 4).roleSwap p).fset PRT_ROLE.PWR p 0).sendReply p
          (ctl Code.psRdy) .rdyPrSwap
      else s
    | 5 => if h.rdySeen then
        (s.fset PRT_ROLE.SWSTEP p 7).onSw p fun h => { h with psOn := none }
      else s
    | 7 => if s.fon PRT_CCSTAT.VBUSOK p then
        (((s.fset PRT_PWRCTL.REQ p 2).fset PRT_CCCTL.HOLDATT p 0).swapDone p)
      else s
    | _ => s
  else
    match s.fget PRT_ROLE.SWSTEP p with
    | 1 => if h.go then
        (((s.fset PRT_CCCTL.HOLDATT p 1).fset PRT_PWRCTL.REQ p 0).fset PRT_ROLE.SWSTEP p 2).onSw p
          fun h => { h with go := false, psOff := some (msTicks (s.fget PRT_SWTIM2.PSOFF p)) }
      else s
    | 2 => if h.rdySeen then
        let s := s.onSw p fun h => { h with psOff := none, rdySeen := false, okTicks := 0 }
        (((s.fset PRT_ROLE.SWSTEP p 5).roleSwap p).fset PRT_ROLE.PWR p 1).regStart p
      else s
    | 5 => s.fset PRT_ROLE.SWSTEP p 6
    | 6 => if 4 ≤ h.okTicks ∧ !h.rdySent then
        (s.onSw p fun h => { h with okTicks := 0, rdySent := true }).sendReply p (ctl Code.psRdy) .rdyPrSwap
      else s
    | _ => s

/-- The GoodCRC of a PR_Swap's PS_RDY (R169 steps 4 and 6). -/
def prSwapReady (s : State) (p : Nat) : State :=
  if s.fget PRT_ROLE.BASEPWR p = 1 then
    (s.fset PRT_ROLE.SWSTEP p 5).onSw p fun h =>
      { h with psOn := some (msTicks (s.fget PRT_SWTIM2.PSON p)) }
  else (s.fset PRT_CCCTL.HOLDATT p 0).swapDone p

/-- VCONNON cannot close the port's switch: VCONN_EN is 0, or the quad's input is low (R121, R171). -/
def vconnBarred (s : State) (p : Nat) : Bool :=
  decide (s.eget PRT_CCCFG.VCONN_EN p = 0) || (s.quad (p / 4)).vconnUv

/-- The next step of a VCONN_Swap (R171). -/
def vconnSwapStep (s : State) (p : Nat) : State :=
  let h := s.sw p
  if s.fget PRT_ROLE.SWAP p ≠ 3 then s
  else match s.fget PRT_ROLE.SWSTEP p with
  | 1 => if !h.go then s
    else if s.vconnSource p then
      (s.fset PRT_ROLE.SWSTEP p 2).onSw p fun h =>
        { h with go := false, vconnTo := some (msTicks (s.fget PRT_SWTIM3.VCONNTO p)) }
    else if s.vconnBarred p then (s.swapFail p 0x22).hardReset p
    else ((s.fset PRT_CCCTL.VCONNON p 1).fset PRT_ROLE.SWSTEP p 2).onSw p fun h => { h with go := false }
  | 2 =>
    if s.vconnSource p then
      if h.rdySeen then
        ((s.fset PRT_CCCTL.VCONNON p 0).fset PRT_ROLE.VCSRC p 0).setSoppEn p |>.swapDone p
      else s
    else if s.fon PRT_ATTST.VCONN p then
      (s.fset PRT_ROLE.SWSTEP p 3).onSw p fun h =>
        { h with vconnOn := some (msTicks (s.fget PRT_SWTIM3.TVCONNON p)) }
    else if s.vconnBarred p then (s.swapFail p 0x22).hardReset p
    else s
  | _ => s

/-- The next step of a Fast Role Swap (R173, R174). One that is detected while a sink's contract transition
runs takes its place (log entry 120). -/
def frsStep (s : State) (p : Nat) : State :=
  let h := s.sw p
  let k := s.fget PRT_ROLE.SWAP p
  if k ≠ 4 then
    if (s.pd p).frsSeen ∧ (k = 0 ∨ k = 6) then
      (((s.swapEnd p).swapBegin p 4 none).sendFirst p (ctl Code.frSwap)).onPd p fun d =>
        { d with frsSeen := false }
    else s
  else if s.fget PRT_ROLE.BASEPWR p = 0 then
    match s.fget PRT_ROLE.SWSTEP p with
    | 1 => if h.go then (s.fset PRT_ROLE.SWSTEP p 2).onSw p fun h => { h with go := false } else s
    | 2 => if h.rdySeen then
        ((s.fset PRT_ROLE.SWSTEP p 3).roleSwap p).sendReply p (ctl Code.psRdy) .rdyFrs
      else s
    | _ => s
  else
    match s.fget PRT_ROLE.SWSTEP p with
    | 1 => if h.go then
        (((s.fset PRT_CCCTL.HOLDATT p 1).operation p 0).fset PRT_PWRCTL.REQ p 0).fset PRT_ROLE.SWSTEP p 2
          |>.onSw p fun h => { h with go := false }
      else s
    | 2 => if s.fget PRT_RVBUS.CODE p * 60000 < 500 * 40960 then
        ((s.fset PRT_ROLE.SWSTEP p 3).roleSwap p).sendReply p (ctl Code.psRdy) .rdyFrs
      else s
    | 4 => if h.rdySeen then
        (((s.fset PRT_ROLE.PWR p 0).fset PRT_PWRCTL.REQ p 2).fset PRT_CCCTL.HOLDATT p 0).swapDone p
      else s
    | _ => s

/-- The GoodCRC of a Fast Role Swap's PS_RDY. -/
def frsReady (s : State) (p : Nat) : State :=
  if s.fget PRT_ROLE.BASEPWR p = 0 then
    (((s.fset PRT_CCCTL.HOLDATT p 0).fset PRT_ROLE.PWR p 1).swapDone p).onPd p fun h =>
      { h with capsOwed := true }
  else s.fset PRT_ROLE.SWSTEP p 4

/-- The GoodCRC of a VCONN_Swap's PS_RDY. -/
def vconnReady (s : State) (p : Nat) : State :=
  ((s.fset PRT_ROLE.VCSRC p 1).setSoppEn p).swapDone p

/-- The GoodCRC of an Accept that begins a swap: a DR_Swap is done there (R170), the others begin
their steps at the next edge (R168). -/
def swapAccepted (s : State) (p kind : Nat) : State :=
  if kind = 2 then (s.fset PRT_ROLE.DATA p (1 - s.fget PRT_ROLE.DATA p)).swapDone p
  else s.onSw p fun h => { h with go := true }

/-- The request in wait is over: AWAITRSP clears and its timers stop. -/
def endWait (s : State) (p : Nat) : State :=
  ((((s.onPd p fun h => { h with wait := none }).fset PRT_PDST.AWAITRSP p 0).timStop p 1).timStop p
    12).timStop p 13

/-- The port's own swap request is withdrawn by another message or a Fast Role Swap signal (R176). -/
def withdrawSwap (s : State) (p : Nat) : State :=
  let c := (s.sw p).cmd
  (((s.endWait p).swapEnd p).finish c 0x22).swEvent p PRT_SWEV.INTR

/-! ## Hard-reset sequences (R179) -/

/-- The sequence ends: HOLDATT clears, and the mux state R251 gives follows (R255). -/
def hardSeqEnd (s : State) (p : Nat) : State :=
  let s := (s.fset PRT_CCCTL.HOLDATT p 0).onSw p fun h => { h with hrSeq := 0, sinkHr := none, okTicks := 0 }
  s.when (s.mux p).owed fun s => (s.setMux p (s.idleCfg p)).onMux p fun h => { h with owed := false }

/-- The sequence moves on at its VBUS event. -/
def hardSeqStep (s : State) (p : Nat) : State :=
  let h := s.sw p
  match h.hrSeq with
  | 2 => if s.fon PRT_CCSTAT.VSAFE0 p then
      s.onSw p fun h => { h with hrSeq := 3, srcRec := some (msTicks (s.fget PRT_SWTIM1.TSRCREC p)) }
    else s
  | 4 => if 4 ≤ h.okTicks then s.hardSeqEnd p else s
  | 5 => if s.fon PRT_CCSTAT.VBUSOK p then s
    else s.onSw p fun h => { h with hrSeq := 6, sinkHr := some 240625 }
  | 6 => if s.fon PRT_CCSTAT.VBUSOK p then (s.hardSeqEnd p).timStart p 6 else s
  | _ => s

/-! ## Mode holds (R252 to R254) -/

/-- A message or a mux state held for TSETTLE ticks after the edge that latches the mux. -/
def muxHold (s : State) (p kind : Nat) (item : Option TxItem) : State :=
  (s.onMux p fun h => { h with
    hold := some { kind := kind, left := s.fget PRT_MUXCFG.TSETTLE p + 1, item := item } }).fset
    PRT_MODEST.HOLD p (if kind = 1 then 1 else if kind = 3 then 2 else 3)

/-- The hold of R252 to R254 ends: the message goes out, or the next mux state is written. -/
def muxRelease (s : State) (p : Nat) : State :=
  match (s.mux p).hold with
  | some h =>
    let s := (s.onMux p fun m => { m with hold := none }).fset PRT_MODEST.HOLD p 0
    match h.kind, h.item with
    | 1, some i => s.onPd p fun d => { d with engine := i :: d.engine }
    | 2, some i => s.onPd p fun d => { d with replies := d.replies ++ [i] }
    | 4, some i =>
      let s := s.onPd p fun d => { d with replies := d.replies ++ [i] }
      (s.onMux p fun m => { m with busy := 0 }).setMux p (s.idleCfg p)
    | _, _ => (s.onMux p fun m => { m with busy := 0 }).setMux p (s.idleCfg p)
  | none => s

end State

/-! ## Meanings -/

open State

/-- CONTRACT_TRANSITION_STEP (R161): the next step of a source contract transition begins where the
step in progress has ended. -/
def execContractTransitionStep (p : Port) (s : State) : Out := .next (s.contractStep p)

/-- SINK_TRANSITION_STEP (R162): the next step of a sink contract transition. -/
def execSinkTransitionStep (p : Port) (s : State) : Out := .next (s.sinkStep p)

/-- SRC_TRANSITION_EXPIRY (R161, R169): tSrcTransition elapses; step 3 of the transition or of the
PR_Swap begins. -/
def execSrcTransitionExpiry (p : Port) (s : State) : Out :=
  if (s.sw p).srcTr = some 0 then
    if s.fget PRT_ROLE.SWAP p = 1 then
      .next (((s.onSw p fun h => { h with srcTr := none }).operation p 0).fset
        PRT_PWRCTL.REQ p 0 |>.fset PRT_ROLE.SWSTEP p 3)
    else .next (s.contractStep p)
  else .next s

/-- SRC_READY_TIMEOUT (R161): VBUS misses the new window within tSrcReady: Hard_Reset and "contract
transition timeout". -/
def execSrcReadyTimeout (p : Port) (s : State) : Out :=
  if (s.sw p).srcRdy = some 0 then
    .next ((((s.onSw p fun h => { h with srcRdy := none }).hardReset p).swEvent p
      PRT_SWEV.TRTO).portSource p 17)
  else .next s

/-- SNK_NEW_POWER_EXPIRY (R161 step 6): the limits are lowered to the new current and the transition is over;
what a Request accepted meanwhile leads to stays. -/
def execSnkNewPowerExpiry (p : Port) (s : State) : Out :=
  if (s.sw p).newPwr = some 0 then
    let s := (s.onSw p fun h => { h with newPwr := none }).setLimFor p (s.sw p).held.cur
    .next (s.when (decide (s.fget PRT_ROLE.SWAP p = 5)) fun s =>
      (s.fset PRT_ROLE.SWAP p 0).fset PRT_ROLE.SWSTEP p 0)
  else .next s

/-- The PPS current limit works on the port: a PPS contract is in force as source, PPSCL is 1 and no transition
to another contract is moving VBUS (R164). -/
def State.ppsLimits (s : State) (p : Nat) : Bool :=
  decide ((s.sw p).held.typ = 3) && s.isSource p && decide (s.eget PRT_SWCFG.PPSCL p = 1) &&
    (decide (s.fget PRT_ROLE.SWAP p ≠ 5) || decide (s.fget PRT_ROLE.SWSTEP p = 6))

/-- PPS_CURRENT_LIMIT_STEP (R164): after 16 ticks over or under the operating current, VOUT_COMMAND
moves 100 mV, within the APDO minimum and the requested voltage. -/
def execPpsCurrentLimitStep (p : Port) (s : State) : Out :=
  let h := s.sw p
  let c := h.held
  let floor := bits ((s.pd p).offered.getD (c.pos - 1) 0) 15 8 * 10
  let to_ := fun (v : Nat) => (((s.onSw p fun h => { h with vout := v, ppsOver := 0, ppsUnder := 0 }).voutCommand
    p v).fset PRT_CONTRACT.CL p (b2n (decide (v < c.mv10))))
  if s.ppsLimits p ∧ 16 ≤ h.ppsOver then .next (to_ (max floor (h.vout - 10)))
  else if s.ppsLimits p ∧ 16 ≤ h.ppsUnder then .next (to_ (min c.mv10 (h.vout + 10)))
  else .next s

/-- PR_SWAP_STEP (R169). -/
def execPrSwapStep (p : Port) (s : State) : Out := .next (s.prSwapStep p)

/-- PS_SOURCE_OFF_TIMEOUT (R169): Hard_Reset. -/
def execPsSourceOffTimeout (p : Port) (s : State) : Out :=
  if (s.sw p).psOff = some 0 then
    .next (((((s.onSw p fun h => { h with psOff := none }).finish (s.sw p).cmd 0x50).onSw p fun h =>
      { h with cmd := none }).swEvent p PRT_SWEV.FAIL).hardReset p)
  else .next s

/-- PS_SOURCE_ON_TIMEOUT (R169): Hard_Reset. -/
def execPsSourceOnTimeout (p : Port) (s : State) : Out :=
  if (s.sw p).psOn = some 0 then
    .next (((((s.onSw p fun h => { h with psOn := none }).finish (s.sw p).cmd 0x50).onSw p fun h =>
      { h with cmd := none }).swEvent p PRT_SWEV.FAIL).hardReset p)
  else .next s

/-- VCONN_SWAP_STEP (R171). -/
def execVconnSwapStep (p : Port) (s : State) : Out := .next (s.vconnSwapStep p)

/-- VCONN_ON_TIMEOUT (R171): Hard_Reset. -/
def execVconnOnTimeout (p : Port) (s : State) : Out :=
  if (s.sw p).vconnTo = some 0 then
    .next (((((s.onSw p fun h => { h with vconnTo := none }).finish (s.sw p).cmd 0x50).onSw p fun h =>
      { h with cmd := none }).swEvent p PRT_SWEV.FAIL).hardReset p)
  else .next s

/-- VCONN_SOURCE_ON_EXPIRY (R171): tVCONNSourceOn elapses and PS_RDY is sent. -/
def execVconnSourceOnExpiry (p : Port) (s : State) : Out :=
  if (s.sw p).vconnOn = some 0 then
    .next ((s.onSw p fun h => { h with vconnOn := none }).sendReply p (ctl Code.psRdy) .rdyVconn)
  else .next s

/-- FRS_SWAP_STEP (R173, R174). -/
def execFrsSwapStep (p : Port) (s : State) : Out := .next (s.frsStep p)

/-- FRS_SIGNAL_DETECTED (R134, R173, R176): on an armed port HOLDATT sets at once, and an own swap
request outstanding is withdrawn. -/
def execFrsSignalDetected (p : Port) (s : State) : Out :=
  if s.fon PRT_ROLE.FRSARM p then
    let s := s.fset PRT_CCCTL.HOLDATT p 1
    let own := (s.pd p).wait.any fun w => [9, 10, 11].contains w.code
    let s := s.when own fun s => s.withdrawSwap p
    let s := s.onPd p fun d => { d with frsSeen := true, frsDet := true }
    .next (s.swEvent p PRT_SWEV.FRSDET)
  else .next s

/-- FRS_SOURCE_TURN_ON (R173, R219): at the VBUS UV crossing after detection, with the preset held,
MODE turns to source in hardware and the state stays On; the engine raises VOUT to 5.00 V. -/
def execFrsSourceTurnOn (p : Port) (s : State) : Out :=
  if s.fon PRT_PWRCTL.FRSPRE p ∧ (s.pd p).frsDet ∧ s.pwrState p = 2 then
    let s := s.onPd p fun d => { d with frsDet := false }
    .next (((s.fset PRT_PWRST.MODE p 1).fset PRT_PWRCTL.REQ p 1).onSw p
      (fun h => { h with frsOn := true }) |>.voutCommand p 500)
  else .next s

/-- FRS_SIGNAL_END (R134): the 90 µs signal ends and BMC receive resumes. -/
def execFrsSignalEnd (p : Port) (s : State) : Out :=
  .next (s.onPd p fun d => { d with frsGen := false })

/-- HARD_RESET_SEQUENCE_STEP (R179). -/
def execHardResetSequenceStep (p : Port) (s : State) : Out := .next (s.hardSeqStep p)

/-- PS_HARD_RESET_EXPIRY (R179): the source turns off and discharges. -/
def execPsHardResetExpiry (p : Port) (s : State) : Out :=
  if (s.sw p).psHr = some 0 then
    .next (((s.onSw p fun h => { h with psHr := none, hrSeq := 2 }).operation p 0).fset
      PRT_PWRCTL.REQ p 0)
  else .next s

/-- SRC_RECOVER_EXPIRY (R179): vSafe5V is applied again under R160. -/
def execSrcRecoverExpiry (p : Port) (s : State) : Out :=
  if (s.sw p).srcRec = some 0 then
    .next ((s.onSw p fun h => { h with srcRec := none, hrSeq := 4, okTicks := 0, vout := 500 }).regStart p)
  else .next s

/-- SINK_HARD_RESET_TIMEOUT (R179): 1,925 ms without VBUSOK; HOLDATT clears and the detach exit then
applies. -/
def execSinkHardResetTimeout (p : Port) (s : State) : Out :=
  if (s.sw p).sinkHr = some 0 then .next (s.hardSeqEnd p) else .next s

/-- MODE_HOLD_RELEASE (R252 to R254): the TSETTLE wait has ended. -/
def execModeHoldRelease (p : Port) (s : State) : Out :=
  match (s.mux p).hold with
  | some h => if h.left = 0 then .next (s.muxRelease p) else .next s
  | none => .next s

/-- JUNCTION_REVERSE_TURN_OFF (R220, R222): a controller turns its FET off; REV sets and "junction
reverse current" of the quad records one event. Controller 0 is feed A, 1 feed B, 2 the return. -/
def execJunctionReverseTurnOff (q : Quad) (ctl : Fin 3) (s : State) : Out :=
  let s := s.onQuad q fun h => match ctl.val with
    | 0 => { h with faOn := false }
    | 1 => { h with fbOn := false }
    | _ => { h with rtOn := false }
  .next (((s.fset QD_JEV.REV q 1).unitSource (32 + q)).evQuad q)

/-- FEED_LOST (R221, R222): a feed monitor changes: a feed lost records its source, a feed that
returns sets FRET; a preferred feed's loss releases the other feed's gate. -/
def execFeedLost (q : Quad) (feedB present : Bool) (s : State) : Out :=
  let was := if feedB then (s.quad q).fbPres else (s.quad q).faPres
  if was = present then .next s
  else
    let s := s.onQuad q fun h =>
      if feedB then { h with fbPres := present, fbOn := h.fbOn && present }
      else { h with faPres := present, faOn := h.faOn && present }
    let src := (if feedB then 24 else 20) + q.val
    let s := if present then (s.fset QD_JEV.FRET q 1).weirCond 16 src false
      else (s.fset (if feedB then QD_JEV.FBLOST else QD_JEV.FALOST) q 1).weirCond 16 src true
    .next (s.evQuad q)

/-- QUAD_BUS_UNDERVOLTAGE (R222, R174): the quad bus monitor changes; on a fall, each source port of
the quad with FRSGEN signals a Fast Role Swap. -/
def execQuadBusUndervoltage (q : Quad) (under : Bool) (s : State) : Out :=
  if (s.quad q).busUv = under then .next s
  else
    let s := s.onQuad q fun h => { h with busUv := under }
    if under then
      let s := ((s.fset QD_JEV.BUSUV q 1).weirCond 16 (28 + q) true).evQuad q
      .next (s.forPorts fun p s =>
        s.when (decide (p / 4 = q.val) && s.owns p && s.linkRuns p && s.isSource p &&
          decide (s.eget PRT_SWCFG.FRSGEN p = 1)) fun s => s.onPd p fun d => { d with frsGen := true })
    else .next (s.weirCond 16 (28 + q) false)

end Sys2Proof.Machine
end

