-- ==== Sys2Proof/Machine/PdParse.lean ====
section
/-!
DEFINITION. The Power Delivery protocol layer: decisions on received messages, the reply table,
raises, responses, transmission and reception, and the meanings of those rows (chapters 5, 6, 9).
-/
namespace Sys2Proof.Machine
namespace State

/-! ## Capabilities (R135, R153) -/

/-- The cable shows VALID and 5 A. -/
def cable5A (s : State) (p : Nat) : Bool := s.fon PRT_PDCBL.VALID p && s.fget PRT_PDCBL.IMAX p == 2

/-- The cable shows VALID, EPRCAP, 5 A and 50 V. -/
def cableEpr (s : State) (p : Nat) : Bool :=
  s.cable5A p && s.fon PRT_PDCBL.EPRCAP p && s.fget PRT_PDCBL.VMAX p == 3

/-- An object limited to 3 A, by its kind; a Battery object to the power whose current by R147 is 3 A (R153). -/
def limit3A (o : Nat) : Nat :=
  match bits o 31 30 with
  | 0 | 2 => o - bits o 9 0 + min 300 (bits o 9 0)
  | 1 => o - bits o 9 0 + min (bits o 19 10 * 3 / 5) (bits o 9 0)
  | _ => if bits o 29 28 = 0 then o - bits o 6 0 + min 60 (bits o 6 0) else o

/-- Bit `i` of the first object cleared. -/
def clearFirst (i : Nat) : List Nat → List Nat
  | o :: t => (if bit o i then o - 2 ^ i else o) :: t
  | [] => []

/-- Source objects as the port may advertise them: limited to 3 A and without EPR capability (bit 23 of the
first object) while the cable does not allow more, and without unchunked extended messages (bit 24; R141,
log entry 6). -/
def allowed (s : State) (p : Nat) (l : List Nat) : List Nat :=
  let l := if s.cable5A p then l else l.map limit3A
  clearFirst 24 (if s.cableEpr p then l else clearFirst 23 l)

/-- Block 0 as the port may advertise it (R153). -/
def sprOffer (s : State) (p : Nat) : List Nat := s.allowed p (objects (s.caps p 0))

/-- The objects of EPR_Source_Capabilities: seven SPR places, then the EPR objects where the cable
conditions hold. -/
def eprOffer (s : State) (p : Nat) : List Nat :=
  let l := s.sprOffer p
  if s.cableEpr p then l ++ List.replicate (7 - l.length) 0 ++ objects (s.caps p 1) else l

/-- Source_Capabilities, or EPR_Source_Capabilities in EPR mode. -/
def capsMsg (s : State) (p : Nat) (epr : Bool) : Msg :=
  if epr then extMsg 17 ((s.eprOffer p).flatMap (toBytes 4)) else dat 1 (s.sprOffer p)

/-- The engine sends its capabilities as source. -/
def sendSourceCaps (s : State) (p : Nat) : State :=
  let epr := s.fon PRT_PDST.EPR p
  let l := if epr then s.eprOffer p else s.sprOffer p
  if l = [] then s
  else s.sendEngine p (s.capsMsg p epr) .srcCaps

/-! ## Requests as sink (R147, R148) -/

/-- A Request (EPR_Request in EPR mode) for object `pos` at `cur` 10 mA, queued as the reply. -/
def sendRequest (s : State) (p pos cur : Nat) (mismatch : Bool) : State :=
  let caps := (s.pd p).srcCaps
  let rdo := pos * 2 ^ 28 + b2n mismatch * 2 ^ 26 + cur * 1024 + cur
  let m := if s.fon PRT_PDST.EPR p then dat 9 [rdo, caps.getD (pos - 1) 0] else dat 2 [rdo]
  s.sendReply p m

/-- The maximum current of a fixed object, 10 mA. -/
def fixedCur (o : Nat) : Nat := bits o 9 0

/-- The negative answer to Source_Capabilities: object 1 with Capability Mismatch (R148). -/
def sendMismatch (s : State) (p : Nat) : State :=
  let own := match objects (s.caps p 2) with
    | o :: _ => fixedCur o
    | [] => 10
  s.sendRequest p 1 (min (fixedCur ((s.pd p).srcCaps.getD 0 0)) own) true

/-! ## T kinds (R145 to R148) -/

/-- The KIND of PRT_PDRTe that names a message, 0 for none. -/
def tKind (s : State) (p : Nat) (m : Msg) : Nat :=
  let c := m.code
  if c = Code.request then
    let o := (s.pd p).offered.getD (bits (m.obj 0) 31 28 - 1) 0
    if bits o 31 30 = 3 then (if bits o 29 28 = 0 then 2 else 3) else 1
  else if c = Code.eprRequest then 4
  else if c = Code.prSwap then 5
  else if c = Code.drSwap then 6
  else if c = Code.vconnSwap then 7
  else if c = Code.frSwap then 8
  else if c = Code.eprMode ∧ bits (m.obj 0) 31 24 = 1 then 9
  else if m.isVdmReq ∧ vdmSvid (m.obj 0) = s.fget DEV_SVID.SVID ∧ vdmCmd (m.obj 0) = 4 then 10
  else if m.isVdmReq ∧ vdmSvid (m.obj 0) = s.fget DEV_SVID.SVID ∧ vdmCmd (m.obj 0) = 5 then 11
  else if c = Code.sourceCaps ∧ !s.isSource p then 12
  else if c = Code.eprSourceCaps ∧ !s.isSource p then 13
  else if c = Code.dataReset then 14
  else 0

/-- A Request's object and what it asks is within what the port advertised (R145 step 1). -/
def requestValid (s : State) (p : Nat) (m : Msg) : Bool :=
  let rdo := m.obj 0
  let pos := bits rdo 31 28
  let o := (s.pd p).offered.getD (pos - 1) 0
  let inList := decide (1 ≤ pos) && decide (pos ≤ (s.pd p).offered.length) && decide (o ≠ 0)
  let fits := match bits o 31 30 with
    | 0 | 2 => decide (bits rdo 19 10 ≤ bits o 9 0)
    | 1 => decide (bits rdo 19 10 ≤ bits o 9 0)
    | _ =>
      if bits o 29 28 = 0 then
        decide (bits rdo 6 0 ≤ bits o 6 0) && decide (bits o 15 8 * 5 ≤ bits rdo 20 9) &&
          decide (bits rdo 20 9 ≤ bits o 24 17 * 5)
      else
        decide (bits o 15 8 * 4 ≤ bits rdo 20 9) && decide (bits rdo 20 9 ≤ bits o 25 17 * 4) &&
          decide (bits rdo 20 9 % 4 = 0) &&
          decide (bits rdo 6 0 * bits rdo 20 9 ≤ bits o 7 0 * 800)
  let mode := m.code != Code.eprRequest || s.fon PRT_PDST.EPR p
  inList && fits && mode

/-- The current a Request asks, in 10 mA; for a Battery object its power over the object's minimum
voltage, rounded up (R147). -/
def requestCur (s : State) (p : Nat) (m : Msg) : Nat :=
  (contractOf (s.pd p).offered (m.obj 0)).cur

/-- Entry `e` of the reply table, as it stood at the edge (R146), matches the message (R147). A POS other than 0
matches no message of the Source_Capabilities kinds (DESIGN CHOICE, log entry 117). -/
def entryMatches (s : State) (p e kind : Nat) (m : Msg) : Bool :=
  let cond := s.eget (PRT_PDRT.COND e) p
  let pos := s.eget (PRT_PDRT.POS e) p
  let imax := s.eget (PRT_PDRT.IMAX e) p
  let vmax := s.eget (PRT_PDRT.VMAX e) p
  let objPos := if kind ≤ 4 then bits (m.obj 0) 31 28
    else if kind = 10 ∨ kind = 11 then vdmPos (m.obj 0) else 0
  let conds := (!bit cond 0 || decide (4 < kind) || !bit (m.obj 0) 26) && (!bit cond 1 || s.fon PRT_PDST.EPR p) &&
    (!bit cond 2 || !s.fon PRT_PDST.EPR p)
  let values :=
    if kind = 10 ∨ kind = 11 then
      decide (imax = vdmSvid (m.obj 0)) && (decide (vmax % 256 = 0) || decide (vmax % 256 = objPos))
    else if kind = 12 ∨ kind = 13 then
      (s.pd p).srcCaps.any fun o => decide (bits o 31 30 = 0) &&
        decide (bits o 19 10 * 5 = vmax * 2) && decide (imax ≤ fixedCur o)
    else if kind ≤ 4 then
      decide (imax = 0xFFFF ∨ s.requestCur p m ≤ imax) &&
        (!Contract.apdo (contractOf (s.pd p).offered (m.obj 0)) || decide (vmax = 0xFFFF) ||
          decide ((contractOf (s.pd p).offered (m.obj 0)).volt ≤ vmax))
    else true
  decide (s.eget (PRT_PDRT.KIND e) p = kind) && (decide (pos = 0) || decide (pos = objPos)) &&
    conds && values

/-- The first matching entry (R145 step 4). -/
def findEntry (s : State) (p kind : Nat) (m : Msg) : Option Nat :=
  (List.range 16).find? fun e => s.entryMatches p e kind m

/-! ## Raises and replies -/

/-- PD_MESSAGE (R308): a message reported, with the tag it completes or 0xFF. -/
def evMessage (s : State) (p : Nat) (m : Msg) (tag : Nat) : State :=
  s.when (s.owns p) fun s => s.hostEvent 3 ([byte p, byte m.sop, byte tag, 0, 0, 0, 0, 0] ++ rxBytes m)

/-- A message raised (R149): the raise stays open with timer 2 running where it takes a reply. Raise numbers
count up from 1 and go from 0xFFFE to 0 (DESIGN CHOICE, log entry 118). -/
def raiseMsg (s : State) (p : Nat) (m : Msg) (open_ : Bool) : State :=
  let n := ((s.pd p).raiseNum + 1) % 0xFFFF
  let s := s.onPd p fun h => { h with
    raiseNum := n, raise := if open_ then some ⟨n, m⟩ else h.raise }
  let s := s.when open_ fun s => s.timStart p 2
  let s := (s.fset PRT_PDEV.RAISED p 1).cntEvent 0x1B (some p)
  s.hostEvent 2 ([byte p, byte m.sop] ++ toBytes 2 n ++
    toBytes 2 (if open_ then s.fget (PRT_PDTIM.LOAD 2) p else 0) ++
    [byte (s.fget PRT_PDCFG.LATE p), 0] ++ rxBytes m)

/-- EPR_Mode with this action and data byte. -/
def eprModeMsg (action data : Nat) : Msg := dat 10 [action * 2 ^ 24 + data * 2 ^ 16]

/-- The reply of the swap kinds. -/
def swapOfKind (kind : Nat) : Nat := if kind = 5 then 1 else if kind = 6 then 2 else if kind = 7 then 3 else 4

/-- Every PD_SWAP still in the host queue completes with WRONG_STATE (R177). -/
def dropQueuedSwaps (s : State) (p : Nat) : State :=
  let isSwap := fun (i : TxItem) => [9, 10, 11, 19].contains i.msg.code
  let gone := (s.pd p).hostq.filter isSwap
  ((gone.foldl (fun s i => s.finish i.cmd 0x22) s).onPd p fun h =>
    { h with hostq := h.hostq.filter fun i => !isSwap i }).writeQueue p

/-- The positive reply to a T message (R148, R161, R165, R168, R253, R254). -/
def replyPositive (s : State) (p : Nat) (m : Msg) (kind pos cur : Nat) : State :=
  if kind ≤ 4 then
    let c := contractOf (s.pd p).offered (m.obj 0)
    let s := s.when (Contract.apdo c) fun s => s.timStart p 19
    (s.onSw p fun h => { h with goal := some c }).sendReply p (ctl Code.accept) .acceptContract
  else if kind ≤ 8 then
    ((s.dropQueuedSwaps p).swapBegin p (swapOfKind kind) none).sendReply p (ctl Code.accept)
      (.acceptSwap (swapOfKind kind))
  else if kind = 9 then
    (s.sendReply p (eprModeMsg 2 0)).sendEngine p (eprModeMsg 3 0) .eprEntered
  else if kind = 10 then
    let k := vdmPos (m.obj 0)
    let ack : TxItem := { msg := dat 15 [vdmAnswer (m.obj 0) 1], onAck := .modeAck }
    ((s.setMux p (s.modeCfg p k)).onMux p fun h => { h with busy := 1, pos := k }).muxHold p 2 (some ack)
  else if kind = 11 then
    let ack : TxItem := { msg := dat 15 [vdmAnswer (m.obj 0) 1], onAck := .exitAck }
    ((s.setMux p 2).onMux p fun h => { h with busy := 2 }).muxHold p 4 (some ack)
  else if kind ≤ 13 then s.sendRequest p pos cur false
  else s.sendReply p (ctl Code.accept) .dataReset

/-- The negative reply to a T message (R148). -/
def replyNegative (s : State) (p : Nat) (m : Msg) (kind : Nat) (why : Nat := 4) : State :=
  if kind = 9 then s.sendReply p (eprModeMsg 4 why)
  else if kind = 10 ∨ kind = 11 then s.sendReply p (dat 15 [vdmAnswer (m.obj 0) 2])
  else if kind = 12 ∨ kind = 13 then s.sendMismatch p
  else s.sendReply p (ctl Code.reject)

/-- The object and current of the Request a capabilities entry makes (R147). -/
def entryRequest (s : State) (p e : Nat) : Nat × Nat :=
  let imax := s.eget (PRT_PDRT.IMAX e) p
  let vmax := s.eget (PRT_PDRT.VMAX e) p
  let i := (s.pd p).srcCaps.findIdx fun o => decide (bits o 31 30 = 0) &&
    decide (bits o 19 10 * 5 = vmax * 2) && decide (imax ≤ fixedCur o)
  (i + 1, imax)

/-- The reply code of a table entry or a PD_ANSWER applied. -/
def applyReply (s : State) (p : Nat) (m : Msg) (kind reply pos cur : Nat) : State :=
  match reply with
  | 0 => s.replyPositive p m kind pos cur
  | 1 => s.replyNegative p m kind
  | 2 => s.sendReply p (ctl Code.wait)
  | 3 => s.sendNo p
  | 5 => s.sendRequest p pos cur false
  | _ => s.raiseMsg p m true

/-- What the validity and cable checks answer, where one fails (R145 steps 1 and 2). -/
def invalidT (s : State) (p : Nat) (m : Msg) (kind : Nat) : Option State :=
  if kind ≤ 4 ∧ (!s.requestValid p m ∨ (300 < s.requestCur p m ∧ !s.cable5A p)) then
    some (s.sendReply p (ctl Code.reject))
  else if kind = 9 ∧ (!s.fon PRT_PDST.CONTRACT p ∨ !(s.pd p).eprCapable ∨ s.fon PRT_PDST.EPR p) then
    some (s.replyNegative p m 9 3)
  else if kind = 9 ∧ !s.cableEpr p then some (s.replyNegative p m 9 1)
  else if (kind = 10) ∧ (s.fget DEV_SVID.SVID = 0 ∨ s.modeCfg p (vdmPos (m.obj 0)) = 0 ∨
      s.fon PRT_ROLE.DATA p) then some (s.replyNegative p m 10)
  else none

/-- A T message is decided (R145): validity, cable, collision, table, raise. A Request restarts timer 19 under a
PPS or AVS contract, and its EPR Mode Capable is that of the last Request (R163, R165). -/
def decideT (s : State) (p : Nat) (m : Msg) (kind : Nat) : State :=
  let own : Bool := match (s.pd p).wait with
    | some w => [9, 10, 11, 19].contains w.code
    | none => false
  let s := s.when (decide (kind ≤ 4)) fun s =>
    (s.onPd p fun h => { h with eprCapable := bit (m.obj 0) 22 }).when (Contract.apdo (s.sw p).held) fun s =>
      s.timStart p 19
  match s.invalidT p m kind with
  | some t => t
  | none =>
  if 5 ≤ kind ∧ kind ≤ 7 ∧ own = true then
    ((s.sendReply p (ctl (if s.eget PRT_SWCFG.COLL p = 0 ∧ !s.rev2 p then Code.wait
      else Code.reject))).swEvent p PRT_SWEV.COLL).cntEvent 0x1D (some p)
  else if kind = 6 ∧ s.fon PRT_MODEST.ENTERED p then s.hardReset p
  else match s.findEntry p kind m with
  | some e =>
    let r := s.entryRequest p e
    s.applyReply p m kind (s.eget (PRT_PDRT.REPLY e) p) r.1 r.2
  | none => s.raiseMsg p m true

/-! ## Automatic answers (R135) -/

/-- `n` free bytes: content the spec does not lay out (log entry 7). -/
def drawBytes (s : State) : Nat → List Byte × State
  | 0 => ([], s)
  | n + 1 =>
    let (v, s) := s.draw 8
    let (l, s) := s.drawBytes n
    (byte v :: l, s)

/-- A data or extended message made from a block, or N where the block is empty. -/
def answerBlock (s : State) (p b : Nat) (mk : List Byte → Msg) : State :=
  let d := s.caps p b
  if d = [] then s.sendNo p else s.sendReply p (mk d)

/-- The port's configured role admits acting as source, or as sink. -/
def mayRole (s : State) (p : Nat) (src : Bool) : Bool :=
  let r := s.eget PRT_CCCFG.ROLE p
  r == 2 || r == (if src then 1 else 0)

/-- Discover Identity, SVIDs and Modes on SOP (R135, R246). -/
def answerDiscover (s : State) (p : Nat) (h : Nat) : State :=
  let svid := s.fget DEV_SVID.SVID
  match vdmCmd h with
  | 1 => if s.caps p 4 = [] then s.sendReply p (dat 15 [vdmAnswer h 2])
    else s.sendReply p (dat 15 (vdmAnswer h 1 :: objects (s.caps p 4)))
  | 2 => s.sendReply p (dat 15 [vdmAnswer h 1, svid * 65536])
  | _ => if svid = 0 ∨ vdmSvid h ≠ svid ∨ s.caps p 5 = [] then s.sendReply p (dat 15 [vdmAnswer h 2])
    else s.sendReply p (dat 15 (vdmAnswer h 1 :: (objects (s.caps p 5)).take 4))

/-- PPS_Status: output voltage in 20 mV, current in 50 mA, current limit mode (R135, R164). -/
def ppsStatus (s : State) (p : Nat) : Msg :=
  let v := s.fget PRT_RVBUS.CODE p * 3000 / 4096
  let i := s.fget PRT_RISNS.CODE p * 62500 * 2 / (2048 * max 1 (s.fget PRT_PWRCFG.SHUNT p))
  extMsg 12 (toBytes 2 v ++ [byte (min 255 i), byte (8 * s.fget PRT_CONTRACT.CL p)])

/-- The Status answer to Get_Status: the die temperature in °C, the event flags OCP, OTP and OVP from the weir
stickies "hard overcurrent trip", "FET over-temperature" and "VBUS overvoltage" and current limit mode, and
bytes that no rule lays out (R135; log entry 7). -/
def statusMsg (s : State) (p : Nat) : Msg × State :=
  let t := (s.fget (PRT_RAUX.CODE 6) p * 125 - 273150) / 1000
  let stk := fun (i : Nat) => b2n (bit (s.fget WEIR_PSTK.STK p) i)
  let flags := 2 * stk 0 + 4 * stk 8 + 8 * stk 6 + 16 * s.fget PRT_CONTRACT.CL p
  let (a, s) := s.drawBytes 2
  let (b, s) := s.drawBytes 3
  (extMsg 2 ([byte (min 255 t)] ++ a ++ [byte flags] ++ b), s)

/-- The messages the engine answers by itself (A of R135); none for any other. -/
def autoAnswer (s : State) (p : Nat) (m : Msg) : Option State :=
  let c := m.code
  if c = Code.getSourceCap then
    some (if s.mayRole p true ∧ s.sprOffer p ≠ [] then
      s.sendReply p (s.capsMsg p false)
      else s.sendNo p)
  else if c = Code.getSinkCap then
    some (if s.mayRole p false then s.answerBlock p 2 fun d => dat 4 (objects d) else s.sendNo p)
  else if c = 97 then
    some (if s.mayRole p true ∧ s.eprOffer p ≠ [] then
      s.sendReply p (s.capsMsg p true)
      else s.sendNo p)
  else if c = 98 then
    some (if s.mayRole p false ∧ s.caps p 2 ≠ [] then
      s.sendReply p (extMsg 18 (pad 28 (s.caps p 2) ++ s.caps p 3)) else s.sendNo p)
  else if c = 17 then some (s.answerBlock p 6 (extMsg 1))
  else if c = 22 then some (s.answerBlock p 7 (extMsg 15))
  else if c = 70 then some (s.answerBlock p 8 (extMsg 7))
  else if c = 23 then some (s.answerBlock p 9 fun d => dat 11 (objects d))
  else if c = 24 then some (s.answerBlock p 10 fun d => dat 12 (objects d))
  else if c = 18 then
    let (d, s) := s.statusMsg p
    some (s.sendReply p d)
  else if c = 20 then some (s.sendReply p (s.ppsStatus p))
  else if c = Code.eprKeepAlive then
    some (((s.when (s.fon PRT_PDST.EPR p) fun s => s.timStart p 17)).sendReply p (extCtl 4))
  else if m.isVdmReq ∧ 1 ≤ vdmCmd (m.obj 0) ∧ vdmCmd (m.obj 0) ≤ 3 ∧ m.sop = 0 then
    some (s.answerDiscover p (m.obj 0))
  else none

/-- Codes raised to the host (R of R135). -/
def raisedCode (c : Nat) : Bool :=
  [38, 66, 76, 37, 67, 68, 69, 71, 43, 44, 65, 79, 72, 73, 74, 75, 21, 39, 78, 77, 94].contains c

/-- BIST is acted on: BISTEN is 1 and the port holds vSafe5V with no contract above 5 V (R142). -/
def bistOk (s : State) (p : Nat) : Bool :=
  decide (s.eget PRT_PDCFG.BISTEN p = 1) && decide (s.fget PRT_CONTRACT.VOLT p ≤ 250) &&
    codeIn (s.fget PRT_RVBUS.CODE p) 475 550

/-- BIST messages (R135, R142): Carrier Mode and Test Data are acted on or ignored; Shared Test Mode and any other
mode is answered N. -/
def bistMsg (s : State) (p : Nat) (m : Msg) : State :=
  match bits (m.obj 0) 31 28 with
  | 5 => s.when (s.bistOk p) fun s =>
      ((s.onPd p fun h => { h with carrier := true }).timStart p 14).fset PRT_PDEV.BISTEV p 1
  | 8 => s.when (s.bistOk p) fun s => (s.fset PRT_PDST.BIST p 1).linkEvent p PRT_PDEV.BISTEV
  | _ => s.sendNo p m.sop

/-! ## Responses (R511) -/

/-- Message `m` is a response that completes the request `w` awaits. -/
def completes (s : State) (p : Nat) (w : ReqWait) (m : Msg) : Bool :=
  let c := m.code
  let acc := c == Code.accept || c == Code.reject || c == Code.wait
  let ns := c == Code.notSupported || (s.rev2 p && c == Code.reject)
  m.sop == w.sop && (ns ||
    match w.code with
    | 34 | 41 | 10 | 9 | 11 | 19 | 14 | 13 => acc
    | 33 | 81 => c == 34 || c == 41
    | 7 | 97 => c == 33 || c == 81
    | 8 | 98 => c == 36 || c == 82
    | 17 => c == 65 | 22 => c == 79 | 23 => c == 43 | 24 => c == 44 | 70 => c == 71 | 18 => c == 66
    | 20 => c == 76 | 67 => c == 69 | 68 => c == 37 | 21 => c == 78 | 39 => c == 77 | 72 => c == 73
    | 74 => c == 75
    | 42 => c == 42 && (bits (m.obj 0) 31 24 == 2 || bits (m.obj 0) 31 24 == 4)
    | 99 => c == 100
    | 47 => c == 47 && vdmStructured (m.obj 0) && vdmType (m.obj 0) != 0 &&
        vdmSvid (m.obj 0) == w.svid && vdmCmd (m.obj 0) == w.vcmd
    | _ => false)

/-- The engine's record of what a cable's Discover Identity told (R152): from the passive or active
cable VDO, which is the fifth object. -/
def recordCable (s : State) (p : Nat) (m : Msg) : State :=
  let ack := vdmType (m.obj 0) == 1
  let v := m.obj 4
  let busy := vdmType (m.obj 0) == 3
  let s := if busy then s.timStart p 11 else s.fset PRT_PDCBL.VALID p 1
  let s := s.when ack fun s =>
    (((s.fset PRT_PDCBL.EPRCAP p (bits v 17 17)).fset PRT_PDCBL.IMAX p
      (if bits v 6 5 = 2 then 2 else 1)).fset PRT_PDCBL.VMAX p (bits v 10 9)).fset PRT_PDCBL.ACTIVE p
      (b2n (decide (bits (m.obj 1) 29 27 = 4)))
  s.linkEvent p PRT_PDEV.CABLE

/-- The response to a mode entry or exit the port began (R252, R254). -/
def modeResponse (s : State) (p : Nat) (cmd typ : Nat) : State :=
  if cmd = 4 then
    if typ = 1 then
      let k := (s.mux p).pos
      ((((s.setMux p (s.modeCfg p k)).onMux p fun h => { h with busy := 0 }).fset PRT_MODEST.ENTERED p
        1).fset PRT_MODEST.POS p k).fset PRT_MODEEV.ENTER p 1 |>.evMode p
    else ((s.entryOff p).fset PRT_MODEEV.FAIL p 1).evMode p
  else (s.modeLeft p).muxHold p 3 none

/-- The port's own Enter Mode or Exit Mode ends without a response: as at the expiry of its timer (R252, R254; log
entry 87). -/
def modeUnanswered (s : State) (p : Nat) : State :=
  let b := (s.mux p).busy
  if b = 1 then s.modeResponse p 4 2 else if b = 2 then s.modeResponse p 5 2 else s

/-- An Accept acts, once the GoodCRC for it has been sent (R168): a Request's transition may begin, with the
timer of PS_RDY, or a swap goes on. -/
def acceptTaken (s : State) (p code : Nat) : State :=
  let s := s.onSw p fun h => { h with acc := none }
  if code = 34 ∨ code = 41 then
    (s.onSw p fun h => { h with go := true }).timStart p (if s.fon PRT_PDST.EPR p then 8 else 7)
  else s.swapAccepted p (s.fget PRT_ROLE.SWAP p)

/-- An Accept received: it acts at the end of the port's GoodCRC where that is still to be sent. -/
def acceptGot (s : State) (p code : Nat) : State :=
  let due : Bool := match (s.pd p).line with
    | .goodCrc _ _ => true
    | _ => (s.pd p).gcrc.isSome
  if due then s.onSw p fun h => { h with acc := some code } else s.acceptTaken p code

/-- What a response brings (R144, R152, R161 to R171, R252 to R254, R324). It is reported to the host
(R135, R511); one that R135 answers from the table or raises is reported only where it completes a
PD_SEND. -/
def response (s : State) (p : Nat) (w : ReqWait) (m : Msg) : State :=
  let c := m.code
  let s := (s.endWait p).fset PRT_PDST.ESCSTEP p 0
  let tag := match w.cmd with
    | some (op, t) => if op = 0x33 then t else 0xFF
    | none => 0xFF
  let decided := [34, 41].contains c || ([33, 81].contains c && !s.isSource p)
  let s := s.when (tag != 0xFF || !decided) fun s => s.evMessage p m tag
  if w.code = 34 ∨ w.code = 41 then
    if c = Code.accept then s.acceptGot p w.code
    else s.onSw p fun h => { h with goal := none, go := false }
  else if [9, 10, 11, 19].contains w.code then
    if c = Code.accept then s.acceptGot p w.code
    else s.swapFail p (if c = Code.wait then 0x21 else 0x22)
  else if w.code = 13 then
    let s := s.finish w.cmd 0
    s.when (s.isSource p && w.sop == 0) fun s => s.sendSourceCaps p
  else if w.code = 14 then
    s.when (decide (c = Code.accept)) fun s => (s.modeLost p 2)
  else if w.code = 42 then
    if bits (m.obj 0) 31 24 = 4 ∨ c ≠ 42 then (s.timStop p 15).finish w.cmd 0x22 else s
  else if w.code = 47 then
    if w.sop = 1 ∧ w.vcmd = 1 ∧ w.cmd = none then s.recordCable p m
    else if w.svid = s.fget DEV_SVID.SVID ∧ (w.vcmd = 4 ∨ w.vcmd = 5) ∧ (s.mux p).busy ≠ 0 then
      s.modeResponse p w.vcmd (if c = 47 then vdmType (m.obj 0) else 2)
    else s
  else s

/-- PS_RDY taken where a swap or transition awaits it (R162, R169, R171, R173). -/
def takeRdy (s : State) (p : Nat) : State :=
  let s := (s.onSw p fun h => { h with rdySeen := true, vconnTo := none }).evMessage p (ctl Code.psRdy) 0xFF
  let k := s.fget PRT_ROLE.SWAP p
  if k = 0 ∨ k = 6 then
    let s := (s.timStop p 7).timStop p 8
    match (s.sw p).goal with
    | some c =>
      let s := s.setContract p c
      let s := s.when (decide (c.typ = 3)) fun s => s.timStart p 18
      s.onSw p fun h => { h with held := (s.sw p).held }
    | none => s
  else s

/-- PS_RDY is awaited: at a step of a swap that waits for it (R169, R171, R173, R174), or by a sink's contract
transition whose Accept has come (R162). -/
def awaitsRdy (s : State) (p : Nat) : Bool :=
  let h := s.sw p
  let base := s.fon PRT_ROLE.BASEPWR p
  let step := s.fget PRT_ROLE.SWSTEP p
  let begun := step == 2 || (step == 1 && h.go)
  !h.rdySeen && match s.fget PRT_ROLE.SWAP p with
    | 0 => (h.go || h.acc.isSome) && h.goal.isSome && !s.isSource p
    | 1 => if base then step == 5 else begun
    | 3 => s.vconnSource p && begun
    | 4 => if base then step == 4 else begun
    | 6 => true
    | _ => false

/-- Soft_Reset received (R135, R138): that type's IDs reset, Accept sent; a request that waits ends, and its
command with WRONG_STATE. -/
def softResetReceived (s : State) (p sop : Nat) : State :=
  let w := (s.pd p).wait
  let s := (s.idReset p sop).endWait p
  let s := match w with
    | some w =>
      let s := s.when (decide (w.code = 34 ∨ w.code = 41)) fun s => s.onSw p fun h =>
        { h with goal := none, go := false, acc := none }
      let s := s.when (decide (w.code = 47 ∧ (w.vcmd = 4 ∨ w.vcmd = 5))) fun s => s.modeUnanswered p
      match w.cmd with
      | some (op, tag) => s.when (s.host.opened.any fun c => c.op == op && c.tag == tag) fun s =>
          s.complete op tag 0x22
      | none => s
    | none => s
  let s := s.sendReply p (ctl Code.accept sop)
  ((s.cntEvent 0x19 (some p)).linkEvent p PRT_PDEV.SRST)

/-- Source capabilities received as sink: kept, and passed to the extension block (R162, R273). -/
def keepCaps (s : State) (p : Nat) (m : Msg) : State :=
  let l := m.objs
  let s := s.onPd p fun h => { h with srcCaps := l }
  (s.timStop p 6).extWrite p 0x7C0 (pad 28 ((l.take 7).flatMap (toBytes 4)))

/-- EPR_Mode received, other than Enter (R166, R167). -/
def eprModeReceived (s : State) (p : Nat) (m : Msg) : State :=
  match bits (m.obj 0) 31 24 with
  | 3 => if s.isSource p ∨ s.timer p 15 = none then s.softReset p 0 else
      (((s.timStop p 15).fset PRT_PDST.EPR p 1).timStart p 16).completeAll 0x35 p 0
        |>.swEvent p PRT_SWEV.EPRX
  | 5 => if 1000 < s.fget PRT_CONTRACT.VOLT p then s.hardReset p
      else
        let s := s.eprEnd p
        s.when (s.isSource p) fun s => s.sendSourceCaps p
  | _ => s.softReset p 0

/-- A response, PS_RDY or Not_Supported that nothing awaits: a protocol error, told to the host (R136). -/
def unexpected (s : State) (p : Nat) (m : Msg) : State := (s.evMessage p m 0xFF).softReset p m.sop

/-- The codes that only a request or a step of a transition makes expected (R135, R136). -/
def responseCode (c : Nat) : Bool := [3, 4, 6, 12, 16, 36, 82].contains c

/-- A Request is a protocol error: the port is sink, or a contract transition as source has not ended (R136). -/
def requestError (s : State) (p : Nat) : Bool :=
  !s.isSource p || (decide (s.fget PRT_ROLE.SWAP p = 5) && decide (s.fget PRT_ROLE.SWSTEP p ≠ 6))

/-- A message handled by its class of R135, once responses, PS_RDY and Soft_Reset are taken. -/
def handleMsg (s : State) (p : Nat) (m : Msg) : State :=
  let c := m.code
  let k := s.tKind p m
  if c = Code.ping then s
  else if c = Code.bist then s.bistMsg p m
  else if (c = Code.request ∨ c = Code.eprRequest) ∧ s.requestError p then s.unexpected p m
  else if (c = Code.sourceCaps ∨ c = Code.eprSourceCaps) ∧ s.isSource p then s.unexpected p m
  else if responseCode c then s.unexpected p m
  else if c = Code.eprMode ∧ k = 0 then s.eprModeReceived p m
  else if c = Code.dataResetComplete then s.setMux p (s.idleCfg p)
  else if k ≠ 0 then
    (s.when (decide (k = 12 ∨ k = 13)) fun s => s.keepCaps p m).decideT p m k
  else match s.autoAnswer p m with
  | some s => s
  | none =>
    if c = Code.vdm then
      if vdmStructured (m.obj 0) then
        if vdmType (m.obj 0) = 0 then s.raiseMsg p m m.isRequest else s.evMessage p m 0xFF
      else if s.eget PRT_PDCFG.UVDM p = 1 then s.raiseMsg p m false
      else s.sendNo p m.sop
    else if raisedCode c then s.raiseMsg p m m.isRequest
    else s.sendNo p m.sop

/-- A PS_RDY where it is awaited, any other message by its class. -/
def takePlain (s : State) (p : Nat) (m : Msg) : State :=
  if m.code = Code.psRdy ∧ s.awaitsRdy p then s.takeRdy p else s.handleMsg p m

/-- One whole message taken up (R135, R136, R172, R175, R176). -/
def takeMsg (s : State) (p : Nat) (m : Msg) : State :=
  let isCaps := decide (m.code = Code.sourceCaps ∨ m.code = Code.eprSourceCaps)
  let s := s.when isCaps fun s => s.onPd p fun h => { h with partnerDrp := bit (m.obj 0) 29 }
  match (s.pd p).wait with
  | some w =>
    let swapWait := [9, 10, 11, 19].contains w.code
    if m.code = Code.softReset then (s.when swapWait fun s => s.withdrawSwap p).softResetReceived p m.sop
    else if s.completes p w m then
      let s := s.response p w m
      let again := (decide (w.code = 33 ∨ w.code = 81) && decide (m.code = 34 ∨ m.code = 41)) ||
        (isCaps && !s.isSource p)
      s.when again fun s => s.handleMsg p m
    else
      let crossing := [9, 10, 11].contains m.code
      (s.when (swapWait && !crossing) fun s => s.withdrawSwap p).takePlain p m
  | none => if m.code = Code.softReset then s.softResetReceived p m.sop else s.takePlain p m

/-- A message with the negotiated revision taken from the partner's first one (R137). -/
def negotiate (s : State) (p : Nat) (m : Msg) : State :=
  s.when (decide (s.fget PRT_PDST.NEGREV p = 0) && m.sop == 0) fun s =>
    s.fset PRT_PDST.NEGREV p (min (s.eget PRT_PDCFG.REV p) (max 1 (min 2 m.rev)))

/-- An assembly is abandoned, and the host is told (R141). -/
def asmDrop (s : State) (p : Nat) : State :=
  s.when (s.pd p).asm.isSome fun s => ((s.onPd p fun h => { h with asm := none }).timStop p 3).evPdLink p

/-- A Chunk Request for chunk `n` of `m`'s type, and timer 3. -/
def askChunk (s : State) (p : Nat) (m : Msg) (n : Nat) : State :=
  (s.sendReply p { sop := m.sop, ext := true, typ := m.typ, ndo := 1,
                   data := toBytes 2 (0x8400 + n * 2048) ++ [0, 0] }).timStart p 3

/-- A Chunk Request received: the chunk it names goes out; one that names no chunk still to send is a protocol
error (R136, R141). -/
def chunkAsked (s : State) (p : Nat) (m : Msg) (n : Nat) : State :=
  match (s.pd p).chunks with
  | ch :: rest =>
    if bits (ofBytes (ch.data.take 2)) 14 11 = n then
      (s.timStop p 4).onPd p fun h => { h with
        chunks := rest, replies := h.replies ++ [{ msg := ch }] }
    else s.softReset p m.sop
  | [] => s.softReset p m.sop

/-- A chunk that no assembly expects (R141): a whole message, the first chunk of one, or N. -/
def firstChunk (s : State) (p : Nat) (m : Msg) (num size : Nat) : State :=
  if num ≠ 0 ∨ 260 < size then s.sendNo p m.sop
  else if size ≤ 26 then s.takeMsg p m
  else (s.onPd p fun h => { h with asm := some (m, (m.data.drop 2).take 26, 1) }).askChunk p m 1

/-- A chunk (R141): the one its assembly expects is added; any other ends an assembly and is handled normally. -/
def takeChunk (s : State) (p : Nat) (m : Msg) (num size : Nat) : State :=
  match (s.pd p).asm with
  | some (first, got, next) =>
    if num = next ∧ first.typ = m.typ ∧ first.sop = m.sop then
      let s := s.timStop p 3
      let got := got ++ m.data.drop 2
      let size := bits (ofBytes (first.data.take 2)) 8 0
      if size ≤ got.length then
        (s.onPd p fun h => { h with asm := none }).takeMsg p
          { first with data := first.data.take 2 ++ got.take size }
      else (s.onPd p fun h => { h with asm := some (first, got, next + 1) }).askChunk p m (next + 1)
    else (s.asmDrop p).firstChunk p m num size
  | none => s.firstChunk p m num size

/-- A parsed packet (R141): chunks are assembled, a Chunk Request brings the next chunk out, an unchunked extended
message is answered N, and a whole message is taken up. -/
def parseMsg (s : State) (p : Nat) (m : Msg) : State :=
  let s := s.negotiate p m
  let eh := ofBytes (m.data.take 2)
  if !m.ext then (s.asmDrop p).takeMsg p m
  else if !bit eh 15 then (s.asmDrop p).sendNo p m.sop
  else if bit eh 10 then s.chunkAsked p m (bits eh 14 11)
  else s.takeChunk p m (bits eh 14 11) (bits eh 8 0)

/-! ## Transmission (R129, R138, R140, R144) -/

/-- A message as its chunks: the first, and those that wait for Chunk Requests (R141). -/
def toChunks (m : Msg) : Msg × List Msg :=
  let body := m.data.drop 2
  let size := body.length
  if !m.ext ∨ size ≤ 26 then (m, [])
  else
    let mk := fun i =>
      let part := slice body (26 * i) 26
      { m with ndo := (part.length + 5) / 4,
               data := toBytes 2 (0x8000 + i * 2048 + size) ++ part : Msg }
    (mk 0, (List.range ((size + 25) / 26)).drop 1 |>.map mk)

/-- A list of source objects sent as source, whoever made it: limited as the cable allows, and with no EPR object
where that allows none (R153; log entry 122). -/
def offerMsg (s : State) (p : Nat) (m : Msg) : Msg :=
  let l := s.allowed p m.objs
  let l := if m.ext && !s.cableEpr p then l.take 7 else l
  let d := l.flatMap (toBytes 4)
  if m.ext then { extMsg m.typ d with sop := m.sop } else { m with data := d }

/-- Source_Capabilities or EPR_Source_Capabilities sent as source (R144, R145, R153). -/
def isOffer (s : State) (p : Nat) (m : Msg) : Bool :=
  s.isSource p && m.sop == 0 && (m.code == Code.sourceCaps || m.code == Code.eprSourceCaps)

/-- What the loading of a message brings: the IDs of a Soft_Reset's SOP type are reset (R138); what is offered as
source is kept and counted (R144, R145); a sink's Request leads to the contract of the object it names in the
capabilities last received, whoever sent it (R162). -/
def loadEffect (s : State) (p : Nat) (m : Msg) : State :=
  if m.code = Code.softReset then s.idReset p m.sop
  else if s.isOffer p m then s.onPd p fun h => { h with offered := m.objs, capsSent := h.capsSent + 1 }
  else if (m.code = Code.request ∨ m.code = Code.eprRequest) ∧ !s.isSource p then
    (s.onPd p fun h => { h with keptCaps := h.srcCaps, lastReq := some m }).onSw p fun h =>
      { h with goal := some (contractOf (s.pd p).srcCaps (m.obj 0)), go := false, acc := none }
  else s

/-- A message becomes the packet in transmission, with its MessageID and retries. -/
def loadTx (s : State) (p : Nat) (i : TxItem) : State :=
  let m := if s.isOffer p i.msg then s.offerMsg p i.msg else i.msg
  let s := s.loadEffect p m
  let (first, rest) := toChunks m
  let id := s.fget (txidOf m.sop) p
  s.onPd p fun h => { h with
    cur := some { i with msg := { first with id := id } }
    chunks := if rest = [] then h.chunks else rest
    retries := if s.rev2 p then 3 else 2
    resend := false, line := .packet }

/-- A message may be sent on its SOP type: not on SOP while ESCSTEP shows the partner unresponsive (R144). -/
def sopOpen (s : State) (p : Nat) (i : TxItem) : Bool := i.msg.sop != 0 || s.fget PRT_PDST.ESCSTEP p != 3

/-- The first message of a queue that may be sent, and the rest. -/
def firstOpen (s : State) (p : Nat) : List TxItem → Option (TxItem × List TxItem)
  | [] => none
  | i :: t => if s.sopOpen p i then some (i, t) else (s.firstOpen p t).map fun r => (r.1, i :: r.2)

/-- The message starts an Atomic Message Sequence: not Soft_Reset, Data_Reset_Complete, nor EPR_Mode
that answers (log entry 21). -/
def amsStart (i : TxItem) : Bool :=
  !(decide (i.msg.code = Code.softReset) || decide (i.msg.code = Code.dataResetComplete) ||
    (decide (i.msg.code = Code.eprMode) && decide (bits (i.msg.obj 0) 31 24 = 2 ∨ bits (i.msg.obj 0) 31 24 = 3)))

/-- The port is in this attach state under an explicit contract of Revision 3.1 (R123, R124). -/
def rev3Contract (s : State) (p st : Nat) : Bool :=
  decide (s.attState p = st) && s.fon PRT_PDST.CONTRACT p && !s.rev2 p

/-- As sink, the first message of a sequence is held while the active CC shows Rp 1.5 A (R124). -/
def rpHolds (s : State) (p : Nat) (i : TxItem) : Bool :=
  amsStart i && s.rev3Contract p 4 &&
    decide ((if s.fon PRT_ATTST.ORIENT p then s.fget PRT_CCSTAT.CC2LVL p else s.fget PRT_CCSTAT.CC1LVL p) = 2)

/-- The head of the queues becomes the held message (R155). -/
def holdHead (s : State) (p : Nat) : State :=
  if s.fon PRT_PDST.HELD p then s
  else ((s.fset PRT_PDST.HELD p 1).onPd p fun h => { h with heldFor := 0 }).linkEvent p PRT_PDEV.HELD

/-- Enter Mode and Exit Mode of the integrator SVID, which the engine prepares the mux for (R252, R254). -/
def modeMsg (s : State) (m : Msg) : Bool :=
  m.isVdmReq && s.fget DEV_SVID.SVID != 0 && vdmSvid (m.obj 0) == s.fget DEV_SVID.SVID &&
    m.sop == 0 && (vdmCmd (m.obj 0) == 4 || vdmCmd (m.obj 0) == 5)

/-- The first message of a sequence may go: not held, as source SinkTxNG set and waited out, no request
awaited for a request (R123, R124, R154). -/
def amsFree (s : State) (p : Nat) (i : TxItem) : Bool :=
  !s.fon PRT_PDST.HELD p && (s.att p).sinkTx.isNone &&
    !(amsStart i && s.rev3Contract p 7 && s.eget PRT_CCCTL.RPSET p != 1) &&
    !((s.pd p).wait.isSome && i.msg.isRequest) && (s.mux p).hold.isNone

/-- PRT_ROLE.SWAP code of a swap request. -/
def swapCode (c : Nat) : Nat :=
  if c = 10 then 1 else if c = 9 then 2 else if c = 11 then 3 else if c = 19 then 4 else 0

/-- A swap request of the host waits while a contract transition runs (R168). -/
def swapHeld (s : State) (p : Nat) (m : Msg) : Bool :=
  swapCode m.code != 0 && (s.fget PRT_ROLE.SWAP p == 5 || s.fget PRT_ROLE.SWAP p == 6)

/-- The next message of the engine's queue, or else of the host's, loaded where it may go. -/
def txOwn (s : State) (p : Nat) : State :=
  let h := s.pd p
  match s.firstOpen p h.engine, h.hostq with
  | some (i, rest), _ =>
    if s.rpHolds p i then s.holdHead p
    else if s.amsFree p i then (s.onPd p fun h => { h with engine := rest }).loadTx p i
    else s
  | none, i :: _ =>
    if s.modeMsg i.msg || s.swapHeld p i.msg || !s.sopOpen p i then s
    else if s.rpHolds p i then s.holdHead p
    else if s.amsFree p i then (s.hostPop p).loadTx p i else s
  | none, [] => s

/-- The header of the GoodCRC for a packet of this SOP type and MessageID (R130). -/
def gcrcHead (s : State) (p sop id : Nat) : Nat := s.msgHeader p { ctl 1 sop with id := id }

/-- The next thing the port puts on the line, in the order of R154. -/
def txNext (s : State) (p : Nat) : State :=
  let h := s.pd p
  if h.ordHard then s.onPd p fun h => { h with line := .hardReset }
  else if h.ordCable then s.onPd p fun h => { h with line := .cableReset }
  else match h.gcrc with
  | some (sop, id) => s.onPd p fun h => { h with gcrc := none, line := .goodCrc sop (s.gcrcHead p sop id) }
  | none =>
    match h.cur with
    | some i => s.when (h.resend && s.sopOpen p i) fun s => s.onPd p fun h =>
        { h with resend := false, line := .packet }
    | none =>
      match s.firstOpen p h.replies with
      | some (i, rest) => (s.onPd p fun h => { h with replies := rest }).loadTx p i
      | none => s.txOwn p

/-- A transmission has failed after its retries (R140, R144): TXERR, and the escalation. -/
def txFail (s : State) (p : Nat) (i : TxItem) : State :=
  let cmd := ((s.pd p).chunkOf.getD i).cmd
  let s := (((s.onPd p fun h => { h with cur := none, resend := false, chunks := [], chunkOf := none }).fset
    PRT_PDST.AWAITGC p 0).cntEvent 0x16 (some p)).linkEvent p PRT_PDEV.TXERR
  let auto := decide (s.eget PRT_PDCFG.ESC p = 0)
  let sop := i.msg.sop
  let s := s.finish cmd 0x50
  match i.onAck with
  | .srcCaps =>
    if s.fon PRT_PDST.CONTRACT p then s.when auto fun s => s.softReset p 0
    else s.when (decide ((s.pd p).capsSent < 50)) fun s => s.timStart p 5
  | .cable => (s.finc PRT_PDCBL.ATTEMPTS p).timStart p 11
  | .modeAck => (s.entryOff p).when auto fun s => s.softReset p 0
  | .exitAck => (s.modeLeft p).when auto fun s => s.softReset p 0
  | _ =>
    let s := s.when (s.modeMsg i.msg) fun s => s.modeUnanswered p
    if !auto then s
    else if i.msg.code = Code.softReset then
      (if sop = 0 then s.hardReset p else s.cableReset p)
    else s.softReset p sop

/-- A request acknowledged begins its wait (R511). -/
def beginWait (s : State) (p : Nat) (i : TxItem) : State :=
  let h := i.msg.obj 0
  let isVdm := decide (i.msg.code = Code.vdm)
  let w : ReqWait := {
    sop := i.msg.sop, code := i.msg.code,
    svid := if isVdm then vdmSvid h else 0, vcmd := if isVdm then vdmCmd h else 0, cmd := i.cmd }
  let s := (s.onPd p fun d => { d with wait := some w }).fset PRT_PDST.AWAITRSP p 1
  let s := s.when (decide (w.code = Code.eprMode)) fun s => s.timStart p 15
  s.timStart p (if isVdm then (if vdmCmd h = 4 then 13 else 12) else 1)

/-- What the GoodCRC of a message brings beyond the end of its transmission. -/
def acked (s : State) (p : Nat) (i : TxItem) : State :=
  match i.onAck with
  | .nothing => s
  | .acceptContract => s.onSw p fun h => { h with go := true }
  | .acceptSwap k => s.swapAccepted p k
  | .rdyContract => s.contractReady p
  | .rdyPrSwap => s.prSwapReady p
  | .rdyVconn => s.vconnReady p
  | .rdyFrs => s.frsReady p
  | .eprEntered =>
    let s := ((s.fset PRT_PDST.EPR p 1).timStart p 17).swEvent p PRT_SWEV.EPRX
    s.sendSourceCaps p
  | .eprExit =>
    let s := s.eprEnd p
    s.when (s.isSource p) fun s => s.sendSourceCaps p
  | .softReset => s
  | .srcCaps => (s.onPd p fun h => { h with capsSent := 0 }).timStop p 5
  | .modeAck =>
    let k := (s.mux p).pos
    (((s.onMux p fun h => { h with busy := 0 }).fset PRT_MODEST.ENTERED p 1).fset PRT_MODEST.POS p
      k).fset PRT_MODEEV.ENTER p 1 |>.evMode p
  | .exitAck => s.modeLeft p
  | .cable => s.finc PRT_PDCBL.ATTEMPTS p
  | .dataReset =>
    if i.msg.code = Code.dataResetComplete then s.setMux p (s.idleCfg p)
    else
      let s := s.modeLost p 2
      s.when (s.fon PRT_ROLE.DATA p) fun s => s.sendEngine p (ctl Code.dataResetComplete) .dataReset

/-- The GoodCRC of a PD_SEND: it completes, unless the twin has still to acknowledge the copy of the
extension block that the command changed (R274, R324). -/
def sendAcked (s : State) (tag : Nat) : State :=
  let mine := fun (e : ExtWait) => e.op == 0x33 && e.tag == tag
  if s.pair.ext.any mine then
    { s with pair := { s.pair with
      ext := s.pair.ext.map fun e => if mine e then { e with ready := true } else e } }
  else s.complete 0x33 tag 0

/-- A message is sent, its last chunk acknowledged: a swap request begins its swap, a request its wait, and a
PD_SEND completes. -/
def sentWhole (s : State) (p : Nat) (i : TxItem) : State :=
  let s := s.when (swapCode i.msg.code != 0 && s.fget PRT_ROLE.SWAP p == 0) fun s =>
    s.swapBegin p (swapCode i.msg.code) i.cmd
  let s := s.when i.msg.isRequest fun s => s.beginWait p i
  let s := match i.cmd with
    | some (op, tag) => if op = 0x33 then s.sendAcked tag
      else if op = 0x35 ∧ i.onAck = OnAck.eprExit then s.complete op tag 0 else s
    | none => s
  s.acked p i

/-- A GoodCRC that matches the packet awaited (R138): the counter advances and the transmission ends; with chunks
left the partner's Chunk Request is awaited (R141). -/
def goodCrc (s : State) (p sop id : Nat) : State :=
  match (s.pd p).cur with
  | some i =>
    if s.fon PRT_PDST.AWAITGC p ∧ i.msg.sop = sop ∧ i.msg.id = id then
      let s := (s.timStop p 0).fset PRT_PDST.AWAITGC p 0
      let s := s.fset (txidOf sop) p (id + 1)
      let s := (s.onPd p fun h => { h with cur := none, resend := false, lastAck := id }).cntEvent 0x11 (some p)
      let whole := if i.msg.ext then (s.pd p).chunkOf.getD i else i
      if i.msg.ext ∧ (s.pd p).chunks ≠ [] then
        (s.onPd p fun h => { h with chunkOf := some whole }).timStart p 4
      else (s.onPd p fun h => { h with chunkOf := if i.msg.ext then none else h.chunkOf }).sentWhole p whole
    else s
  | none => s

/-- A hard reset, cable reset or packet has left the line (R133, R140). -/
def txEnd (s : State) (p : Nat) : State :=
  let h := s.pd p
  let s := s.onPd p fun h => { h with line := .idle }
  match h.line with
  | .packet => (s.fset PRT_PDST.AWAITGC p 1).timStart p 0
  | .hardReset => s.hardResetDone p true
  | .cableReset =>
    let s := (s.finish h.ordCabCmd 0).onPd p fun h => { h with ordCable := false, ordCabCmd := none }
    ((s.idReset p 1).idReset p 2).clearCable p
  | .goodCrc _ _ =>
    match (s.sw p).acc with
    | some c => s.acceptTaken p c
    | none => s
  | _ => s

/-! ## Reception (R128 to R132, R139, R157) -/

/-- What the front end makes of received bytes: the message after a 16-bit header. -/
def rxMsg (sop : Nat) (b : List Byte) : Msg :=
  let h := ofBytes (b.take 2)
  { sop := sop, ext := bit h 15, typ := bits h 4 0, ndo := bits h 14 12, id := bits h 11 9,
    rev := bits h 7 6, bit5 := bit h 5, bit8 := bit h 8, data := b.drop 2 }

/-- A good SOP packet stops timer 9 and ends the count of Hard_Resets and an unresponsive partner; one that the
port acknowledges is a good exchange, which ends the escalation (R144). -/
def goodSop (s : State) (p : Nat) (whole : Bool) : State :=
  ((s.timStop p 9).onPd p fun h => { h with hardSent := 0 }).when
    (whole || s.fget PRT_PDST.ESCSTEP p == 3) fun s => s.fset PRT_PDST.ESCSTEP p 0

/-- PD activity in Low Water leaves the profile for Ebb where the port's attach-wake bit is set (R35); a change
to Flood under R36 stands. -/
def wakeToEbb (s : State) (p : Nat) : State :=
  s.when (s.lowWater && s.fon PRT_CCCFG.ATTWAKE p && s.prof.pend.all fun c => c.1 != 1) fun s =>
    if s.paired then ({ s with prof := { s.prof with wake := true } }).profileAt 2 (s.tick + 2)
    else s.profileAt 2 (s.tick + 1)

/-- The port's PHY works: in Low Water it sleeps until CC activity has woken it (R25, R34; log entry 121). -/
def phyUp (s : State) (p : Nat) : Bool := !s.lowWater || (s.pd p).phyOn

/-- CC activity in Low Water wakes the PHY and the port's engine, and on an owned port leaves the profile where the
attach-wake bit is set (R34, R35). -/
def ccActivity (s : State) (p : Nat) : State :=
  s.when s.lowWater fun s =>
    let s := (s.onPd p fun h => { h with phyOn := true }).onEngine p fun g => { g with latched := true }
    s.when (s.owns p) fun s => s.wakeToEbb p

/-- BMC receive is blanked: a Fast Role Swap signal is being generated, or on an armed port being detected (R134;
log entry 123). -/
def blanked (s : State) (p : Nat) : Bool :=
  (s.pd p).frsGen || (s.fon PRT_ROLE.FRSARM p && bit (s.fget PRT_CMPNOW.OUT p) 8)

/-- A good packet of an enabled SOP type (R130, R132, R139). -/
def acceptPacket (s : State) (p : Nat) (m : Msg) : State :=
  if s.fon PRT_PDST.BIST p ∧ m.sop = 0 then
    ((s.onPd p fun h => { h with gcrc := some (m.sop, m.id) }).cntEvent 0x10 (some p)).goodSop p true
  else if 2 ≤ (s.pd p).rx.length then (s.cntEvent 0x18 (some p)).linkEvent p PRT_PDEV.OVFL
  else
    let s := (s.onPd p fun h => { h with gcrc := some (m.sop, m.id) }).cntEvent 0x10 (some p)
    let s := s.when (m.sop == 0) fun s => s.goodSop p true
    if bit (s.fget PRT_PDST.RXVAL p) m.sop ∧ s.fget (rxidOf m.sop) p = m.id ∧ m.code ≠ Code.softReset then
      (s.cntEvent 0x17 (some p)).fset PRT_PDEV.DUP p 1
    else
      let s := (s.fset (rxidOf m.sop) p m.id).fbit PRT_PDST.RXVAL p m.sop true
      (s.raiseSuperseded p).onPd p fun h => { h with rx := h.rx ++ [m] }

/-- A shadow counts a packet it hears, and marks one that changes the contract (R269). -/
def heardCount (s : State) (p : Nat) (chg : Bool) : State :=
  (s.finc PRT_SHADOW.HEARD p).when chg fun s => s.fset PRT_SHADOW.CHG p 1

/-- Bit `b` of word 0 of the port's inbound record (R266). -/
def inbound0 (s : State) (p b : Nat) : Bool :=
  bit (s.memGet 0x41 (0x10000 + 0x40 * p + b / 8)).toNat (b % 8)

/-- The port's owner sent a packet with this header: its power role bit is the owner's; on SOP' and
SOP'' it names no cable plug and the owner is the VCONN source. -/
def fromOwner (s : State) (p sop h : Nat) : Bool :=
  if sop = 0 then bit h 8 == s.inbound0 p 52 else !bit h 8 && s.inbound0 p 54

/-- What a shadow keeps of what it hears: the last two packets, and whether a GoodCRC with the same
ID followed (R157, R269). -/
def overhear (s : State) (p : Nat) (m : Msg) (own : Bool) : State :=
  if m.code = 1 then
    s.onPd p fun h => { h with heard := h.heard.reverse.zipIdx.reverse.map fun e =>
      if e.2 = 0 then (e.1.1, e.1.2.1, e.1.2.2 || (e.1.1.sop == m.sop && e.1.1.id == m.id)) else e.1 }
  else
    (s.onPd p fun h => { h with heard := ((h.heard ++ [(m, own, false)]).reverse.take 2).reverse }).heardCount
      p (m.code == Code.psRdy || m.code == Code.softReset)

end State

/-! ## Meanings -/

open State

/-- PACKET_RECEIVED (R128 to R132, R139): a packet on the active CC. One that wakes a sleeping PHY is lost (R34); a
shadow listens only, and keeps good packets (R157); while a Fast Role Swap signal is on the CC nothing is received
(R134). -/
def execPacketReceived (p : Port) (k : PacketIn) (s : State) : Out :=
  let m := rxMsg k.sop.val k.bytes
  if !s.phyUp p then .next (s.ccActivity p)
  else if !s.owns p then
    .next (s.when (k.good && decide (k.sop.val < 3)) fun s =>
      s.overhear p m (s.fromOwner p k.sop.val (ofBytes (k.bytes.take 2))))
  else if !s.linkRuns p ∨ s.blanked p then .next s
  else
    let s := s.ccActivity p
    if !k.good then .next (s.cntEvent 0x12 (some p))
    else if 3 ≤ k.sop.val then .next ((s.cntEvent 0x13 (some p)).fset PRT_PDEV.DBGSOP p 1)
    else if 1 ≤ k.sop.val ∧ !s.fon PRT_PDST.SOPPEN p then .next s
    else
      let s := s.when (decide (k.sop.val = 0)) fun s => s.goodSop p false
      if m.code = 1 then .next (s.goodCrc p m.sop m.id) else .next (s.acceptPacket p m)

/-- GOODCRC_RECEIVED (R138): a GoodCRC with this SOP type and MessageID. -/
def execGoodcrcReceived (p : Port) (sop : Fin 3) (id : BitVec 3) (s : State) : Out :=
  if !s.phyUp p then .next (s.ccActivity p)
  else if !s.owns p then .next (s.overhear p { sop := sop.val, typ := 1, id := id.toNat } false)
  else if !s.linkRuns p ∨ s.blanked p ∨ (1 ≤ sop.val ∧ !s.fon PRT_PDST.SOPPEN p) then .next s
  else
    let s := (s.ccActivity p).when (decide (sop.val = 0)) fun s => s.goodSop p false
    .next (s.goodCrc p sop.val id.toNat)

/-- HARD_RESET_RECEIVED (R133): one that crosses the port's own on the line is one hard reset with it. -/
def execHardResetReceived (p : Port) (s : State) : Out :=
  if !s.phyUp p then .next (s.ccActivity p)
  else if !s.owns p then .next (s.heardCount p true)
  else if !s.linkRuns p ∨ s.blanked p then .next s
  else .next ((s.ccActivity p).hardResetDone p (decide ((s.pd p).line = .hardReset)))

/-- CABLE_RESET_RECEIVED (R133): ignored and counted. -/
def execCableResetReceived (p : Port) (s : State) : Out :=
  if !s.phyUp p then .next (s.ccActivity p)
  else if !s.owns p then .next (s.heardCount p true)
  else if s.blanked p then .next s
  else .next ((s.ccActivity p).cntEvent 0x14 (some p))

/-- The port may begin a packet: its link runs, its PHY is awake, and neither a packet, a BIST carrier (R142), the
Fast Role Swap signal (R134) nor a CC overvoltage (R122) has the line. -/
def State.lineFree (s : State) (p : Nat) : Bool :=
  s.owns p && s.linkRuns p && s.phyUp p && decide ((s.pd p).line = .idle) && !(s.pd p).carrier &&
    !(s.pd p).frsGen && !(s.att p).ovPend

/-- PACKET_TRANSMIT_START (R129, R154): the line is idle and the gap has passed; the next packet's
preamble begins. -/
def execPacketTransmitStart (p : Port) (s : State) : Out :=
  if s.lineFree p then .next (s.txNext p) else .next s

/-- PACKET_TRANSMIT_END (R140): the EOP of what is on the line. -/
def execPacketTransmitEnd (p : Port) (s : State) : Out := .next (s.txEnd p)

/-- PD_MESSAGE_PARSE (R135): the engine takes the oldest receive buffer. -/
def execPdMessageParse (p : Port) (s : State) : Out :=
  match (if s.hoQuiet p then [] else (s.pd p).rx) with
  | m :: rest => .next ((s.onPd p fun h => { h with rx := rest }).parseMsg p m)
  | [] => .next s

/-- CRC_RECEIVE_TIMER_EXPIRY (R140): timer 0 expires; the PHY retransmits, or the transmission has
failed. -/
def execCrcReceiveTimerExpiry (p : Port) (s : State) : Out :=
  if !s.timDue p 0 then .next s
  else
    let s := s.timExpire p 0
    match (s.pd p).cur with
    | some i =>
      if 0 < (s.pd p).retries then
        .next ((s.onPd p fun h => { h with retries := h.retries - 1, resend := true }).cntEvent 0x15
          (some p))
      else .next (s.txFail p i)
    | none => .next s

/-- SENDER_RESPONSE_TIMEOUT (R144): timer 1 expires and escalation applies. -/
def execSenderResponseTimeout (p : Port) (s : State) : Out :=
  if !s.timDue p 1 then .next s
  else
    let s := s.timExpire p 1
    match (s.pd p).wait with
    | some w =>
      let s := (s.endWait p).linkEvent p PRT_PDEV.SRTO
      let swap := [9, 10, 11, 19].contains w.code
      let s := if swap then s.swapFail p 0x50 else if w.code = 42 then s else s.finish w.cmd 0x50
      let s := s.when (decide (w.code = 34 ∨ w.code = 41)) fun s =>
        s.onSw p fun h => { h with goal := none, go := false }
      if s.eget PRT_PDCFG.ESC p ≠ 0 then .next s
      else if w.code = Code.softReset then
        .next (if w.sop = 0 then s.hardReset p else s.cableReset p)
      else .next (s.softReset p w.sop)
    | none => .next s

/-- The fallback reply to an open raise (R150). -/
def State.fallback (s : State) (p : Nat) (m : Msg) : State :=
  let k := s.tKind p m
  let late := s.eget PRT_PDCFG.LATE p
  let negative := fun (s : State) =>
    if k ≠ 0 then s.replyNegative p m k
    else if m.isVdmReq then s.sendReply p (dat 15 [vdmAnswer (m.obj 0) 2] m.sop)
    else s.sendNo p m.sop
  if k = 12 ∨ k = 13 then s.sendMismatch p
  else if late = 0 ∧ 1 ≤ k ∧ k ≤ 7 then s.sendReply p (ctl Code.wait)
  else if late = 2 then s.sendNo p m.sop
  else negative s

/-- What `f` queues is the answer to a raised message: a new message that arrives before it is sent drops it
(R151). -/
def State.answering (s : State) (p : Nat) (f : State → State) : State :=
  let n := (s.pd p).replies.length
  let e := (s.pd p).engine.length
  let was := (s.mux p).hold.isSome
  let mark := fun (k : Nat) (l : List TxItem) => l.zipIdx.map fun (x : TxItem × Nat) =>
    if k ≤ x.2 then { x.1 with answers := true } else x.1
  let s := (f s).onPd p fun h => { h with replies := mark n h.replies, engine := mark e h.engine }
  s.onMux p fun m => { m with hold := m.hold.map fun h =>
    if was then h else { h with item := h.item.map fun i => { i with answers := true } } }

/-- A PD_ANSWER that names the open raise has been accepted and waits in the port's urgent mailbox. -/
def State.answerWaits (s : State) (p : Nat) : Bool :=
  match (s.pd p).raise with
  | some r => s.host.urgent.any fun k => k.op == 0x32 && (k.params.headD 0).toNat == p &&
      ofBytes (slice k.params 4 2) == r.num
  | none => false

/-- ANSWER_TIMER_EXPIRY (R150): timer 2 expires; the fallback reply is sent, unless an answer accepted
before the expiry has still to be taken up. -/
def execAnswerTimerExpiry (p : Port) (s : State) : Out :=
  if !s.timDue p 2 ∨ s.answerWaits p then .next s
  else
    let s := s.timExpire p 2
    match (s.pd p).raise with
    | some r =>
      let s := (s.onPd p fun h => { h with raise := none }).answering p fun s => s.fallback p r.msg
      .next (((s.unitSource 41).cntEvent 0x1C (some p)).linkEvent p PRT_PDEV.ANSLATE)
    | none => .next s

/-- CHUNK_TIMER_EXPIRY (R143): timer 3, or timer 4 where `k` is true, expires; the chunked message
is abandoned and reported. -/
def execChunkTimerExpiry (p : Port) (k : Bool) (s : State) : Out :=
  let t := if k then 4 else 3
  if !s.timDue p t then .next s
  else
    let s := s.timExpire p t
    let cmd := if k then (s.pd p).chunkOf.bind (·.cmd) else none
    let s := s.onPd p fun h => if k then { h with chunks := [], chunkOf := none } else { h with asm := none }
    .next ((s.finish cmd 0x50).evPdLink p)

/-- SOURCE_CAPABILITY_TIMEOUT (R144): timer 5 expires and Source_Capabilities is sent again. -/
def execSourceCapabilityTimeout (p : Port) (s : State) : Out :=
  if !s.timDue p 5 then .next s
  else
    let s := s.timExpire p 5
    .next (s.when (decide ((s.pd p).capsSent < 50)) fun s => s.sendSourceCaps p)

/-- SINK_WAIT_CAP_TIMEOUT (R143): timer 6 expires: Hard_Reset. -/
def execSinkWaitCapTimeout (p : Port) (s : State) : Out :=
  if s.timDue p 6 then .next ((s.timExpire p 6).hardReset p) else .next s

/-- PS_TRANSITION_TIMEOUT (R162): timer 7, or timer 8 in EPR mode, expires: Hard_Reset. -/
def execPsTransitionTimeout (p : Port) (epr : Bool) (s : State) : Out :=
  let t := if epr then 8 else 7
  if s.timDue p t then .next ((s.timExpire p t).hardReset p) else .next s

/-- NO_RESPONSE_TIMEOUT (R144): timer 9 expires: a further Hard_Reset below three, else the partner is
unresponsive. -/
def execNoResponseTimeout (p : Port) (s : State) : Out :=
  if !s.timDue p 9 then .next s
  else
    let s := s.timExpire p 9
    if (s.pd p).hardSent < 3 then
      if s.eget PRT_PDCFG.ESC p = 0 then .next (s.hardReset p) else .next (s.evPdLink p)
    else .next ((s.fset PRT_PDST.ESCSTEP p 3).evPdLink p)

/-- HARD_RESET_COMPLETE_TIMEOUT (R143): timer 10 expires; a hard reset still to be sent is taken as sent. -/
def execHardResetCompleteTimeout (p : Port) (s : State) : Out :=
  if !s.timDue p 10 then .next s
  else
    let s := s.timExpire p 10
    .next (s.when (s.pd p).ordHard fun s => s.hardResetDone p true)

/-- Discover Identity on SOP' (R152). -/
def State.discoverCable (s : State) (p : Nat) : State :=
  s.sendEngine p (dat 15 [0xFF00A001] 1) .cable

/-- An attempt at the cable is to be made now: 2 before the first Source_Capabilities, 20 in all once a
contract holds; none is under way and timer 11 does not run (R152). -/
def State.cableWanted (s : State) (p : Nat) : Bool :=
  let h := s.pd p
  let mine := fun (i : TxItem) => decide (i.onAck = OnAck.cable)
  s.linkRuns p && s.isSource p && s.vconnSource p && decide (s.eget PRT_PDCFG.CBLDISC p = 1) &&
    !s.fon PRT_PDCBL.VALID p &&
    decide (s.fget PRT_PDCBL.ATTEMPTS p < if s.fon PRT_PDST.CONTRACT p then 20 else 2) &&
    (s.timer p 11).isNone && !h.engine.any mine && !h.cur.any mine && !h.wait.any (·.sop == 1)

/-- DISCOVER_IDENTITY_TIMEOUT (R152): timer 11 expires and the next attempt is made. -/
def execDiscoverIdentityTimeout (p : Port) (s : State) : Out :=
  if !s.timDue p 11 then .next s
  else
    let s := s.timExpire p 11
    .next (s.when (s.cableWanted p) fun s => s.discoverCable p)

/-- VDM_RESPONSE_TIMEOUT (R144, R152, R254): timer 12 expires: reported without escalation; an
attempt at the cable counts, an Exit Mode is over. -/
def execVdmResponseTimeout (p : Port) (s : State) : Out :=
  if !s.timDue p 12 then .next s
  else
    let s := s.timExpire p 12
    match (s.pd p).wait with
    | some w =>
      let s := s.endWait p
      if w.sop = 1 ∧ w.vcmd = 1 ∧ w.cmd = none then .next (s.timStart p 11)
      else if w.vcmd = 5 ∧ (s.mux p).busy = 2 then .next ((s.modeResponse p 5 2).evPdLink p)
      else .next (s.evPdLink p)
    | none => .next s

/-- VDM_MODE_ENTRY_TIMEOUT (R252): timer 13 expires: entry has failed. -/
def execVdmModeEntryTimeout (p : Port) (s : State) : Out :=
  if !s.timDue p 13 then .next s
  else
    let s := ((s.timExpire p 13).endWait p)
    .next ((s.when (decide ((s.mux p).busy = 1)) fun s => s.modeResponse p 4 2).evPdLink p)

/-- BIST_CONT_MODE_TIMEOUT (R142): timer 14 expires and the carrier ends. -/
def execBistContModeTimeout (p : Port) (s : State) : Out :=
  if s.timDue p 14 then
    .next (((s.timExpire p 14).onPd p fun h => { h with carrier := false }).linkEvent p PRT_PDEV.BISTEV)
  else .next s

/-- SINK_EPR_ENTER_TIMEOUT (R143, R324): timer 15 expires: Soft_Reset; a PD_EPR completes TIMEOUT. -/
def execSinkEprEnterTimeout (p : Port) (s : State) : Out :=
  if s.timDue p 15 then .next (((s.timExpire p 15).completeAll 0x35 p 0x50).endWait p |>.softReset p 0)
  else .next s

/-- SINK_EPR_KEEPALIVE_TIMEOUT (R143): timer 16 expires: EPR_KeepAlive is sent. -/
def execSinkEprKeepaliveTimeout (p : Port) (s : State) : Out :=
  if s.timDue p 16 then .next (((s.timExpire p 16).sendEngine p (extCtl 3)).timStart p 16) else .next s

/-- SOURCE_EPR_KEEPALIVE_TIMEOUT (R144): timer 17 expires: Hard_Reset. -/
def execSourceEprKeepaliveTimeout (p : Port) (s : State) : Out :=
  if s.timDue p 17 then .next ((s.timExpire p 17).hardReset p) else .next s

/-- SINK_PPS_PERIODIC_TIMEOUT (R143): timer 18 expires: the last Request is repeated. -/
def execSinkPpsPeriodicTimeout (p : Port) (s : State) : Out :=
  if s.timDue p 18 then
    let s := s.timExpire p 18
    .next ((match (s.pd p).lastReq with
      | some m => s.sendEngine p m
      | none => s).timStart p 18)
  else .next s

/-- SOURCE_PPS_COMM_TIMEOUT (R144): timer 19 expires: Hard_Reset. -/
def execSourcePpsCommTimeout (p : Port) (s : State) : Out :=
  if s.timDue p 19 then .next ((s.timExpire p 19).hardReset p) else .next s

/-- HELD_MESSAGE_TIMEOUT (R155): a message held for 250,000 ticks is discarded; its command
completes with TIMEOUT. -/
def execHeldMessageTimeout (p : Port) (s : State) : Out :=
  if 250000 ≤ (s.pd p).heldFor ∧ s.fon PRT_PDST.HELD p then
    let s := s.fset PRT_PDST.HELD p 0
    match (s.pd p).engine, (s.pd p).hostq with
    | i :: rest, _ => .next ((s.onPd p fun h => { h with engine := rest, heldFor := 0 }).finish i.cmd 0x50)
    | [], i :: _ => .next (((s.hostPop p).onPd p fun h => { h with heldFor := 0 }).finish i.cmd 0x50)
    | [], [] => .next (s.onPd p fun h => { h with heldFor := 0 })
  else .next s

/-- SINK_TX_WAIT_EXPIRY (R123): tSinkTx has elapsed after SinkTxNG; the sequence may start. -/
def execSinkTxWaitExpiry (p : Port) (s : State) : Out :=
  if (s.att p).sinkTx = some 0 then .next (s.onAtt p fun h => { h with sinkTx := none }) else .next s

end Sys2Proof.Machine
end

