-- ==== Sys2Proof/Machine/Attach.lean ====
section
/-!
DEFINITION. The attach block of a port (chapter 4): scanning the CC levels, the attach states and
their timers, VCONN, the forced transitions, and the meanings of those rows.
-/
namespace Sys2Proof.Machine
namespace State

/-! ## Terminations (R102, R113) -/

/-- The attach state whose terminations the scan is made against: the mirrored one on a shadow
(R126); after a CC overvoltage none (R122). -/
def termState (s : State) (p : Nat) : Nat :=
  if (s.att p).ovPend then 0
  else if s.attState p = 0xF then s.fget PRT_ATTST.MSTATE p else s.attState p

/-- An attach state applies Rp. -/
def appliesRp (st : Nat) : Bool := [5, 6, 7, 8, 0xB, 0xC, 0xE].contains st

/-- An attach state applies Rd. -/
def appliesRd (st : Nat) : Bool := [2, 3, 4, 9, 0xA, 0xD].contains st

/-- Word `i` of the port's inbound record. -/
def ownerWord (s : State) (p i : Nat) : Nat := ofBytes (s.memRead 0x41 (0x10000 + 0x40 * p + 8 * i) 8)

/-- The Rp level that the port's settings name: 0 Default, 1 1.5 A, 2 3.0 A; RPSET rules the active CC under an
explicit contract of Revision 3.1 (R123). On a shadow they are those of its owner's record (R126). -/
def rpLevel (s : State) (p : Nat) : Nat :=
  let w0 := s.ownerWord p 0
  let w1 := s.ownerWord p 1
  let shadow := decide (s.attState p = 0xF)
  let set := if shadow then bits w0 49 48 else s.eget PRT_CCCTL.RPSET p
  let level := if shadow then bits w0 47 46 else s.eget PRT_CCCFG.RPLVL p
  let contract := if shadow then decide (bits w1 31 29 ≠ 0 ∧ bits w1 54 53 ≠ 1)
    else s.fon PRT_PDST.CONTRACT p && !s.rev2 p
  if s.termState p = 7 ∧ contract ∧ set ≠ 0 then (if set = 1 then 1 else 2) else level

/-! ## The scan (R103 to R111) -/

/-- The code of threshold `t` of R103: 0 vRa, 1 vOpen, 2 vRd-Connect, 3 vRd-1.5, 4 vRd-3.0. -/
def ccThreshold (rp t : Nat) : Nat :=
  match t, rp with
  | 0, 0 => 50 | 0, 1 => 117 | 0, _ => 250
  | 1, 2 => 867 | 1, _ => 533
  | 2, _ => 67 | 3, _ => 220 | _, _ => 410

/-- The comparator mode of the port is Neap. -/
def neap (s : State) (p : Nat) : Bool := s.fget PRT_CMPMODE.ACTIVE p == 3

/-- The thresholds of one scan in the order of their comparisons (R105, R106). -/
def scanOrder (s : State) (p : Nat) : List Nat :=
  let rp := appliesRp (s.termState p)
  if s.neap p then (if rp then [0, 0, 1, 1] else [2, 2, 3, 3, 4, 4])
  else if rp then [0, 0, 1, 1, 0, 0, 1, 1] else [2, 2, 3, 3, 4, 4, 2, 2]

/-- One comparison on one CC (R104, R109): `v` in µV, bit `b` of the latches. -/
def compareCc (s : State) (p b thr v : Nat) : State :=
  let t := thr * 3000
  let low := t - s.eget PRT_CCHYS.HYST p * 3000
  s.onAtt p fun h =>
    let was := bit h.latches b
    let now := if was then !decide (v < low) else decide (t < v)
    { h with latches := setBit h.latches b now
             band := setBit h.band b (decide (low ≤ v) && decide (v ≤ t)) }

/-- The level on a CC whose latches are bits `b` on, and whether they disagree (R111). -/
def ccLevel (rp : Bool) (l b : Nat) : Nat × Bool :=
  if rp then
    (if bit l b then (if bit l (b + 1) then 2 else 1) else 0, !bit l b && bit l (b + 1))
  else if !bit l (b + 2) then (0, false)
  else if !bit l (b + 3) then (1, bit l (b + 4))
  else (if bit l (b + 4) then 3 else 2, false)

/-- The scan has made its last comparison. -/
def scanEnd (s : State) (p : Nat) : State :=
  let rp := appliesRp (s.termState p)
  s.onAtt p fun h =>
    let a := ccLevel rp h.latches 0
    let b := ccLevel rp h.latches 5
    { h with
      scan := some (if h.disc1 then 7 else a.1, if h.disc2 then 7 else b.1,
        a.2 || decide (h.band % 32 ≠ 0), b.2 || decide (h.band / 32 ≠ 0))
      scanPos := 0, disc1 := false, disc2 := false, band := 0 }

/-- In Low Water a comparison in Neap falls in this tick: the next of the scan that began `scanPos` ticks ago, or
the first of a new one, 32 ticks after the last began (R106). -/
def scanDue (s : State) (p : Nat) : Bool :=
  let h := s.att p
  !(s.lowWater && s.neap p) || decide (s.tick < h.scanAt) || decide (h.scanAt + 32 ≤ s.tick) ||
    (decide (0 < h.scanPos) && decide (s.tick = h.scanAt + h.scanPos))

/-- A scan begins, where its first comparison is next or the one before it was left unfinished in Low Water. -/
def scanBegin (s : State) (p : Nat) : State :=
  let h := s.att p
  let stale := s.lowWater && s.neap p && decide (s.tick ≠ h.scanAt + h.scanPos)
  s.when (decide (h.scanPos = 0) || stale) fun s => s.onAtt p fun h =>
    { h with scanPos := 0, scanAt := s.tick, disc1 := false, disc2 := false, band := 0 }

/-- PRT_CMP6 and PRT_CMP7 read as the values in use (R237). -/
def ccInUse (s : State) (p thr : Nat) : State :=
  let h := s.eget PRT_CCHYS.HYST p
  (((s.fset (PRT_CMP.THR 6) p thr).fset (PRT_CMP.HYST 6) p h).fset (PRT_CMP.THR 7) p thr).fset (PRT_CMP.HYST 7) p h

/-- The next comparison of the scan: inputs in µV, and whether the PHY was active on each CC (R107). The band of a
discarded comparison's threshold stays as the scan's earlier comparison left it (DESIGN CHOICE, log entry 115). -/
def scanStep (s : State) (p v1 v2 : Nat) (busy1 busy2 : Bool) : State :=
  let st := s.termState p
  if !(appliesRp st || appliesRd st) || !s.scanDue p then s
  else
    let s := s.scanBegin p
    let order := s.scanOrder p
    let t := order.getD (s.att p).scanPos 0
    let thr := ccThreshold (s.att p).rpNow t
    let s := s.ccInUse p thr
    let d1 := busy1 || (s.att p).termChg
    let d2 := busy2 || (s.att p).termChg
    let s := s.when (!d1) fun s => s.compareCc p t thr v1
    let s := s.when (!d2) fun s => s.compareCc p (5 + t) thr v2
    let s := s.onAtt p fun h => { h with
      scanPos := h.scanPos + 1, disc1 := h.disc1 || d1, disc2 := h.disc2 || d2 }
    if order.length ≤ (s.att p).scanPos then s.scanEnd p else s

/-- Every CC latch preset to the side PRT_CCHYS.ASSUME gives (R110), and the comparator latches of
R238 to theirs. -/
def presetLatches (s : State) (p : Nat) : State :=
  let a := s.fon PRT_CCHYS.ASSUME p
  let s := s.onAtt p fun h => { h with
    latches := if a then 0b1110011100 else 0b0001100011, scanPos := 0 }
  let preset := fun (s : State) (c : Nat) (v : Bool) =>
    s.fbit PRT_CMPNOW.OUT p c (if s.fon (PRT_CMP.ASSUME c) p then !v else v)
  let s := preset (preset (preset (preset s 3 true) 4 false) 5 false) 8 false
  let s := s.onAdc p fun h => { h with preset := 0b111000 }
  ((s.fbit PRT_CMPNOW.OUT p 0 false).fbit PRT_CMPNOW.OUT p 1 false).fbit PRT_CMPNOW.OUT p 2 false

/-! ## Levels (R112) -/

/-- The level on CC1, and on CC2. -/
def cc1 (s : State) (p : Nat) : Nat := s.fget PRT_CCSTAT.CC1LVL p
def cc2 (s : State) (p : Nat) : Nat := s.fget PRT_CCSTAT.CC2LVL p

/-- The level on the active CC. -/
def activeLvl (s : State) (p : Nat) : Nat := if s.fon PRT_ATTST.ORIENT p then s.cc2 p else s.cc1 p

/-- A level is one of Rp, as a port that applies Rd reads it. -/
def isRp (l : Nat) : Bool := l == 1 || l == 2 || l == 3

/-- Levels stable over the interval in progress. -/
def ref (s : State) (p : Nat) : Nat × Nat := ((s.att p).ref1, (s.att p).ref2)

/-- Exactly one CC carries Rd in the stable levels. -/
def oneRd (s : State) (p : Nat) : Bool := ((s.ref p).1 == 1) != ((s.ref p).2 == 1)

/-- Exactly one CC carries Rp in the stable levels. -/
def oneRp (s : State) (p : Nat) : Bool := isRp (s.ref p).1 != isRp (s.ref p).2

/-! ## Entering a state (R113, R115 to R118) -/

/-- Milliseconds of an attach timer field as ticks. -/
def attMs (s : State) (p : Nat) (f : Fld) : Option Nat := some (msTicks (s.fget f p))

/-- The share of tDRP of an Unattached state (R118): the source share is rounded to whole ms. -/
def drpShare (s : State) (p : Nat) (src : Bool) : Nat :=
  let t := s.fget PRT_CCTIM0.TDRP p
  let a := (t * s.fget PRT_CCTIM0.DCSRC p + 50) / 100
  msTicks (if src then a else t - a)

/-- The timers of state `st` start and every other attach timer stops. -/
def attTimers (s : State) (p st : Nat) : State :=
  let drp := decide (s.eget PRT_CCCFG.ROLE p = 2)
  let ccDb := s.attMs p PRT_CCTIM0.TCCDB
  let tryDb := s.attMs p PRT_CCTIM1.TTRYCCDB
  let pdDb := s.attMs p PRT_CCTIM0.TPDDB
  let try_ := s.attMs p PRT_CCTIM1.TDRPTRY
  let tryTo := some (msTicks (10 * s.fget PRT_CCTIM1.TTRYTO p))
  let errRec := s.attMs p PRT_CCTIM1.TERREC
  let sink := s.drpShare p false
  let src := s.drpShare p true
  let l1 := s.cc1 p
  let l2 := s.cc2 p
  s.onAtt p fun h => { h with
    drp := if drp then (if st = 2 then some sink else if st = 5 then some src else none) else none
    ccDb := if [3, 6, 9, 0xC].contains st then ccDb else none
    pdDb := if [3, 9].contains st then pdDb else none
    tryCcDb := if [8, 0xA, 0xB].contains st then tryDb else none
    drpTry := if [8, 0xA, 0xB].contains st then try_ else none
    tryTo := if st = 0xA then tryTo else none
    errRec := if st = 1 then errRec else none
    srcDis := none, sinkTx := none, ref1 := l1, ref2 := l2 }

/-- PRT_CCCFG comes into force, but for RPLVL and ATTWAKE. -/
def latchCccfg (s : State) (p : Nat) : State :=
  s.latchAll [PRT_CCCFG.START, PRT_CCCFG.VCONN_EN, PRT_CCCFG.DBGSRC, PRT_CCCFG.DEBUG,
    PRT_CCCFG.AUDIO, PRT_CCCFG.TRY, PRT_CCCFG.ROLE] p

/-- The code of the first Unattached state: Unattached.SRC for a Source port, else Unattached.SNK. -/
def firstUnattached (s : State) (p : Nat) : Nat := if s.fget PRT_CCCFG.ROLE p = 1 then 5 else 2

/-- The states in which something is attached. -/
def attached (st : Nat) : Bool := [4, 7, 0xC, 0xD, 0xE].contains st

/-- STATE becomes `st` at this edge; outside the attached states KIND names nothing until it is recognised. -/
def setAtt (s : State) (p st : Nat) : State :=
  let old := s.attState p
  let s := s.when (!attached st) fun s => s.fset PRT_ATTST.KIND p 0
  let kind := fun c => if appliesRp c then 1 else if appliesRd c then 2 else 0
  let s := (s.fset PRT_ATTST.STATE p st).attEv PRT_ATTEV.STCHG p
  let s := s.when (decide (kind old ≠ kind st)) fun s =>
    s.onAtt p fun h => { h with termChg := true, scanPos := 0, disc1 := false, disc2 := false, band := 0 }
  (s.onAtt p fun h => { h with
    moved := true, accSeen := false, clamp := h.clamp && decide (st = 0) }).attTimers p st

/-- The evidence of an attach or a detach: counter event and strandline record (R476, R480). -/
def attEvidence (s : State) (p code : Nat) : State :=
  let s := s.cntEvent code (some p)
  s.when (s.owns p) fun s => s.logRec 0x08 p (s.rbytes PRT_ATTST.reg p ++ s.rbytes PRT_CCSTAT.reg p)

/-- The power path is turned off and discharge requested, the VCONN switch opens, and the link and
all it holds ends (R113, R119). -/
def detachOff (s : State) (p : Nat) : State :=
  let was := attached (s.attState p)
  let s := s.when (s.isSource p && was) fun s => s.operation p 0
  let s := (s.fset PRT_PWRCTL.REQ p 0).openVconn p
  let s := (s.fset PRT_CCCTL.VCONNON p 0).onPwr p fun h => { h with
    regStart := none, retrySink := false, waitSink := false }
  s.when was fun s => s.detachLink p

/-- Disabled, ErrorRecovery or an Unattached state is entered. -/
def attOff (s : State) (p st : Nat) : State :=
  let was := attached (s.attState p)
  let s := (s.detachOff p).latchCccfg p
  let s := s.when (decide (s.attState p = 0)) fun s => s.presetLatches p
  let s := ((s.setAtt p st).fset PRT_ATTST.KIND p 0).fset PRT_ATTST.RPADV p 0
  let s := s.when was fun s => (s.evAttach p).wakeToEbb p
  s.when (decide (st = 1) || (was && decide (st ≠ 0))) fun s => s.attEvidence p 0x01

/-- The first Unattached state is entered. -/
def toUnattached (s : State) (p : Nat) : State := s.attOff p (s.firstUnattached p)

/-- The current limit the engine sets for a sink at its source's advertisement, 10 mA. -/
def sinkCur (l : Nat) : Nat := if l = 3 then 300 else if l = 2 then 150 else 90

/-! ## VCONN (R119 to R121) -/

/-- The switch may be closed. -/
def vconnMay (s : State) (p : Nat) : Bool :=
  let st := s.attState p
  (st == 4 || st == 7 || st == 0xE) && s.fon PRT_CCCTL.VCONNON p &&
    decide (s.eget PRT_CCCFG.VCONN_EN p = 1) && !(s.quad (p / 4)).vconnUv &&
    !s.fon PRT_CCSTAT.CCOV p

/-- VCONNON judged at an edge. -/
def vconnEdge (s : State) (p : Nat) : State :=
  let may := s.vconnMay p
  let was := s.fon PRT_ATTST.VCONN p
  let s := s.when (may && !was) fun s => s.cntEvent 0x04 (some p)
  let s := s.when (may != was) fun s => s.onAtt p fun h => { h with termChg := true }
  s.fset PRT_ATTST.VCONN p (b2n may)

/-! ## Entering an attached state -/

/-- An Attached or accessory state is entered: orientation, kind, default roles and what the state
requests (R113, R116), with a VCONNON that the block sets taking effect at this edge (R119); the engine's link, limit and report follow (chapter 4, R160). -/
def attOn (s : State) (p st : Nat) : State :=
  let r := s.ref p
  let rd := fun (a : Nat) => a == 1
  let orient : Bool :=
    match st with
    | 4 => isRp r.2
    | 0xD => decide (r.1 < r.2)
    | 7 => rd r.2
    | _ => false
  let ra := st = 7 ∧ (if orient then r.1 else r.2) = 0
  let kind := match st with
    | 4 => 2 | 0xC => 4 | 0xD => 6 | 0xE => 5
    | _ => if ra then 3 else 1
  let s := ((s.setAtt p st).fset PRT_ATTST.ORIENT p (b2n orient)).fset PRT_ATTST.KIND p kind
  let s := s.latchAll [PRT_PDCFG.PDEN, PRT_PDCFG.REV, PRT_PDCFG.CBLDISC, PRT_PDCFG.BISTEN] p
  let s := s.when (decide ra && decide (s.eget PRT_CCCFG.VCONN_EN p = 1)) fun s =>
    s.fset PRT_CCCTL.VCONNON p 1
  let s := (s.defaultRoles p st).setMux p (s.idleCfg p)
  let s := s.noneWindow p (s.isSource p)
  let s := s.when (decide (st = 0xC ∨ st = 0xD ∨ st = 0xE)) fun s => s.attEv PRT_ATTEV.ACC p
  let s := s.onSw p fun h => { h with baseAtt := st }
  let s := s.when (decide (st = 4 ∨ st = 0xD)) fun s =>
    let s := (s.setLimFor p (sinkCur (if orient then r.2 else r.1))).fset PRT_PWRCTL.REQ p 2
    s.when (s.linkRuns p) fun s => s.timStart p 6
  let s := s.when (decide (st = 7) || (decide (st = 0xE) && decide (s.eget PRT_CCCFG.DBGSRC p = 1)))
    fun s => (s.setLimFor p (if s.rpLevel p = 2 then 300 else if s.rpLevel p = 1 then 150 else 90)).regStart p
  (((s.attEvidence p 0x00).evAttach p).wakeToEbb p).vconnEdge p

/-! ## Transitions of an edge (R115) -/

/-- A FORCE or ROLESW has been applied; the command that wrote it replies (R317). -/
def forceDone (s : State) (p : Nat) : State :=
  let c := (s.att p).forceCmd
  let s := (s.attEv PRT_ATTEV.FRCDONE p).onAtt p fun h => { h with force := 0, forceCmd := none }
  match c with
  | some c => if c.event then s.complete c.op c.tag 0 else s.reply c.op (byte c.tag) 0
  | none => s

/-- A ROLESW: Rp and Rd exchanged at one edge, Attached.SRC and Attached.SNK exchanged (R117). -/
def applyRoleSw (s : State) (p : Nat) : State :=
  let st := s.attState p
  let s := s.onAtt p fun h => { h with roleSw := h.roleBack, roleBack := false }
  if st = 7 then (((s.setAtt p 4).fset PRT_ATTST.KIND p 2).forceDone p)
  else if st = 4 then (((s.setAtt p 7).fset PRT_ATTST.KIND p 1).forceDone p)
  else s

/-- A FORCE value applied. A Source-only port that leaves Disabled with its clamps present goes through
ErrorRecovery (R125). -/
def applyForce (s : State) (p : Nat) : State :=
  let f := (s.att p).force
  let s := match f with
    | 1 => s.attOff p 1
    | 2 => (s.attOff p 0).endDefer p 0x22
    | _ => s.when (decide (s.attState p = 0)) fun s =>
        if s.fget PRT_CCCFG.ROLE p = 1 ∧ (s.att p).clamp then s.attOff p 1 else s.toUnattached p
  s.forceDone p

/-- A scanned level differs from the one at the start of the interval (R113). -/
def broken (s : State) (p : Nat) : Bool :=
  let h := s.att p
  (s.cc1 p != 7 && h.ref1 != 7 && s.cc1 p != h.ref1) || (s.cc2 p != 7 && h.ref2 != 7 && s.cc2 p != h.ref2)

/-- A port with nothing attached forgets what it recognised when the levels change (R112). -/
def forgetKind (s : State) (p : Nat) : State :=
  s.when (!attached (s.attState p)) fun s => s.fset PRT_ATTST.KIND p 0

/-- Debounce intervals restart when a scanned level breaks stability (R113, R118); in the debug accessory
tSRCDisconnect does. -/
def stability (s : State) (p : Nat) : State :=
  let brk := s.broken p
  let l1 := s.cc1 p
  let l2 := s.cc2 p
  let ccDb := s.attMs p PRT_CCTIM0.TCCDB
  let pdDb := s.attMs p PRT_CCTIM0.TPDDB
  let tryDb := s.attMs p PRT_CCTIM1.TTRYCCDB
  let two := decide (s.attState p = 0xE)
  let s := s.when brk fun s => s.forgetKind p
  s.onAtt p fun h => { h with
    ref1 := if l1 = 7 then h.ref1 else l1, ref2 := if l2 = 7 then h.ref2 else l2
    accSeen := h.accSeen && !brk
    srcDis := if brk && two then none else h.srcDis
    ccDb := if brk ∧ h.ccDb.isSome then ccDb else h.ccDb
    pdDb := if brk ∧ h.pdDb.isSome then pdDb else h.pdDb
    tryCcDb := if brk ∧ h.tryCcDb.isSome then tryDb else h.tryCcDb }

/-- An open active CC (either CC in the debug accessory) runs tSRCDisconnect; anything else stops it. A CC that was
not scanned counts with its last level. -/
def openCount (s : State) (p : Nat) : State :=
  let st := s.attState p
  let orient := s.fon PRT_ATTST.ORIENT p
  let full := s.attMs p PRT_CCTIM2.TSRCDIS
  s.when (decide (st = 7 ∨ st = 0xE)) fun s => s.onAtt p fun h =>
    let opened := if st = 7 then (if orient then h.ref2 else h.ref1) == 2 else h.ref1 == 2 || h.ref2 == 2
    { h with srcDis := if !opened then none else if h.srcDis.isSome then h.srcDis else full }

/-- The accessory or powered cable recognised without attaching sets ACC once (R112): in an attach-wait state after
tCCDebounce, since no rule gives another instant (DESIGN CHOICE, log entry 113). -/
def reportAcc (s : State) (p kind : Nat) : State :=
  s.when (!(s.att p).accSeen) fun s =>
    ((s.attEv PRT_ATTEV.ACC p).fset PRT_ATTST.KIND p kind).onAtt p fun h => { h with accSeen := true }

/-- An attach-wait state that recognised an accessory it may not enter is left when the levels change (R112). -/
def accLeave (s : State) (p : Nat) : State :=
  match s.attState p with
  | 3 => s.attOff p 2
  | 6 => s.toUnattached p
  | _ => s

/-- Exits made on one scan (R113). -/
def scanExits (s : State) (p : Nat) : State :=
  let a := s.cc1 p
  let b := s.cc2 p
  match s.attState p with
  | 2 => s.when (isRp a || isRp b) fun s => s.setAtt p 3
  | 4 | 0xD => s.when (!s.fon PRT_CCSTAT.VBUSOK p && !s.fon PRT_CCCTL.HOLDATT p) fun s => s.attOff p 2
  | 5 =>
    if a = 1 ∨ b = 1 ∨ (a = 0 ∧ b = 0) then s.setAtt p 6
    else s.when (decide ((a = 0 ∧ b = 2) ∨ (a = 2 ∧ b = 0))) fun s => s.reportAcc p 7
  | 6 => s.when (a != 7 && b != 7 && a != 1 && b != 1 && !(a == 0 && b == 0)) fun s => s.toUnattached p
  | _ => s

/-- tCCDebounce has elapsed with stable levels: the exit it leads to, where its conditions hold. -/
def ccDebounced (s : State) (p : Nat) : State :=
  let r := s.ref p
  let ok := s.fon PRT_CCSTAT.VBUSOK p
  let safe := s.fon PRT_CCSTAT.VSAFE0 p
  let dbg := decide (s.eget PRT_CCCFG.DEBUG p = 1)
  match s.attState p with
  | 3 =>
    if s.oneRp p then
      s.when ok fun s => if s.eget PRT_CCCFG.TRY p = 1 then s.setAtt p 8 else s.attOn p 4
    else if isRp r.1 && isRp r.2 then
      if dbg then s.when ok fun s => s.attOn p 0xD else s.reportAcc p 6
    else s
  | 9 => s.when (s.oneRp p && ok) fun s => s.attOn p 4
  | 6 =>
    if s.oneRd p then
      s.when safe fun s => if s.eget PRT_CCCFG.TRY p = 2 then s.setAtt p 0xA else s.attOn p 7
    else if r = (0, 0) then
      if s.eget PRT_CCCFG.AUDIO p = 1 then s.attOn p 0xC else s.reportAcc p 4
    else if r = (1, 1) then
      if dbg then s.when safe fun s => s.attOn p 0xE else s.reportAcc p 5
    else s
  | 0xC => s.when (r.1 == 2 || r.2 == 2) fun s => s.toUnattached p
  | _ => s

/-- tPDDebounce has elapsed with no Rp. -/
def pdDebounced (s : State) (p : Nat) : State :=
  let r := s.ref p
  s.when (decide (s.attState p = 3 ∨ s.attState p = 9) && r.1 == 0 && r.2 == 0) fun s => s.attOff p 2

/-- tTryCCDebounce has elapsed with stable levels. -/
def tryDebounced (s : State) (p : Nat) : State :=
  match s.attState p with
  | 8 | 0xB => s.when (s.oneRd p) fun s => s.attOn p 7
  | 0xA => s.when ((s.att p).drpTry.isNone && s.oneRp p && s.fon PRT_CCSTAT.VBUSOK p) fun s => s.attOn p 4
  | _ => s

/-- tErrorRecovery has elapsed and VSAFE0 is 1. -/
def errRecovered (s : State) (p : Nat) : State :=
  s.when (decide (s.attState p = 1) && s.fon PRT_CCSTAT.VSAFE0 p) fun s => s.toUnattached p

/-- The transition of an edge in the order of R115: CC overvoltage, FORCE, ROLESW, detection exits.
Debounce timers that are due and whose other conditions hold only now act here. -/
def attachEdge (s : State) (p : Nat) (scanned : Bool) : State :=
  let h := s.att p
  let due := fun (t : Option Nat) => t == some 0
  if h.ovPend then (s.onAtt p fun h => { h with ovPend := false }).attOff p 1
  else if h.force ≠ 0 then s.applyForce p
  else if h.roleSw then s.applyRoleSw p
  else
    let step := fun (s : State) (c : Bool) (g : State → State) => if (s.att p).moved then s else s.when c g
    let left := scanned && (s.att p).accSeen && s.broken p
    let s := s.when scanned fun s => (s.stability p).openCount p
    let s := step s left fun s => s.accLeave p
    let s := step s scanned fun s => s.scanExits p
    let s := step s (due (s.att p).errRec) fun s => s.errRecovered p
    let s := step s (due (s.att p).ccDb) fun s => s.ccDebounced p
    let s := step s (due (s.att p).tryCcDb && (s.att p).drpTry.isNone) fun s => s.tryDebounced p
    s

/-- The scan that has ended is copied into PRT_CCSTAT (R108, R109); INBAND sets where a bit went to
1. Answers whether a scan ended. -/
def copyScan (s : State) (p : Nat) : State × Bool :=
  match (s.att p).scan with
  | none => (s, false)
  | some (l1, l2, i1, i2) =>
    let rose := (i1 && !s.fon PRT_CCSTAT.INBAND1 p) || (i2 && !s.fon PRT_CCSTAT.INBAND2 p)
    let s := ((s.fset PRT_CCSTAT.CC1LVL p l1).fset PRT_CCSTAT.CC2LVL p l2).onAtt p fun h =>
      { h with scan := none }
    let s := (s.fset PRT_CCSTAT.INBAND1 p (b2n i1)).fset PRT_CCSTAT.INBAND2 p (b2n i2)
    (s.when rose fun s => (s.attEv PRT_ATTEV.INBAND p).cntEvent 0x03 (some p), true)

/-- The attach timers of a port counted down. -/
def attCount (s : State) (p : Nat) : State :=
  s.onAtt p fun h => { h with
    drp := countDown h.drp, ccDb := countDown h.ccDb, pdDb := countDown h.pdDb,
    tryCcDb := countDown h.tryCcDb, drpTry := countDown h.drpTry, tryTo := countDown h.tryTo,
    errRec := countDown h.errRec, srcDis := countDown h.srcDis, sinkTx := countDown h.sinkTx,
    moved := false, termChg := false }

/-- The Rp level comes into force at an edge; a change of it on a port that applies Rp is a change of its
terminations (R107, R123). -/
def rpEdge (s : State) (p : Nat) : State :=
  let l := s.rpLevel p
  let chg := appliesRp (s.termState p) && (s.att p).rpNow != l
  s.onAtt p fun h => { h with rpNow := l, termChg := h.termChg || chg }

/-- What PRT_ATTST shows of the port as sink, and HOLD (R113). -/
def attShow (s : State) (p : Nat) : State :=
  let st := s.attState p
  let l := s.activeLvl p
  let s := s.fset PRT_ATTST.HOLD p (s.fget PRT_CCCTL.HOLDATT p)
  if st = 4 ∨ st = 0xD then s.when (l != 7) fun s => s.fset PRT_ATTST.RPADV p l
  else s.fset PRT_ATTST.RPADV p 0

/-- Four scans that disagree with the owner's mirrored levels (R126); a mirrored level of "not scanned" differs from
any scanned one (DESIGN CHOICE, log entry 114). -/
def shadowCheck (s : State) (p l1 l2 : Nat) : State :=
  let a := s.cc1 p
  let b := s.cc2 p
  if a = 7 ∨ b = 7 then s
  else if a = l1 ∧ b = l2 then s.onAtt p fun h => { h with shDis := 0 }
  else
    let s := s.onAtt p fun h => { h with shDis := min 5 (h.shDis + 1) }
    s.when (decide ((s.att p).shDis = 4)) fun s => (s.attEv PRT_ATTEV.SHDIS p).portSource p 11

end State

/-! ## Meanings -/

open State

/-- CC_SCAN_COMPARISON (R104 to R107): both CC inputs, in µV, are compared with the scan's next
threshold. -/
def execCcScanComparison (p : Port) (v1 v2 : BitVec 23) (busy1 busy2 : Bool) (s : State) : Out :=
  .next (s.scanStep p v1.toNat v2.toNat busy1 busy2)

/-- CC_OVERVOLTAGE (R122): terminations, VCONN and the BMC driver are disconnected and the source records one event; ErrorRecovery
is entered at the next edge. A shadow's balls carry nothing to disconnect. -/
def execCcOvervoltage (p : Port) (s : State) : Out :=
  let s := (s.attEv PRT_ATTEV.CCOV p).portSource p 13
  .next (s.when (s.owns p) fun s =>
    ((s.openVconn p).onAtt p fun h => { h with ovPend := true, termChg := true }).onPd p fun h =>
      { h with line := Line.aborted h.line, resend := h.resend || decide (h.line = .packet) })

/-- VCONN_OVERCURRENT (R120): the time in limit reaches TFLT: the switch opens, VCONNON clears. -/
def execVconnOvercurrent (p : Port) (s : State) : Out :=
  if s.fon PRT_ATTST.VCONN p then
    .next ((((s.openVconn p).fset PRT_CCCTL.VCONNON p 0).attEv PRT_ATTEV.VCONNOC p).portSource p 11)
  else .next s

/-- VCONN_INPUT_UNDERVOLTAGE (R121): the quad's switches open, and refuse to close. -/
def execVconnInputUndervoltage (q : Quad) (s : State) : Out :=
  let s := s.onQuad q fun h => { h with vconnUv := true }
  .next (s.forEach ((List.range 16).filter fun p => p / 4 == q.val) fun p s =>
    let on := s.fon PRT_CCCTL.VCONNON p
    (s.openVconn p).when (on && s.owns p) fun s => (s.attEv PRT_ATTEV.VCONNUV p).portSource p 12)

/-- VCONN_INPUT_RECOVERED (R121): the quad's switches may close again; they are judged at the next
edge (R119). -/
def execVconnInputRecovered (q : Quad) (s : State) : Out :=
  .next (s.onQuad q fun h => { h with vconnUv := false })

/-- A timer row of the attach block: due, on an owned port that has made no transition at this edge. -/
def State.attDue (s : State) (p : Nat) (t : Option Nat) : Bool :=
  decide (t = some 0) && !(s.att p).moved && s.owns p

/-- DRP_SHARE_END (R113): a dual-role port toggles its Unattached state. -/
def execDrpShareEnd (p : Port) (s : State) : Out :=
  if s.attDue p (s.att p).drp then
    let s := s.onAtt p fun h => { h with drp := none }
    match s.attState p with
    | 2 => .next ((((s.latchCccfg p).setAtt p 5).fset PRT_ATTST.KIND p 0).cntEvent 0x02 (some p))
    | 5 => .next ((((s.latchCccfg p).setAtt p 2).fset PRT_ATTST.KIND p 0).cntEvent 0x02 (some p))
    | _ => .next s
  else .next s

/-- CC_DEBOUNCE_EXPIRY (R113): tCCDebounce has elapsed with stable levels. Where VBUSOK, VSAFE0 or an
enable is still missing the timer stays due, and the edges judge it again. -/
def execCcDebounceExpiry (p : Port) (s : State) : Out :=
  if s.attDue p (s.att p).ccDb then .next (s.ccDebounced p) else .next s

/-- PD_DEBOUNCE_EXPIRY (R113): tPDDebounce has elapsed with no Rp on either CC. -/
def execPdDebounceExpiry (p : Port) (s : State) : Out :=
  if s.attDue p (s.att p).pdDb then .next (s.pdDebounced p) else .next s

/-- TRY_CC_DEBOUNCE_EXPIRY (R113): tTryCCDebounce has elapsed in a Try state. -/
def execTryCcDebounceExpiry (p : Port) (s : State) : Out :=
  if s.attDue p (s.att p).tryCcDb then .next (s.tryDebounced p) else .next s

/-- DRP_TRY_EXPIRY (R113): tDRPTry has elapsed; Try.SRC moves to TryWait.SNK and TryWait.SRC to
Unattached.SNK, and in Try.SNK an attach is now allowed. -/
def execDrpTryExpiry (p : Port) (s : State) : Out :=
  if s.attDue p (s.att p).drpTry then
    let s := s.onAtt p fun h => { h with drpTry := none }
    match s.attState p with
    | 8 => .next (s.setAtt p 9)
    | 0xB => .next (s.attOff p 2)
    | 0xA => .next (s.when (decide ((s.att p).tryCcDb = some 0)) fun s => s.tryDebounced p)
    | _ => .next s
  else .next s

/-- TRY_TIMEOUT_EXPIRY (R113): tTryTimeout has elapsed in Try.SNK. -/
def execTryTimeoutExpiry (p : Port) (s : State) : Out :=
  if s.attDue p (s.att p).tryTo ∧ s.attState p = 0xA then .next (s.setAtt p 0xB) else .next s

/-- ERROR_RECOVERY_EXPIRY (R113): tErrorRecovery has elapsed; the port leaves once VSAFE0 is 1. -/
def execErrorRecoveryExpiry (p : Port) (s : State) : Out :=
  if s.attDue p (s.att p).errRec then .next (s.errRecovered p) else .next s

/-- SRC_DISCONNECT_EXPIRY (R113): the active CC, or either CC in the debug accessory, has been open for
tSRCDisconnect. With HOLDATT at 1 an open active CC makes no exit (R117); the active CC of the debug accessory is
CC1 (R116), so an open CC2 still makes one. -/
def execSrcDisconnectExpiry (p : Port) (s : State) : Out :=
  let other := decide (s.attState p = 0xE) && (s.att p).ref2 == 2
  if s.attDue p (s.att p).srcDis ∧ (s.fget PRT_CCCTL.HOLDATT p = 0 ∨ other) then .next (s.toUnattached p)
  else .next s

/-- FORCE_ERROR_RECOVERY (R115): applied at the next edge. -/
def execForceErrorRecovery (p : Port) (s : State) : Out :=
  .next (s.onAtt p fun h => { h with force := 1 })

/-- FORCE_DISABLED (R115): applied at the next edge. -/
def execForceDisabled (p : Port) (s : State) : Out :=
  .next (s.onAtt p fun h => { h with force := 2 })

/-- FORCE_LEAVE_DISABLED (R113): applied at the next edge; outside Disabled it is ignored. -/
def execForceLeaveDisabled (p : Port) (s : State) : Out :=
  .next (s.when (decide (s.attState p = 0)) fun s => s.onAtt p fun h => { h with force := 3 })

/-- ROLESW (R117): applied at the next edge; ignored outside Attached.SRC and Attached.SNK. -/
def execRolesw (p : Port) (s : State) : Out :=
  .next (s.when (decide (s.attState p = 4 ∨ s.attState p = 7)) fun s =>
    s.onAtt p fun h => { h with roleSw := true })

end Sys2Proof.Machine
end

