-- ==== Sys2Proof/Machine/Adc.lean ====
section
/-!
DEFINITION. Converters, comparators and references (chapter 8): conversion results and their
correction, the energy accumulator, the eddy converter, and the meanings of those rows.
-/
namespace Sys2Proof.Machine
namespace State

/-! ## Correction (R224, R225) -/

/-- The range of a channel group: signed for ISNS (0), unsigned else (R223). -/
def codeMin (g : Nat) : Int := if g = 0 then -2048 else 0
def codeMax (g : Nat) : Int := if g = 0 then 2047 else 4095

/-- One correction: clamp(round(raw × (1 + GAIN × 2^−20) + OFFS / 16)), and whether the clamp acted. -/
def correct (g : Nat) (raw gain offs : Int) : Int × Bool :=
  let v := (raw * (2 ^ 20 + gain) + offs * 2 ^ 16 + 2 ^ 19) / 2 ^ 20
  (max (codeMin g) (min (codeMax g) v), decide (v < codeMin g ∨ codeMax g < v))

/-- The eddy converter makes port `p`'s results in this tick (R231). -/
def eddyServes (s : State) (p : Nat) : Bool :=
  s.fon DEV_EDDY.BUSY && decide (s.eddy.port = p) &&
    match s.eddy.left with
    | some n => decide (0 < n ∧ n ≤ 64)
    | none => false

/-- The corrected result of a conversion in group `g`, and its SAT flag. -/
def result (s : State) (p g : Nat) (raw : Int) : Int × Bool :=
  let a := max (codeMin g) (min (codeMax g) raw)
  let (e, c1) := if s.eddyServes p then
      correct g a (toSigned 16 (s.fget DEV_EDDYTRIM.GAIN)) (toSigned 16 (s.fget DEV_EDDYTRIM.OFFS))
    else (a, false)
  let (v, c2) := correct g e (toSigned 16 (s.eget (PRT_ADCTRIM.GAIN g) p))
    (toSigned 16 (s.eget (PRT_ADCTRIM.OFFS g) p))
  let atEnd := decide (v = codeMin g ∨ v = codeMax g)
  (v, atEnd && (decide (a = codeMin g ∨ a = codeMax g) || c1 || c2))

/-- A result register takes its value. -/
def setResult (s : State) (p : Nat) (code sat eddy : Fld) (v : Int × Bool) : State :=
  let s := ((s.fset code p (ofSigned 12 v.1)).fset sat p (b2n v.2)).fset eddy p (b2n (s.eddyServes p))
  s.when v.2 fun s => s.cntEvent 0x39 (some p)

/-! ## What the results feed -/

/-- The forward code of an ISNS result: negated in sink mode (R223). -/
def forward (s : State) (p : Nat) (v : Int) : Int := if s.fon PRT_PWRST.MODE p then v else -v

/-- The weight of an ISNS sample of this slot (R199). -/
def isnsWeight (s : State) (p slot : Nat) : Nat :=
  if slot ≤ 4 then 2
  else if bit (s.eget PRT_AUXSEL.EN p) (s.tick % 8) then 2 else 1

/-- An ISNS result: the register, the energy sum, the tick mean, and R193's comparison with 1/16 of
the current at LIM. -/
def isnsResult (s : State) (p slot : Nat) (raw : Int) : State :=
  let v := s.result p 0 raw
  let f := s.forward p v.1
  let w := s.isnsWeight p slot
  let vds := (s.fget PRT_RRAIL.CODE p : Int) - s.fget PRT_RVBUS.CODE p
  let lim := s.fget PRT_ILIM.LIM p
  let s := s.setResult p PRT_RISNS.CODE PRT_RISNS.SAT PRT_RISNS.EDDY v
  let s := s.fset PRT_EACC.SUM p (min (2 ^ 32 - 1) (s.fget PRT_EACC.SUM p + w * f.toNat * vds.natAbs))
  let s := s.onPwr p fun h => { h with
    isnsSeen := true, isnsHigh := h.isnsHigh && decide ((lim : Int) < 8 * f) }
  s.onAdc p fun h => { h with isum := h.isum + w * f, icnt := h.icnt + w }

/-- A VBUS result, its place in the tick, and whether it lies in PRT_VWIN (R209). -/
def vbusResult (s : State) (p slot : Nat) (raw : Int) : State :=
  let v := s.result p 1 raw
  let c := v.1.toNat
  let s := s.setResult p PRT_RVBUS.CODE PRT_RVBUS.SAT PRT_RVBUS.EDDY v
  let s := s.onAdc p fun h => if slot = 1 then { h with vb1 := some c } else { h with vb5 := some c }
  let ok := codeIn c (s.fget PRT_VWIN.WLO p) (s.fget PRT_VWIN.WHI p)
  s.onPwr p fun h => { h with vbusSeen := if ok then h.vbusSeen + 1 else h.vbusSeen }

/-- A RAIL result, and the forward condition of R207. -/
def railResult (s : State) (p : Nat) (raw : Int) : State :=
  let v := s.result p 2 raw
  let c := v.1.toNat
  let s := s.setResult p PRT_RRAIL.CODE PRT_RRAIL.SAT PRT_RRAIL.EDDY v
  let fwd := match (s.adc p).vb1 with
    | some b => decide ((b : Int) * 60000 + s.eget PRT_PWRCFG.FWD p * 10 * 4096 < (c : Int) * 60000)
    | none => false
  (s.onAdc p fun h => { h with rail := some c }).onPwr p fun h => { h with fwdOk := fwd }

/-- An NTC result (R228): 8 consecutive results outside its limits record "NTC fault"; one inside
gives the FET temperature, which above tjmax − guard is "FET over-temperature" (R213). -/
def ntcResult (s : State) (p code : Nat) : State :=
  if 4090 ≤ code ∨ code ≤ 5 then
    let s := s.onAdc p fun h => { h with ntcBad := min 8 (h.ntcBad + 1) }
    s.weirCond p 15 (decide ((s.adc p).ntcBad = 8))
  else
    let s := (s.onAdc p fun h => { h with ntcBad := 0, ntc := some code }).weirCond p 15 false
    let e := (s.port p).energy
    let hot := decide (((e.tjmax : Int) - e.guard) * 1000 <
      Config.ntcTemp e.beta e.r25 (s.fget PRT_NTC.IBIAS p) code)
    let s := s.when (hot && !(s.weirIdx p 8).cond) fun s =>
      (s.pwrEv PRT_PWREV.OTEMP p).when (s.tripsAny p) fun s => s.enterTripped p 7
    s.weirCond p 8 hot

/-- The condition of "die over-temperature": a port slice has been above 140 °C in 8 results. -/
def dieHot (s : State) : Bool := (List.range 16).any fun p => (s.adc p).overTemp

/-- A die temperature result: 140 °C is code 3,305.2 (R227, R394). -/
def dieResult (s : State) (p code : Nat) : State :=
  if 3306 ≤ code then s.onAdc p fun h => { h with hot := min 8 (h.hot + 1) }
  else
    let s := s.onAdc p fun h => { h with hot := 0, overTemp := false }
    s.when (!s.dieHot) fun s => s.weirCond 16 8 false

/-- A check-bandgap result (R230): out of tolerance in 2 consecutive check conversions. -/
def checkResult (s : State) (p code : Nat) : State :=
  let d := ((code : Int) - s.fget PRT_CHKREF.NOM p).natAbs
  let out := decide (s.fget PRT_CHKREF.TOL p < d)
  let s := s.onAdc p fun h => { h with chkBad := if out then min 2 (h.chkBad + 1) else 0 }
  s.weirCond p 14 (decide ((s.adc p).chkBad = 2))

/-- An auxiliary result of channel `j` (R227). -/
def auxResult (s : State) (p j : Nat) (raw : Int) : State :=
  let v := s.result p 3 raw
  let c := v.1.toNat
  let s := s.setResult p (PRT_RAUX.CODE j) (PRT_RAUX.SAT j) (PRT_RAUX.EDDY j) v
  if j = 0 ∨ j = 4 then s.when (s.owns p) fun s => s.ntcResult p c
  else if j = 6 then s.dieResult p c
  else if j = 7 then s.checkResult p c
  else s

/-- The comparator of a port presents INBAND while its latch holds its preset and the latest VBUS
result lies in the hysteresis band (R238). -/
def inBand (s : State) (p c : Nat) : Bool :=
  let t := s.eget (PRT_CMP.THR c) p
  let h := s.eget (PRT_CMP.HYST c) p
  let v := s.fget PRT_RVBUS.CODE p * 1000
  let lo := if c = 3 then t - h else t
  let hi := if c = 3 then t else t + h
  bit (s.adc p).preset c && decide (lo * 4096 ≤ v) && decide (v ≤ hi * 4096)

/-- The edge copies of the comparators (R40, R114, R239). -/
def copyCmp (s : State) (p : Nat) : State :=
  let out := s.fget PRT_CMPNOW.OUT p
  let chg := (s.adc p).chg
  let s := (s.fset PRT_CMPST.OUT p out).fset PRT_CMPEV.CHG p (s.fget PRT_CMPEV.CHG p ||| chg)
  let s := (s.fset PRT_CMPST.INBAND3 p (b2n (s.inBand p 3))).fset PRT_CMPST.INBAND4 p (b2n (s.inBand p 4))
  let s := s.fset PRT_CMPST.INBAND5 p (b2n (s.inBand p 5))
  let s := (s.fset PRT_CCSTAT.VBUSOK p (b2n (bit out 4))).fset PRT_CCSTAT.VSAFE0 p (b2n (bit out 5))
  s.onAdc p fun h => { h with chg := 0 }

/-! ## Calibration (R231 to R233) -/

/-- A calibration of port `p` begins from the next edge. -/
def calStart (s : State) (p : Nat) : State :=
  { (s.fset DEV_EDDY.BUSY 0 1).fset DEV_EDDY.TICKS 0 64 with
    eddy := { s.eddy with port := p, left := some 65 } }

/-- A calibration may start: none under way, self-check good, not in Low Water (R233). -/
def calMay (s : State) : Bool :=
  !s.fon DEV_EDDY.BUSY && !s.fon DEV_EDDY.CHKFAIL && !s.lowWater

/-- A calibration ends: CAL is reported and CAL_RUN completes. -/
def calEnd (s : State) (p status : Nat) : State :=
  let s := { (s.fset DEV_EDDY.BUSY 0 0).fset DEV_EDDY.TICKS 0 0 with
    eddy := { s.eddy with left := none } }
  let s := (s.cntEvent 0x3A (some p)).hostEvent 0x0B ([byte p, 0, 0, 0] ++ s.rbytes PRT_CALST.reg p)
  s.completeAll 0xA0 p status (s.rbytes PRT_CALST.reg p)

/-- A calibration is abandoned at the edge that enters Low Water (R233). -/
def calAbandon (s : State) : State :=
  s.when (s.fon DEV_EDDY.BUSY) fun s =>
    (s.fset PRT_CALST.ABORT s.eddy.port 1).calEnd s.eddy.port 0x22

/-- The residuals of one group within DEV_CALLIM (R232). -/
def resOk (s : State) (r : CalRes) : Bool :=
  decide ((toSigned 16 r.offs.toNat).natAbs ≤ s.fget DEV_CALLIM.OFFLIM * 16) &&
    decide ((toSigned 16 r.gain.toNat).natAbs ≤ s.fget DEV_CALLIM.GAINLIM * 105)

/-- A residual relative to its limits, for the group that PRT_CALST names. -/
def resSize (s : State) (r : CalRes) : Nat :=
  max ((toSigned 16 r.offs.toNat).natAbs * s.fget DEV_CALLIM.GAINLIM * 105)
    ((toSigned 16 r.gain.toNat).natAbs * s.fget DEV_CALLIM.OFFLIM * 16)

/-- The group with the largest residual, the first of equals. -/
def worstGroup (s : State) (l : List CalRes) : Nat × CalRes :=
  (l.zipIdx).foldl (fun a r => if s.resSize a.2 < s.resSize r.1 then (r.2, r.1) else a)
    (0, l.getD 0 ⟨0, 0⟩)

/-- The adjusted trims: the residual error taken out of the trims in force (log entry 14). -/
def adjustTrims (s : State) (p : Nat) (l : List CalRes) : State :=
  l.zipIdx.foldl (fun s r =>
    let g := toSigned 16 (s.fget (PRT_ADCTRIM.GAIN r.2) p) - toSigned 16 r.1.gain.toNat
    let o := toSigned 16 (s.fget (PRT_ADCTRIM.OFFS r.2) p) - toSigned 16 r.1.offs.toNat
    let clampW := fun (x : Int) => max (-32768) (min 32767 x)
    ((s.fset (PRT_ADCTRIM.GAIN r.2) p (ofSigned 16 (clampW g))).latch (PRT_ADCTRIM.GAIN r.2) p
      |>.fset (PRT_ADCTRIM.OFFS r.2) p (ofSigned 16 (clampW o))).latch (PRT_ADCTRIM.OFFS r.2) p) s

/-- The calibration judged (R232). -/
def calJudge (s : State) (p : Nat) (l : List CalRes) : State :=
  let (g, r) := s.worstGroup l
  let s := ((s.fset PRT_CALST.GRP p g).fset PRT_CALST.DGAIN p
    (ofSigned 11 (toSigned 16 r.gain.toNat / 16))).fset PRT_CALST.DOFFS p r.offs.toNat
  let s := if l.all s.resOk then s.adjustTrims p l
    else (s.fset PRT_CALST.REJ p 1).portSource p 16
  (s.fset PRT_CALST.DONE p 1).calEnd p 0

end State

/-! ## Meanings -/

open State

/-- CONVERSION_COMPLETE (R42, R43, R45, R225): the raw conversion of a slot is corrected and registered.
Slot 7 converts auxiliary channel n mod 8, or ISNS where that channel is off. In Low Water the converter runs
only in ticks in which the port's engine has been woken. -/
def execConversionComplete (p : Port) (slot : Fin 8) (raw : BitVec 13) (s : State) : Out :=
  let r := raw.toInt
  if !(s.engine p).awake then .next s else
  match slot.val with
  | 1 | 5 => .next (s.vbusResult p slot r)
  | 3 => .next (s.railResult p r)
  | 7 =>
    let j := s.tick % 8
    if bit (s.eget PRT_AUXSEL.EN p) j then .next (s.auxResult p j r) else .next (s.isnsResult p 7 r)
  | n => .next (s.isnsResult p n r)

/-- COMPARATOR_OUTPUT_CHANGE (R239): a registered output changes. -/
def execComparatorOutputChange (p : Port) (c : Fin 9) (level : Bool) (s : State) : Out :=
  .next (s.cmpOut p c level)

/-- EDDY_START (R231, R233): DEV_EDDY written with START; a start that R233 refuses changes only
PORT. -/
def execEddyStart (v : BitVec 16) (s : State) : Out :=
  let s := s.fset DEV_EDDY.PORT 0 (bits v.toNat 3 0)
  .next (s.when (bit v.toNat 4 && s.calMay) fun s => s.calStart (bits v.toNat 3 0))

/-- CALIBRATION_END (R232): at edge n + 65 the residuals of the four groups are judged. -/
def execCalibrationEnd (r : Residuals) (s : State) : Out :=
  if s.eddy.left = some 0 then .next (s.calJudge s.eddy.port [r.isns, r.vbus, r.rail, r.aux])
  else .next s

/-- EDDY_SELF_TRIM (R234): while it serves no port, the eddy converter updates DEV_EDDYTRIM every
4,096 ticks. -/
def execEddySelfTrim (gain offs : BitVec 16) (s : State) : Out :=
  if s.fon DEV_EDDY.BUSY ∨ s.eddy.since < 4096 then .next s
  else .next { (s.fset DEV_EDDYTRIM.GAIN 0 gain.toNat).fset DEV_EDDYTRIM.OFFS 0 offs.toNat with
    eddy := { s.eddy with since := 0 } }

/-- EDDY_CHECK_FAIL (R234): the eddy check has been out for 16 ticks. -/
def execEddyCheckFail (s : State) : Out :=
  if 16 ≤ s.eddy.outTicks ∧ !s.fon DEV_EDDY.BUSY then
    .next ((s.fset DEV_EDDY.CHKFAIL 0 1).weirCond 16 19 true)
  else .next s

/-- DIE_OVER_TEMPERATURE (R394): a port slice above 140 °C in 8 consecutive results. -/
def execDieOverTemperature (p : Port) (s : State) : Out :=
  if 8 ≤ (s.adc p).hot then
    .next ((s.onAdc p fun h => { h with overTemp := true }).weirCond 16 8 true)
  else .next s

/-- REFERENCE_DIVERGENCE (R242, R243): once armed, the bandgaps have differed by more than 0.25 %
for 1 µs; `dev` is the difference in 0.01 %. -/
def execReferenceDivergence (dev : Byte) (s : State) : Out :=
  if s.fon DEV_REFST.REFOK then
    let s := ((s.fset DEV_REFST.DIV 0 1).fset DEV_REFST.DIVSTK 0 1).fset DEV_REFST.DEVMAX 0
      (max (s.fget DEV_REFST.DEVMAX) dev.toNat)
    .next (s.weirCond 16 0 true)
  else .next s

/-- VDRV_UNDERVOLTAGE (R394): VDRV has been below 10.0 V for 250 cyc. -/
def execVdrvUndervoltage (s : State) : Out :=
  .next ((s.unitSource 7).onIdx 16 7 fun h => { h with cond := true })

end Sys2Proof.Machine
end

