-- ==== Sys2Proof/Machine/Runtime.lean ====
section
/-!
DEFINITION. Engines as the unit holds them, mailboxes and locks (chapter 13): pushes, pops,
acknowledgements, ages, taking and releasing a lock, what an engine reset does, and a unit reset.
-/
namespace Sys2Proof.Machine

/-! ## Mailbox ends: k is Ek's end of its port mailbox, 16 + k EH's end, 32 + k the urgent host
mailbox of port k and 64 + k its front end, 48 the host mailbox at EH and 49 its front end, 80 + s and
84 + s the ends X and Y of shared mailbox s -/

/-- The other end of a mailbox (R379). -/
def mbxPeer (id : Nat) : Nat :=
  if id < 16 then id + 16
  else if id < 32 then id - 16
  else if id < 48 then id + 32
  else if id = 48 then 49
  else if id = 49 then 48
  else if id < 80 then id - 32
  else if id < 84 then id + 4
  else id - 4

/-- The lock of a shared end: 16 + 2s for X, 17 + 2s for Y. -/
def mbxLock (id : Nat) : Nat := if id < 84 then 16 + 2 * (id - 80) else 17 + 2 * (id - 84)

namespace State

/-- A mailbox end. -/
def mbxEnd (s : State) (id : Nat) : MbxEnd := s.mbx.get {} id

/-- A mailbox end changed. -/
def onMbx (s : State) (id : Nat) (g : MbxEnd → MbxEnd) : State :=
  { s with mbx := s.mbx.put {} id (g (s.mbxEnd id)) }

/-- The owner of a lock, 0 free. -/
def lockOwner (s : State) (l : Nat) : Nat := s.locks.get 0 l

/-- The owner of a lock made `n`. -/
def setLock (s : State) (l n : Nat) : State := { s with locks := s.locks.put 0 l n }

/-- An MBX_EV bit set. -/
def mbxEv (s : State) (id b : Nat) : State := s.onMbx id fun m => { m with ev := setBit m.ev b true }

/-- LEN of a message's first word (R380). -/
def mbxLen (w : Nat) : Nat := if 1 ≤ w % 16 ∧ w % 16 ≤ 8 then w % 16 else 1

/-- The engine of a mailbox end: k for Ek, 16 for EH, none for the front end and a free shared end. -/
def mbxEngine (s : State) (id : Nat) : Option Nat :=
  if id < 16 then some id
  else if id < 32 then some 16
  else if id < 48 then some (id - 32)
  else if id = 48 then some 16
  else if id < 80 then none
  else match s.lockOwner (mbxLock id) with
    | 0 => none
    | n => some (n - 1)

/-- An engine that stands stopped in Low Water runs the next tick (R34, R384). -/
def wake (s : State) (e : Nat) : State := s.onEngine e fun g => { g with latched := g.latched || s.lowWater }

/-- A store to byte 7 of MBX_TX pushes the staged word (R380, R381). -/
def mbxPush (s : State) (id : Nat) : State :=
  let m := s.mbxEnd id
  let peer := mbxPeer id
  let first := decide (m.txLeft = 0)
  if 8 ≤ (s.mbxEnd peer).rx.length ∨ (first ∧ 8 ≤ m.unack.length) then
    let s := s.mbxEv id 2
    match s.mbxEngine id with
    | some e => s.when (decide (e < 16)) fun s => s.cntEvent 0x64 (some e)
    | none => s
  else
    let left := (if first then mbxLen m.staged else m.txLeft) - 1
    let done := decide (left = 0)
    let s := s.onMbx peer fun q => { q with rx := q.rx ++ [⟨m.staged, first, done⟩] }
    if done then
      let seq := (m.txSeq + 1) % 256
      let s := (s.onMbx id fun m => { m with txLeft := 0, txSeq := seq, unack := m.unack ++ [(seq, 0)] }).mbxEv
        peer 0
      match s.mbxEngine peer with
      | some e => s.wake e
      | none => s
    else s.onMbx id fun m => { m with txLeft := left }

/-- A load of byte 7 of MBX_RX pops the head word (R380, R381). -/
def mbxPop (s : State) (id : Nat) : State :=
  match (s.mbxEnd id).rx with
  | [] => s.mbxEv id 3
  | w :: rest => s.onMbx id fun m =>
    let first := if w.first then w.bits else m.rxFirst
    { m with rx := rest, rxFirst := first, popped := if w.last then m.popped ++ [first] else m.popped }

/-- The sender of an acknowledged message learns of it. -/
def mbxAckTo (s : State) (id code : Nat) : State :=
  s.onMbx id fun m =>
    match m.unack with
    | (seq, _) :: rest => { m with unack := rest, ackin := m.ackin ++ [(seq, code)] }
    | [] => m

/-- A store to MBX_ACK acknowledges the oldest popped message (R382). -/
def mbxAck (s : State) (id code : Nat) : State :=
  if (s.mbxEnd id).popped = [] then s.mbxEv id 4
  else (s.onMbx id fun m => { m with popped := m.popped.drop 1 }).mbxAckTo (mbxPeer id) code

/-- A read of byte 0 of MBX_ACKIN removes the oldest acknowledgement; what all four bytes return. -/
def mbxAckIn (s : State) (id : Nat) : State :=
  s.onMbx id fun m =>
    match m.ackin with
    | (seq, code) :: rest => { m with ackin := rest, ackRead := 65536 + seq * 256 + code }
    | [] => { m with ackRead := 0 }

/-- The age of an end: edges since its oldest unacknowledged message was completed. -/
def mbxAge (m : MbxEnd) : Nat :=
  match m.unack with
  | (_, n) :: _ => n
  | [] => 0

/-- MBX_EV with its ACKIN level. -/
def mbxEvWord (m : MbxEnd) : Nat := setBit m.ev 1 (decide (m.ackin ≠ []))

/-- MBX_ST. -/
def mbxSt (s : State) (id : Nat) : Nat :=
  let m := s.mbxEnd id
  let start := match m.rx with
    | w :: _ => w.first
    | [] => false
  m.rx.length + 16 * b2n start + 32 * b2n (decide (m.popped ≠ [])) +
    256 * (8 - (s.mbxEnd (mbxPeer id)).rx.length) + 65536 * m.unack.length + 2 ^ 24 * m.txSeq

/-- The ages of every end advanced at an edge (R387); a stall is over when one age is 64 or less. -/
def mbxAges (s : State) : State :=
  let s := { s with mbx := s.mbx.map fun (e : Nat × MbxEnd) =>
    (e.1, { e.2 with unack := e.2.unack.map fun (u : Nat × Nat) => (u.1, min 0xFFFF (u.2 + 1)) }) }
  s.forEach (List.range 16 ++ [80, 81, 82, 83]) fun id s =>
    s.when ((s.mbxEnd id).stalled &&
      decide (mbxAge (s.mbxEnd id) ≤ 64 ∨ mbxAge (s.mbxEnd (mbxPeer id)) ≤ 64)) fun s =>
      s.onMbx id fun m => { m with stalled := false }

/-- The weir source "mailbox stall" of an engine. -/
def stallSource (s : State) (id : Nat) : State :=
  match s.mbxEngine id with
  | some 16 => s.unitSource 37
  | some e => s.portSource e 20
  | none => s

/-! ## Locks (R389, R390) -/

/-- A load of byte 0 of lock `l` by requester `e + 1`: what it reads, and the lock taken if free. -/
def lockTake (s : State) (e l : Nat) : Nat × State :=
  match s.lockOwner l with
  | 0 => (0, s.setLock l (e + 1))
  | n => (if n = e + 1 then 0 else n, s)

/-- A store to byte 0 of lock `l` by requester `e + 1`. -/
def lockRelease (s : State) (e l b : Nat) : State :=
  if s.lockOwner l = e + 1 ∧ b = 0 then s.setLock l 0
  else if l < 16 then { s with lockEv := s.lockEv.put 0 e (setBit (s.lockEv.get 0 e) l true) }
  else s

/-! ## Engine reset (R335, R369, R385, R390) -/

/-- One message acknowledged with code 0xFF to its sender, and so on for `n`. -/
def mbxFail (s : State) (id : Nat) : Nat → State
  | 0 => s
  | n + 1 => mbxFail (s.mbxAckTo id 0xFF) id n

/-- An end of an engine that is reset: its queue empties, and all its peer awaits is acknowledged. -/
def mbxReset (s : State) (id : Nat) : State :=
  let n := (s.mbxEnd (mbxPeer id)).unack.length
  ((s.onMbx id fun m => { m with rx := [], rxFirst := 0, popped := [] }).mbxFail (mbxPeer id) n).mbxEv
    (mbxPeer id) 6

/-- The registers of engine `e` reset and the engine held; its bank in use stays (R335). -/
def engineReset (s : State) (e : Nat) : State :=
  s.onEngine e fun g => { Engine.init e with act := g.act }

/-- A rill engine reset by its watchdog: registers, mailboxes, shared ends and locks. Its message that
EH has queued completes as lost. -/
def rillReset (s : State) (e : Nat) : State :=
  let s := (((s.engineReset e).dropUrgent e 0x60).mbxReset e).mbxReset (32 + e)
  let s := (s.onMbx e fun m => { m with unack := [], txLeft := 0, ackin := [] }).onMbx (mbxPeer e) fun m =>
    { m with rx := [] }
  let s := s.forEach [80, 81, 82, 83, 84, 85, 86, 87] fun id s =>
    s.when (decide (s.lockOwner (mbxLock id) = e + 1)) fun s => s.mbxReset id
  s.forEach (List.range 24) fun l s => s.when (decide (s.lockOwner l = e + 1)) fun s => s.setLock l 0

/-- Interrupt sources pending for engine `e` (R337, IPEND). -/
def ipend (s : State) (e : Nat) : Nat :=
  let own := fun id => (s.mbxEngine id == some e) &&
    (let m := s.mbxEnd id; decide (mbxEvWord m &&& (m.ie ||| 0x20) ≠ 0))
  let mbx := b2n (((List.range 88).filter fun id => decide (id < 49 ∨ 80 ≤ id)).any own)
  if e = 16 then
    let power := (List.range 4).any fun q => decide (s.rget QD_JEV.reg q ≠ 0)
    4 * b2n power + 8 * mbx + 16 * b2n (decide (s.rget PAIR_EV.reg ≠ 0)) +
      32 * b2n (decide ((s.mbxEnd 48).rx ≠ []))
  else
    let att := decide (s.rget PRT_ATTEV.reg e ≠ 0)
    let pd := decide (s.rget PRT_PDEV.reg e ≠ 0) || decide (s.rget PRT_SWEV.reg e ≠ 0) ||
      decide (s.rget PRT_MODEEV.reg e ≠ 0)
    let power := decide (s.rget PRT_PWREV.reg e ≠ 0) || decide (s.rget PRT_CMPEV.reg e ≠ 0) ||
      decide (s.rget QD_JEV.reg (e / 4) ≠ 0)
    b2n att + 2 * b2n pd + 4 * b2n power + 8 * mbx

/-! ## Operations cut off by a reset (R431, R491) -/

/-- The words of a region in a table, as 64 bytes. -/
def regionBytes (t : Tab Nat) (r : Nat) : List Byte :=
  (List.range 8).flatMap fun w => toBytes 8 (t.get 0 (8 * r + w))

/-- The CRC-32 of a region's 64 bytes matches its integrity word (R422). -/
def regionOk (r : Nat) (b : List Byte) : Bool :=
  Crypto.crc32 (slice b (if r = 1 then 8 else 0) (if r = 1 then 52 else 60)) == ofBytes (b.drop 60)

/-- The OTP operation in progress is cut off: every fuse it pulses is left at 1, at 0 or marginal. -/
def otpCut (s : State) : State :=
  match s.otp.op with
  | none => s
  | some o =>
    let locks := (o.data % 2) * 2 ^ o.region + bits o.data 1 1 * 2 ^ (16 + o.region)
    let whole := regionOk o.region (regionBytes s.otp.strict o.region)
    let cert := bit (s.otp.used.get 0 24) 2
    let (i, d, c) := match o.op with
      | 2 => if o.raw then (0, 0, locks) else (8 * o.region + o.word, o.data, 0)
      | 3 => (0, 0, if whole then locks else 0)
      | 4 => (8, 0xFF * 2 ^ (8 * (o.region - 1)), if o.region = 2 then 2 ^ 33 + b2n cert * 2 ^ 32 else 0)
      | _ => (0, 0, 0)
    let a := s.draw 64
    let b := a.2.draw 64
    let up := a.1
    let full := a.1 &&& b.1
    let h := s.otp
    { b.2 with otp := { h with
        normal := h.normal.put 0 i (h.normal.get 0 i ||| (d &&& up))
        strict := h.strict.put 0 i (h.strict.get 0 i ||| (d &&& full))
        ctlNormal := h.ctlNormal ||| (c &&& up), ctlStrict := h.ctlStrict ||| (c &&& full) } }

/-- The flash operation in progress is cut off: an erase has raised a free part of the bits, a program
has reached a free number of its bytes (R445, R484; log entry 5). -/
def flashCut (s : State) : State :=
  match s.jobs with
  | [] => s
  | j :: _ =>
    let front := fun (s : State) (a : Nat) (b : List Byte) =>
      let n := s.draw 32
      n.2.flashProgram a (b.take (n.1 % b.length))
    match j.op with
    | .erase a n => s.flash.foldl (fun (s : State) (e : Host.Cell) =>
        if a ≤ e.1 ∧ e.1 < a + n then
          let d := s.draw 8
          d.2.flashPut e.1 (e.2 ||| byte d.1)
        else s) s
    | .program a b => front s a b
    | .replace a b => front (s.flashErase a b.length) a b

/-! ## Unit reset (R17, R23, R369, R420) -/

/-- The key of a field of the retained store (bank 0xF8). -/
def retainedKey (k : Nat) : Bool := decide (0xF80000 * 64 ≤ k) && decide (k < 0xF90000 * 64)

/-- What the straps last latched gave stays through a reset that samples none: DEV_STRAP, the position, and
what the profile strap sets (R84, R85). -/
def keepStraps (s n : State) : State :=
  let n := (n.rput DEV_STRAP.reg 0 (s.rget DEV_STRAP.reg)).fset PAIR_ST.POS 0 (s.fget PAIR_ST.POS)
  (n.fset WEIR_CFG.FMODE 0 (bits (s.fget DEV_STRAP.STRAP) 5 5)).fset WEIR_ST.COMPAT 0 (s.fget WEIR_ST.COMPAT)

/-- A unit reset with its cause (WDG_CAUSE): everything returns to its reset value but the retained
store, WEIR_ST.URCNT, the fuses, the flash, the position last latched (R73), the supplies, and the quads'
junctions, whose controllers run on (R76); boot starts. Only the end of power-on reset and a rise of RESET_N
(cause 1) have the straps sampled again (R84). -/
def unitReset (s : State) (cause : Nat) : State :=
  let s := s.otpCut.flashCut
  let ur := s.fget WEIR_ST.URCNT
  let keep := decide (2 ≤ cause) && s.boot.strapped
  let n : State := {
    pending := s.pending
    regs := s.regs.filter fun e => retainedKey e.1
    mem := s.mem.filter fun e => e.1 / 2 ^ 24 == 0x42
    flash := s.flash
    fw := { bad := s.fw.bad }
    quads := s.quads
    otp := { s.otp with op := none, used := [] }
    boot := { lastPos := if s.boot.strapped then some (s.fget PAIR_ST.POS) else s.boot.lastPos
              strapped := keep, ehLast := s.boot.ehLast }
    pins := { s.pins with muxOn := false, attempts := 0 }
    free := s.free }
  let n := n.when keep fun n => s.keepStraps n
  (n.fset WDG_CAUSE.CAUSE 0 cause).fset WEIR_ST.URCNT 0 ur

/-- The unit is held in reset, FAULT_N asserted (R403, R447). -/
def holdReset (s : State) : State :=
  { s.fset WEIR_ST.FLT 0 1 with boot := { s.boot with hold := true } }

end State

/-! ## Meanings -/

open State

/-- MAILBOX_STALL (R387): both ends of a port mailbox (0 to 15) or shared mailbox (16 to 19) have ages
above 64. -/
def execMailboxStall (m : Fin 20) (s : State) : Out :=
  let id := if m.val < 16 then m.val else m.val + 64
  if 64 < mbxAge (s.mbxEnd id) ∧ 64 < mbxAge (s.mbxEnd (mbxPeer id)) ∧ !(s.mbxEnd id).stalled then
    .next ((((s.onMbx id fun h => { h with stalled := true }).mbxEv id 5).mbxEv (mbxPeer id) 5).stallSource
      id |>.stallSource (mbxPeer id))
  else .next s

end Sys2Proof.Machine
end

