-- ==== Sys2Proof/Machine/Evidence.lean ====
section
/-!
DEFINITION. How a reaction leaves, the windows of the weir, FAULT_N's pulse, the watchdogs, and the
engine's own event writes (chapter 14).
-/
namespace Sys2Proof.Machine
namespace State

/-! ## Leaving a reaction (R407 to R412) -/

/-- The quiet period of a class in ticks (R408). -/
def quietTicks (s : State) (cls : Nat) : Nat :=
  msTicks (match cls with
    | 1 => s.fget WEIR_CFG.Q1
    | 2 => s.fget WEIR_CFG.Q2
    | _ => s.fget WEIR_CFG.Q3)

/-- ESCW in ticks (R410). -/
def escTicks (s : State) : Nat := s.fget WEIR_CFG.ESCW * 125000

/-- The recovery count of a scope (WEIR_PST.RCNT, WEIR_ST.URCNT). -/
def rcntOf (sc : Nat) : Fld := if sc < 16 then WEIR_PST.RCNT else WEIR_ST.URCNT

/-- The latch bit of a scope. -/
def escOf (sc : Nat) : Fld := if sc < 16 then WEIR_PST.ESC else WEIR_ST.ESC

/-- The record of a reaction left: how is 0 released, 1 latched, 2 cleared by command; of a shadowed port there is none
(R480). -/
def leftRecord (s : State) (sc cls how : Nat) : State :=
  s.when (decide (16 ≤ sc) || s.owns sc) fun s => s.logRec 0x05 (if sc < 16 then sc else 0xFF)
    ([byte cls, byte how] ++ toBytes 2 (s.fget (rcntOf sc) (scIdx sc)))

/-- A port leaves port safe state (R409). -/
def leavePort (s : State) (p : Nat) : State :=
  (((s.setReact p {}).fset WEIR_PST.SAFE p 0).fset WEIR_PST.ESC p 0).finc WEIR_PST.RCNT p

/-- The reaction of scope `sc` leaves (R409); a class 3 reaction leaves by a unit reset. -/
def leaveReaction (s : State) (sc how : Nat) : State :=
  let cls := (s.react sc).cls
  if sc < 16 then ((s.leavePort sc).cntEvent 0x89 (some sc)).leftRecord sc cls how
  else
    let s := (s.finc WEIR_ST.URCNT 0).cntEvent 0x91
    if cls = 3 then s.unitReset 4
    else
      let s := ((s.setReact 16 {}).fset WEIR_ST.C2 0 0).fset WEIR_ST.ESC 0 0
      let s := s.forPorts fun p s =>
        s.when (s.fon WEIR_PST.SAFE p && decide ((s.react p).cls = 0)) fun s => s.leavePort p
      s.leftRecord 16 cls how

/-- The release window of a scope; the unit's is in the retained store (R410). -/
def relWin (s : State) (sc : Nat) : RelWin :=
  if sc < 16 then s.weir.rel.get {} sc
  else ⟨s.fon WEIR_RET.ESCCNT, s.fget WEIR_RET.ESCSTART, s.fget WEIR_RET.ESCCNT⟩

/-- The release window of a scope changed. -/
def setRelWin (s : State) (sc : Nat) (w : RelWin) : State :=
  if sc < 16 then { s with weir := { s.weir with rel := s.weir.rel.put {} sc w } }
  else (s.fset WEIR_RET.ESCSTART 0 w.start).fset WEIR_RET.ESCCNT 0 (min 255 w.cnt)

/-- The quiet period of a scope is over: the reaction is released, or latched where this release would
be the ESCN-th in the window (R410). -/
def quietOver (s : State) (sc : Nat) : State :=
  let w := s.relWin sc
  let live := w.opened && decide (s.tick < w.start + s.escTicks)
  let n := (if live then w.cnt else 0) + 1
  let escn := s.fget WEIR_CFG.ESCN
  if escn ≠ 0 ∧ escn ≤ n then
    let s := s.setReact sc { s.react sc with latched := true }
    ((s.fset (escOf sc) (scIdx sc) 1).leftRecord sc (s.react sc).cls 1).unitSource 49
  else (s.setRelWin sc ⟨true, if live then w.start else s.tick, n⟩).leaveReaction sc 0

/-- The indices that a reaction of scope `sc` watches, as scope and index (R408). -/
def watched (sc : Nat) : List (Nat × Nat) :=
  if sc < 16 then
    (List.range 24).map (fun i => (sc, i)) ++ [20, 24, 28, 32].map fun b => (16, b + sc / 4)
  else
    ((List.range 50).map fun i => (16, i)) ++
      (List.range 16).flatMap fun p => (List.range 24).map fun i => (p, i)

/-- An index of the scope at or above the reaction's class recorded an event in the tick that ends, or
its condition is true (R408). -/
def disturbed (s : State) (sc : Nat) : Bool :=
  let c := (s.react sc).cls
  (watched sc).any fun e =>
    decide (c ≤ s.weirClass e.1 e.2) && ((s.weirIdx e.1 e.2).hit || s.weirTrue e.1 e.2)

/-- The quiet count of a scope at an edge (R408); a port whose engine has not resumed since its hold
expired does not count (R417). -/
def quietEdge (s : State) (sc : Nat) : State :=
  let r := s.react sc
  if r.cls = 0 then s
  else if r.fresh ∨ s.disturbed sc ∨ (sc < 16 ∧ bit s.weir.holdPorts sc) then
    s.setReact sc { r with quiet := 0, fresh := false }
  else s.setReact sc { r with quiet := min (r.quiet + 1) 8200000 }

/-- The weir at an edge: quiet counts, then the marks of the tick that ended are cleared, and FAULT_N's
pulse counts. -/
def weirEdge (s : State) : State :=
  let s := s.forEach (List.range 17) fun sc s => s.quietEdge sc
  { s with weir := { s.weir with
      idx := s.weir.idx.filterMap fun (e : Nat × WeirIdx) =>
        let h := { e.2 with hit := false }
        if h = {} then none else some (e.1, h)
      pulse := s.weir.pulse.map (· - 1) } }

/-! ## FAULT_N (R405, R406) -/

/-- FAULT_N is released where nothing overrides (R406). -/
def faultRelease (s : State) : State := (s.fset WEIR_ST.FLT 0 0).refreshFault

/-- A release written in pulse mode: at once, or when the pulse ends (R406). -/
def faultReleaseWrite (s : State) : State :=
  if s.fget WEIR_CFG.FMODE = 1 then s
  else if s.weir.pulse.isSome then { s with weir := { s.weir with release := true } }
  else s.faultRelease

/-! ## Watchdogs (R414 to R419) -/

/-- Watchdog `k` beyond its registers. -/
def wdg (s : State) (k : Nat) : WdgHw := s.wdgs.get {} k

/-- Watchdog `k` changed. -/
def onWdg (s : State) (k : Nat) (g : WdgHw → WdgHw) : State :=
  { s with wdgs := s.wdgs.put {} k (g (s.wdg k)) }

/-- A window begins in this tick with the settings then held (R414). -/
def wdgWindow (s : State) (k : Nat) (first : Bool) : State :=
  ((s.onWdg k fun w => { w with
      first := first, begun := true, early := false
      openT := s.fget WDG_CFG.OPEN k
      limit := if first then s.fget WDG_CFG.FIRST k else s.fget WDG_CFG.CLOSE k
      mask := s.fget WDG_CFG.MASK k }).fset WDG_ST.T k 0).fset WDG_CHK.CIN k 0

/-- A task's check-in (R415). -/
def wdgCheckIn (s : State) (k b : Nat) : State :=
  let cin := s.fget WDG_CHK.CIN k
  let s := s.when (decide (cin &&& b ≠ 0)) fun s =>
    if k < 16 then s.cntEvent 0x61 (some k) else s.cntEvent 0x69
  s.fset WDG_CHK.CIN k (cin ||| b)

/-- A write to WDG_SVC (R415). -/
def wdgService (s : State) (k b : Nat) : State :=
  let w := s.wdg k
  if b ≠ 0x5A then s.fset WDG_ST.BADKEY k 1
  else if s.fget WDG_ST.T k < w.openT then s.onWdg k fun w => { w with early := true }
  else if s.fget WDG_CHK.CIN k &&& w.mask ≠ w.mask then
    let s := s.fset WDG_ST.REFUSED k 1
    if k < 16 then s.cntEvent 0x62 (some k) else s.cntEvent 0x6A
  else s.wdgWindow k false

/-- The retained count of engine `k` increased, and LAST: 1 early, 2 late (R416). -/
def wdgCount (s : State) (k last : Nat) : State :=
  (s.finc (WDG_RCNT.COUNT k) 0).fset WDG_ST.LAST k last

/-- The watchdog of engine `k` resets it (R416): a rill engine and the hold of its port (R417), or for
EH the unit. Its watchdog is suspended through the tick that begins (R418). -/
def wdgReset (s : State) (k last : Nat) : State :=
  let s := s.wdgCount k last
  if k = 16 then
    let s := s.unitReset 2
    { s with boot := { s.boot with ehLast := last } }
  else
    let cnt := toBytes 2 (s.fget (WDG_RCNT.COUNT k))
    let s := (s.rillReset k).fset WEIR_PST.HOLD k 1
    let s := ((s.onWdg k fun _ => { hold := some 64 }).fset WDG_ST.T k 0).fset WDG_ST.SUSP k 1
    let s := (s.fset WDG_CHK.CIN k 0).unitSource 42
    let s := s.hostEvent 14 ([byte k, 0] ++ cnt ++ [0, 0, 0, 0])
    s.logRec 0x06 0xFF ([byte k, byte last] ++ cnt)

/-- An engine resumes: its first WTICK after release ends the hold of its port (R417). -/
def wdgResume (s : State) (k : Nat) : State :=
  let s := (s.fset WEIR_PST.HOLD k 0).onWdg k fun w => { w with hold := none }
  { s with weir := { s.weir with holdPorts := setBit s.weir.holdPorts k false } }

/-- The watchdog of engine `k` at an edge: an early service resets, and T advances but for a suspended
watchdog, whose services are judged against the frozen T (R414, R415, R418). -/
def wdgEdge (s : State) (k : Nat) (released : Bool) : State :=
  let s := s.onWdg k fun w => { w with hold := w.hold.map (· - 1) }
  let w := s.wdg k
  if w.early then s.wdgReset k 1
  else if s.fon WDG_ST.SUSP k then s
  else if w.begun then s.fset WDG_ST.T k (min 0xFFFF (s.fget WDG_ST.T k + 1))
  else s.when released fun s => s.wdgWindow k true

end State

/-! ## Meanings -/

open State

/-- WEIR_QUIET_ELAPSED (R408 to R410, R412): acts at an edge at which the scope's quiet count has
reached its period. -/
def execWeirQuietElapsed (scope : Fin 17) (s : State) : Out :=
  let r := s.react scope
  if r.cls ≠ 0 ∧ !r.latched ∧ !r.fresh ∧ s.quietTicks r.cls ≤ r.quiet ∧
      !(r.cls == 3 && s.fon WEIR_ST.COMPAT) then .next (s.quietOver scope)
  else .next s

/-- WEIR_RELEASE_WINDOW_CLOSE (R410). -/
def execWeirReleaseWindowClose (scope : Fin 17) (s : State) : Out :=
  let w := s.relWin scope
  if w.opened ∧ w.start + s.escTicks ≤ s.tick then .next (s.setRelWin scope {}) else .next s

/-- WEIR_EVENT_WINDOW_CLOSE (R398). -/
def execWeirEventWindowClose (scope : Fin 17) (i : Fin 64) (s : State) : Out :=
  let h := s.weirIdx scope i
  if h.opened ∧ h.start + s.weirW scope i ≤ s.tick then
    .next (s.onIdx scope i fun h => { h with opened := false, start := 0, cnt := 0 })
  else .next s

/-- FAULT_N_PULSE_END (R406). -/
def execFaultNPulseEnd (s : State) : Out :=
  if s.weir.pulse = some 0 then
    let r := s.weir.release
    let s := { s with weir := { s.weir with pulse := none, release := false } }
    .next (s.when r faultRelease)
  else .next s

/-- FAULT_N_RELEASE (R406). -/
def execFaultNRelease (s : State) : Out := .next s.faultReleaseWrite

/-- WEIR_PREC_WRITE (R395): indices above 23 are ignored. -/
def execWeirPrecWrite (p : Port) (v : BitVec 16) (s : State) : Out :=
  let i := bits v.toNat 4 0
  if i ≤ 23 then .next (s.portSource p i) else .next s

/-- WEIR_UREC_WRITE (R395): the reserved indices record nothing. -/
def execWeirUrecWrite (v : BitVec 16) (s : State) : Out :=
  let i := bits v.toNat 5 0
  if i ≤ 49 then .next (s.unitSource i) else .next s

/-- WDG_CHECK_IN (R415). -/
def execWdgCheckIn (e : Eng) (b : Byte) (s : State) : Out := .next (s.wdgCheckIn e b.toNat)

/-- WDG_SERVICE (R415). -/
def execWdgService (e : Eng) (b : Byte) (s : State) : Out := .next (s.wdgService e b.toNat)

/-- WATCHDOG_EXPIRY (R414, R416): acts where the window has begun, is not suspended and has reached its
expiry edge. -/
def execWatchdogExpiry (e : Eng) (s : State) : Out :=
  let w := s.wdg e
  if w.begun ∧ !s.fon WDG_ST.SUSP e ∧ w.limit ≤ s.fget WDG_ST.T e then .next (s.wdgReset e 2)
  else .next s

/-- RILL_HOLD_EXPIRED (R417): the port of an engine not resumed by edge r + 64 enters port safe state
with class 1 timing. -/
def execRillHoldExpired (p : Port) (s : State) : Out :=
  if (s.wdg p).hold = some 0 then
    let s := s.onWdg p fun w => { w with hold := none }
    let s := { s with weir := { s.weir with holdPorts := setBit s.weir.holdPorts p true } }
    .next (((s.reactPort p).portSafe p).unitSource 43)
  else .next s

end Sys2Proof.Machine
end

