-- ==== Sys2Proof/Machine/RegFile.lean ====
section
/-!
DEFINITION. Register accesses by the access codes of R9 and R10: which register stands at an address,
what a field may hold, and what a read or a write does to the fields it covers. What a write starts
besides is in `Bus`.
-/
namespace Sys2Proof.Machine

/-- What a field may hold beside its width: engine writes outside `range` are clamped, and outside
`within` or in `except` ignored; host writes of such values are refused. -/
inductive Legal
  | range (lo hi : Nat)
  | within (lo hi : Nat)
  | except (l : List Nat)
  deriving DecidableEq, Repr

/-- A value is allowed. -/
def Legal.ok : Legal → Nat → Bool
  | .range lo hi, v => decide (lo ≤ v ∧ v ≤ hi)
  | .within lo hi, v => decide (lo ≤ v ∧ v ≤ hi)
  | .except l, v => !l.contains v

/-- What an engine's write of `new` leaves where the field holds `old`. -/
def Legal.engine : Legal → Nat → Nat → Nat
  | .range lo hi, _, new => max lo (min hi new)
  | .within lo hi, old, new => if lo ≤ new ∧ new ≤ hi then new else old
  | .except l, old, new => if l.contains new then old else new

/-- The place of a field without its index. -/
def Fld.place (f : Fld) : Nat := f.base * 64 + f.lo

/-- Ranges of the timers 0 to 19 of R143, in ticks. -/
def pdTimRange : List (Nat × Nat) :=
  [(113, 137), (3375, 3750), (1878, 1878), (3000, 3750), (3000, 3750), (12500, 25000), (38750, 77500),
   (56250, 68750), (103750, 125000), (562500, 687500)] ++
  [(500, 625), (5000, 6250), (3000, 3750), (5000, 6250), (3750, 7500), (56250, 68750), (31250, 62500),
   (93750, 125000), (125000, 1250000), (1500000, 1875000)]

/-- Field rules of chapters 3 to 6. -/
def legalLink : List (Fld × Legal) :=
  [(PRT_CCCFG.RPLVL, .except [3]), (PRT_CCCFG.TRY, .except [3]), (PRT_CCCFG.ROLE, .except [3]),
   (PRT_CCCTL.RPSET, .except [3]), (PRT_VCONN.TFLT, .range 1 15), (PRT_VCONN.ILIM, .range 20 120),
   (PRT_CCTIM0.TPDDB, .range 10 20), (PRT_CCTIM0.TCCDB, .range 100 200),
   (PRT_CCTIM0.DCSRC, .range 30 70), (PRT_CCTIM0.TDRP, .range 50 100)] ++
  [(PRT_CCTIM1.TERREC, .range 25 255), (PRT_CCTIM1.TTRYTO, .range 55 110),
   (PRT_CCTIM1.TDRPTRY, .range 75 150), (PRT_CCTIM1.TTRYCCDB, .range 10 20),
   (PRT_CCTIM2.TSINKTX, .range 16 20), (PRT_CCTIM2.TSRCDIS, .range 0 20),
   (PRT_PDCFG.LATE, .except [3]), (PRT_PDCFG.REV, .except [0, 3]), (PRT_SWCFG.COLL, .except [2, 3])] ++
  [(PRT_SWTIM0.TSRCRDY, .range 200 285), (PRT_SWTIM0.TSRCTR, .range 25 35),
   (PRT_SWTIM1.TSRCREC, .range 660 1000), (PRT_SWTIM1.TPSHR, .range 25 35),
   (PRT_SWTIM2.PSON, .range 390 480), (PRT_SWTIM2.PSOFF, .range 750 920),
   (PRT_SWTIM3.TVCONNON, .range 2 50), (PRT_SWTIM3.VCONNTO, .range 100 200)] ++
  pdTimRange.zipIdx.map fun r => (PRT_PDTIM.LOAD r.2, Legal.range r.1.1 r.1.2)

/-- Field rules of chapters 7 to 9. -/
def legalPower : List (Fld × Legal) :=
  [(PRT_PWRCFG.HTRATIO, .range 9 32), (PRT_PWRCFG.FWD, .range 1 15), (PRT_PWRCFG.SHUNT, .range 100 4095),
   (PRT_PWRCTL.REQ, .except [3]), (PRT_GATE.TRISE, .range 1 20), (PRT_GATE.IRAMP, .range 1 100),
   (PRT_BRKTIM.LIMCAP, .range 1 65535), (PRT_BRKTIM.TFIX, .range 1 10000),
   (PRT_PWRTIM.TOFFMIN, .range 1 255), (PRT_PWRTIM.TDIS, .range 100 1000)] ++
  [(PRT_PWRTIM.TQUIET, .range 10 4000), (PRT_FRS.VPRE, .range 400 500), (QD_JCFG.PREF, .except [3]),
   (PRT_NTC.TFAIL, .range 25 200), (PRT_NTC.IBIAS, .except [7]), (PRT_CHKREF.TOL, .range 1 15),
   (DEV_CALLIM.GAINLIM, .range 1 255), (DEV_CALLIM.OFFLIM, .range 1 255),
   (PRT_MUXCFG.TSETTLE, .range 1 255), (PRT_MUXCFG.ACCCFG, .except [1, 2, 7])] ++
  [(PRT_MUX.STATE, .except [14, 15]), (PRT_MUXCFG.MAP4, .except [1, 2, 7]),
   (PRT_MUXCFG.MAP3, .except [1, 2, 7]), (PRT_MUXCFG.MAP2, .except [1, 2, 7]),
   (PRT_MUXCFG.MAP1, .except [1, 2, 7])]

/-- Class 1 may be set on port indices and on the quad sources, unit indices 20 to 35 (R399). -/
def legalClass (i : Nat) : Legal := if 20 ≤ i ∧ i < 36 then .within 0 3 else .except [1]

/-- The event codes of R476: true for a port code, none where reserved. -/
def eventScope (c : Nat) : Option Bool :=
  if c ≤ 0x04 ∨ (0x10 ≤ c ∧ c ≤ 0x2B) ∨ (0x30 ≤ c ∧ c ≤ 0x3A) ∨ (0x60 ≤ c ∧ c ≤ 0x64) ∨
      (0x70 ≤ c ∧ c ≤ 0x89) then some true
  else if (0x40 ≤ c ∧ c ≤ 0x45) ∨ (0x50 ≤ c ∧ c ≤ 0x54) ∨ (0x68 ≤ c ∧ c ≤ 0x6A) ∨
      (0x90 ≤ c ∧ c ≤ 0x92) ∨ (0xA0 ≤ c ∧ c ≤ 0xA4) then some false
  else none

/-- Field rules of chapters 13, 14 and 17. -/
def legalUnit : List (Fld × Legal) :=
  [(WEIR_CFG.Q3, .within 1 65535), (WEIR_CFG.Q2, .within 1 65535), (WEIR_CFG.Q1, .within 1 65535),
   (WEIR_CFG.ESCW, .within 1 255), (DEV_IBSEL.ENG, .within 0 16), (OTP_CTL.OP, .within 0 4), (WDG_CFG.FIRST, .within 2 65535),
   (WDG_CFG.CLOSE, .within 2 65535), (WDG_CFG.OPEN, .within 1 65534)] ++
  (List.range 64).flatMap (fun i => [(WEIR_UCFG.CLASS i, legalClass i), (WEIR_UCFG.N i, .within 1 255),
    (WEIR_UCFG.W i, .within 1 65535)]) ++
  (List.range 24).flatMap (fun i => [(WEIR_PCFG.N i, .within 1 255), (WEIR_PCFG.W i, .within 1 65535)]) ++
  (List.range 32).map fun k => (CNT_CFG.EVENT k, .except ((List.range 256).filter fun c => (eventScope c).isNone))

/-- What field `f` may hold; a field without a rule holds what its width allows. -/
def legalOf (f : Fld) : Option Legal :=
  let look := fun (l : List (Fld × Legal)) => (l.find? fun e => e.1.place == f.place).map (·.2)
  if 0xFD0000 ≤ f.base ∨ f.base < 0xF20000 then look legalPower <|> look legalLink <|> look legalUnit
  else if f.base < 0xFC0000 then look legalUnit
  else look legalLink <|> look legalPower

/-- The register, index and byte that stand at an address of EH's space. -/
def regAt (a : Nat) : Option (Reg × Nat × Nat) :=
  (regTable.find? fun r =>
    decide (r.base ≤ a) &&
      (if r.stride = 0 then decide (a < r.base + r.bytes)
       else decide ((a - r.base) / r.stride < r.count) && decide ((a - r.base) % r.stride < r.bytes))).map
    fun r => if r.stride = 0 then (r, 0, a - r.base)
      else (r, (a - r.base) / r.stride, (a - r.base) % r.stride)

namespace State

/-- The bits of a register that a read returns: WO fields read 0 (R9). -/
def regRead (s : State) (r : Reg) (i : Nat) : Nat :=
  r.flds.foldl (fun a f => if f.1 = .wo then a else a + s.fget f.2 i * 2 ^ f.2.lo) 0

/-- The part of a register mask that falls in field `f`. -/
def fldMask (f : Fld) (mask : Nat) : Nat := mask / 2 ^ f.lo % 2 ^ f.w

/-- RC fields cleared where a read covered them (R9); a read of some of a field's bytes clears those bits only
(DESIGN CHOICE, log entry 111). -/
def regCleared (s : State) (r : Reg) (i mask : Nat) : State :=
  r.flds.foldl (fun s f =>
    if f.1 = .rc then
      let old := s.fget f.2 i
      s.fset f.2 i (old - (old &&& fldMask f.2 mask))
    else s) s

/-- What a write by an engine of `v` under `mask` leaves in a field with access `a` (R9, R10); `eh` is
true for EH and for the host. -/
def fieldWrite (s : State) (a : Acc) (f : Fld) (i v mask : Nat) (eh : Bool) : State :=
  let m := fldMask f mask
  if m = 0 then s
  else
    let old := s.fget f i
    let x := fldMask f v &&& m
    let kept := old - (old &&& m)
    let set := fun (s : State) =>
      let new := kept + x
      s.fset f i (match legalOf f with
        | some l => l.engine old new
        | none => new)
    match a with
    | .rw => set s
    | .rwEh => if eh then set s else s
    | .w1c => s.fset f i (old - (old &&& x))
    | .w1cEh => if eh then s.fset f i (old - (old &&& x)) else s
    | .w1s => s.fset f i (old ||| x)
    | .ro | .rc | .wo => s

/-- How a field may be accessed now: PRT_MUX.STATE is read-only on a shadowed port (R249). -/
def access (s : State) (f : Acc × Fld) (i : Nat) : Acc :=
  if f.2.place == PRT_MUX.STATE.place && !s.owns i then .ro else f.1

/-- Every field of a register written. -/
def regStore (s : State) (r : Reg) (i v mask : Nat) (eh : Bool) : State :=
  r.flds.foldl (fun s f => s.fieldWrite (s.access f i) f.2 i v mask eh) s

/-- A host write of `v` breaks no rule of the register's fields (R319): the fields it sets hold values
they may hold. -/
def regLegal (r : Reg) (v : Nat) : Bool :=
  r.flds.all fun f => match f.1, legalOf f.2 with
    | .rw, some l | .rwEh, some l => l.ok (fldMask f.2 v)
    | _, _ => true

end State

/-! ## The registers of a port that PORT_SET and a configuration version write (R319, R458) -/

/-- The event registers of R319, cleared by writing 1, and PRT_CALST. -/
def portEventRegs : List Reg :=
  [PRT_ATTEV.reg, PRT_PDEV.reg, PRT_SWEV.reg, PRT_PWREV.reg, PRT_CMPEV.reg, PRT_CALST.reg, PRT_MODEEV.reg]

/-- The setting registers of R319. -/
def portCfgRegs : List Reg :=
  [PRT_CCCFG.reg, PRT_CCHYS.reg, PRT_VCONN.reg, PRT_CCTIM0.reg, PRT_CCTIM1.reg, PRT_CCTIM2.reg,
   PRT_PDCFG.reg] ++ (List.range 20).map PRT_PDTIM.reg ++
  [PRT_SWCFG.reg, PRT_SWTIM0.reg, PRT_SWTIM1.reg, PRT_SWTIM2.reg, PRT_SWTIM3.reg] ++
  [PRT_PWRCFG.reg, PRT_GATE.reg, PRT_BRKTIM.reg, PRT_ESTALE.reg, PRT_VMARG.reg, PRT_PWRTIM.reg,
   PRT_REG.reg, PRT_FRS.reg] ++
  [PRT_NTC.reg, PRT_CMPMODE.reg] ++ (List.range 9).map PRT_CMP.reg ++ [PRT_AUXSEL.reg, PRT_MUXCFG.reg]

/-- The fields of a register that R319 lets PORT_SET write: MAP1 to MAP4 stay with MODE_MAP_SET. -/
def portSetField (f : Fld) : Bool :=
  f.base != PRT_MUXCFG.MAP1.base || decide (12 ≤ f.lo)

/-- The safety-class registers of a port (R311). -/
def portSafetyRegs : List Reg :=
  [PRT_PWRCFG.reg, PRT_GATE.reg, PRT_BRKTIM.reg, PRT_ESTALE.reg, PRT_PWRTIM.reg, PRT_VMARG.reg,
   PRT_REG.reg, PRT_NTC.reg, PRT_VCONN.reg, PRT_CMPMODE.reg] ++ (List.range 9).map PRT_CMP.reg

/-- A field whose value a configuration version carries: it can be set. -/
def cfgField (f : Acc × Fld) : Bool :=
  decide (f.1 = .rw ∨ f.1 = .rwEh)

namespace State

/-- The configured value of a field (R459). -/
def cfgGet (s : State) (f : Fld) (i : Nat) : Nat := s.cfgVals.get (f.rst i) (f.key i)

/-- The fields of port `p` as the configuration version in force has them (R319, R459). -/
def cfgPort (s : State) (p : Nat) : State :=
  (portCfgRegs ++ (List.range 24).map WEIR_PCFG.reg).foldl (fun s r =>
    r.flds.foldl (fun s f => if cfgField f && portSetField f.2 then s.fset f.2 p (s.cfgGet f.2 p)
      else s) s) s

/-! ## Fields that take effect at the next edge -/

/-- Port register offsets whose written value comes into force at the next edge, with the low bits of
the fields meant; none for every field. -/
def edgePort (o lo : Nat) : Bool :=
  if o = 0x100 ∨ o = 0x104 then decide (lo = 4)
  else if o = 0x110 ∨ o = 0x410 then decide (lo = 0)
  else if o = 0x200 then decide (lo = 14 ∨ lo = 13 ∨ lo = 10)
  else decide (o = 0x30 ∨ o = 0x384 ∨ o = 0x414 ∨ o = 0x538) || decide (0x300 ≤ o ∧ o < 0x380) ||
    decide (0x520 ≤ o ∧ o < 0x530) || decide (0x544 ≤ o ∧ o < 0x568)

/-- A weir class, N or W (R399). -/
def weirCfgKey (k : Nat) : Bool :=
  let a := k / 64
  decide (0xF30100 ≤ a ∧ a < 0xF30200) ||
    decide (0xF30200 ≤ a ∧ a < 0xF31200 ∧ 0x40 ≤ (a - 0xF30200) % 0x100)

/-- The field with key `k` takes effect at the next edge. -/
def edgeKey (k : Nat) : Bool :=
  let a := k / 64
  if 0xFD0000 ≤ a then decide ((a - 0xFD0000) % 0x1000 = 0)
  else if 0xFC0000 ≤ a then edgePort ((a - 0xFC0000) % 0x1000) (k % 64)
  else weirCfgKey k || decide (0xF40000 ≤ a ∧ a < 0xF40080) ||
    decide (a = 0xF40308 ∨ a = 0xF50000 ∨ a = 0xF10004)

/-- Two tables with rising keys and none in common, as one. -/
def mergeTabs : Nat → Tab Nat → Tab Nat → Tab Nat
  | 0, a, b => a ++ b
  | _, [], b => b
  | _, a, [] => a
  | n + 1, (i, x) :: a, (j, y) :: b =>
    if i < j then (i, x) :: mergeTabs n a ((j, y) :: b) else (j, y) :: mergeTabs n ((i, x) :: a) b

/-- The counting window of the index whose setting has this key closes (R399). -/
def closeWindow (s : State) (k : Nat) : State :=
  let a := k / 64
  let close := fun (h : WeirIdx) => { h with opened := false, start := 0, cnt := 0 }
  if a < 0xF30200 then s.onIdx 16 ((a - 0xF30100) / 4) close
  else s.onIdx ((a - 0xF30200) / 0x100) (((a - 0xF30200) % 0x100 - 0x40) / 4) close

/-- The written values of every field that waits for an edge come into force. -/
def latchEdge (s : State) : State :=
  let new := s.regs.filter fun (e : Nat × Nat) => edgeKey e.1
  let old := s.eff.filter fun (e : Nat × Nat) => edgeKey e.1
  let changed := ((new ++ old).filter fun (e : Nat × Nat) => weirCfgKey e.1 &&
    !(new.contains e && old.contains e)).map (·.1)
  let rest := s.eff.filter fun (e : Nat × Nat) => !edgeKey e.1
  changed.foldl closeWindow { s with eff := mergeTabs (rest.length + new.length) rest new }

end State

end Sys2Proof.Machine
end

