-- ==== Sys2Proof/Machine/Mirror.lean ====
section
/-!
DEFINITION. Mirror records (chapter 10): building and committing a port's record, freezing it for the
link, receiving the twin's, and continuing a port from its record when the unit comes to own it.
-/
namespace Sys2Proof.Machine

/-- Fields packed from bit 0 up, each a width and a value. -/
def pack : List (Nat × Nat) → Nat
  | [] => 0
  | (w, v) :: t => v % 2 ^ w + 2 ^ w * pack t

namespace State

/-! ## Where the records stand (chapter 10, mirror buffers; 0x41 holds bank 0x21 from 0x10000) -/

/-- Outbound buffer `b` of port `p`. -/
def outBuf (p b : Nat) : Nat := 0x80 * p + 0x40 * b

/-- The inbound record of port `p`. -/
def inBuf (p : Nat) : Nat := 0x10000 + 0x40 * p

/-- Word `i` of a record. -/
def recWord (s : State) (off i : Nat) : Nat := ofBytes (s.memRead 0x41 (off + 8 * i) 8)

/-- The bytes of memory 0x41 from `src` on copied to `dst`. -/
def mirrorCopy (s : State) (src dst n : Nat) : State :=
  let lo := memKey 0x41 src
  let got := s.mem.filter fun e => decide (lo ≤ e.1) && decide (e.1 < lo + n)
  let d := memKey 0x41 dst
  let s := { s with mem := s.mem.filter fun e => !(decide (d ≤ e.1) && decide (e.1 < d + n)) }
  got.foldl (fun s e => { s with mem := Tab.put 0 (d + (e.1 - lo)) e.2 s.mem }) s

/-! ## Building a record (R266, R267) -/

/-- The running timers of a port in the order of R267: index with the attach timer's number, count. -/
def runningTimers (s : State) (p : Nat) : List (Nat × Nat) :=
  let a := s.att p
  let w := s.sw p
  let att := [a.drp, a.ccDb, a.pdDb, a.tryCcDb, a.drpTry, a.tryTo, a.errRec, a.srcDis]
  let swaps := [w.srcTr, w.srcRdy, w.psHr, w.srcRec, w.psOff, w.psOn, w.vconnTo, w.vconnOn]
  let named := fun (l : List (Option Nat)) (f : Nat → Nat) =>
    l.zipIdx.filterMap fun (e : Option Nat × Nat) => e.1.map fun n => (f e.2, n)
  named att (fun i => 28 + 32 * i) ++ named [a.sinkTx] (fun _ => 29) ++ named swaps (fun i => 20 + i) ++
    named ((List.range 20).map fun k => s.timer p k) (fun i => i)

/-- A timer slot; index 31 is empty. -/
def slot (l : List (Nat × Nat)) (i : Nat) : Nat :=
  match l[i]? with
  | some (n, c) => pack [(8, n), (24, c)]
  | none => 31

/-- W0 as the engine fills it. -/
def record0 (s : State) (p : Nat) : Nat :=
  pack [(4, p), (1, 0), (1, 1), (1, s.fget PRT_ROLE.BASEPWR p), (1, b2n (s.att p).roleSw),
    (8, s.fget PRT_MIRCMT.SEQ p + 1), (16, s.tick), (4, s.attState p), (1, s.fget PRT_ATTST.ORIENT p),
    (3, s.fget PRT_ATTST.KIND p), (3, s.fget PRT_CCSTAT.CC1LVL p), (3, s.fget PRT_CCSTAT.CC2LVL p),
    (2, s.eget PRT_CCCFG.RPLVL p), (2, s.fget PRT_CCCTL.RPSET p), (1, s.fget PRT_CCCTL.VCONNON p),
    (1, s.fget PRT_CCCTL.HOLDATT p), (1, s.fget PRT_ROLE.PWR p), (1, s.fget PRT_ROLE.DATA p),
    (1, s.fget PRT_ROLE.VCSRC p), (3, s.fget PRT_ROLE.SWAP p), (3, s.fget PRT_ROLE.SWSTEP p),
    (3, s.fget PRT_PWRST.PGCNT p)]

/-- W1. -/
def record1 (s : State) (p : Nat) : Nat :=
  pack [(32, s.rget PRT_CONTRACT.reg p), (18, s.rget PRT_PDST.reg p / 2 ^ 14),
    (3, s.fget PRT_PDST.RXVAL p), (2, s.fget PRT_PDST.NEGREV p), (1, s.fget PRT_PDST.EPR p),
    (2, s.fget PRT_PDST.ESCSTEP p), (1, s.fget PRT_PDST.AWAITGC p), (1, s.fget PRT_PDST.AWAITRSP p),
    (1, s.fget PRT_PDST.HELD p), (1, b2n (s.pd p).raise.isSome), (1, s.fget PRT_ROLE.FRSARM p),
    (1, s.fget PRT_PWRCTL.FRSPRE p)]

/-- W6. -/
def record6 (s : State) (p : Nat) : Nat :=
  pack [(10, s.fget PRT_ILIM.LIM p), (10, s.fget (PRT_CMP.THR 3) p), (6, s.fget (PRT_CMP.HYST 3) p),
    (10, s.fget (PRT_CMP.THR 4) p), (6, s.fget (PRT_CMP.HYST 4) p), (16, (s.pwr p).limCnt),
    (2, (s.pd p).qhead), (3, (s.pd p).hostq.length), (1, s.fget WEIR_PST.SAFE p)]

/-- W7. -/
def record7 (s : State) (p : Nat) : Nat :=
  let left := ((s.mux p).hold.map (·.left)).getD 0
  let num := ((s.pd p).raise.map (·.num)).getD 0
  pack [(24, s.fget WEIR_PSTK.STK p), (4, s.fget PRT_MUX.STATE p), (1, s.fget PRT_MODEST.ENTERED p),
    (3, s.fget PRT_MODEST.POS p), (2, s.fget PRT_MODEST.HOLD p), (8, left), (16, num),
    (3, s.pwrState p), (1, s.fget PRT_PWRST.MODE p), (2, s.fget PRT_PWRCTL.REQ p)]

/-- The record the engine builds. -/
def record (s : State) (p : Nat) : List Nat :=
  let t := s.runningTimers p
  let two := fun i => pack [(32, slot t (2 * i)), (32, slot t (2 * i + 1))]
  [s.record0 p, s.record1 p, two 0, two 1, two 2, pack [(32, (s.pwr p).t1), (32, (s.pwr p).t2)], s.record6 p, s.record7 p]

/-- COMMIT written: the buffers are exchanged (R267). -/
def mirrorExchange (s : State) (p : Nat) : State :=
  let s := s.fset PRT_MIRCMT.WBUF p (1 - s.fget PRT_MIRCMT.WBUF p)
  let s := s.fset PRT_MIRCMT.SEQ p (s.fget PRT_MIRCMT.SEQ p + 1)
  { s with pair := { s.pair with committed := setBit s.pair.committed p true } }

/-- The engine builds its record in the buffer named by WBUF and commits it; a running timer beyond the
sixth is left out and records "mirror timer overflow" (R267). -/
def mirrorCommit (s : State) (p : Nat) : State :=
  let off := outBuf p (s.fget PRT_MIRCMT.WBUF p)
  let long := decide (6 < (s.runningTimers p).length)
  let s := (s.memWrite 0x41 off ((s.record p).flatMap (toBytes 8))).mirrorExchange p
  s.when long fun s => s.portSource p 19

/-! ## Freezing (R52, R53) -/

/-- This unit's transmit direction runs on one lane: Ebb, or Degraded. -/
def sendNarrow (s : State) : Bool := s.prof.cur == 2 || s.pair.txLanes == 1

/-- The freeze point of port `p` falls in this tick (R52, R260). -/
def freezesNow (s : State) (p : Nat) : Bool :=
  !s.lowWater && (!s.sendNarrow || s.tick % 2 == p / 8)

/-- The framer's record of port `p`: the buffer last committed with the hardware's fields, or nothing
but zeros for a port the unit does not own (R53, R266, R267). -/
def framed (s : State) (p : Nat) (stale : Bool) : List Nat :=
  if s.owns p then
    let off := outBuf p (1 - s.fget PRT_MIRCMT.WBUF p)
    let w := fun i => s.recWord off i
    let w0 := pack [(4, p), (1, b2n stale), (1, 1), (10, w 0 / 2 ^ 6), (16, s.tick), (32, w 0 / 2 ^ 32)]
    [w0, w 1, w 2, w 3, w 4, w 5, pack [(63, w 6), (1, s.fget WEIR_PST.SAFE p)],
      pack [(24, s.fget WEIR_PSTK.STK p), (40, w 7 / 2 ^ 24)]]
  else List.replicate 8 0

/-- Port `p`'s record frozen for the superframe; it is stale where the engine has not committed since
the previous freeze point. -/
def freeze (s : State) (p : Nat) : State :=
  let stale := !bit s.pair.committed p
  let r := ofBytes ((s.framed p stale).flatMap (toBytes 8))
  ({ s with pair := { s.pair with
      frozen := s.pair.frozen.put 0 p r, committed := setBit s.pair.committed p false } }).fset
    PRT_MIRCMT.STALE p (b2n (s.owns p && stale))

/-! ## Receiving (R240, R263, R268, R269) -/

/-- Thresholds of comparators 0, 1, 3 and 4 from the inbound record (R240). -/
def shadowThresholds (s : State) (p : Nat) : State :=
  let w := s.recWord (inBuf p) 6
  let lim := bits w 9 0
  let s := (s.fset (PRT_CMP.THR 3) p (bits w 19 10)).fset (PRT_CMP.HYST 3) p (bits w 25 20)
  let s := (s.fset (PRT_CMP.THR 4) p (bits w 35 26)).fset (PRT_CMP.HYST 4) p (bits w 41 36)
  (s.fset (PRT_CMP.THR 0) p (min 1023 (lim * s.fget PRT_PWRCFG.HTRATIO p / 8))).fset
    (PRT_CMP.THR 1) p (lim - lim / 16)

/-- FRESH holds after two freeze points whose records were written intact with OWNED at 1 (R268). -/
def freshen (s : State) (p : Nat) (ok : Bool) : State :=
  let was := bit s.pair.recOk p
  ({ s with pair := { s.pair with recOk := setBit s.pair.recOk p ok } }).fbit PAIR_SHOK.FRESH 0 p
    (was && ok)

/-- A record slot of the twin's superframe: an uncorrectable word leaves the inbound record as it was,
a slot with OWNED at 0 writes nothing. -/
def mirrorReceive (s : State) (p : Nat) (w : List Nat) (intact : Bool) : State :=
  let w0 := w.getD 0 0
  let ok := intact && bit w0 5 && decide (w.length = 8)
  let s := s.freshen p ok
  s.when ok fun s =>
    let s := s.memWrite 0x41 (inBuf p) (w.flatMap (toBytes 8))
    let s := ((s.fset PRT_SHADOW.FTICK p (bits w0 31 16)).fset PRT_SHADOW.HEARD p 0).fset PRT_SHADOW.CHG p 0
    s.when (!s.owns p) fun s => ((s.fset PRT_ATTST.MSTATE p (bits w0 35 32)).fset PRT_MUX.STATE p
      (bits (w.getD 7 0) 27 24)).shadowThresholds p

/-! ## Continuing a port from its record (R158, R284) -/

/-- The timers of a record: index, attach timer number, count. -/
def recTimers (s : State) (p : Nat) : List (Nat × Nat × Nat) :=
  ((List.range 6).map fun i => bits (s.recWord (inBuf p) (2 + i / 2)) (31 + 32 * (i % 2)) (32 * (i % 2))).filterMap
    fun v => if v % 32 = 31 then none else some (v % 32, bits v 7 5, v / 256)

/-- The attach timers that the port's state runs, from their full values: those the record carries then replace
them (R127). tDRPTry of Try.SNK that a record with other attach timers lacks has elapsed. -/
def attRestart (s : State) (p : Nat) (l : List (Nat × Nat × Nat)) : State :=
  let st := s.attState p
  let any := l.any fun t => t.1 == 28
  let s := s.attTimers p st
  s.when (decide (st = 0xA) && any) fun s => s.onAtt p fun h => { h with drpTry := none }

/-- One mirrored timer runs on from what is left of it at the first owned edge. -/
def loadTimer (p gone : Nat) (s : State) (t : Nat × Nat × Nat) : State :=
  let v := some (t.2.2 - gone)
  if t.1 < 20 then s.setTimer p t.1 v 1
  else if t.1 < 28 then
    s.onSw p fun h =>
      match t.1 with
      | 20 => { h with srcTr := v }
      | 21 => { h with srcRdy := v }
      | 22 => { h with psHr := v, hrSeq := 1 }
      | 23 => { h with srcRec := v, hrSeq := 3 }
      | 24 => { h with psOff := v }
      | 25 => { h with psOn := v }
      | 26 => { h with vconnTo := v }
      | _ => { h with vconnOn := v }
  else if t.1 = 28 then
    s.onAtt p fun h =>
      match t.2.1 with
      | 0 => { h with drp := v }
      | 1 => { h with ccDb := v }
      | 2 => { h with pdDb := v }
      | 3 => { h with tryCcDb := v }
      | 4 => { h with drpTry := v }
      | 5 => { h with tryTo := v }
      | 6 => { h with errRec := v }
      | _ => { h with srcDis := v }
  else s.onAtt p fun h => { h with sinkTx := v }

/-- PD timers a full record can have left out restart from LOAD (R267), as the record's own bits show
that they run: an awaited response, an open raise, EPR mode and a PPS contract. -/
def lostTimers (s : State) (p : Nat) (l : List (Nat × Nat × Nat)) : State :=
  let miss := fun k => l.all fun t => decide (t.1 ≠ k)
  let pps := decide (s.fget PRT_CONTRACT.TYPE p = 3)
  let want := [(1, s.fon PRT_PDST.AWAITRSP p), (2, (s.pd p).raise.isSome),
    (16, s.fon PRT_PDST.EPR p && !s.isSource p), (17, s.fon PRT_PDST.EPR p && s.isSource p),
    (18, pps && !s.isSource p),
    (19, (pps || decide (s.fget PRT_CONTRACT.TYPE p = 5)) && s.isSource p)]
  s.when (decide (l.length = 6)) fun s =>
    want.foldl (fun s e => s.when (e.2 && miss e.1) fun s => s.timStart p e.1) s

/-- The object lists a contract's window is formed from (R214): block 0 of the extension block as
source, the partner's objects at 0x7C0 as sink. -/
def extLists (s : State) (p : Nat) : State :=
  let src := objects (s.memRead 0x41 (extOff p + 0x7C0) 28)
  s.onPd p fun h => { h with srcCaps := src, keptCaps := src, offered := objects (s.caps p 0) }

/-- The contract a mirrored PRT_CONTRACT stands for: voltages that its 20 mV units cut short are the object's. -/
def contractHeld (s : State) (p : Nat) : Contract :=
  let typ := s.fget PRT_CONTRACT.TYPE p
  let pos := s.fget PRT_CONTRACT.POS p
  let volt := s.fget PRT_CONTRACT.VOLT p
  let cur := s.fget PRT_CONTRACT.CUR p
  let o := (if s.isSource p then (s.pd p).offered else (s.pd p).srcCaps).getD (pos - 1) 0
  let obj := bits o (if typ = 2 then 29 else 19) (if typ = 2 then 20 else 10) * 5
  let v := if typ ≠ 3 ∧ typ ≠ 5 ∧ obj / 2 = volt then obj else 2 * volt
  let c : Contract := { typ := typ, pos := pos, volt := volt, mv10 := v, cur := cur }
  match typ with
  | 0 => {}
  | 2 => { c with lo := bits o 19 10 * 5 * 95 / 100, hi := bits o 29 20 * 5 * 105 / 100 }
  | 3 | 5 => { c with lo := v * 95 / 100 - 10, hi := v * 105 / 100 + 10 }
  | _ => if v = 500 then c else { c with lo := v * 95 / 100, hi := v * 105 / 100 }

/-- W0, W1, W6 and W7 loaded into the port's registers. -/
def loadWords (s : State) (p : Nat) : State :=
  let w0 := s.recWord (inBuf p) 0
  let w1 := s.recWord (inBuf p) 1
  let w6 := s.recWord (inBuf p) 6
  let w7 := s.recWord (inBuf p) 7
  let set := fun (s : State) (e : Fld × Nat) => s.fset e.1 p e.2
  let s := [(PRT_ROLE.BASEPWR, bits w0 6 6), (PRT_ATTST.STATE, bits w0 35 32), (PRT_ATTST.ORIENT, bits w0 36 36),
    (PRT_ATTST.KIND, bits w0 39 37), (PRT_CCSTAT.CC1LVL, bits w0 42 40), (PRT_CCSTAT.CC2LVL, bits w0 45 43),
    (PRT_CCCFG.RPLVL, bits w0 47 46), (PRT_CCCTL.RPSET, bits w0 49 48), (PRT_CCCTL.VCONNON, bits w0 50 50),
    (PRT_CCCTL.HOLDATT, bits w0 51 51), (PRT_ROLE.PWR, bits w0 52 52), (PRT_ROLE.DATA, bits w0 53 53),
    (PRT_ROLE.VCSRC, bits w0 54 54), (PRT_ROLE.SWAP, bits w0 57 55), (PRT_ROLE.SWSTEP, bits w0 60 58),
    (PRT_ATTST.MSTATE, 0), (PRT_ATTEV.STCHG, 1)].foldl set s
  let s := (s.rput PRT_CONTRACT.reg p (bits w1 31 0)).rput PRT_PDST.reg p
    (pack [(2, bits w1 57 56), (2, 0), (1, bits w1 55 55), (1, b2n (decide (bits w1 31 29 ≠ 0))),
      (2, bits w1 54 53), (1, bits w1 59 59), (1, bits w1 58 58), (1, bits w1 60 60), (3, bits w1 52 50),
      (18, bits w1 49 32)])
  let s := [(PRT_ROLE.FRSARM, bits w1 62 62), (PRT_PWRCTL.FRSPRE, bits w1 63 63),
    (PRT_ILIM.LIM, bits w6 9 0), (PRT_MUX.STATE, bits w7 27 24), (PRT_MODEST.ENTERED, bits w7 28 28),
    (PRT_MODEST.POS, bits w7 31 29), (PRT_MODEST.HOLD, bits w7 33 32), (PRT_PWRST.MODE, bits w7 61 61),
    (PRT_PWRCTL.REQ, bits w7 63 62),
    (WEIR_PSTK.STK, s.fget WEIR_PSTK.STK p ||| bits w7 23 0)].foldl set s
  let s := s.latchAll [PRT_CCCFG.RPLVL, PRT_CCCTL.RPSET, PRT_MUX.STATE] p
  let s := (s.shadowThresholds p).setSoppEn p
  let s := (s.onAtt p fun h => { h with
    roleSw := bit w0 7, ref1 := bits w0 42 40, ref2 := bits w0 45 43, moved := true, termChg := true }).onMux p fun _ =>
    { hold := if bits w7 33 32 = 0 then none
        else some { kind := if bits w7 33 32 = 1 then 1 else if bits w7 33 32 = 2 then 3 else 4,
                    left := bits w7 41 34 }
      busy := if bits w7 33 32 = 0 then 0 else if bits w7 33 32 = 1 then 1 else 2, pos := bits w7 31 29 }
  let swap := 1 ≤ bits w0 57 55 ∧ bits w0 57 55 ≤ 4
  let base := if swap then (if bit w0 6 then 7 else 4) else bits w0 35 32
  s.onSw p fun _ => { baseAtt := base, swDone := bit w0 7 || decide (base ≠ bits w0 35 32) }

/-- The power path goes straight to the record's state: from On the gate driver to Enhanced (R284). -/
def loadPower (s : State) (p : Nat) : State :=
  let w0 := s.recWord (inBuf p) 0
  let w6 := s.recWord (inBuf p) 6
  let w7 := s.recWord (inBuf p) 7
  let st := bits w7 60 58
  let s := s.setPwr p (if st = 6 then 0 else st)
  let s := (s.fset PRT_PWRST.PGCNT p (bits w0 63 61)).fset PRT_PWRST.PG p
    (b2n (decide (st = 2 ∧ bits w0 63 61 = 4)))
  s.onPwr p fun h => { h with
    limCnt := bits w6 57 42, limOn := decide (bits w6 57 42 ≠ 0), clean := decide (st = 2) }

/-- The host queue of the port from its extension block: QDEPTH entries from QHEAD (R158, R282). -/
def loadQueue (s : State) (p : Nat) : State :=
  let w6 := s.recWord (inBuf p) 6
  let head := bits w6 59 58
  let items := (List.range (min 4 (bits w6 62 60))).map fun i =>
    s.ringItem p (s.memRead 0x41 (extOff p + 0x380 + 272 * ((head + i) % 4)) 272)
  let opened := items.filterMap fun i => i.cmd.map fun c => (⟨c.1, c.2, p⟩ : OpenCmd)
  ({ s with host := { s.host with opened := s.host.opened ++ opened } }).onPd p fun h =>
    { h with hostq := items, qhead := head }

/-- The pre-authorised reply table and the mode map from the extension block (R273). -/
def loadTable (s : State) (p : Nat) : State :=
  let s := s.forEach (List.range 16) fun e s =>
    s.rput (PRT_PDRT.reg e) p (ofBytes (s.memRead 0x41 (extOff p + 8 * e) 8))
  let map := fun (k : Nat) => (s.memGet 0x41 (extOff p + 0x370 + k)).toNat
  (((s.fset PRT_MUXCFG.MAP1 p (map 0)).fset PRT_MUXCFG.MAP2 p (map 1)).fset PRT_MUXCFG.MAP3 p
    (map 2)).fset PRT_MUXCFG.MAP4 p (map 3)

/-- The retries left to a packet that the taking unit sends again: the most less one, since the record does not
carry how many the old owner used (DESIGN CHOICE, log entry 116). -/
def resendLeft (s : State) (p : Nat) : Nat := if s.rev2 p then 2 else 1

/-- A packet awaits GoodCRC and is sent again with MessageID `id`. -/
def resendPacket (s : State) (p id : Nat) (m : Msg) : State :=
  let a := s.ackOf p m
  s.onPd p fun h => { h with
    cur := some { msg := { m with id := id }, onAck := a }, resend := true, retries := s.resendLeft p }

/-- One packet the monitor kept is reconciled with the record (R158): an own one that was acknowledged is taken as
sent, with what that brings; one that awaits GoodCRC is sent again; one of the partner's that was acknowledged is
taken as received. -/
def reconcile (p : Nat) (s : State) (e : Msg × Bool × Bool) : State :=
  let m := e.1
  let f := txidOf m.sop
  let id := s.fget f p
  if e.2.1 then
    if e.2.2 then
      s.when (decide (id = m.id)) fun s =>
        let s := (s.fset f p (m.id + 1)).fset PRT_PDST.AWAITGC p 0
        let queued := match (s.pd p).hostq with
          | i :: _ => if i.msg.code = m.code ∧ i.msg.data = m.data then some i else none
          | [] => none
        let s := s.when queued.isSome fun s => s.hostPop p
        s.sentWhole p (queued.getD { msg := m, onAck := s.ackOf p m })
    else s.when (s.fon PRT_PDST.AWAITGC p && decide (id = m.id)) fun s => s.resendPacket p m.id m
  else s.when e.2.2 fun s => ((s.fset (rxidOf m.sop) p m.id).fbit PRT_PDST.RXVAL p m.sop true).onPd p fun h =>
      { h with rx := h.rx ++ [m] }

/-- The packets heard that the record does not yet hold: of the partner's, those after the one whose MessageID the
record stores for their SOP type. -/
def unrecorded (s : State) (p : Nat) : List (Msg × Bool × Bool) → List (Msg × Bool × Bool)
  | [] => []
  | e :: t =>
    let mine := fun (x : Msg × Bool × Bool) => !x.2.1 && x.1.sop == e.1.sop &&
      bit (s.fget PRT_PDST.RXVAL p) x.1.sop && decide (s.fget (rxidOf x.1.sop) p = x.1.id)
    if !e.2.1 && (e :: t).any mine then s.unrecorded p t else e :: s.unrecorded p t

/-- A swap's Accept that the port owes: a partner's swap stands at step 1. -/
def acceptOwed (s : State) (p : Nat) : Bool :=
  let k := s.fget PRT_ROLE.SWAP p
  decide (1 ≤ k ∧ k ≤ 4) && decide (s.fget PRT_ROLE.SWSTEP p = 1) && !s.fon PRT_PDST.AWAITRSP p && !(s.sw p).go

/-- The PS_RDY of its step that the port owes (R161, R169, R171, R173, R174). -/
def rdyOwed (s : State) (p : Nat) : Bool :=
  let step := s.fget PRT_ROLE.SWSTEP p
  let base := s.fon PRT_ROLE.BASEPWR p
  match s.fget PRT_ROLE.SWAP p with
  | 1 => base && step == 4
  | 3 => step == 3 && (s.sw p).vconnOn.isNone
  | 4 => step == 3
  | 5 => step == 5
  | _ => false

/-- The message that the record shows awaiting GoodCRC and the monitor did not hear: the one the port's step sends,
with its MessageID; the record does not carry any other (R158; log entry 124). A message owed and not yet sent is
queued. -/
def resendOwed (s : State) (p : Nat) : State :=
  let owed := if s.acceptOwed p then some (ctl Code.accept)
    else if s.rdyOwed p then some (ctl Code.psRdy)
    else if s.fon PRT_PDST.AWAITGC p && decide (s.fget PRT_ROLE.SWAP p = 1) &&
        !s.fon PRT_ROLE.BASEPWR p && decide (s.fget PRT_ROLE.SWSTEP p = 6) then some (ctl Code.psRdy)
    else none
  if (s.pd p).cur.isSome then s
  else match owed with
    | some m =>
      if s.fon PRT_PDST.AWAITGC p then
        (s.resendPacket p (s.fget PRT_PDST.TXID0 p) m).onSw p fun h => { h with rdySent := true }
      else s.sendReply p m (s.ackOf p m)
    | none => s.fset PRT_PDST.AWAITGC p 0

/-- The request that awaits its response: the last one heard, or the swap in progress (R179). -/
def loadWait (s : State) (p : Nat) (heard : List (Msg × Bool × Bool)) : State :=
  let asked := heard.reverse.find? fun e => e.2.1 && e.1.isRequest
  let code := match asked with
    | some e => e.1.code
    | none =>
      match s.fget PRT_ROLE.SWAP p with
      | 1 => Code.prSwap
      | 2 => Code.drSwap
      | 3 => Code.vconnSwap
      | _ => 0
  s.when (s.fon PRT_PDST.AWAITRSP p) fun s => s.onPd p fun h =>
    { h with wait := some { sop := (asked.map (·.1.sop)).getD 0, code := code } }

/-- The contract a transition in progress, or an Accept heard, leads to: that of the last Request heard, or the one
in force. While it runs PRT_VWIN is the union of both windows, and the thresholds are the record's (R161, R162);
DISON and the 15 ms of step 6 start again. -/
def loadGoal (s : State) (p : Nat) (heard : List (Msg × Bool × Bool)) : State :=
  let list := if s.isSource p then (s.pd p).offered else (s.pd p).srcCaps
  let held := s.contractHeld p
  let asked := (heard.reverse.find? fun e =>
    e.1.code == Code.request || e.1.code == Code.eprRequest).map fun e => contractOf list (e.1.obj 0)
  let k := s.fget PRT_ROLE.SWAP p
  let step := s.fget PRT_ROLE.SWSTEP p
  let early := (k = 5 ∧ step ≤ 5) ∨ k = 6
  let goal := asked.getD held
  let s := s.onSw p fun h => { h with
    held := held, vout := held.mv10, goal := if early then some goal else if k = 5 then none else asked
    newPwr := if k = 5 ∧ step = 6 then some 1875 else none }
  let s := s.when (k == 5 && (step == 3 || step == 4)) fun s =>
    (s.onSw p fun h => { h with vout := goal.mv10 }).when (decide (goal.volt ≤ held.volt)) fun s =>
      s.disonFor p goal
  if early ∧ ¬(k = 5 ∧ step = 5) then s.setVwin p (min held.lo goal.lo) (max held.hi goal.hi)
  else if k = 5 ∧ step = 5 then s.setVwin p goal.lo goal.hi
  else s.setVwin p held.lo held.hi

/-- A hard-reset sequence goes on (R179): with HOLDATT at 1 and no swap, from the stage that the mirrored timers and
the port's VBUS show; the sink's 1,925 ms, which the record does not carry, start again. A source whose regulator
was starting starts it again (log entry 125). -/
def loadHardSeq (s : State) (p : Nat) : State :=
  let h := s.sw p
  let k := s.fget PRT_ROLE.SWAP p
  let base := s.fon PRT_ROLE.BASEPWR p
  let hard := s.fon PRT_CCCTL.HOLDATT p && k == 0
  let off := s.pwrState p == 0 && s.fget PRT_PWRCTL.REQ p == 0 && !s.fon WEIR_PST.SAFE p
  if hard && !s.isSource p then
    if s.fon PRT_CCSTAT.VBUSOK p then s.onSw p fun h => { h with hrSeq := 5 }
    else s.onSw p fun h => { h with hrSeq := 6, sinkHr := some 240625 }
  else if hard && h.hrSeq == 0 then
    if s.fget PRT_PWRCTL.REQ p = 0 then s.onSw p fun h => { h with hrSeq := 2 }
    else s.onSw p fun h => { h with hrSeq := 4 }
  else
    s.when (s.linkRuns p && s.isSource p && off && h.hrSeq == 0 && !(k == 1 && base)) fun s => s.regStart p

/-- The raise open in the record is raised again to this unit's host with its number (R282); the
message is the last one heard from the partner. -/
def loadRaise (s : State) (p : Nat) (heard : List (Msg × Bool × Bool)) : State :=
  let w1 := s.recWord (inBuf p) 1
  let n := bits (s.recWord (inBuf p) 7) 57 42
  let m := ((heard.reverse.find? fun e => !e.2.1).map (·.1)).getD {}
  s.when (bit w1 61) fun s =>
    let s := (s.onPd p fun h => { h with raise := some ⟨n, m⟩, raiseNum := n }).fset PRT_PDEV.RAISED p 1
    s.hostEvent 2 ([byte p, byte m.sop] ++ toBytes 2 n ++
      toBytes 2 ((s.timer p 2).getD 0) ++ [byte (s.fget PRT_PDCFG.LATE p), 0] ++ rxBytes m)

/-- The port continues from its inbound record at the first owned edge, `gone` ticks after the record's
freeze (R127, R158, R187, R240, R258, R267, R284). -/
def loadRecord (s : State) (p gone : Nat) : State :=
  let heard := (s.pd p).heard
  let s := s.mirrorCopy (0x11000 + 0x800 * p) (extOff p) 0x800
  let poles := s.memRead 0x41 (inBuf p + 40) 8
  let s := (s.memWrite 0x41 (outBuf p 0 + 40) poles).memWrite 0x41 (outBuf p 1 + 40) poles
  let s := (s.onPd p fun h => { phyOn := h.phyOn }).onAtt p fun h =>
    { latches := h.latches, clamp := h.clamp && decide (bits (s.recWord (inBuf p) 0) 35 32 = 0), scanPos := h.scanPos, scan := h.scan, force := h.force, rpNow := h.rpNow, scanAt := h.scanAt }
  let s := (s.latchCccfg p).latchAll [PRT_PDCFG.PDEN, PRT_PDCFG.REV, PRT_PDCFG.CBLDISC, PRT_PDCFG.BISTEN] p
  let s := ((s.loadWords p).loadPower p).extLists p
  let s := ((s.loadTable p).loadQueue p).loadGoal p heard
  let s := s.loadWait p heard
  let timers := s.recTimers p
  let s := timers.foldl (loadTimer p gone) (s.attRestart p timers)
  let s := ((s.loadRaise p heard).lostTimers p timers).loadHardSeq p
  let s := (s.unrecorded p heard).foldl (reconcile p) s
  (s.resendOwed p).vconnEdge p

/-- A port the unit owns for the first time reads VOUT_MODE, then STATUS_WORD, before anything else; steps
2 and 3 of R215 are not repeated (R285). -/
def firstReads (s : State) (p : Nat) : State :=
  s.when (!(s.vreg p).modeRead) fun s => s.onReg p fun r => { r with
    live := true, waiting := [PmTxn.voutMode, .statusWord] ++ r.waiting }

/-- Ticks from the freeze of the port's record to edge `e`. -/
def sinceFreeze (s : State) (p e : Nat) : Nat :=
  (e + 65536 - s.fget PRT_SHADOW.FTICK p) % 65536

/-- The unit comes to own the ports of `mask` at the edge of the tick now running: each continues from
its record, in port safe state where its SAFE is 1 or a unit reaction is in force (R284, R400 to R402); `pull` sends Hard_Reset on a port
whose CHG is 1. -/
def takePorts (s : State) (mask cause hoid : Nat) (pull : Bool) : State :=
  let own := s.fget PAIR_ST.OWN
  let mask := mask - (mask &&& own)
  let s := s.setOwn (own ||| mask) cause hoid
  s.forPorts fun p s => s.when (bit mask p) fun s =>
    let chg := s.fon PRT_SHADOW.CHG p
    let s := ((s.cfgPort p).loadRecord p (s.sinceFreeze p s.tick)).firstReads p
    let w5 := s.recWord (inBuf p) 5
    let s := s.energyTake p (bits w5 31 0) (bits w5 63 32) (s.sinceFreeze p s.tick - 1)
    let s := s.when (pull && chg) fun s => s.hardReset p
    s.when (s.fon WEIR_PST.SAFE p || decide (2 ≤ (s.react 16).cls)) fun s => s.portSafe p

end State

/-! ## Meanings -/

open State

/-- MIRROR_COMMIT (R267); none falls in a handover's quiet ticks (R279). -/
def execMirrorCommit (p : Port) (s : State) : Out :=
  if s.hoQuiet p then .next s else .next (s.mirrorCommit p)

/-- MIRROR_FREEZE (R52, R53): acts where the port's freeze point falls in this tick. -/
def execMirrorFreeze (p : Port) (s : State) : Out :=
  if s.freezesNow p then .next (s.freeze p) else .next s

/-- MIRROR_RECORD_RECEIVE (R263, R268, R269). -/
def execMirrorRecordReceive (p : Port) (words : List (BitVec 64)) (intact : Bool) (s : State) : Out :=
  .next (s.mirrorReceive p (words.map (·.toNat)) intact)

end Sys2Proof.Machine
end

