-- ==== Sys2Proof/Machine/Pair.lean ====
section
/-!
DEFINITION. The pair (chapters 1, 2, 3 and 10): the profile, tick alignment and SYNC, the heartbeat,
the pair link and its bulk messages, and the meanings of those rows.
-/
namespace Sys2Proof.Machine
namespace State

/-- The unit's position is A (PAIR_ST.POS 1). -/
def unitA (s : State) : Bool := s.fget PAIR_ST.POS == 1

/-- The pair's hardware changed. -/
def onPair (s : State) (g : PairHw → PairHw) : State := { s with pair := g s.pair }

/-- A PAIR_EV bit sets, and the event is queued (R308). -/
def pairEv (s : State) (f : Fld) : State := (s.fset f 0 1).evPair

/-- The ports of this unit's home set: HOME for unit A, the rest of unit A's HOME for unit B (R275). -/
def homeSet (s : State) : Nat :=
  if s.unitA then s.fget PAIR_CFG.HOME
  else 0xFFFF - (match s.pair.hin with
    | _ :: h1 :: _ => bits h1 31 16
    | _ => s.fget PAIR_CFG.HOME)

/-! ## The profile (R25 to R36) -/

/-- The comparator mode in force: the port's override, or the profile's (R27). -/
def cmpMode (s : State) (p : Nat) : Nat :=
  let m := s.eget PRT_CMPMODE.MODE p
  if m = 0 then s.prof.cur else m

/-- PAIR_ST.LSTATE and LANES set; a change of state sets LINKCHG. -/
def setLink (s : State) (st lanes : Nat) : State :=
  let old := s.fget PAIR_ST.LSTATE
  let s := (s.fset PAIR_ST.LSTATE 0 st).fset PAIR_ST.LANES 0 lanes
  if old = st then s
  else
    let s := s.when (decide (st < 3)) fun s => (s.onPair fun h => { h with recOk := 0 }).fset PAIR_SHOK.FRESH 0 0
    (s.onPair fun h => { h with good := 0, bad := 0, train := 0 }).pairEv PAIR_EV.LINKCHG

/-! ## SYNC and the tick (R55 to R60, R95 to R98) -/

/-- CRC8 of a heartbeat word matches (R97, R98). -/
def beatOk (w : Nat) : Bool := decide (w / 2 ^ 24 = Sys2Proof.Crypto.crc8 (toBytes 3 w))

/-- A sequence number follows the last valid one, or re-establishes the sequence after a miss (R98). -/
def seqOk (last : Option Nat) (seq : Nat) : Bool :=
  match last with
  | none => true
  | some n => decide (seq = (n + 1) % 16)

/-- A twin of this unit's own position: a booting unit is held in reset, a booted one records "pair
strap mismatch" once (R15, R87). -/
def clash (s : State) : State :=
  if !s.booted then (s.unitSource 3).holdReset
  else s.when (!s.pair.mismatch) fun s =>
    (s.onPair fun h => { h with mismatch := true }).unitSource 11

/-- A wake request heard in Low Water (R35, R36): to Flood where the twin is in unit safe state, and otherwise to
Ebb or, for a reaction of class 1 or 2, to Flood; the word does not tell which (a free value, log entry 85). -/
def wakeHeard (s : State) (safe : Bool) : State :=
  if safe then s.profileAt 1 (s.tick + 1)
  else
    let d := s.draw 1
    d.2.when (d.2.prof.pend.all fun c => c.1 != 1) fun s => s.profileAt (if d.1 = 1 then 1 else 2) (s.tick + 1)

/-- A valid heartbeat word of the twin: TWINOWN, the wake request of R35 and R36, and JOIN where it
became valid after loss or at boot. -/
def hearWord (s : State) (w : Nat) : State :=
  let first := !s.pair.heard || s.pair.lost
  let s := s.onPair fun h => { h with word := w, heard := true }
  let s := s.fset PAIR_SHOK.TWINOWN 0 (bits w 23 8)
  let s := s.when (first && s.booted) fun s => s.pairEv PAIR_EV.JOIN
  let s := s.when (bit w 4 && s.lowWater) fun s => s.wakeHeard (bit w 6)
  s.when (bit w 7 == (s.fget PAIR_ST.POS == 2)) fun s => s.clash

/-- This unit becomes tick master: it drives SYNC, its phase does not jump (R59). -/
def becomeMaster (s : State) (lost : Bool) : State :=
  let s := (s.fset TICK_STATUS.MASTER 0 1).fset TICK_STATUS.SYNC_LOCK 0 0
  let s := s.when lost fun s => s.fset TICK_STATUS.SYNC_LOST 0 1
  (s.fset TICK_SKEW.SKEW 0 0).onPair fun h => { h with noEdge := 0, skewBig := 0, noFollower := 0, rise := false }

/-- A unit of a pair that follows its twin's tick. -/
def follower (s : State) : Bool :=
  s.paired && !s.fon TICK_STATUS.MASTER && s.pair.listen.isNone && s.fon TICK_STATUS.PLL_LOCK

/-! ## Bulk messages and extension blocks (R272 to R274) -/

/-- A bulk message queued. -/
def bulkQueue (s : State) (chan port : Nat) (words : List Nat) : State :=
  s.onPair fun h => { h with
    bulk := h.bulk ++ [⟨chan, h.bulkSeq % 256, port, words⟩], bulkSeq := (h.bulkSeq + 1) % 256 }

/-- The CRC-32 at 0x7FC of port `p`'s extension block (R273). -/
def extSeal (s : State) (p : Nat) : State :=
  s.extWrite p 0x7FC (toBytes 4 (Sys2Proof.Crypto.crc32 (s.memRead 0x41 (extOff p) 0x7FC)))

/-- Port `p`'s whole extension block queued for the twin: five channel 1 messages, each the block
offset and up to 54 words. -/
def extSend (s : State) (p : Nat) : State :=
  let s := s.extSeal p
  let s := s.onPair fun h => { h with copies := h.copies.put 0 p (h.copies.get 0 p + 1) }
  s.forEach [0, 54, 108, 162, 216] fun at_ s =>
    let n := min 54 (256 - at_)
    s.bulkQueue 1 p (8 * at_ :: (List.range n).map fun i => s.recWord (extOff p) (at_ + i))

/-- The owner's transmit direction is Up or Degraded. -/
def sending (s : State) : Bool := s.paired && s.pair.txLanes != 0

/-- The end of a command that changed port `p`'s extension block: the reply, the table entries in force
from the next edge (R146), the capabilities owed (R321). PD_SEND also waits for its GoodCRC (R324); PD_SWAP
and PD_EPR end elsewhere. -/
def extEnd (s : State) (e : ExtWait) : State :=
  if e.op = 0x33 then s.when e.ready fun s => s.complete 0x33 e.tag 0
  else if e.op = 0x34 ∨ e.op = 0x35 then s
  else
    let s := e.table.foldl (fun s t => s.rput (PRT_PDRT.reg t.1) e.port t.2) s
    let s := s.when (e.caps && s.isSource e.port && s.fon PRT_PDST.CONTRACT e.port) fun s =>
      s.onPd e.port fun h => { h with capsOwed := true }
    s.reply e.op (byte e.tag) 0

/-- Port `p` is marked unsynced (R274). -/
def extUnsync (s : State) (p : Nat) : State := (s.fbit PAIR_SHOK.UNSYNC 0 p true).portSource p 18

/-- A command changed the port's extension block: it completes once the twin has acknowledged the copy,
or without one while the transmit direction is down, the port then marked unsynced (R274). An
unpaired unit has no copy to make (R321). -/
def extChanged (s : State) (e : ExtWait) : State :=
  if !s.paired then s.extEnd e
  else if s.sending then
    let s := s.extSend e.port
    s.onPair fun h => { h with ext := h.ext ++ [{ e with left := h.copies.get 0 e.port }] }
  else (s.extUnsync e.port).extEnd e

/-- The transmit direction has left Up and Degraded: commands waiting for a copy complete without it
(R274). -/
def extGiveUp (s : State) : State :=
  let w := s.pair.ext
  let s := s.onPair fun h => { h with ext := [], copies := [] }
  w.foldl (fun s e => (s.extUnsync e.port).extEnd e) s

/-- The twin has acknowledged a copy of port `p`'s block. -/
def extAcked (s : State) (p : Nat) : State :=
  let s := s.onPair fun h => { h with
    copies := h.copies.put 0 p (h.copies.get 0 p - 1)
    ext := h.ext.map fun e => if e.port = p then { e with left := e.left - 1 } else e }
  let w := s.pair.ext.filter fun e => e.left == 0
  let s := s.onPair fun h => { h with ext := h.ext.filter fun e => e.left != 0 }
  let s := s.when (decide (s.pair.copies.get 0 p = 0)) fun s => s.fbit PAIR_SHOK.UNSYNC 0 p false
  w.foldl (fun s e => s.extEnd e) s

/-- A bulk message received intact. -/
def bulkReceive (s : State) (chan port : Nat) (ack : Bool) (off : Nat) (words : List Nat) : State :=
  match chan with
  | 0 => s.memWrite 0x41 0x1C000 ((words.take 64).flatMap (toBytes 8))
  | 1 =>
    if ack then s.extAcked port
    else
      let n := min words.length ((0x800 - off) / 8)
      let s := s.memWrite 0x41 (0x11000 + 0x800 * port + off) ((words.take n).flatMap (toBytes 8))
      s.when (decide (0x800 ≤ off + 8 * n)) fun s => s.bulkQueue 1 port []
  | _ => s

/-- Words of bulk this tick's superframe takes (R261, R272). -/
def bulkRoom (s : State) : Nat := if s.sendNarrow then 16 else 56

/-- Words of the queued messages still to send, headers counted. -/
def bulkWords (s : State) : Nat :=
  (s.pair.bulk.map fun b => b.words.length + 1).foldl (· + ·) 0 - s.pair.bulkPos

/-- `n` words of the bulk queue sent: messages that are complete await their acknowledgement. -/
def bulkTake (n : Nat) : List BulkOut → Nat → List BulkOut → List BulkOut × Nat × List BulkOut
  | [], _, done => ([], 0, done)
  | b :: t, pos, done =>
    let left := b.words.length + 1 - pos
    if left ≤ n then bulkTake (n - left) t 0 (done ++ [b]) else (b :: t, pos + n, done)

/-- Bulk at an edge (R272): min(queued, credits, room) words leave; queued words without credits are a
stall. -/
def bulkEdge (s : State) : State :=
  let s := s.onPair fun h => { h with
    bulkOut := [], sent := h.sent.map fun (e : BulkOut × Nat) => (e.1, e.2 + 1) }
  let held := s.fget PAIR_CREDIT.HELD
  let want := s.bulkWords
  if !s.sending ∨ want = 0 then s
  else if held = 0 then ((s.finc PAIR_CREDIT.STALLS 0).pairEv PAIR_EV.STALL).cntEvent 0x43
  else
    let n := min want (min held s.bulkRoom)
    let r := bulkTake n s.pair.bulk s.pair.bulkPos []
    let words := s.pair.bulk.flatMap fun b =>
      pack [(2, b.chan), (6, b.words.length), (8, b.seq), (4, b.port)] :: b.words
    (s.fset PAIR_CREDIT.HELD 0 (held - n)).onPair fun h => { h with
      bulkOut := (words.drop h.bulkPos).take n
      bulk := r.1, bulkPos := r.2.1, sent := h.sent ++ r.2.2.map fun b => (b, 0) }

/-- A credit-and-acknowledge word: credits return, and every message up to the one named is
acknowledged (R262, R272). -/
def bulkAck (s : State) (credits seq : Nat) : State :=
  let s := s.fset PAIR_CREDIT.HELD 0 (min 64 (s.fget PAIR_CREDIT.HELD + credits))
  s.when (s.pair.sent.any fun e => e.1.seq == seq) fun s => s.onPair fun h =>
    { h with sent := (h.sent.dropWhile fun e => e.1.seq != seq).drop 1 }

/-! ## The link (R259 to R263) -/

/-- Training has completed on `lanes` lanes: Up, or Degraded where Flood trained only one. -/
def linkTrained (s : State) (lanes : Nat) : State :=
  if lanes = 0 then s
  else
    let s := (s.onPair fun h => { h with trained := true }).weirCond 16 13 false
    if s.prof.cur = 2 then s.setLink 3 1
    else if lanes = 1 then s.setLink 4 1
    else s.setLink 3 2

/-- The receive direction goes Down: the condition of "pair link down" (R260, R265). -/
def linkDown (s : State) : State := (s.setLink 1 0).weirCond 16 13 true

/-- The twin reports the lanes it receives: this unit's transmit direction. Extension blocks are resent
whole when it comes up, and waiting commands complete without a copy when it goes (R274). -/
def setTx (s : State) (lanes : Nat) : State :=
  let was := s.pair.txLanes
  let s := s.onPair fun h => { h with txLanes := lanes }
  if was = 0 ∧ lanes ≠ 0 then s.forPorts fun p s => s.when (s.owns p) fun s => s.extSend p
  else if was ≠ 0 ∧ lanes = 0 then s.extGiveUp
  else s

/-- Both directions go to Training (PAIR_RETRAIN). -/
def retrain (s : State) : State :=
  if s.fget PAIR_ST.LSTATE = 0 then s
  else (s.setTx 0).setLink 2 0

/-- A change of profile takes effect: its record, the comparator modes, and the link (R260, R480). A unit that
leaves Low Water asks for it no more (R30). A direction that is Up stays so with the lanes of the profile (log entry
94). -/
def setProfile (s : State) (prof : Nat) : State :=
  let old := s.prof.cur
  if old = prof then s
  else
    let s := { s with prof := { s.prof with
      cur := prof, wake := false, request := s.prof.request.filter fun r => old != 3 || r.1 != 3 } }
    let s := s.logRec 0x11 0xFF [byte prof, byte old]
    let s := s.forPorts fun p s => s.fset PRT_CMPMODE.ACTIVE p (s.cmpMode p)
    let st := s.fget PAIR_ST.LSTATE
    let s := s.when (decide (prof = 3)) fun s =>
      s.calAbandon.forPorts fun p s => s.onPd p fun h => { h with phyOn := false }
    if prof = 3 then ((s.setTx 0).setLink 0 0).weirCond 16 13 false
    else if old = 3 ∧ s.paired then s.setLink 2 0
    else s.when (decide (st = 3)) fun s => s.fset PAIR_ST.LANES 0 (if prof = 2 then 1 else 2)

/-- The words of a superframe that arrived: corrections and errors counted (R263). -/
def linkErrors (s : State) (corrected uncorrected : Nat) : State :=
  let s := s.onPair fun h => { h with errsNow := (h.errsNow.1 + corrected, h.errsNow.2 + uncorrected) }
  let s := s.fset PAIR_LERR.CORR 0 (min 0xFFFF (s.fget PAIR_LERR.CORR + corrected))
  let s := s.fset PAIR_LERR.UNCORR 0 (min 0xFF (s.fget PAIR_LERR.UNCORR + uncorrected))
  let s := s.forEach (List.range corrected) fun _ s => s.cntEvent 0x40
  let s := s.forEach (List.range uncorrected) fun _ s => s.cntEvent 0x41
  s.when (decide (uncorrected ≠ 0)) fun s => (s.pairEv PAIR_EV.UNCORR).unitSource 16

/-- The trailer of a superframe (R260, R263). -/
def trailer (s : State) (ok : Bool) (lanes : Nat) : State :=
  let st := s.fget PAIR_ST.LSTATE
  let s := s.onPair fun h => { h with
    good := if ok then h.good + 1 else 0, bad := if ok then 0 else h.bad + 1 }
  let s := s.when (!ok) fun s => s.finc PAIR_LERR.CRCFAIL 0
  if st = 2 ∧ 4 ≤ s.pair.good then s.linkTrained lanes
  else if (st = 3 ∨ st = 4) ∧ 4 ≤ s.pair.bad then s.linkDown
  else s

end State

/-! ## Meanings -/

open State

/-- PROFILE_CHANGE_EDGE (R29 to R36): the changes whose edge has come take effect, in order. -/
def execProfileChangeEdge (s : State) : Out :=
  let due := fun (c : Nat × Nat) => decide (c.2 ≤ s.tick)
  let now := s.prof.pend.takeWhile due
  .next (now.foldl (fun s c => s.setProfile c.1)
    { s with prof := { s.prof with pend := s.prof.pend.dropWhile due } })

/-- TIME_BIND_TARGET_EDGE (R69, R70): the binding comes into force at its target edge. -/
def execTimeBindTargetEdge (s : State) : Out :=
  match s.pair.bind with
  | some (e, t) =>
    if e ≤ s.tick then
      let s := ((s.fset TICK_HTICK.HTICK 0 e).fset TICK_HTIME.HTIME 0 t).fset TICK_STATUS.HBOUND 0 1
      .next ((s.onPair fun h => { h with bind := none }).logRec 0x03 0xFF (toBytes 6 e))
    else .next s
  | none => .next s

/-- SYNC_EDGE_RECEIVED (R55, R56, R58, R96): a master edge heard, `skew` cycles before this unit's. A
master takes no edge. -/
def execSyncEdgeReceived (skew : BitVec 8) (s : State) : Out :=
  if !s.paired ∨ s.fon TICK_STATUS.MASTER then .next s
  else
    let big := decide (16 < skew.toInt.natAbs)
    let s := (s.onPair fun h => { h with
      edgeHeard := true, noEdge := 0, rise := false, skewBig := if big then h.skewBig + 1 else 0 }).fset
      TICK_SKEW.SKEW 0 skew.toNat
    .next (s.when big fun s => s.fset TICK_STATUS.SYNC_LOCK 0 0)

/-- SYNC_HEARTBEAT_RECEIVED (R97, R98): a word in the twin's interval. A unit out of Low Water that hears its twin
only on SYNC asks it to wake (R30). -/
def execSyncHeartbeatReceived (w : BitVec 32) (s : State) : Out :=
  let n := w.toNat
  if s.paired ∧ beatOk n ∧ seqOk s.pair.syncSeq (n % 16) then
    let s := s.onPair fun h => { h with syncHb := true, syncSeq := some (n % 16), noFollower := 0 }
    let alone := s.booted && !s.lowWater && decide (s.fget PAIR_ST.LSTATE < 3) && !s.pair.linkHb
    let s := s.when alone fun s => { s with prof := { s.prof with wake := true } }
    .next (s.hearWord n)
  else .next s

/-- LISTEN_TIME_EXPIRY (R55): a unit that heard tick edges follows, another becomes master. -/
def execListenTimeExpiry (s : State) : Out :=
  if s.pair.listen = some 0 then
    let heard := s.pair.edgeHeard
    let s := s.onPair fun h => { h with listen := none, noEdge := 0 }
    .next (s.when (!heard) fun s => s.becomeMaster false)
  else .next s

/-- SYNC_LOCK_ACQUIRED (R56): a follower whose skew lies within 16 cyc. -/
def execSyncLockAcquired (s : State) : Out :=
  if s.paired ∧ !s.fon TICK_STATUS.MASTER ∧ s.pair.edgeHeard ∧
      (toSigned 8 (s.fget TICK_SKEW.SKEW)).natAbs ≤ 16 then
    .next (s.fset TICK_STATUS.SYNC_LOCK 0 1)
  else .next s

/-- SYNC_MASTER_LOST (R59): in the second tick without a master edge; the unit becomes master at its next edge
unless it hears one before. -/
def execSyncMasterLost (s : State) : Out :=
  if s.follower ∧ 2 ≤ s.pair.noEdge then .next (s.onPair fun h => { h with rise := true }) else .next s

/-- SKEW_FAULT (R58): skew above 16 cyc for 4 consecutive ticks. -/
def execSkewFault (s : State) : Out :=
  let big := decide (4 ≤ s.pair.skewBig)
  .next ((s.when big fun s => s.fset TICK_STATUS.SKEW_FAULT 0 1).weirCond 16 9 big)

/-- SUPERFRAME_TRAILER (R260 to R264): the end of a superframe, with what its framing words carried. -/
def execSuperframeTrailer (f : Frame) (s : State) : Out :=
  let st := s.fget PAIR_ST.LSTATE
  if st = 0 ∨ st = 1 then .next s
  else
    let s := s.linkErrors f.corrected.toNat f.uncorrected.toNat
    let s := match f.heartbeat with
      | some w =>
        if seqOk s.pair.linkSeq (w.toNat % 16) then
          (s.onPair fun h => { h with linkHb := true, linkSeq := some (w.toNat % 16) }).hearWord w.toNat
        else s
      | none => s
    let s := match f.twinLanes with
      | some n => s.setTx n.val
      | none => s
    let s := match f.ack with
      | some (c, q) => s.bulkAck c.toNat q.toNat
      | none => s
    .next (s.trailer f.crcOk f.lanes.val)

/-- LINK_TRAINING_TIMEOUT (R260): 16 ticks of Training without 4 good trailers in a row. -/
def execLinkTrainingTimeout (s : State) : Out :=
  if s.fget PAIR_ST.LSTATE = 2 ∧ 16 ≤ s.pair.train then .next s.linkDown else .next s

/-- LANE_LOSS (R260): a lane in use without symbol lock for 2 ticks. -/
def execLaneLoss (lane : Fin 2) (s : State) : Out :=
  let _ := lane
  let st := s.fget PAIR_ST.LSTATE
  if st = 3 ∧ s.fget PAIR_ST.LANES = 2 then .next ((s.setLink 4 1).unitSource 14)
  else if st = 3 ∨ st = 4 then .next s.linkDown
  else .next s

/-- BULK_MESSAGE_RECEIVE (R263, R272 to R274): a message with an uncorrectable word is discarded. Its credits
return in the next superframe (for one that is kept: DESIGN CHOICE, log entry 88). What a channel 2 message
carries is the transfer rows' effect (R455). -/
def execBulkMessageReceive (m : BulkMsg) (s : State) : Out :=
  let s := s.onPair fun h => { h with creditNow := h.creditNow + m.words.length + 1 }
  if !m.intact then .next s
  else
    let s := s.onPair fun h => { h with rxSeq := m.seq.toNat }
    .next (s.bulkReceive m.chan.val m.port m.ack m.off.val (m.words.map (·.toNat)))

/-- BULK_RETRANSMIT (R272): a message not acknowledged within 4 ticks is sent again. -/
def execBulkRetransmit (s : State) : Out :=
  let late := s.pair.sent.filter fun e => decide (4 ≤ e.2)
  .next (s.onPair fun h => { h with
    sent := h.sent.filter fun e => !decide (4 ≤ e.2)
    bulk := if h.bulkPos = 0 then late.map (·.1) ++ h.bulk
      else h.bulk.take 1 ++ late.map (·.1) ++ h.bulk.drop 1 })

/-- PAIR_CTL_RETRAIN (R260). -/
def execPairCtlRetrain (s : State) : Out := .next s.retrain

end Sys2Proof.Machine
end

