-- ==== Sys2Proof/Machine/Handover.lean ====
section
/-!
DEFINITION. Ownership of the ports of a pair (chapter 10): planned handover, takeover, release,
conflict, rebalancing and formation, the twin's harbour state, and the meanings of those rows.
-/
namespace Sys2Proof.Machine
namespace State

/-! ## What the unit carries (R97, R270) -/

/-- H0 to H23 as the unit freezes them at an edge. -/
def harbour (s : State) : List Nat :=
  let req := match s.prof.request with
    | some r => r.1 + 4
    | none => 0
  let form := match s.pair.form with
    | some e => 8 + 2 ^ 16 * e
    | none => 0
  let bind := match s.pair.bind with
    | some (e, t) => [e + 2 ^ 48, t]
    | none => [0, 0]
  [pack [(48, s.tick), (2, s.fget PAIR_ST.POS), (1, s.fget TICK_STATUS.MASTER), (1, s.fget PAIR_ST.ABLE),
      (1, s.fget PAIR_ST.WITHDRAWN), (2, s.prof.cur)],
    pack [(16, s.fget PAIR_ST.OWN), (16, s.fget PAIR_CFG.HOME), (16, s.fget PAIR_SHOK.FRESH)],
    s.pair.h2, s.pair.h3, req + form] ++ bind ++
  [pack [(16, s.fget DEV_CFGST.INFORCE), (8, s.fget DEV_CALST.INFORCE), (8, s.fget DEV_STRAP.STRAP),
      (32, s.fw.ident)]] ++
  (List.range 16).map fun j => s.fget (PAIR_HSOUT.WORD j)

/-- Word `j` of the twin's harbour state as last applied, 0 before the first. -/
def hin (s : State) (j : Nat) : Nat := s.pair.hin.getD j 0

/-! ## Planned handover (R279 to R282) -/

/-- A live code swap or FW_ACTIVATE is in progress. -/
def swapping (s : State) : Bool :=
  s.fget DEV_SWAP.REQ != 0 || s.fon DEV_FWST.ACT ||
    (List.range 17).any fun e => (s.engine e).swap != 0

/-- A handover or takeover is in progress. -/
def moving (s : State) : Bool := s.pair.ho.isSome || s.pair.assume.isSome

/-- Both units' configuration versions and PMBus base straps agree (H7). -/
def pairAlike (s : State) : Bool :=
  bits (s.hin 7) 15 0 == s.fget DEV_CFGST.INFORCE &&
    bits (s.hin 7) 31 30 == bits (s.fget DEV_STRAP.STRAP) 7 6

/-- The host status of a REASON (R280). -/
def reasonStatus (r : Nat) : Nat :=
  match r with
  | 1 => 0x21
  | 5 => 0x41
  | 6 => 0x40
  | 7 => 0x50
  | _ => 0x22

/-- `a` lies in `b`. -/
def within (a b : Nat) : Bool := a &&& b == a

/-- The unit's tick is that of the pair: it is master, or its SYNC_LOCK is 1 (R58, R271). -/
def synced (s : State) : Bool := s.fon TICK_STATUS.MASTER || s.fon TICK_STATUS.SYNC_LOCK

/-- Checks 1, 2, 4 and 6 of R280 for moving `mask` away from a giver that owns `owned`; 0 passes. -/
def hoReason (s : State) (mask owned : Nat) : Nat :=
  if s.moving then 1
  else if !s.fon PAIR_ST.ABLE || !s.fon PAIR_ST.TWINABLE || !s.synced || s.lowWater || s.swapping then 2
  else if !s.pairAlike then 4
  else if !within mask owned then 6
  else 0

/-- The handover shown in PAIR_HO and carried in H2 and H3. -/
def hoShow (s : State) (h : Handover) (phase reason : Nat) : State :=
  let s := ((s.fset PAIR_HO.EDGE 0 h.edge).fset PAIR_HO.HOID 0 h.id).fset PAIR_HO.PHASE 0 phase
  let s := ((s.fset PAIR_HO.PROP 0 (b2n h.prop)).fset PAIR_HO.DIR 0 (b2n h.take)).fset PAIR_HO.REASON 0 reason
  s.onPair fun x => { x with
    h2 := pack [(8, h.id), (3, phase), (1, b2n h.take), (3, reason), (1, 0), (16, h.mask)], h3 := h.edge }

/-- The handover is open in this phase. -/
def hoOpen (s : State) (h : Handover) (phase : Nat) : State :=
  ((s.hoShow h phase 0).fset PAIR_ST.HOOPEN 0 1).onPair fun x => { x with ho := some { h with phase := phase } }

/-- No handover is open. -/
def hoClose (s : State) : State := (s.fset PAIR_ST.HOOPEN 0 0).onPair fun x => { x with ho := none }

/-- The handover ends without moving a port: its command completes with the reason's status. -/
def hoFail (s : State) (h : Handover) (phase reason : Nat) : State :=
  let s := ((s.hoShow h phase reason).hoClose.unitSource 18).pairEv PAIR_EV.HOFAIL
  let s := s.when (decide (reason = 5)) fun s => s.pairEv PAIR_EV.COLL
  s.finish h.cmd (reasonStatus reason)

/-- The switch edge of a proposal accepted in the tick now running (R279). -/
def switchEdge (s : State) : Nat :=
  let up := s.prof.cur == 1 && s.fget PAIR_ST.LSTATE == 3 && s.pair.txLanes == 2
  s.tick + (if up then 5 else 6)

/-- A handover proposed: its status, 0 where it is on its way (R279, R280). -/
def propose (s : State) (take : Bool) (mask : Nat) (cmd : Option (Nat × Nat)) (withdraw resets : Bool) :
    Nat × State :=
  let owned := if take then s.fget PAIR_SHOK.TWINOWN else s.fget PAIR_ST.OWN
  if mask = 0 then (0x12, s)
  else
    let r := s.hoReason mask owned
    if r ≠ 0 then (reasonStatus r, s)
    else
      let h : Handover := { prop := true, take := take, mask := mask, id := (s.fget PAIR_HO.HOID + 1) % 256,
                            edge := s.switchEdge, start := s.tick, phase := 1, cmd := cmd,
                            withdraw := withdraw, resets := resets }
      (0, s.hoOpen h 1)

/-- The answerer's REASON for a proposal (R280): what the proposer checks, and that every moving port
is FRESH at the receiver and in step at the owner. -/
def answerReason (s : State) (take : Bool) (mask : Nat) : Nat :=
  let owned := if take then s.fget PAIR_ST.OWN else s.fget PAIR_SHOK.TWINOWN
  let fresh := if take then bits (s.hin 1) 47 32 else s.fget PAIR_SHOK.FRESH
  let r := s.hoReason mask owned
  if r ≠ 0 ∧ r ≤ 2 then r
  else if !within mask fresh || mask &&& s.fget PAIR_SHOK.UNSYNC != 0 then 3
  else r

/-- A proposal of the twin answered in the tick it arrives in. -/
def answer (s : State) (id mask edge : Nat) (take : Bool) : State :=
  let h : Handover := { prop := false, take := take, mask := mask, id := id, edge := edge,
                        start := s.tick - 1, phase := 2 }
  let r := s.answerReason take mask
  if r = 0 then s.hoOpen h 2
  else
    let s' := s.hoShow h 5 r
    s'.when (s.pair.ho.isSome) fun x => x.onPair fun y => { y with ho := s.pair.ho }

/-- The twin's H2 and H3 as applied (R279, R287). -/
def hoHear (s : State) (h2 h3 : Nat) : State :=
  let id := bits h2 7 0
  let phase := bits h2 10 8
  let mask := bits h2 31 16
  let take := bit h2 11
  let known := !s.fon PAIR_HO.PROP && s.fget PAIR_HO.HOID == id && s.fget PAIR_HO.PHASE != 0
  match s.pair.ho with
  | some h =>
    if h.prop && phase == 1 && h.phase == 1 && s.tick == h.start + 1 then
      if s.unitA then s else (s.hoFail h 5 5).answer id mask (bits h3 47 0) take
    else if h.prop then s
    else if phase == 3 && id == h.id then s.onPair fun x => { x with ho := some { h with commit := true } }
    else if phase == 4 && id == h.id then s.hoFail h 4 0
    else s
  | none => if phase == 1 && !known then s.answer id mask (bits h3 47 0) take else s

/-- The giver compares a moving port with its final record: a port whose power or attach state differs
is kept (R281). -/
def keptPort (s : State) (p : Nat) : Bool :=
  let r := s.pair.frozen.get 0 p
  bits r 35 32 != s.attState p || bits (r / 2 ^ 448) 60 58 != s.pwrState p

/-- The ports of a mask for which `c` holds. -/
def maskOf (s : State) (mask : Nat) (c : Nat → Bool) : Nat :=
  let _ := s
  ((List.range 16).filter fun p => bit mask p && c p).foldl (fun a p => a + 2 ^ p) 0

/-- The handover has moved its ports: HODONE, its command, and what waits on it (R280, R290, R315). -/
def hoDone (s : State) (h : Handover) : State :=
  let s := (s.hoShow h 6 0).hoClose
  let s := (s.pairEv PAIR_EV.HODONE).cntEvent 0x44
  let s := s.when h.withdraw fun s =>
    ((s.fset PAIR_ST.WITHDRAWN 0 1).fset PAIR_ST.ABLE 0 0).onPair fun x => { x with rebal := 0 }
  let s := s.finish h.cmd 0
  match h.resets, h.cmd with
  | true, some (_, tag) => { s with host := { s.host with resetPend := some (tag, 1250, false) } }
  | _, _ => s

/-- Edge s (R281, R282): the giver releases all but the ports it keeps, the receiver applies all. -/
def hoSwitch (s : State) (h : Handover) : State :=
  if h.prop == h.take then
    let s := (s.takePorts h.mask 2 h.id false).onPair fun x =>
      { x with received := h.mask, receivedAt := s.tick }
    s.hoDone h
  else
    let kept := s.maskOf h.mask s.keptPort
    let s := s.releasePorts (h.mask - kept) 1 h.id
    let s := s.when (decide (kept ≠ 0)) fun s => s.pairEv PAIR_EV.HOKEPT
    s.hoDone h

/-! ## Withdrawal and rebalancing (R278, R290) -/

/-- PAIR_WITHDRAW: every owned port is given, then the unit withdraws; with none owned it withdraws at
once. -/
def withdraw (s : State) (cmd : Option (Nat × Nat)) : Nat × State :=
  if s.fget PAIR_ST.OWN = 0 then
    (0, ((s.fset PAIR_ST.WITHDRAWN 0 1).fset PAIR_ST.ABLE 0 0).finish cmd 0)
  else s.propose false (s.fget PAIR_ST.OWN) cmd true false

/-- The handover that restores HOME: this unit gives the ports of the twin's home set it holds, or where
it holds none takes those of its own. -/
def rebalance (s : State) (cmd : Option (Nat × Nat)) : Nat × State :=
  let own := s.fget PAIR_ST.OWN
  let give := own - (own &&& s.homeSet)
  let take := s.homeSet &&& s.fget PAIR_SHOK.TWINOWN
  if give ≠ 0 then s.propose false give cmd false false
  else if take ≠ 0 then s.propose true take cmd false false
  else (0, s.finish cmd 0)

/-! ## Formation (R276) -/

/-- The unit owns exactly `own` by a case of R276 (0: the unit is unpaired). A unit in a class 2 reaction or in unit safe
state holds each port in port safe state (R400, R412). -/
def formWith (s : State) (case_ own : Nat) : State :=
  let s := (s.fset PAIR_ST.FORM 0 case_).setOwn own 5 0
  let s := { s with boot := { s.boot with formT := none } }
  s.forPorts fun p s => s.when (bit own p) fun s =>
    let t := s.boot.ticks + s.boot.early
    let s := ((s.setPwr p 0).fset PRT_ATTST.STATE p 0).onPwr p fun h => { h with offMin := h.offMin.map (· - t) }
    let s := s.onAtt p fun h => { h with
      force := if !s.fon PRT_CCCFG.START p then h.force else if s.fget PRT_CCCFG.ROLE p = 1 then 1 else 3 }
    s.when (decide (2 ≤ (s.react 16).cls)) fun s =>
      { s with weir := { s.weir with ownedSafe := own } }.portSafe p

/-- A unit that owns ports from boot applies the profile its configuration names (R30). -/
def formProfile (s : State) : State :=
  s.when (decide (s.boot.profile ≠ 0 ∧ s.boot.profile ≠ s.prof.cur)) fun s =>
    s.profileAt s.boot.profile (s.tick + 1)

/-- The unit may come to own ports: it has booted, out of loader mode, and is not retired (R333, R436). -/
def mayOwn (s : State) : Bool := s.booted && !s.boot.loader && s.fget OTP_LCST.LC != 4

/-- A unit that booted beside a running twin (cases 2 and 4) takes the profile in force shown in its H0, once
(R30). -/
def joinProfile (s : State) : State :=
  let twin := bits (s.hin 0) 54 53
  s.when (!s.pair.joined && s.pair.hin != [] && decide (s.fget PAIR_ST.FORM = 2 ∨ s.fget PAIR_ST.FORM = 4)) fun s =>
    (s.onPair fun h => { h with joined := true }).when (decide (twin ≠ s.prof.cur ∧ twin ≠ 0)) fun s =>
      s.profileAt twin (s.tick + 1)

/-- The cases of R276 that can be judged once boot is complete. -/
def formation (s : State) : State :=
  if !s.mayOwn ∨ s.fget PAIR_ST.FORM ≠ 0 ∨ s.fget PAIR_ST.OWN ≠ 0 then s
  else if !s.paired then (s.formWith 0 0xFFFF).formProfile
  else if !s.fon PAIR_ST.TWINPWR then (s.formWith 1 0xFFFF).formProfile
  else if s.pair.heard then
    let alone := bit s.pair.word 6 && bits s.pair.word 23 8 == 0
    if bits s.pair.word 23 8 ≠ 0 then (s.formWith 2 0).joinProfile
    else if alone && !s.fon WEIR_ST.USAFE then (s.formWith 5 0xFFFF).formProfile
    else if s.fon WEIR_ST.USAFE then (s.formWith 4 0).joinProfile
    else if s.pair.form.isSome then s
    else if s.pair.hin ≠ [] ∧ s.unitA then
      let s := s.onPair fun h => { h with form := some (s.tick + 2) }
      s.when (decide (s.boot.profile ≠ 0 ∧ s.boot.profile ≠ s.prof.cur)) fun s =>
        ({ s with prof := { s.prof with request := some (s.boot.profile, s.tick) } }).profileAt
          s.boot.profile (s.tick + 2)
    else if s.boot.formT = some 0 then (s.formWith 4 (if s.unitA then 0xFFFF else 0)).joinProfile
    else s
  else (s.formWith 5 0xFFFF).formProfile

/-! ## Takeover, release and conflict (R283 to R288) -/

/-- The unit uses this tick to assume ports it owns from the next edge; a withdrawn unit owns nothing (R290). -/
def assume (s : State) (mask why : Nat) : State :=
  let mask := mask - (mask &&& s.fget PAIR_ST.OWN)
  s.when (decide (mask ≠ 0) && s.mayOwn && !s.fon PAIR_ST.WITHDRAWN) fun s => s.onPair fun h =>
    { h with assume := some ⟨mask ||| ((h.assume.map (·.mask)).getD 0), s.tick + 1, why⟩ }

/-- The twin's heartbeat is lost (R283, R289): in Low Water a unit that takes ports leaves it for Ebb, their engines
woken for this tick. -/
def twinLost (s : State) : State :=
  let ho := s.pair.ho
  let mask := s.fget PAIR_SHOK.TWINOWN ||| ((ho.map (·.mask)).getD 0)
  let s := (s.onPair fun h => { h with lost := true }).fset PAIR_ST.TWINOK 0 0
  let s := s.when s.follower fun s => s.becomeMaster true
  let s := match ho with
    | some h => s.hoFail h 4 7
    | none => s
  let s := s.unitSource 12
  let wakes := s.lowWater && decide (mask ≠ 0)
  let s := s.when wakes fun s => (s.profileAt 2 (s.tick + 1)).forPorts fun p s =>
    s.when (bit mask p) fun s => s.onEngine p fun g => { g with awake := true }
  s.assume mask 3

/-- The ports this unit owned last are those its twin has not shown as owned since; one that neither showed in
the tick judged is turned off (R286). -/
def orphans (s : State) (now : Nat) : State :=
  let mine := s.pair.mine ||| s.pair.ownWas
  let shown := now ||| s.pair.ownWas ||| s.fget PAIR_ST.OWN
  s.onPair fun h => { h with mine := mine - (mine &&& now), orphan := mine - (mine &&& shown) }

/-- The heartbeats of the tick judged at an edge (R264, R286, R288): a tick without a valid word is
missed, and one that only the link brought is a SYNC word missed (R265); ports both showed are settled, those of an
open handover for the giver; ports the twin dropped without a handover may be taken. -/
def judgeBeat (s : State) : State :=
  let ok := s.pair.linkHb || s.pair.syncHb
  let was := s.pair.twinWas
  let own := s.fget PAIR_ST.OWN
  let s := s.weirCond 16 15 (s.pair.linkHb && !s.pair.syncHb)
  let s := if ok then
      let now := bits s.pair.word 23 8
      let exempt := if s.pair.receivedAt + 1 = s.tick then s.pair.received else 0
      let both := (now &&& s.pair.ownWas) - (now &&& s.pair.ownWas &&& exempt)
      let drop := was - (was &&& now)
      let s := ((s.orphans now).fset PAIR_ST.TWINOK 0 1).onPair fun h => { h with
        missed := 0, lost := false, twinWas := now, dropped := drop - (drop &&& own) }
      if both = 0 then s
      else
        let s := (s.unitSource 17).pairEv PAIR_EV.CONFLICT
        let mask := both &&& ((s.pair.ho.map (·.mask)).getD 0)
        let gives := s.pair.ho.any fun h => h.prop != h.take
        let leave := (if gives then 0 else mask) + (if s.unitA then 0 else both - mask)
        if leave = 0 then s else s.releasePorts leave 6
    else s.when s.pair.heard fun s =>
      ((s.fset PAIR_ST.TWINOK 0 0).onPair fun h => { h with missed := min 3 (h.missed + 1), dropped := 0 }).cntEvent
        0x42
  s.onPair fun h => { h with
    linkSeq := if h.linkHb then h.linkSeq else none
    syncSeq := if h.syncHb then h.syncSeq else none
    linkHb := false, syncHb := false }

/-! ## The twin's harbour state (R30, R60, R69, R87, R270) -/

/-- Unit B's command that has met unit A's of the same tick is refused (R31, R67). -/
def collided (s : State) (op : Nat) : State :=
  let hit := s.pair.answers.filter fun (a : Nat × Nat × Nat) => a.1 == op
  let s := s.onPair fun h => { h with answers := h.answers.filter fun (a : Nat × Nat × Nat) => a.1 != op }
  hit.foldl (fun s (a : Nat × Nat × Nat) => s.reply op (byte a.2.1) 0x41) s

/-- Unit B's commands that unit A's would have met by now are answered OK. -/
def answered (s : State) : State :=
  let past := fun (a : Nat × Nat × Nat) => decide (a.2.2 + 2 ≤ s.tick)
  let done := s.pair.answers.filter past
  let s := s.onPair fun h => { h with answers := h.answers.filter fun a => !past a }
  done.foldl (fun s (a : Nat × Nat × Nat) => s.reply a.1 (byte a.2.1) 0) s

/-- A command in which unit A's wins over unit B's of the same tick: A and an unpaired unit answer at
once, B when the tick in which A's would show has passed. -/
def answerLater (s : State) (op : Nat) (tag : Byte) : State :=
  if s.paired ∧ !s.unitA then s.onPair fun h => { h with answers := h.answers ++ [(op, tag.toNat, s.tick)] }
  else s.reply op tag 0

/-- The twin's time binding: one that is new stands, but for unit B's of the same tick (R67, R69). -/
def bindHear (s : State) (old : List Nat) : State :=
  let e := bits (s.hin 5) 47 0
  let same := decide (s.pair.bindAt = some (s.tick - 1))
  if !bit (s.hin 5) 48 ∨ (s.hin 5 = old.getD 5 0 ∧ s.hin 6 = old.getD 6 0) ∨ e ≤ s.tick then s
  else if same ∧ s.unitA then s
  else ((s.when same fun s => s.collided 0xE1).onPair fun h => { h with bind := some (e, s.hin 6), bindAt := none })

/-- The twin joins with no port of its own beside this unit that owns some: it takes this unit's profile (R16,
R30). -/
def twinJoins (s : State) : Bool := decide (bits (s.hin 1) 15 0 = 0) && decide (s.fget PAIR_ST.OWN ≠ 0)

/-- The profile shown and requested by the twin (R29 to R31), with H4 as last applied before. A request newly
carried meets one of unit B's: of the same tick, which is refused; an earlier one, which it replaces; or a later
one, which stands. -/
def profileHear (s : State) (old : Nat) : State :=
  let twin := bits (s.hin 0) 54 53
  let want := bits (s.hin 4) 1 0
  let valid := bit (s.hin 4) 2
  let s := s.joinProfile
  let s := match s.prof.request with
    | some r => if twin = r.1 ∧ s.prof.cur = r.1 then { s with prof := { s.prof with request := none } } else s
    | none => s
  match s.prof.request, valid with
  | some r, true =>
    if s.unitA ∨ want = r.1 ∨ old % 8 = s.hin 4 % 8 ∨ s.tick ≤ r.2 then s
    else
      let s := { s with prof := { s.prof with request := none } }
      (s.when (decide (r.2 + 1 = s.tick)) fun s => s.collided 0x03).profileAt want (s.tick + 1)
  | some _, false => s
  | none, true => s.when (decide (want ≠ s.prof.cur ∧ want ≠ 0)) fun s => s.profileAt want (s.tick + 1)
  | none, false =>
    s.when (decide (twin ≠ s.prof.cur ∧ twin ≠ 0) && s.prof.pend.isEmpty && !s.unitA && !s.twinJoins) fun s =>
      s.profileAt twin (s.tick + 1)

/-- The application of a configuration version that the twin carries in H22 and H23, newly and for an edge to come
(R464; log entry 43). -/
def applyHear (s : State) (old : List Nat) : State :=
  let w := s.hin 22
  let e := bits (s.hin 23) 47 0
  if !bit w 63 ∨ (w = old.getD 22 0 ∧ s.hin 23 = old.getD 23 0) ∨ e ≤ s.tick then s
  else { s with cfg := { s.cfg with
    next := some { edge := e, version := bits w 15 0, how := bits w 23 16, window := bits w 39 24, pair := true } } }

/-- The twin's harbour state applied. -/
def harbourHear (s : State) (w : List Nat) : State :=
  let old := s.pair.hin
  let s := s.onPair fun h => { h with hin := w, hinTick := s.tick, heard := true }
  let s := s.when (!s.lowWater) fun s => { s with prof := { s.prof with wake := false } }
  let s := s.forEach (List.range 16) fun j s => s.fset (PAIR_HSIN.WORD j) 0 (w.getD (8 + j) 0)
  let s := s.fset PAIR_ST.TWINABLE 0 (bits (s.hin 0) 51 51)
  let s := s.when (bits (s.hin 0) 49 48 == s.fget PAIR_ST.POS) fun s => s.clash
  let s := s.when (s.pair.trained && bits (s.hin 7) 31 30 != bits (s.fget DEV_STRAP.STRAP) 7 6) fun s =>
    s.unitSource 11
  let s := s.onPair fun h => { h with trained := false }
  let s := s.when (!s.fon TICK_STATUS.MASTER && !s.fon TICK_STATUS.ADOPTED && bit (s.hin 0) 50) fun s =>
    s.onPair fun h => { h with adopt := some (bits (w.getD 0 0) 47 0 + 1) }
  let s := s.bindHear old
  let s := s.when (bit (s.hin 4) 3 && s.fget PAIR_ST.FORM == 0) fun s =>
    s.onPair fun h => { h with form := some (bits (w.getD 4 0) 63 16) }
  ((s.profileHear (old.getD 4 0)).applyHear old).hoHear (s.hin 2) (s.hin 3)

end State

/-! ## Meanings -/

open State

/-- HARBOUR_STATE_APPLY (R270): the header and all 24 words arrived intact. -/
def execHarbourStateApply (words : List (BitVec 64)) (s : State) : Out :=
  if words.length = 24 ∧ s.paired ∧ 2 ≤ s.fget PAIR_ST.LSTATE then
    .next (s.harbourHear (words.map (·.toNat))).formation
  else .next s

/-- HEARTBEAT_LOST (R283): acts once two consecutive ticks have been judged missed. -/
def execHeartbeatLost (s : State) : Out :=
  if s.paired ∧ 2 ≤ s.pair.missed ∧ !s.pair.lost then .next s.twinLost else .next s

/-- TAKEOVER_FIRST_OWNED_EDGE (R284, R286): the assumed ports are owned from this edge. -/
def execTakeoverFirstOwnedEdge (s : State) : Out :=
  match s.pair.assume with
  | some a =>
    if a.edge ≤ s.tick then
      let s := s.onPair fun h => { h with assume := none }
      .next (((s.takePorts a.mask a.why 0 true).pairEv
        (if a.why = 3 then PAIR_EV.TAKEOVER else PAIR_EV.RELTAKE)).when (a.why == 3) fun s => s.cntEvent 0x45)
    else .next s
  | none => .next s

/-- RELEASE_TAKE (R286): ports of `mask` the twin dropped without a handover are assumed in this tick. -/
def execReleaseTake (mask : BitVec 16) (s : State) : Out :=
  .next ((s.assume (mask.toNat &&& s.pair.dropped) 4).onPair fun h => { h with dropped := 0 })

/-- HANDOVER_COMMIT (R279): the proposer has read the answer of tick n + 2 and carries COMMIT or
ABORT; it commits to nothing while SYNC_LOCK is 0 (R58). -/
def execHandoverCommit (s : State) : Out :=
  match s.pair.ho with
  | some h =>
    if h.prop && h.phase == 1 && decide (h.start + 2 ≤ s.tick) then
      let h2 := s.hin 2
      let heard := s.pair.hinTick == h.start + 2 && bits h2 7 0 == h.id
      if !s.synced then .next (s.hoFail h 4 2)
      else if heard && bits h2 10 8 == 2 then .next (s.hoOpen { h with commit := true } 3)
      else .next (s.hoFail h 4 (if heard && bits h2 10 8 == 5 then bits h2 14 12 else 7))
    else .next s
  | none => .next s

/-- HANDOVER_SWITCH (R279, R281): acts at edge s; an answerer that has read no COMMIT gives up, and no port moves
while SYNC_LOCK is 0 (R58). -/
def execHandoverSwitch (s : State) : Out :=
  match s.pair.ho with
  | some h =>
    if h.edge ≤ s.tick then
      .next (if !h.commit then s.hoFail h 4 7 else if !s.synced then s.hoFail h 4 2 else s.hoSwitch h)
    else .next s
  | none => .next s

/-- HANDOVER_KEPT_RELEASE (R281): at s + 1 the receiver releases what the giver's heartbeat shows kept. -/
def execHandoverKeptRelease (s : State) : Out :=
  let kept := s.pair.received &&& s.fget PAIR_SHOK.TWINOWN
  if s.pair.received = 0 ∨ s.tick < s.pair.receivedAt + 1 then .next s
  else
    let s := s.onPair fun h => { h with received := 0 }
    if kept = 0 then .next s else .next ((s.releasePorts kept 1).pairEv PAIR_EV.HOKEPT)

/-- REBALANCE_DELAY_EXPIRY (R278): ownership has differed from HOME for REBALDLY × 100 ms. -/
def execRebalanceDelayExpiry (s : State) : Out :=
  let d := s.fget PAIR_CFG.REBALDLY
  let own := s.fget PAIR_ST.OWN
  let give := own - (own &&& s.homeSet)
  if d ≠ 0 ∧ d * 12500 ≤ s.pair.rebal ∧ give ≠ 0 ∧ !s.fon PAIR_ST.WITHDRAWN then
    .next ((s.propose false give none false false).2.onPair fun h => { h with rebal := 0 })
  else .next s

/-- FORMATION_EDGE (R276 case 3): each unit takes its HOME set at edge f. -/
def execFormationEdge (s : State) : Out :=
  match s.pair.form with
  | some f =>
    if f ≤ s.tick ∧ s.mayOwn ∧ s.fget PAIR_ST.FORM = 0 then
      .next ((s.formWith 3 s.homeSet).onPair fun h => { h with form := none })
    else .next s
  | none => .next s

/-- PAIR_CTL_GIVE (R279): a refused proposal leaves no trace but HOFAIL. -/
def execPairCtlGive (mask : BitVec 16) (s : State) : Out :=
  let r := s.propose false mask.toNat none false false
  .next (r.2.when (r.1 != 0) fun s => s.pairEv PAIR_EV.HOFAIL)

/-- PAIR_CTL_TAKE (R279). -/
def execPairCtlTake (mask : BitVec 16) (s : State) : Out :=
  let r := s.propose true mask.toNat none false false
  .next (r.2.when (r.1 != 0) fun s => s.pairEv PAIR_EV.HOFAIL)

/-- PAIR_CTL_WITHDRAW (R290). -/
def execPairCtlWithdraw (s : State) : Out :=
  let r := s.withdraw none
  .next (r.2.when (r.1 != 0) fun s => s.pairEv PAIR_EV.HOFAIL)

/-- PAIR_CTL_REBAL (R278). -/
def execPairCtlRebal (s : State) : Out :=
  let r := s.rebalance none
  .next (r.2.when (r.1 != 0) fun s => s.pairEv PAIR_EV.HOFAIL)

end Sys2Proof.Machine
end

