-- ==== Sys2Proof/Machine/Exchange.lean ====
section
/-!
DEFINITION. Live exchange of code (R374 to R378): pending requests, the attempts, the hold and the
restart of an engine from its other instruction bank.
-/
namespace Sys2Proof.Machine.State

/-- PSW.LDEPTH of an engine. -/
def ldepth (g : Engine) : Nat := g.loops.length

/-- The conditions of R376 and R377: waiting in WTICK, INT and TRAP 0, no loop level. -/
def exchangeable (g : Engine) : Bool :=
  decide (g.run = .waiting) && !bit g.psw 5 && !bit g.psw 6 && g.loops.isEmpty

/-- BUSY, and where no engine's exchange is under way, the first attempt at the next edge for the first engine
pending; one picked in this tick gives way to a lower one (R375). -/
def swapNext (s : State) : State :=
  let req := s.fget DEV_SWAP.REQ
  let s := s.fset DEV_SWAP.BUSY 0 (b2n (decide (req ≠ 0)))
  let s := s.forEach (List.range 17) fun e s => s.onEngine e fun g =>
    if g.swap = 1 ∧ g.swapLeft = 1 then { g with swap := 0, swapLeft := 0 } else g
  if (List.range 17).any fun e => (s.engine e).swap != 0 then s
  else match (List.range 17).find? fun e => bit req e with
    | some e => s.onEngine e fun g => { g with swap := 1, swapLeft := 1 }
    | none => s

/-- A write to DEV_SWAP.REQ (R375, R378). -/
def swapRequest (s : State) (mask : Nat) : State :=
  let mask := mask % 2 ^ 17
  if s.lowWater || s.moving then s.fset DEV_SWAPST.FAIL 0 (s.fget DEV_SWAPST.FAIL ||| mask)
  else (s.fset DEV_SWAP.REQ 0 (s.fget DEV_SWAP.REQ ||| mask)).swapNext

/-- The exchange of engine `e` is over: its request clears and the next one's turn comes. -/
def exchangeOver (s : State) (e : Nat) (ok : Bool) : State :=
  let f := if ok then DEV_SWAPST.DONE else DEV_SWAPST.FAIL
  let s := (s.fbit f 0 e true).fbit DEV_SWAP.REQ 0 e false
  (s.onEngine e fun g => { g with swap := 0, swapLeft := 0 }).swapNext

/-- Engine `e` starts at the exchange entry of its other bank, its registers reset (R376, R377). -/
def swapStart (s : State) (e : Nat) : State :=
  let s := s.engineReset e
  let s := s.onEngine e fun g => { g with act := !g.act, pc := 0x000C, run := .running, cyc := 16 }
  (s.fset WDG_ST.SUSP e 0).wdgWindow e true

/-- Engine `e`, at an attempt edge at which the conditions hold, is held: 1 tick, or 125 for EH. -/
def swapHold (s : State) (e : Nat) : State :=
  (s.onEngine e fun g => { g with run := .held, swap := 3, swapLeft := if e = 16 then 125 else 1 }).fset
    WDG_ST.SUSP e 1

end Sys2Proof.Machine.State
end

