-- ==== Sys2Proof/Machine/Flash.lean ====
section
/-!
DEFINITION. The flash (chapters 1, 16 and 17): partitions, the operation queue, the strandline log in
flash, slot descriptors, the boot selector and the signed image.
-/
namespace Sys2Proof.Machine

/-- The partition of a flash address (R24): 0 slot A, 1 slot B, 2 configuration, 3 calibration, 4 keys,
5 log, 6 reserved. -/
def partition (a : Nat) : Nat :=
  if a < 0x200000 then 0
  else if a < 0x400000 then 1
  else if a < 0x800000 then 2
  else if a < 0xA00000 then 3
  else if a < 0xC00000 then 4
  else if a < 0x3E00000 then 5
  else 6

/-- The first address an operation reaches. -/
def FlashOp.start : FlashOp → Nat
  | .erase a _ => a
  | .program a _ => a
  | .replace a _ => a

/-- The bytes an operation reaches. -/
def FlashOp.span : FlashOp → Nat
  | .erase _ n => n
  | .program _ b => b.length
  | .replace _ b => b.length

/-- The operation's address range crosses a partition boundary (R24). -/
def FlashOp.crosses (o : FlashOp) : Bool := partition o.start != partition (o.start + (o.span - 1))

/-- The operation writes the strandline log. -/
def FlashJob.isLog (j : FlashJob) : Bool := decide (j.done = .log) || decide (j.done = .logErase)

/-- The four-byte CRC-32 of R5. -/
def crcBytes (l : List Byte) : List Byte := toBytes 4 (Sys2Proof.Crypto.crc32 l)

namespace State

/-! ## The operation queue (R24) -/

/-- An operation put at the end of `jobs`: the first four are the flash operation queue, and what EH has still to
queue waits behind them (R24; log entry 86). One that crosses a partition boundary is refused. -/
def flashJob (s : State) (op : FlashOp) (done : FlashEnd := .nothing) : State :=
  if op.crosses then s else { s with jobs := s.jobs ++ [⟨op, done⟩] }

/-- Four operations are queued: a host command finds BUSY. -/
def flashFull (s : State) : Bool := decide (4 ≤ s.jobs.length)

/-- The effect of an operation on the array. -/
def flashDo (s : State) : FlashOp → State
  | .erase a n => s.flashErase a n
  | .program a b => s.flashProgram a b
  | .replace a b => (s.flashErase a b.length).flashProgram a b

/-- The array as it will read once every queued operation has completed. -/
def flashAfter (s : State) : State := s.jobs.foldl (fun s j => s.flashDo j.op) s

/-- A partition has an operation in progress (R368). -/
def flashBusyAt (s : State) (a : Nat) : Bool :=
  match s.jobs with
  | j :: _ => partition j.op.start == partition a
  | [] => false

/-- A little-endian number in flash. -/
def flashNum (s : State) (a n : Nat) : Nat := ofBytes (s.flashRead a n)

/-- `n` bytes from `a` are erased. -/
def flashBlank (s : State) (a n : Nat) : Bool :=
  s.flash.all fun (e : Nat × Byte) => decide (e.1 < a ∨ a + n ≤ e.1)

/-! ## The strandline log in flash (R477 to R484) -/

/-- The address of position `k` of log sector `i`. -/
def logAddr (i k : Nat) : Nat := 0xC00000 + 0x10000 * i + 32 * k

/-- A record's 32 bytes (R478). -/
def logBytes (r : LogRec) : List Byte :=
  let b := [byte r.code, byte r.src] ++ toBytes 6 r.tick ++ toBytes 8 r.htime ++ pad 12 r.data
  b ++ crcBytes b

/-- A record of 32 bytes has a good CRC. -/
def logGood (b : List Byte) : Bool := b.drop 28 == crcBytes (b.take 28)

/-- The header of log sector `i`: its number and wrap count. -/
def logHeader (s : State) (i : Nat) : Option (Nat × Nat) :=
  if s.flashGet (logAddr i 0) ≠ 1 ∨ !s.flashSound (logAddr i 0) 32 then none
  else
    let b := s.flashRead (logAddr i 0) 32
    if logGood b then some (ofBytes (slice b 16 4), ofBytes (slice b 20 4)) else none

/-- `a` is the later of two record numbers in modular order. -/
def later (a b : Nat) : Bool := decide ((a + 2 ^ 32 - b) % 2 ^ 32 < 2 ^ 31)

/-- Valid sector headers: sector, number and wrap count. -/
def logHeaders (s : State) : List (Nat × Nat × Nat) :=
  (List.range 800).filterMap fun i => (s.logHeader i).map fun h => (i, h)

/-- A sector-header record (R480, code 0x01). -/
def headerRec (s : State) (wrap : Nat) : LogRec :=
  let num := s.fget LOG_NEXT.NUM
  { code := 1, src := 0xFF, tick := s.tick, htime := s.hostTime,
    data := toBytes 4 num ++ toBytes 4 wrap ++ toBytes 2 (s.fget DEV_CFGST.INFORCE) ++
      [byte (s.fget DEV_CALST.INFORCE), byte (s.fget PAIR_ST.POS + 4 * s.fget OTP_LCST.LC)] }

/-- A record is waiting for its flash operation to complete. -/
def logWriting (s : State) : Bool := s.jobs.any FlashJob.isLog

/-- The write position moves into the next sector: its header, and the erase of the sector after it
(R479). -/
def logMove (s : State) : State :=
  let i := (s.log.sector + 1) % 800
  let wrap := s.fget LOG_WRAP.COUNT + b2n (decide (i = 0))
  let next := (i + 1) % 800
  let s := { s.fset LOG_WRAP.COUNT 0 wrap with log := { s.log with sector := i, pos := 1 } }
  let s := s.flashJob (.program (logAddr i 0) (logBytes (s.headerRec wrap))) .log
  let s := (s.fset LOG_ST.ERASE 0 1).flashJob (.erase (logAddr next 0) 0x10000) .logErase
  match s.logHeader ((i + 2) % 800) with
  | some h => s.fset LOG_OLDEST.NUM 0 h.1
  | none => s

/-- The oldest buffered record is programmed; a record of the drops follows once a place is free
(R481). -/
def logWrite (s : State) : State :=
  match s.log.buf with
  | [] => s
  | r :: rest =>
    let l := s.log
    let drop : List LogRec := if l.drops = 0 then [] else
      [⟨0x10, 0xFF, s.tick, s.hostTime, pad 12 (toBytes 4 l.drops ++ toBytes 6 l.dropTick)⟩]
    ({ s with log := { l with buf := rest ++ drop, drops := 0, pos := l.pos + 1 } }.logFree).flashJob
      (.program (logAddr l.sector l.pos) (logBytes r)) .log

/-- The log located at boot (R484). -/
def logLocate (s : State) : State :=
  match s.logHeaders with
  | [] =>
    let s := { s with log := { s.log with sector := 0, pos := 1 } }
    let s := ((s.fset LOG_NEXT.NUM 0 0).fset LOG_WRAP.COUNT 0 0).fset LOG_OLDEST.NUM 0 0
    let s := (s.fset LOG_ST.ERASE 0 1).flashJob (.erase (logAddr 0 0) 0x20000) .logErase
    (s.flashJob (.program (logAddr 0 0) (logBytes (s.headerRec 0))) .log).fset LOG_ST.READY 0 1
  | h :: t =>
    let newest := t.foldl (fun a b => if later b.2.1 a.2.1 then b else a) h
    let oldest := t.foldl (fun a b => if later b.2.1 a.2.1 then a else b) h
    let i := newest.1
    let pos := ((List.range 2048).find? fun k => s.flashGet (logAddr i k) == 0xFF).getD 2048
    let s := { s with log := { s.log with sector := i, pos := pos } }
    let s := ((s.fset LOG_NEXT.NUM 0 ((newest.2.1 + pos) % 2 ^ 32)).fset LOG_WRAP.COUNT 0
      newest.2.2).fset LOG_OLDEST.NUM 0 oldest.2.1
    let next := (i + 1) % 800
    let s := if s.flashBlank (logAddr next 0) 0x10000 then s
      else (s.fset LOG_ST.ERASE 0 1).flashJob (.erase (logAddr next 0) 0x10000) .logErase
    s.fset LOG_ST.READY 0 1

/-- The number the next record to be put in the buffer will take (R482). -/
def logPredict (s : State) : Nat :=
  let n := s.log.buf.length
  let flying := (s.jobs.filter fun j => decide (j.done = .log)).length
  let turn := b2n (decide (2048 ≤ s.log.pos + n))
  (s.fget LOG_NEXT.NUM + flying + n + turn) % 2 ^ 32

/-- A record that LOG_READ cannot give: its CRC fails, or it holds an uncorrectable word (R483). -/
def logLost : List Byte := [0xFE, 0xFF] ++ List.replicate 30 0

/-- The record at `a` as LOG_READ returns it. -/
def logShown (s : State) (a : Nat) : List Byte :=
  let b := s.flashRead a 32
  if !s.flashSound a 32 then logLost
  else if b.head? = some 0xFF ∨ logGood b then b
  else logLost

/-- The address of record number `n`: in the sector whose header is the latest not after it. -/
def logFind (hs : List (Nat × Nat × Nat)) (n : Nat) : Option Nat :=
  match hs.find? fun h => decide ((n + 2 ^ 32 - h.2.1) % 2 ^ 32 < 2048) with
  | some h => some (logAddr h.1 ((n + 2 ^ 32 - h.2.1) % 2 ^ 32))
  | none => none

/-- What LOG_READ returns: the first number, and where its records stand (R327, R483). -/
def logFrom (s : State) (index count : Nat) : Nat × List (Option Nat) :=
  let oldest := s.fget LOG_OLDEST.NUM
  let next := s.fget LOG_NEXT.NUM
  let held := (next + 2 ^ 32 - oldest) % 2 ^ 32
  let off := (index + 2 ^ 32 - oldest) % 2 ^ 32
  let hs := s.logHeaders
  let at_ := fun (first n : Nat) => (first, (List.range n).map fun i => logFind hs ((first + i) % 2 ^ 32))
  if off < held then at_ index (min count (held - off))
  else if later index next then (next, [])
  else at_ oldest (min count held)

/-- LOG_READ's reply (R327, R483). -/
def logRead (s : State) (index count : Nat) : List Byte :=
  let r := s.logFrom index count
  toBytes 4 r.1 ++ r.2.flatMap fun a => (a.map s.logShown).getD logLost

/-! ## Slots and the boot selector (R443 to R445) -/

/-- The first address of a firmware slot. -/
def slotBase (slot : Nat) : Nat := 0x200000 * slot

/-- The slot's descriptor. -/
def slotDesc (s : State) (slot : Nat) : List Byte := s.flashRead (slotBase slot + 0x1F0000) 48

/-- A slot is complete (R444). -/
def slotComplete (s : State) (slot : Nat) : Bool :=
  s.flashGet (slotBase slot + 0x1F0000) == 0x5A && s.flashSound (slotBase slot + 0x1F0000) 48 &&
    (let d := s.slotDesc slot
     d.drop 44 == crcBytes (d.take 44))

/-- IDENT of the image a slot's descriptor names; 0 while the slot is not complete. -/
def slotIdent (s : State) (slot : Nat) : Nat :=
  if s.slotComplete slot then ofBytes (slice (s.slotDesc slot) 4 4) else 0

/-- One copy of the boot selector: its sequence number and slot, where its CRC matches. -/
def selCopy (s : State) (k : Nat) : Option (Nat × Nat) :=
  let b := s.flashRead (0xBF0000 + 16 * k) 16
  if s.flashSound (0xBF0000 + 16 * k) 16 && b.drop 12 == crcBytes (b.take 12) then some (ofBytes (b.take 4), ofBytes (slice b 4 1) % 2)
  else none

/-- The copy in force and its content; none where neither is valid. -/
def selector (s : State) : Option (Nat × Nat × Nat) :=
  match s.selCopy 0, s.selCopy 1 with
  | some a, some b => if b.1 ≤ a.1 then some (0, a) else some (1, b)
  | some a, none => some (0, a)
  | none, some b => some (1, b)
  | none, none => none

/-- The slot the boot selector names (R445). -/
def selected (s : State) : Nat :=
  match s.selector with
  | some (_, _, slot) => slot
  | none => 0

/-- The boot selector written: the other copy, with the next sequence number (R445). -/
def selectorJob (s : State) (slot : Nat) (done : FlashEnd) : State :=
  let (k, seq) := match s.selector with
    | some (k, seq, _) => (1 - k, seq + 1)
    | none => (0, 1)
  let b := toBytes 4 seq ++ [byte slot] ++ List.replicate 7 0
  s.flashJob (.replace (0xBF0000 + 16 * k) (b ++ crcBytes b)) done

end State

/-! ## The signed image (R443, R446) -/

/-- The header fields of an image: IDENT, KEYID, RLEN and ELEN. -/
structure ImageHead where
  magic : Bool
  ident : Nat
  keyid : List Byte
  rlen : Nat
  elen : Nat

/-- The header of an image from its first 64 bytes. -/
def imageHead (b : List Byte) : ImageHead :=
  { magic := b.take 8 == [0x58, 0x4B, 0x49, 0x4D, 1, 0, 0, 0] && (slice b 24 40).all (· == 0)
    ident := ofBytes (slice b 8 4)
    keyid := slice b 12 4
    rlen := ofBytes (slice b 16 4)
    elen := ofBytes (slice b 20 4) }

/-- The header lies within the ranges of R443. -/
def ImageHead.ok (h : ImageHead) : Bool :=
  h.magic && decide (h.rlen % 4 = 0 ∧ 4 ≤ h.rlen ∧ h.rlen ≤ 32768) &&
    decide (h.elen % 4 = 0 ∧ 4 ≤ h.elen ∧ h.elen ≤ 131072)

/-- The size of the image the header describes. -/
def ImageHead.size (h : ImageHead) : Nat := 192 + h.rlen + h.elen

/-- Steps 3 to 5 of R446 for the bytes of an image, with the KEY region. -/
def imageSigned (key img : List Byte) : Bool :=
  let h := imageHead img
  let code := 64 + h.rlen + h.elen
  let pub := slice img code 64
  let sig := slice img (code + 64) 64
  h.ok && decide (img.length = h.size) && Sys2Proof.Crypto.sha256 pub == key.take 32 &&
    h.keyid == slice key 32 4 &&
    Sys2Proof.Crypto.ecdsaOk (Sys2Proof.Crypto.sha256 (img.take code)) pub sig

end Sys2Proof.Machine
end

