-- ==== Sys2Proof/Machine/Otp.lean ====
section
/-!
DEFINITION. The fuses (chapter 15): the readings of boot, the judgement of the regions, the OTP
controller's operations, and the life cycle.
-/
namespace Sys2Proof.Machine

/-- The life-cycle state named by a life-cycle word: the highest group of 8 with any bit at 1 (R432). -/
def lcOfWord (w : Nat) : Nat :=
  if bits w 31 24 ≠ 0 then 4 else if bits w 23 16 ≠ 0 then 3
  else if bits w 15 8 ≠ 0 then 2 else if bits w 7 0 ≠ 0 then 1 else 0

/-- Regions LC, KEY and SEC (R422). -/
def securityRegion (r : Nat) : Bool := decide (1 ≤ r ∧ r ≤ 3)

namespace State

/-- Word `w` of region `r` as formed at boot (R426). -/
def otpUsed (s : State) (r w : Nat) : Nat := s.otp.used.get 0 (8 * r + w)

/-- The write-lock fuse of a region reads blown. -/
def wlocked (s : State) (r : Nat) : Bool := bit (s.fget OTP_LOCKST.WL) r

/-- The read-lock fuse of a region reads blown. -/
def rlocked (s : State) (r : Nat) : Bool := bit (s.fget OTP_LOCKST.RL) r

/-- The life-cycle state in force (R433). -/
def lifeCycle (s : State) : Nat := s.fget OTP_LCST.LC

/-- SEC byte 0 as used at boot. -/
def secByte (s : State) : Nat := s.otpUsed 3 0 % 256

/-- The presence wiring mode in use (PWIRE). -/
def pwire (s : State) : Nat := s.fget DEV_PRES.MODE

/-! ## Boot (R426, R428) -/

/-- The value used for data word `i` from its readings at the two margins (R426). -/
def formed (i n t : Nat) : Nat :=
  if i = 8 then n ||| t
  else if i = 24 then n ||| (t % 8)
  else n

/-- A region replaced by its defaults (R428). -/
def defaultRegion (s : State) (r : Nat) : State :=
  let u := s.otp.used
  let u := (List.range 8).foldl (fun u w =>
    let i := 8 * r + w
    if i = 8 then u else u.put 0 i (if i = 24 then 0b111 else 0)) u
  (({ s with otp := { s.otp with used := u } }).fbit OTP_REGST.DEFLT 0 r true).unitSource 48

/-- One region judged (R428). -/
def judgeRegion (s : State) (r : Nat) : State :=
  let late := decide (2 ≤ s.lifeCycle)
  let fails :=
    if s.wlocked r then !regionOk r (regionBytes s.otp.used r)
    else securityRegion r && late
  if fails then
    if securityRegion r && late then (s.unitSource 4).holdReset else s.defaultRegion r
  else if s.wlocked r then s.fbit OTP_REGST.GOOD 0 r true
  else s

/-- The flag of word `i` and its region (R426, R429). -/
def setMarginal (s : State) (i : Nat) (m : Bool) : State :=
  let s := s.fbit (OTP_MARGW.MW (i / 64)) 0 (i % 64) m
  let r := i / 8
  let any := bits (s.fget (OTP_MARGW.MW (r / 8))) (8 * (r % 8) + 7) (8 * (r % 8)) != 0
  s.fbit OTP_REGST.MARG 0 r any

/-- The control row's fuses shown in OTP_LOCKST and OTP_LCST: 1 at either margin (R426). -/
def showControl (s : State) : State :=
  let c := s.otp.ctlNormal ||| s.otp.ctlStrict
  let s := (s.fset OTP_LOCKST.WL 0 (bits c 15 0)).fset OTP_LOCKST.RL 0 (bits c 31 16)
  (s.fset OTP_LCST.DBGLOCK 0 (bits c 32 32)).fset OTP_LCST.TAPOFF 0 (bits c 33 33)

/-- The life-cycle state shown: the life-cycle word is 1 where it reads 1 at either margin. -/
def showLife (s : State) : State :=
  s.fset OTP_LCST.LC 0 (lcOfWord (s.otp.normal.get 0 8 ||| s.otp.strict.get 0 8))

/-- The readings of boot taken up: 128 data words and the control row at both margins (R426). -/
def otpBoot (s : State) (n t : List Nat) : State :=
  let tab := fun (l : List Nat) =>
    (List.range 128).foldl (fun (u : Tab Nat) i => u.put 0 i (l.getD i 0)) []
  let used := (List.range 128).foldl
    (fun (u : Tab Nat) i => u.put 0 i (formed i (l_ n i) (l_ t i))) []
  let s := { s with otp := { s.otp with
    normal := tab n, strict := tab t, used := used, op := none
    ctlNormal := l_ n 128 % 2 ^ 34, ctlStrict := l_ t 128 % 2 ^ 34 } }
  let s := s.showControl.showLife
  let marg := (List.range 128).filter fun i => l_ n i != l_ t i
  let s := s.forEach marg fun i s => (s.setMarginal i true).cntEvent 0xA2
  let s := s.when (decide (marg ≠ [])) fun s => s.unitSource 47
  let s := s.forEach (List.range 16) fun r s => s.judgeRegion r
  let s := s.fset DEV_SVID.SVID 0 (s.otpUsed 4 0 % 65536)
  let s := (s.fset DEV_PRES.MODE 0 (s.secByte % 4)).fset DEV_PRES.SEALBRK 0
    (s.fget DEV_SEALRET.BROKE)
  let s := s.when (s.fget DEV_STRAP.PCHK != 2) fun s => s.fset DEV_STRAP.PCHK 0
    (b2n (!s.fon DEV_STRAP.PRES && decide (s.secByte % 4 = 0 ∨ s.secByte % 4 = 3)))
  let s := s.when (bit (s.fget DEV_STRAP.STRAP) 3 && decide (2 ≤ s.lifeCycle)) fun s =>
    s.fset DEV_STRAP.BOOT_IGN 0 1
  { s with boot := { s.boot with otpRead := true } }
where
  /-- Entry `i` of a list of readings. -/
  l_ (l : List Nat) (i : Nat) : Nat := l.getD i 0

/-! ## Rules of the operations (R424, R429 to R434) -/

/-- Every DATA bit of a word already reads 1 at normal margin (R429). -/
def rePulse (s : State) (r w data : Nat) : Bool := data &&& s.otp.normal.get 0 (8 * r + w) == data

/-- OTP_PROGRAM is allowed on a region in the life-cycle state in force (R431). -/
def programAllowed (s : State) (r : Nat) (re : Bool) : Bool :=
  let lc := s.lifeCycle
  if r = 0 then false
  else if securityRegion r then decide (lc ≤ 1) || (decide (lc = 3) && re)
  else if r = 4 then decide (lc ≤ 1 ∨ lc = 3)
  else decide (lc ≤ 1 ∨ lc = 3) || (decide (lc = 2) && !s.wlocked r)

/-- OTP_LOCK is allowed on a region (R431). -/
def lockAllowed (s : State) (r : Nat) : Bool :=
  let lc := s.lifeCycle
  if r = 0 then false
  else if securityRegion r then decide (lc ≤ 1)
  else if r = 4 then decide (lc ≤ 1 ∨ lc = 3)
  else decide (lc ≤ 3)

/-- The conditions of the advance to DEPLOYED at strict margin (R434). -/
def deployReady (s : State) : Bool :=
  let sec := s.otp.strict.get 0 24
  ([1, 2, 3].all fun r => bit s.otp.ctlStrict r && regionOk r (regionBytes s.otp.strict r)) &&
    (!bit sec 2 || decide (sec % 4 = 0 ∨ sec % 4 = 2))

/-- The status an operation is refused with, 0 where it may run. -/
def otpRefusal (s : State) (op r w : Nat) (raw : Bool) (data : Nat) : Nat :=
  match op with
  | 0 | 1 => if s.rlocked r then 0x31 else 0
  | 2 =>
    if raw then if s.lifeCycle ≠ 0 ∨ r = 0 then 0x32 else if w ≠ 0 ∨ 3 < data then 0x12 else 0
    else if !s.programAllowed r (s.rePulse r w data) then 0x32
    else if r = 1 ∧ w = 0 then 0x12
    else if s.wlocked r ∧ !s.rePulse r w data then 0x31 else 0
  | 3 =>
    if !s.lockAllowed r then 0x32
    else if (bit data 0 ∧ s.wlocked r) ∨ (bit data 1 ∧ s.rlocked r) then 0x31 else 0
  | _ =>
    if 4 < r ∨ r ≠ s.lifeCycle + 1 then 0x32
    else if r = 2 ∧ !s.deployReady then 0x32 else 0

/-- An operation started: the controller is busy (R425). -/
def otpStart (s : State) (o : OtpOp) : State :=
  ({ s with otp := { s.otp with op := some o } }).fset OTP_ST.BUSY 0 1

/-- A command's reply at the end of its operation, with the OTP record (R480). -/
def otpReply (s : State) (o : OtpOp) (status : Nat) : State :=
  match o.cmd with
  | some (op, tag) =>
    (s.logRec 0x0D 0xFF [byte op, byte o.region, byte o.word, byte status]).reply op (byte tag) status
  | none => s

/-- The controller is free again with its result. -/
def otpDone (s : State) (o : OtpOp) (status : Nat) : State :=
  (({ s with otp := { s.otp with op := none } }.fset OTP_ST.BUSY 0 0).fset OTP_ST.RESULT 0
    status).otpReply o status

/-- Control-row fuses pulsed: those of `took` read 1 at both margins afterwards, those of `weak` at
normal margin only. -/
def blowControl (s : State) (data took weak : Nat) : State :=
  ({ s with otp := { s.otp with
      ctlNormal := s.otp.ctlNormal ||| (data &&& (took ||| weak))
      ctlStrict := s.otp.ctlStrict ||| (data &&& took) } }).showControl

/-- Fuses of data word `i` pulsed, and its flag rewritten from the verify reading (R426, R429). -/
def blowWord (s : State) (i data took weak : Nat) : State :=
  let n := s.otp.normal.get 0 i ||| (data &&& (took ||| weak))
  let t := s.otp.strict.get 0 i ||| (data &&& took)
  let s := { s with otp := { s.otp with
    normal := s.otp.normal.put 0 i n, strict := s.otp.strict.put 0 i t } }
  (s.setMarginal i (n != t)).fset OTP_ST.MARG 0 (b2n (n != t))

/-- The status after programming: HW_FAULT where a bit still reads 0 at strict margin (R429). -/
def verify (data strict : Nat) : Nat := if data &&& strict = data then 0 else 0x60

/-- An operation ends (R425, R429, R430, R433). `took` and `weak` say which pulsed fuses read 1 at both
margins, and at normal margin only, after the last round. -/
def otpEnd (s : State) (o : OtpOp) (took weak : Nat) : State :=
  let i := 8 * o.region + o.word
  match o.op with
  | 0 | 1 =>
    let n := s.otp.normal.get 0 i
    let t := s.otp.strict.get 0 i
    let s := s.when (n != t) fun s => s.cntEvent 0xA2
    ((s.fset OTP_DATA.DATA 0 (if o.op = 0 then n else t)).fset OTP_ST.MARG 0
      (b2n (n != t))).otpDone o 0
  | 2 =>
    if o.raw then
      let d := (o.data % 2) * 2 ^ o.region + (bits o.data 1 1) * 2 ^ (16 + o.region)
      let up := (took % 2) * 2 ^ o.region + (bits took 1 1) * 2 ^ (16 + o.region)
      let uw := (weak % 2) * 2 ^ o.region + (bits weak 1 1) * 2 ^ (16 + o.region)
      let s := s.blowControl d up uw
      s.otpDone o (verify d s.otp.ctlStrict)
    else
      let s := s.blowWord i o.data took weak
      s.otpDone o (verify o.data (s.otp.strict.get 0 i))
  | 3 =>
    if regionOk o.region (regionBytes s.otp.strict o.region) then
      let d := (o.data % 2) * 2 ^ o.region + (bits o.data 1 1) * 2 ^ (16 + o.region)
      let up := (took % 2) * 2 ^ o.region + (bits took 1 1) * 2 ^ (16 + o.region)
      let uw := (weak % 2) * 2 ^ o.region + (bits weak 1 1) * 2 ^ (16 + o.region)
      let s := s.blowControl d up uw
      s.otpDone o (verify d s.otp.ctlStrict)
    else s.otpDone o 0x33
  | _ =>
    let g := 0xFF * 2 ^ (8 * (o.region - 1))
    let cert := bit s.secByte 2
    let ctl := if o.region = 2 then 2 ^ 33 + b2n cert * 2 ^ 32 else 0
    let s := s.blowControl ctl took weak
    let s := (s.blowWord 8 g took weak).showLife
    s.otpDone o (if verify ctl s.otp.ctlStrict = 0 then verify g (s.otp.strict.get 0 8) else 0x60)

/-- A write of OTP_CTL with OP `op` by EH: a START while the controller is busy is ignored (R425); a
refusal shows in RESULT. -/
def otpCtl (s : State) (op v : Nat) : State :=
  let r := bits v 11 8
  let w := bits v 2 0
  let raw := bit v 12
  let s := ((s.fset OTP_CTL.OP 0 op).fset OTP_CTL.RAW 0 (b2n raw)).fset OTP_CTL.REGION 0 r
  let s := s.fset OTP_CTL.WORD 0 w
  if !bit v 31 ∨ s.fon OTP_ST.BUSY then s
  else
    let d := s.fget OTP_DATA.DATA
    match s.otpRefusal op r w raw d with
    | 0 => s.otpStart ⟨op, r, w, raw, d, none, op == 1⟩
    | st => s.fset OTP_ST.RESULT 0 st

end State

/-! ## Meanings -/

open State

/-- OTP_BOOT_READ (R426, R428): the readings are data words 0 to 127 and then the control row. It runs
once REFOK is 1. -/
def execOtpBootRead (normal strict : List (BitVec 64)) (s : State) : Out :=
  if s.boot.phase = .boot ∧ !s.boot.hold ∧ s.fon DEV_REFST.REFOK ∧ !s.boot.otpRead then
    .next (s.otpBoot (normal.map (·.toNat)) (strict.map (·.toNat)))
  else .next s

/-- OTP_CTL_READ_NORMAL (R425). -/
def execOtpCtlReadNormal (v : BitVec 32) (s : State) : Out := .next (s.otpCtl 0 v.toNat)

/-- OTP_CTL_READ_STRICT (R425). -/
def execOtpCtlReadStrict (v : BitVec 32) (s : State) : Out := .next (s.otpCtl 1 v.toNat)

/-- OTP_CTL_PROGRAM (R429). -/
def execOtpCtlProgram (v : BitVec 32) (s : State) : Out := .next (s.otpCtl 2 v.toNat)

/-- OTP_CTL_LOCK (R430). -/
def execOtpCtlLock (v : BitVec 32) (s : State) : Out := .next (s.otpCtl 3 v.toNat)

/-- OTP_CTL_LC_ADVANCE (R433). -/
def execOtpCtlLcAdvance (v : BitVec 32) (s : State) : Out := .next (s.otpCtl 4 v.toNat)

/-- OTP_OPERATION_COMPLETE (R425, R429, R430, R433). -/
def execOtpOperationComplete (took weak : BitVec 64) (s : State) : Out :=
  match s.otp.op with
  | some o => .next (s.otpEnd o took.toNat weak.toNat)
  | none => .next s

end Sys2Proof.Machine
end

