-- ==== Sys2Proof/Machine/Presence.lean ====
section
/-!
DEFINITION. The presence monitor (R437 to R439): sampling at edges, confirmed levels by wiring mode, the
button window, and the events and records of grants and ends.
-/
namespace Sys2Proof.Machine
namespace State

/-- The reply layout of PRESENCE_STATUS (R332). -/
def presenceData (s : State) : List Byte :=
  [byte (s.fget DEV_PRES.GRANT), byte s.pwire, byte (s.fget DEV_STRAP.PCHK), 0] ++
    toBytes 4 (s.fget DEV_PRES.LEFT)

/-- The window time left in ms, all ones while presence lasts without a window. -/
def presLeft (s : State) : State :=
  s.fset DEV_PRES.LEFT 0
    (if !s.fon DEV_PRES.GRANT then 0
     else match s.pres.window with
      | some t => (t + 124) / 125
      | none => 0xFFFFFFFF)

/-- A PRESENCE event and a strandline record: 0 end, 1 grant, 2 seal break, 3 long press (R480). -/
def presRecord (s : State) (what : Nat) : State := s.logRec 0x0E 0xFF [byte what, byte s.pwire]

/-- Presence may be granted at all: wiring and STUCK (R100, R437). -/
def presAllowed (s : State) : Bool :=
  s.fget DEV_STRAP.PCHK != 2 && s.pwire != 3 && (s.fget DEV_STRAP.PCHK != 1 || s.pres.unstuck)

/-- Presence granted, with a button window or without one. -/
def presGrant (s : State) (window : Option Nat) : State :=
  if !s.presAllowed then s
  else
    let was := s.fon DEV_PRES.GRANT
    let s := ({ s with pres := { s.pres with window := window } }.fset DEV_PRES.GRANT 0 1).presLeft
    if was then s else (s.presRecord 1).hostEvent 12 s.presenceData

/-- Presence ends. -/
def presEnd (s : State) : State :=
  if s.fon DEV_PRES.GRANT then
    let s := ({ s with pres := { s.pres with window := none } }.fset DEV_PRES.GRANT 0 0).presLeft
    (s.presRecord 0).hostEvent 12 s.presenceData
  else s

/-- A low level is confirmed. -/
def presLow (s : State) : State :=
  match s.pwire with
  | 0 => { s with pres := { s.pres with press := some 0 } }
  | 1 => s.presGrant none
  | 2 =>
    let s := if s.fon DEV_SEALRET.BROKE then s
      else ((s.fset DEV_SEALRET.BROKE 0 1).fset DEV_PRES.SEALBRK 0 1).presRecord 2
    s.presGrant none
  | _ => s

/-- A high level is confirmed: in button mode a press of at most 10 s opens the window of 120 s. -/
def presHigh (s : State) : State :=
  let p := s.pres.press
  let s := { s with pres := { s.pres with press := none } }
  match s.pwire, p with
  | 0, some t => if t ≤ 1250000 then s.presGrant (some 15000000) else s
  | _, _ => s

/-- The monitor at an edge that samples PRESENCE_N at `pin`. -/
def presEdge (s : State) (pin : Bool) : State :=
  let h := s.pres
  let high := if pin then min (h.highFor + 1) 125000 else 0
  let s := { s with pres := { h with
    sample := pin
    count := if pin = h.sample then min (h.count + 1) 6250 else 1
    highFor := high
    unstuck := h.unstuck || decide (125000 ≤ high)
    press := h.press.map fun t => min (t + 1) 1250001
    window := h.window.map (· - 1) } }
  let s := s.when (h.press == some 1250000) fun s => (s.fset DEV_PRES.LONG 0 1).presRecord 3
  let s := s.when (s.pwire == 1 && pin) presEnd
  s.presLeft

end State

/-! ## Meanings -/

open State

/-- PRESENCE_LEVEL_CONFIRMED (R437, R438): a level sampled at 6,250 consecutive edges. A fitted jumper whose presence a
high sample ended is confirmed low anew. -/
def execPresenceLevelConfirmed (level : Bool) (s : State) : Out :=
  if s.pres.sample = level ∧ 6250 ≤ s.pres.count ∧
      (!s.pres.known ∨ s.fget DEV_PRES.PIN ≠ b2n level ∨ (s.pwire = 1 ∧ !s.fon DEV_PRES.GRANT)) then
    let s := ({ s with pres := { s.pres with known := true } }).fset DEV_PRES.PIN 0 (b2n level)
    .next (if level then s.presHigh else s.presLow)
  else .next s

/-- PRESENCE_WINDOW_END (R437): acts where the window has run out. -/
def execPresenceWindowEnd (s : State) : Out :=
  if s.pres.window = some 0 then .next s.presEnd else .next s

end Sys2Proof.Machine
end

