-- ==== Sys2Proof/Machine/Bus.lean ====
section
/-!
DEFINITION. The data space of the engines (chapters 12 and 13): banks, memories, registers with what a
write to them starts, mailboxes with the host packet window, locks, and the flash window.

Requesters are numbered here 0 to 15 for E0 to E15, 16 for EH and 17 for the host.
-/
namespace Sys2Proof.Machine
namespace State

/-! ## Host mailboxes (R386) -/

/-- Where packet slot `k` of the host packet buffer begins in memory 0x43. -/
def slotOff (k : Nat) : Nat := 0x420 * k

/-- Where the event data area 0x03:0x1800 begins in memory 0x43. -/
def eventOff : Nat := 0x10000

/-- The descriptor of a packet in queue `q`: 0 U, 1 F, 2 S. -/
def descriptor (s : State) (k : Packet) (q : Nat) : Nat :=
  1 + 256 * k.op + 65536 * k.tag + 2 ^ 24 * q + 2 ^ 32 * k.params.length +
    2 ^ 48 * s.host.slots.get 0 k.tag

/-- A descriptor pushed from front end `id`. -/
def postWord (s : State) (id w : Nat) : State := (s.onMbx id fun m => { m with staged := w }).mbxPush id

/-- Descriptors of accepted fast and slow packets pushed while EH's host mailbox has room. -/
def hostFeed (s : State) : State :=
  let next := ((s.host.fast.map fun k => (k, 1)) ++ s.host.slow.map fun k => (k, 2)).filter
    fun (e : Packet × Nat) => !e.1.posted
  next.foldl (fun s (e : Packet × Nat) =>
    if 8 ≤ (s.mbxEnd 48).rx.length ∨ 8 ≤ (s.mbxEnd 49).unack.length then s
    else
      let mark := fun (k : Packet) => if k.tag = e.1.tag then { k with posted := true } else k
      { s.postWord 49 (s.descriptor e.1 e.2) with host := { s.host with
          fast := s.host.fast.map mark, slow := s.host.slow.map mark } }) s

/-- A packet leaves the interpreter's queues. -/
def dropPacket (s : State) (tag : Nat) : State :=
  let keep := fun (p : Packet) => p.tag != tag
  { s with host := { s.host with
      urgent := s.host.urgent.filter keep, fast := s.host.fast.filter keep,
      slow := s.host.slow.filter keep } }.hostFeed

/-- The final status codes of R12; the others are ACCEPTED and DEFERRED. -/
def finalCodes : List Nat :=
  [0x00, 0x10, 0x11, 0x12, 0x13, 0x20, 0x21, 0x22, 0x30, 0x31, 0x32, 0x33, 0x40, 0x41, 0x50, 0x60]

/-- The status that an entry carries for the code its engine gave: that code where the entry may carry it, and
otherwise one that it may carry, which the spec does not name (R12, R302; a free value, log entry 84). -/
def statusOf (s : State) (may : List Nat) (code : Nat) : Nat × State :=
  if may.contains code then (code, s)
  else
    let d := s.draw 8
    (may.getD (d.1 % may.length) 0, d.2)

/-- An acknowledgement of a command's descriptor by its engine is the command's reply (R386). -/
def hostAck (s : State) (id w code : Nat) : State :=
  let tag := bits w 23 16
  let data := if id = 48 then s.memRead 0x43 (slotOff (bits w 53 48) + 7) s.host.hrlen else []
  let c := s.statusOf (finalCodes ++ [1, 2]) code
  let s := (c.2.dropPacket tag).reply (bits w 15 8) (byte tag) c.1 data
  s.when (decide (c.1 = 1 ∨ c.1 = 2)) fun s => s.openCmd (bits w 15 8) (byte tag)

/-- The front end takes a completion or event that EH sent, and acknowledges it (R386). -/
def frontTake (s : State) : State :=
  match (s.mbxEnd 49).rx with
  | [] => s
  | m :: _ =>
    let w := m.bits
    let op := bits w 15 8
    let tag := bits w 23 16
    let data := s.memRead 0x43 eventOff (min 1023 (bits w 47 32))
    let full := tag == 0xFF && op != 0 && op != 2 && bit s.host.evMask op &&
      decide (64 ≤ s.placeUsed .event)
    let s := s.onMbx 49 fun q => { q with rx := [] }
    let s :=
      if tag = 0xFF then s.hostEvent op data
      else
        let c := s.statusOf finalCodes (bits w 55 48)
        c.2.complete op tag c.1 data
    s.mbxAckTo 48 (if full then 0x20 else 0)

/-! ## Mailbox ends and locks in bank 0x03 (R379, R391) -/

/-- What an offset of bank 0x03 names. -/
inductive Box
  | mbx (id off : Nat)
  | hrlen (off : Nat)
  | lock (l off : Nat)
  | lockOwn (l : Nat)
  | lockEv (off : Nat)
  | window (off : Nat)
  | events (off : Nat)
  deriving DecidableEq, Repr

/-- The offset decoded for engine `e`. -/
def boxAt (e off : Nat) : Option Box :=
  if off < 0x400 then
    if e = 16 then some (.mbx (16 + off / 0x40) (off % 0x40))
    else if off < 0x40 then some (.mbx e off)
    else if off < 0x80 then some (.mbx (32 + e) (off - 0x40))
    else none
  else if off < 0x440 then if e = 16 then some (.mbx 48 (off - 0x400)) else none
  else if off < 0x442 then if e = 16 then some (.hrlen (off - 0x440)) else none
  else if 0x800 ≤ off ∧ off < 0xA00 then
    let s := (off - 0x800) / 0x80
    some (.mbx (if (off / 0x40) % 2 = 0 then 80 + s else 84 + s) (off % 0x40))
  else if 0xA00 ≤ off ∧ off < 0xA20 then some (.lock ((off - 0xA00) / 2) (off % 2))
  else if 0xA40 ≤ off ∧ off < 0xA50 then some (.lockOwn (off - 0xA40))
  else if 0xA50 ≤ off ∧ off < 0xA52 then some (.lockEv (off - 0xA50))
  else if 0x1000 ≤ off ∧ off < 0x1420 then some (.window (off - 0x1000))
  else if 0x1800 ≤ off ∧ off < 0x1C00 then if e = 16 then some (.events (off - 0x1800)) else none
  else none

/-- A mailbox end acts for this engine: a shared end only for its lock's owner (R391). -/
def mbxHeld (s : State) (e id : Nat) : Bool :=
  decide (id < 80) || decide (s.lockOwner (mbxLock id) = e + 1)

/-- The urgent and the host mailbox end: no MBX_TX, MBX_ACKIN or MBX_AGE on the urgent one. -/
def mbxUrgent (id : Nat) : Bool := decide (32 ≤ id ∧ id < 48)

/-- Byte `k` of a number. -/
def byteOf (v k : Nat) : Nat := v / 256 ^ k % 256

/-- A load of byte `o` of a mailbox end block by engine `e` (R380 to R391); none where no register
stands. -/
def mbxRead (s : State) (e id o : Nat) : Option (Nat × State) :=
  let m := s.mbxEnd id
  let held := s.mbxHeld e id
  let head := match m.rx with
    | w :: _ => w.bits
    | [] => 0
  if o < 8 then some (0, s)
  else if o < 16 then
    if !held then some (0, if o = 15 then s.mbxEv id 7 else s)
    else some (byteOf head (o - 8), if o = 15 then s.mbxPop id else s)
  else if o < 0x14 then some (if held then byteOf (s.mbxSt id) (o - 0x10) else 0, s)
  else if o < 0x16 then some (0, s)
  else if o < 0x18 then none
  else if o < 0x1C then
    if !held ∨ mbxUrgent id then some (0, s)
    else if o = 0x18 then
      let s := s.mbxAckIn id
      some (byteOf (s.mbxEnd id).ackRead 0, s)
    else some (byteOf m.ackRead (o - 0x18), s)
  else if o < 0x1E then some (byteOf (mbxEvWord m) (o - 0x1C), s)
  else if o < 0x20 then some (byteOf m.ie (o - 0x1E), s)
  else if o < 0x22 then some (if held ∧ !mbxUrgent id then byteOf (mbxAge m) (o - 0x20) else 0, s)
  else if o = 0x22 ∧ 80 ≤ id then some (s.lockTake e (mbxLock id))
  else if o = 0x23 ∧ 80 ≤ id then some (s.lockOwner (mbxLock id), s)
  else none

/-- A push by engine `e`; EH's push into the host mailbox reaches the front end. -/
def mbxPushBy (s : State) (id : Nat) : State :=
  let s := s.mbxPush id
  s.when (decide (id = 48) && (s.mbxEnd 49).rx.any (·.last)) frontTake

/-- An acknowledgement by the engine of an end; of a command's descriptor it is the reply. -/
def mbxAckBy (s : State) (id code : Nat) : State :=
  let first := (s.mbxEnd id).popped.head?
  let s := s.mbxAck id code
  match first with
  | some w => if 32 ≤ id ∧ id < 49 then s.hostAck id w code else s
  | none => s

/-- A store to byte `o` of a mailbox end block. -/
def mbxWrite (s : State) (e id o b : Nat) : Option State :=
  let held := s.mbxHeld e id
  let deny := some (s.mbxEv id 7)
  let put := fun (v k : Nat) => v - byteOf v k * 256 ^ k + b * 256 ^ k
  if o < 8 then
    if mbxUrgent id then some s
    else if !held then if o = 7 then deny else some s
    else
      let s := s.onMbx id fun m => { m with staged := put m.staged o }
      some (if o = 7 then s.mbxPushBy id else s)
  else if o < 0x14 then some s
  else if o = 0x14 then if held then some (s.mbxAckBy id b) else deny
  else if o = 0x15 then some s
  else if o < 0x18 then none
  else if o < 0x1C then some s
  else if o = 0x1C then
    if held then some (s.onMbx id fun m => { m with ev := m.ev - (m.ev &&& (b &&& 0xFD)) }) else deny
  else if o = 0x1E then some (if held then s.onMbx id fun m => { m with ie := b } else s)
  else if o < 0x22 then some s
  else if o = 0x22 ∧ 80 ≤ id then some (s.lockRelease e (mbxLock id) b)
  else if o = 0x23 ∧ 80 ≤ id then some s
  else none

/-- The packet slot the window of engine `e` shows: of the oldest message popped and not acknowledged,
or of the head message of its host mailbox. -/
def windowSlot (s : State) (e : Nat) : Option Nat :=
  let m := s.mbxEnd (if e = 16 then 48 else 32 + e)
  match m.popped, m.rx with
  | w :: _, _ => some (bits w 53 48)
  | [], w :: _ => some (bits w.bits 53 48)
  | [], [] => none

/-- A load of bank 0x03. -/
def boxRead (s : State) (e off : Nat) : Option (Nat × State) :=
  match boxAt e off with
  | none => none
  | some (.mbx id o) => s.mbxRead e id o
  | some (.hrlen o) => some (byteOf s.host.hrlen o, s)
  | some (.lock l o) => if o = 0 then some (s.lockTake e l) else some (0, s)
  | some (.lockOwn l) => some (s.lockOwner l, s)
  | some (.lockEv o) => some (byteOf (s.lockEv.get 0 e) o, s)
  | some (.window o) =>
    some (match s.windowSlot e with
      | some k => (s.memGet 0x43 (slotOff k + o)).toNat
      | none => 0, s)
  | some (.events o) => some ((s.memGet 0x43 (eventOff + o)).toNat, s)

/-- A store to bank 0x03. MBX_HRLEN holds 0 to 1,023 (R9); a store of more leaves 1,023, the model's choice (DESIGN
CHOICE, log entry 110). -/
def boxWrite (s : State) (e off b : Nat) : Option State :=
  match boxAt e off with
  | none => none
  | some (.mbx id o) => s.mbxWrite e id o b
  | some (.hrlen o) =>
    let v := s.host.hrlen
    let v := (v - byteOf v o * 256 ^ o + b * 256 ^ o) % 2048
    some { s with host := { s.host with hrlen := min v 1023 } }
  | some (.lock l o) => some (if o = 0 then s.lockRelease e l b else s)
  | some (.lockOwn _) => some s
  | some (.lockEv o) =>
    let v := s.lockEv.get 0 e
    some { s with lockEv := s.lockEv.put 0 e (v - (v &&& b * 256 ^ o)) }
  | some (.window o) =>
    some (match s.windowSlot e with
      | some k => s.when (decide (e = 16)) fun s => s.memPut 0x43 (slotOff k + o) (byte b)
      | none => s)
  | some (.events o) => some (s.memPut 0x43 (eventOff + o) (byte b))

/-! ## What a register write starts (R9) -/

/-- FORCE written in PRT_CCCTL, applied at the next edge; a command whose value it writes over ends
(R115, R317). -/
def forceWrite (s : State) (p v : Nat) (cmd : Option ForceCmd) : State :=
  let s := match (s.att p).forceCmd with
    | some c => if c.event then s.complete c.op c.tag 0x22 else s.reply c.op (byte c.tag) 0x22
    | none => s
  s.onAtt p fun h => { h with force := v, forceCmd := cmd }

/-- PRT_CCCTL's actions. -/
def ccctlWrite (s : State) (p v mask : Nat) : State :=
  let f := fldMask PRT_CCCTL.FORCE (v &&& mask)
  let s := s.when (decide (f = 1 ∨ f = 2) || (decide (f = 3) && decide (s.attState p = 0))) fun s =>
    s.forceWrite p f none
  s.when (decide (fldMask PRT_CCCTL.ROLESW (v &&& mask) = 1) &&
      decide (s.attState p = 4 ∨ s.attState p = 7)) fun s => s.onAtt p fun h => { h with roleSw := true }

/-- Force bits of a scope that went from 0 to 1 record events (R395). -/
def forceEvents (s : State) (sc old : Nat) : State :=
  let now := s.fget (forceOf sc) (scIdx sc)
  s.forEach (List.range (scCount sc)) fun i s =>
    s.when (bit now i && !bit old i) fun s => s.weirEvent sc i

/-- A placement of the flash window, in force at the next edge, or refused (R368). -/
def flWinWrite (s : State) (base : Nat) : State :=
  let lo := base * 0x10000
  let hi := lo + 0x400000
  if 1024 < base + 64 ∨ (lo < 0xC00000 ∧ 0xA00000 < hi) then s.fset FL_WIN.REFUSED 0 1
  else s.fset FL_WIN.BASE 0 base

/-- PAIR_CTL's actions. -/
def pairCtlWrite (s : State) (v mask : Nat) : State :=
  let x := v &&& mask
  let s := s.when (decide (fldMask PAIR_CTL.MASK mask ≠ 0)) fun s =>
    s.fset PAIR_CTL.MASK 0 (fldMask PAIR_CTL.MASK x)
  let run := fun (s : State) (r : Nat × State) => if r.1 = 0 then r.2 else s.pairEv PAIR_EV.HOFAIL
  let m := s.fget PAIR_CTL.MASK
  let s := match fldMask PAIR_CTL.OP x with
    | 1 => run s (s.propose false m none false false)
    | 2 => run s (s.propose true m none false false)
    | _ => s
  let s := s.when (bit x 4) retrain
  let s := s.when (bit x 3) fun s => run s (s.withdraw none)
  s.when (bit x 2) fun s => run s (s.rebalance none)

/-- The mask of a write without the bits that R237 and R14 make ignored. -/
def openMask (s : State) (r : Reg) (i mask : Nat) : Nat :=
  if r.base = (PRT_CMP.reg 6).base ∨ r.base = (PRT_CMP.reg 7).base then mask &&& 2 ^ 23
  else if (r.base = (PRT_CMP.reg 0).base ∨ r.base = (PRT_CMP.reg 1).base) ∧ s.fon PRT_ILIM.AUTO i then
    mask - (mask &&& 0x3FF)
  else if r.base = (PRT_PDTIM.reg 2).base then 0
  else if r.base = PRT_MUX.reg.base ∧ !s.owns i then 0
  else if r.base = QD_JCFG.reg.base then mask - (mask &&& 2 ^ 8)
  else mask

/-- The actions of the port and quad registers; the FLIP written to PRT_MUX.STATE is not used (R245). -/
def portAction (s : State) (r : Reg) (i v mask : Nat) : State :=
  if r.base = PRT_CCCTL.reg.base then s.ccctlWrite i v mask
  else if r.base = PRT_ILIM.reg.base then
    s.when (decide (fldMask PRT_ILIM.LIM mask ≠ 0)) fun s => s.writeLim i (s.fget PRT_ILIM.LIM i)
  else if r.base = PRT_MIRCMT.reg.base then s.when (bit (v &&& mask) 0) fun s => s.mirrorExchange i
  else if r.base = PRT_EHEAD.reg.base then s.onPwr i fun h => { h with headNow := true }
  else if r.base = PRT_PWRCTL.reg.base then s.setDis i
  else if r.base = PRT_MUX.reg.base then s.when (s.owns i) fun s => s.setMux i (s.fget PRT_MUX.STATE i / 2)
  else s

/-- The actions of the weir and watchdog registers; `old` is the register before the write. -/
def weirAction (s : State) (r : Reg) (i v mask old : Nat) : State :=
  let x := v &&& mask
  if r.base = WDG_CHK.reg.base then s.when (decide (mask ≠ 0)) fun s => s.wdgCheckIn i (x % 256)
  else if r.base = WDG_SVC.reg.base then s.when (decide (mask ≠ 0)) fun s => s.wdgService i (x % 256)
  else if r.base = WDG_CFG.reg.base then
    if s.fget WDG_CFG.CLOSE i ≤ s.fget WDG_CFG.OPEN i then s.rput WDG_CFG.reg i old else s
  else if r.base = WEIR_PREC.reg.base then
    s.when (decide (mask % 256 ≠ 0 ∧ x % 32 ≤ 23)) fun s => s.portSource i (x % 32)
  else if r.base = WEIR_UREC.reg.base then
    s.when (decide (mask % 256 ≠ 0 ∧ x % 64 ≤ 49)) fun s => s.unitSource (x % 64)
  else if r.base = WEIR_PFRC.reg.base then s.forceEvents i old
  else if r.base = WEIR_UFRC.reg.base then s.forceEvents 16 old
  else if r.base = WEIR_CTL.reg.base then
    s.when (decide (fldMask WEIR_CTL.FREL x = 1)) faultReleaseWrite
  else if r.base = WEIR_PSEV.reg.base ∨ r.base = WEIR_USEV.reg.base ∨ r.base = WEIR_CFG.reg.base then
    s.refreshFault
  else s

/-- The actions of the other unit registers. -/
def unitAction (s : State) (r : Reg) (v mask : Nat) : State :=
  let x := v &&& mask
  if r.base = DEV_EDDY.reg.base then
    s.when (bit x 4 && s.calMay) fun s => s.calStart (s.fget DEV_EDDY.PORT)
  else if r.base = DEV_SWAP.reg.base then s.swapRequest (fldMask DEV_SWAP.REQ x)
  else if r.base = OTP_CTL.reg.base then
    s.when (bit x 31) fun s => s.otpCtl (s.fget OTP_CTL.OP) (s.rget OTP_CTL.reg ||| 2 ^ 31)
  else if r.base = PAIR_CTL.reg.base then s.pairCtlWrite v mask
  else if r.base = CNT_CTL.reg.base then s.fset CNT_CTL.CLR 0 (s.fget CNT_CTL.CLR ||| x)
  else s

/-- The counter setting at a register address: its count and snapshot clear at the next edge (R470). -/
def cntAction (s : State) (r : Reg) : State :=
  if 0xF40000 ≤ r.base ∧ r.base < 0xF40080 then
    let k := (r.base - 0xF40000) / 4
    let c := s.cnts.get {} k
    { s with cnts := s.cnts.put {} k { c with fresh := true } }
  else s

/-- A write of the masked bits of `v` to a register, and what it starts. -/
def regWrite (s : State) (e : Nat) (r : Reg) (i v mask : Nat) : State :=
  let eh := decide (16 ≤ e)
  if (r.base = QD_JCFG.reg.base ∧ !eh) then s
  else if r.base = FL_WIN.reg.base then
    let s := s.fieldWrite .w1c FL_WIN.REFUSED 0 v mask true
    s.when (decide (fldMask FL_WIN.BASE mask ≠ 0)) fun s =>
      let old := s.fget FL_WIN.BASE
      let m := fldMask FL_WIN.BASE mask
      s.flWinWrite ((old - (old &&& m) + (fldMask FL_WIN.BASE v &&& m)) % 1024)
  else if r.base = DEV_SWAP.reg.base then s.unitAction r v mask
  else
    let old := s.rget r i
    let mask := s.openMask r i mask
    let s := s.regStore r i v mask eh
    if 0xFC0000 ≤ r.base then s.portAction r i v mask
    else if 0xF30000 ≤ r.base ∧ r.base < 0xF40000 then s.weirAction r i v mask old
    else (s.unitAction r v mask).cntAction r

/-! ## Registers by address -/

/-- The address in EH's space of a register that engine `e` reaches at `bank:off` (R366, R367). -/
def regPlace (e bank off : Nat) : Option Nat :=
  let own := if bank = 4 then
      if off < 0x10 then some (0xF00000 + off)
      else if 0x100 ≤ off ∧ off < 0x120 then some (0xF31800 + 0x20 * e + (off - 0x100))
      else if 0x200 ≤ off ∧ off < 0x400 then
        if e = 16 then some (0xF30000 + (off - 0x200))
        else if off < 0x300 then some (0xF30200 + 0x100 * e + (off - 0x200)) else none
      else none
    else none
  if bank = 4 then own
  else if e < 16 then
    if bank = 1 ∧ off < 0x1000 then some (0xFC0000 + 0x1000 * e + off)
    else if bank = 2 ∧ off < 0x1000 then some (0xFD0000 + 0x1000 * (e / 4) + off)
    else none
  else if 0xF0 ≤ bank ∧ bank ≤ 0xF8 ∧ bank ≠ 0xF7 then some (bank * 0x10000 + off)
  else if bank = 0xFC ∨ bank = 0xFD then some (bank * 0x10000 + off)
  else none

/-- A register whose byte 0 latches its upper bytes when it is read (R68). -/
def coherent (r : Reg) : Bool :=
  r.base == TICK_COUNT.reg.base || r.base == CNT_SNAPTICK.reg.base ||
    decide (0xF40100 ≤ r.base ∧ r.base < 0xF40300)

/-- A load of one or two bytes, `n`, from a register. -/
def regLoad (s : State) (e : Nat) (r : Reg) (i j n : Nat) : Nat × State :=
  let take := fun (v : Nat) => v / 256 ^ j % 256 ^ n
  if r.base = TICK_CYCLE.reg.base then
    let d := s.draw 11
    (take (d.1 % 2000), d.2)
  else
    let v := s.regRead r i
    if coherent r ∧ e < 17 then
      if j = 0 then (take v, s.onEngine e fun g => { g with coh := g.coh.put none r.base (some v) })
      else (take (((s.engine e).coh.get none r.base).getD v), s)
    else (take v, s.regCleared r i ((256 ^ n - 1) * 256 ^ j))

/-! ## Memories by address -/

/-- The memory (WEIR_ECC.UMEM) and offset that engine `e` reaches at `bank:off`. -/
def memPlace (s : State) (e bank off : Nat) : Option (Nat × Nat) :=
  if bank = 0 then if e = 16 then some (0x10, off) else if off < 0x4000 then some (e, off) else none
  else if bank = 1 ∧ e = 16 then some (0x10, 0x10000 + off)
  else if 0x10 ≤ bank ∧ bank ≤ 0x17 then some (0x40, (bank - 0x10) * 0x10000 + off)
  else if bank = 0x20 then some (0x41, off)
  else if bank = 0x21 then some (0x41, 0x10000 + off)
  else if e < 16 then none
  else if bank = 0xF8 ∧ off < 0x800 then some (0x42, off)
  else if bank = 0xF9 then
    let k := s.fget DEV_IBSEL.ENG
    let half := if k = 16 then 0x10000 * s.fget DEV_IBSEL.HALF else 0
    if k < 16 ∧ 0x8000 ≤ off then none
    else some (if k = 16 then 0x30 else 0x20 + k,
      (if (s.engine k).act then 0 else 0x100000) + half + off)
  else none

/-- A store to a memory is carried out and not ignored: a rill engine writes only its own outbound
record buffers of the mirror memories, and the standby bank of an engine with an exchange pending is
not written (R374, the mirror buffer table). -/
def memOpen (s : State) (e bank off : Nat) : Bool :=
  if bank = 0x20 ∨ bank = 0x21 then
    decide (16 ≤ e) || decide (bank = 0x20 ∧ 0x80 * e ≤ off ∧ off < 0x80 * e + 0x80)
  else if bank = 0xF9 then !bit (s.fget DEV_SWAP.REQ) (s.fget DEV_IBSEL.ENG)
  else true

/-- The requester for the access codes of a register: an engine's own watchdog is read-only there. -/
def writerOf (e bank off : Nat) : Nat := if bank = 4 ∧ off < 0x200 then min e 15 else e

/-- The flash address that the window shows at `bank:off` (R368). -/
def windowAddr (s : State) (bank off : Nat) : Nat := s.eget FL_WIN.BASE * 0x10000 + (bank - 0x40) * 0x10000 + off

/-- `bank:off` stands in a flash window, over a word found uncorrectable (R413). -/
def windowBad (s : State) (bank off : Nat) : Bool :=
  decide (0x40 ≤ bank ∧ bank ≤ 0x7F) && !s.flashSound (s.windowAddr bank off) 1

/-- A load of one byte by requester `e` from the data space; none is an access violation (R367). -/
def load8 (s : State) (e bank off : Nat) : Option (Nat × State) :=
  if bank = 3 then s.boxRead (min e 16) off
  else if 0x40 ≤ bank ∧ bank ≤ 0x7F then
    let a := s.windowAddr bank off
    if s.flashBusyAt a then none else some ((s.flashGet a).toNat, s)
  else match (regPlace e bank off).bind regAt with
    | some (r, i, j) => some (s.regLoad e r i j 1)
    | none => (s.memPlace e bank off).map fun m => ((s.memGet m.1 m.2).toNat, s)

/-- A store of one byte by requester `e`. -/
def store8 (s : State) (e bank off b : Nat) : Option State :=
  if bank = 3 then s.boxWrite (min e 16) off b
  else if 0x40 ≤ bank ∧ bank ≤ 0x7F then none
  else match (regPlace e bank off).bind regAt with
    | some (r, i, j) =>
      if bank = 4 ∧ off < 0x10 then some s
      else some (s.regWrite (writerOf e bank off) r i (b * 256 ^ j) (255 * 256 ^ j))
    | none => (s.memPlace e bank off).map fun m =>
      s.when (s.memOpen e bank off) fun s => s.memPut m.1 m.2 (byte b)

/-- A load of 16 bits at an even offset, little-endian and atomic (R339). -/
def load16 (s : State) (e bank off : Nat) : Option (Nat × State) :=
  match (regPlace e bank off).bind regAt with
  | some (r, i, j) =>
    if j + 2 ≤ r.bytes then some (s.regLoad e r i j 2)
    else (s.load8 e bank off).bind fun a => (a.2.load8 e bank (off + 1)).map fun b =>
      (a.1 + 256 * b.1, b.2)
  | none => (s.load8 e bank off).bind fun a => (a.2.load8 e bank (off + 1)).map fun b =>
      (a.1 + 256 * b.1, b.2)

/-- A store of 16 bits at an even offset. -/
def store16 (s : State) (e bank off v : Nat) : Option State :=
  match (regPlace e bank off).bind regAt with
  | some (r, i, j) =>
    if j + 2 ≤ r.bytes then
      if bank = 4 ∧ off < 0x10 then some s
      else some (s.regWrite (writerOf e bank off) r i (v * 256 ^ j) (65535 * 256 ^ j))
    else (s.store8 e bank off (v % 256)).bind fun s => s.store8 e bank (off + 1) (v / 256 % 256)
  | none => (s.store8 e bank off (v % 256)).bind fun s => s.store8 e bank (off + 1) (v / 256 % 256)

end State

/-! ## Meanings -/

open State

/-- Bank 0x03 offset `off` in the block of an end. -/
def boxEnd (e off : Nat) : Option (Nat × Nat) :=
  match boxAt e off with
  | some (.mbx id o) => some (id, o)
  | _ => none

/-- MBX_PUSH (R380): a store to byte 7 of MBX_TX at `base` of bank 0x03. -/
def execMbxPush (e : Eng) (base : BitVec 16) (b : Byte) (s : State) : Out :=
  .next ((s.boxWrite e (base.toNat + 7) b.toNat).getD s)

/-- MBX_POP (R380): a load of byte 7 of MBX_RX. -/
def execMbxPop (e : Eng) (base : BitVec 16) (s : State) : Out :=
  .next (((s.boxRead e (base.toNat + 15)).map (·.2)).getD s)

/-- MBX_ACK (R382): a store to byte 0 of MBX_ACK. -/
def execMbxAck (e : Eng) (base : BitVec 16) (b : Byte) (s : State) : Out :=
  .next ((s.boxWrite e (base.toNat + 0x14) b.toNat).getD s)

/-- MBX_ACKIN_READ (R382): a read of byte 0 of MBX_ACKIN. -/
def execMbxAckinRead (e : Eng) (base : BitVec 16) (s : State) : Out :=
  .next (((s.boxRead e (base.toNat + 0x18)).map (·.2)).getD s)

/-- LOCK_TAKE (R389): a load of byte 0 of the lock at `off` of bank 0x03. -/
def execLockTake (e : Eng) (off : BitVec 16) (s : State) : Out :=
  .next (((s.boxRead e off.toNat).map (·.2)).getD s)

/-- LOCK_RELEASE (R390): a store to byte 0 of the lock at `off` of bank 0x03. -/
def execLockRelease (e : Eng) (off : BitVec 16) (b : Byte) (s : State) : Out :=
  .next ((s.boxWrite e off.toNat b.toNat).getD s)

/-- SWAP_REQUEST (R375, R378). -/
def execSwapRequest (v : BitVec 32) (s : State) : Out := .next (s.swapRequest v.toNat)

/-- FLASH_WINDOW_PLACE (R368). -/
def execFlashWindowPlace (v : BitVec 16) (s : State) : Out :=
  .next (s.regWrite 16 FL_WIN.reg 0 v.toNat 0xFFFF)

/-- CNT_CTL_CLEAR (R474): the counters clear at the next edge. -/
def execCntCtlClear (mask : BitVec 32) (s : State) : Out :=
  .next (s.regWrite 16 CNT_CTL.reg 0 mask.toNat 0xFFFFFFFF)

/-- TICK_COUNT_READ (R68): a read of byte 0 of TICK_COUNT latches bytes 1 to 5 for the reader. -/
def execTickCountRead (e : Eng) (s : State) : Out := .next (s.regLoad e TICK_COUNT.reg 0 0 1).2

/-- RC_REGISTER_READ (R9): a read by EH of `size` bytes at an address of its space clears the RC fields
it covers. -/
def execRcRegisterRead (addr : BitVec 24) (size : Nat) (s : State) : Out :=
  let a := addr.toNat
  .next ((List.range size).foldl (fun s k =>
    ((s.load8 16 ((a + k) / 0x10000) ((a + k) % 0x10000)).map (·.2)).getD s) s)

/-- REGISTER_WRITE (R9): a write by an engine, of one or two bytes, or of a whole register. An address
that holds no register changes nothing. -/
def execRegisterWrite (e : Eng) (addr : BitVec 24) (bytes : List Byte) (s : State) : Out :=
  let a := addr.toNat
  match (regPlace e (a / 0x10000) (a % 0x10000)).bind regAt with
  | some (r, i, j) =>
    if a / 0x10000 = 4 ∧ a % 0x10000 < 0x10 then .next s
    else .next (s.regWrite (writerOf e (a / 0x10000) (a % 0x10000)) r i (ofBytes bytes * 256 ^ j) ((256 ^ bytes.length - 1) * 256 ^ j))
  | none => .next s

end Sys2Proof.Machine
end

