-- ==== Sys2Proof/Machine/Versions.lean ====
section
/-!
DEFINITION. Configuration and calibration versions (chapter 16): the places of the two stores, the blob
of a configuration version, applying, confirming, reverting and returning a version.

Stores are numbered 0 (configuration) and 1 (calibration), as VERSION events number them.
-/
namespace Sys2Proof.Machine

/-! ## The blob (R458) -/

/-- The unit registers of a blob in the order of R458, each with its index. -/
def cfgUnitRegs : List (Reg × Nat) :=
  [(WEIR_CFG.reg, 0)] ++ (List.range 64).map (fun i => (WEIR_UCFG.reg i, 0)) ++
    (List.range 17).map (fun k => (WDG_CFG.reg, k)) ++ [(PAIR_CFG.reg, 0)] ++
    (List.range 4).map (fun q => (QD_JCFG.reg, q)) ++ [(DEV_CALLIM.reg, 0)]

/-- The registers of port `p` in a blob: those of R319 and its weir settings. -/
def cfgPortRegs (p : Nat) : List (Reg × Nat) :=
  (portCfgRegs ++ portEventRegs ++ (List.range 24).map WEIR_PCFG.reg).map fun r => (r, p)

/-- Register contents read off the front of a list of bytes. -/
def takeRegs : List (Reg × Nat) → List Byte → List (Reg × Nat × Nat)
  | [], _ => []
  | (r, i) :: t, b => (r, i, ofBytes (b.take r.bytes)) :: takeRegs t (b.drop r.bytes)

/-- Bytes that a list of registers takes. -/
def regsLen (l : List (Reg × Nat)) : Nat := (l.map fun r => r.1.bytes).foldl (· + ·) 0

/-- One port's part of a blob. -/
structure PortPart where
  regs : List (Reg × Nat × Nat)
  energy : EnergyCfg
  /-- The initial content of its extension block, offsets 0x000 to 0x37F. -/
  block : Option (List Byte)

/-- The energy model of 32 bytes: six coefficients, tjmax, guard, and B and resistance of the NTC. -/
def energyOf (b : List Byte) : EnergyCfg :=
  { coeffs := (List.range 6).map fun k => ofBytes (slice b (4 * k) 4)
    tjmax := ofBytes (slice b 24 1)
    guard := ofBytes (slice b 25 1)
    beta := ofBytes (slice b 26 2)
    r25 := ofBytes (slice b 28 2) }

/-- The parts of `n` ports from port `p` on, and the bytes after them. -/
def takePorts : Nat → Nat → List Byte → List PortPart × List Byte
  | 0, _, b => ([], b)
  | n + 1, p, b =>
    let l := cfgPortRegs p
    let k := regsLen l
    let flag := ofBytes (slice b (k + 32) 4)
    let blk := if flag = 1 then some (slice b (k + 36) 0x380) else none
    let rest := takePorts n (p + 1) (b.drop (k + 36 + if flag = 1 then 0x380 else 0))
    (⟨takeRegs l b, energyOf (slice b k 32), blk⟩ :: rest.1, rest.2)

/-- A configuration blob. -/
structure Blob where
  unit : List (Reg × Nat × Nat)
  profile : Nat
  ports : List PortPart

/-- Every register setting of a blob. -/
def Blob.regs (b : Blob) : List (Reg × Nat × Nat) := b.unit ++ b.ports.flatMap (·.regs)

/-- More than two quads share a segment (R14). -/
def segBad (l : List (Reg × Nat × Nat)) : Bool :=
  let seg := fun (x : Nat) => (l.filter fun e => e.1.base == QD_JCFG.reg.base && bit e.2.2 8 == (x == 1)).length
  decide (2 < seg 0 ∨ 2 < seg 1)

/-- A watchdog's CLOSE lies above its OPEN. -/
def wdgBad (l : List (Reg × Nat × Nat)) : Bool :=
  l.any fun e => e.1.base == WDG_CFG.reg.base && decide (bits e.2.2 47 32 ≤ bits e.2.2 31 16)

/-- The blob a list of bytes spells, where its own checks pass: header, length, CRC-32, and values that
every register allows (R14, R328, R458; layout: log entry 40). -/
def blobOf (b : List Byte) : Option Blob :=
  let n := regsLen cfgUnitRegs
  let ports := takePorts 16 0 (b.drop (16 + n + 2))
  let out : Blob := ⟨takeRegs cfgUnitRegs (b.drop 16), ofBytes (slice b (16 + n) 1), ports.1⟩
  if b.take 6 = [0x58, 0x4B, 0x43, 0x46, 1, 0] ∧ ofBytes (slice b 8 4) = b.length ∧
      ports.2.length = 4 ∧ ports.2 = crcBytes (b.take (b.length - 4)) ∧ out.profile ≤ 3 ∧
      out.regs.all (fun e => State.regLegal e.1 e.2.2) ∧ !segBad out.unit ∧ !wdgBad out.unit
  then some out else none

/-- The settable field values of register settings, as a table by place. -/
def fieldTab (l : List (Reg × Nat × Nat)) : Tab Nat :=
  l.foldl (fun t e => e.1.flds.foldl (fun t f =>
    if cfgField f && portSetField f.2 then t.put (f.2.rst e.2.1) (f.2.key e.2.1) (e.2.2 / 2 ^ f.2.lo % 2 ^ f.2.w)
    else t) t) []

/-- The place of a safety-class field (R311). -/
def safetyKey (k : Nat) : Bool :=
  let a := k / 64
  if 0xFD0000 ≤ a then decide ((a - 0xFD0000) % 0x1000 = 0)
  else if 0xFC0000 ≤ a then
    portSafetyRegs.any fun r => (a - 0xFC0000) % 0x1000 == r.base - 0xFC0000
  else State.weirCfgKey k || decide (a = 0xF30000 ∧ 2 ≤ k % 64 ∧ k % 64 ≠ 4 ∧ k % 64 ≠ 8) ||
    decide (0xF31800 ≤ a ∧ a < 0xF31A20 ∧ a % 0x20 = 0)

/-- Safety-class fields differ between two settings (R310). -/
def safetyDiffers (a b : Tab Nat) : Bool :=
  (a.filter fun (e : Nat × Nat) => safetyKey e.1) != (b.filter fun (e : Nat × Nat) => safetyKey e.1)

namespace State

/-! ## The places of a store (R457, R466) -/

/-- First address, place size and number of places of a store. -/
def storeBase (st : Nat) : Nat := if st = 0 then 0x400000 else 0x800000
def placeSize (st : Nat) : Nat := if st = 0 then 0x10000 else 0x40000
def placeCount (st : Nat) : Nat := if st = 0 then 64 else 8

/-- The address of place `i`, and of its record. -/
def placeAddr (st i : Nat) : Nat := storeBase st + placeSize st * i
def recAddr (st i : Nat) : Nat := placeAddr st i + placeSize st - 64

/-- The version number, state and size that a place's record gives. -/
def recVersion (s : State) (st i : Nat) : Nat := s.flashNum (recAddr st i) 2
def recState (s : State) (st i : Nat) : Nat := s.flashNum (recAddr st i + 2) 1
def recSize (s : State) (st i : Nat) : Nat := s.flashNum (recAddr st i + 4) 4

/-- State bytes: bits only go from 1 to 0 (R457; log entry 41). -/
def stStored : Nat := 0xFE
def stTrial : Nat := 0xFC
def stReturned : Nat := 0xF8
def stConfirmed : Nat := 0xF0
def stVoid : Nat := 0

/-- A place holds a version. -/
def held (s : State) (st i : Nat) : Bool :=
  s.recVersion st i != 0xFFFF && s.recVersion st i != 0 && s.recState st i != stVoid

/-- The CRC-32 of a version: over number, size and content. -/
def verCrc (v : Nat) (b : List Byte) : List Byte := crcBytes (toBytes 2 v ++ toBytes 4 b.length ++ b)

/-- A held version reads without error. -/
def intact (s : State) (st i : Nat) : Bool :=
  let n := s.recSize st i
  decide (n ≤ placeSize st - 64) && s.flashSound (placeAddr st i) n && s.flashSound (recAddr st i) 64 &&
    s.flashRead (recAddr st i + 8) 4 == verCrc (s.recVersion st i) (s.flashRead (placeAddr st i) n)

/-- The place that holds a version. -/
def placeOf (s : State) (st v : Nat) : Option Nat :=
  (List.range (placeCount st)).find? fun i => s.held st i && s.recVersion st i == v

/-- The numbers of the versions held. -/
def versions (s : State) (st : Nat) : List Nat :=
  ((List.range (placeCount st)).filter (s.held st)).map (s.recVersion st)

/-- The number a new version takes: after the highest held, wrapping to 1. -/
def nextVersion (s : State) (st : Nat) : Nat :=
  let m := (s.versions st).foldl max 0
  if (if st = 0 then 65535 else 255) ≤ m then 1 else m + 1

/-- Version registers of a store. -/
def inForceF (st : Nat) : Fld := if st = 0 then DEV_CFGST.INFORCE else DEV_CALST.INFORCE
def trialF (st : Nat) : Fld := if st = 0 then DEV_CFGST.TRIAL else DEV_CALST.TRIAL
def prevF (st : Nat) : Fld := if st = 0 then DEV_CFGST.PREV else DEV_CALST.PREV
def leftF (st : Nat) : Fld := if st = 0 then DEV_CFGST.LEFT else DEV_CALST.LEFT

/-- The run-time side of a store. -/
def ver (s : State) (st : Nat) : VerHw := if st = 0 then s.cfg else s.cal

/-- The run-time side of a store changed. -/
def onVer (s : State) (st : Nat) (g : VerHw → VerHw) : State :=
  if st = 0 then { s with cfg := g s.cfg } else { s with cal := g s.cal }

/-- The place for a new version: a free one, or the oldest that holds neither the version in force nor
the previous one, nor calibration version 1 (R457, R466). -/
def newPlace (s : State) (st : Nat) : Nat :=
  match (List.range (placeCount st)).find? fun i => !s.held st i with
  | some i => i
  | none =>
    let keep := [s.fget (inForceF st), s.fget (prevF st)] ++ if st = 1 then [1] else []
    let free := (List.range (placeCount st)).filter fun i => !keep.contains (s.recVersion st i)
    (free.foldl (fun a i => match a with
      | none => some i
      | some j => if s.recVersion st i < s.recVersion st j then some i else some j) none).getD 0

/-- A place erased first where it is not blank. -/
def clearPlace (s : State) (st i : Nat) : State :=
  if s.flashAfter.flashBlank (placeAddr st i) (placeSize st) then s
  else s.flashJob (.erase (placeAddr st i) (placeSize st))

/-- A version programmed in place `i`: content, record, and the erase of the next free place (R457). -/
def storeAt (s : State) (st i v state : Nat) (b : List Byte) (done : FlashEnd) : State :=
  let s := s.clearPlace st i
  let s := s.flashJob (.program (placeAddr st i) b)
  let r := toBytes 2 v ++ [byte state, 0xFF] ++ toBytes 4 b.length ++ verCrc v b
  let s := s.flashJob (.program (recAddr st i) r) done
  let t := s.flashAfter
  match (List.range (placeCount st)).find? fun j => j != i && !t.held st j with
  | some j => s.clearPlace st j
  | none => s

/-- The state byte of a version programmed. -/
def setVerState (s : State) (st v state : Nat) : State :=
  match s.placeOf st v with
  | some i => s.flashJob (.program (recAddr st i + 2) [byte state])
  | none => s

/-- The apply list of a place. -/
def applyList (s : State) (st i : Nat) : List Nat :=
  (List.range 12).map fun k => s.flashNum (recAddr st i + 12 + 4 * k) 4

/-- The highest apply number of a place; 0 none. -/
def applyTop (s : State) (st i : Nat) : Nat :=
  ((s.applyList st i).filter (· != 0xFFFFFFFF)).foldl max 0

/-- A version becomes the confirmed version in force: its state, and the next entry of its apply list. A
full list moves the version to another place first (R463). -/
def confirmed (s : State) (st v : Nat) : State :=
  match s.placeOf st v with
  | none => s
  | some i =>
    let top := ((List.range (placeCount st)).filter (s.held st)).foldl (fun a j => max a (s.applyTop st j)) 0
    let entry := fun (s : State) (i k : Nat) =>
      s.flashJob (.program (recAddr st i + 12 + 4 * k) (toBytes 4 (top + 1)))
    match (s.applyList st i).findIdx? (· == 0xFFFFFFFF) with
    | some k => entry (s.setVerState st v stConfirmed) i k
    | none =>
      let j := s.flashAfter.newPlace st
      let b := s.flashRead (placeAddr st i) (s.recSize st i)
      let s := s.storeAt st j v stConfirmed b .nothing
      (entry s j 0).flashJob (.program (recAddr st i + 2) [byte stVoid])

/-- A VERSION event and its strandline record (R308, R480). -/
def versionEvent (s : State) (kind st former : Nat) : State :=
  let d := [byte kind, byte st] ++ toBytes 2 (s.fget (inForceF st)) ++ toBytes 2 former ++ [0, 0]
  (s.hostEvent 13 d).logRec 0x0B 0xFF d

/-! ## Applying (R459, R463, R468) -/

/-- The unit's registers as the version in force has them; SEG only at boot (R14). -/
def cfgUnit (s : State) (boot : Bool) : State :=
  cfgUnitRegs.foldl (fun s e => e.1.flds.foldl (fun s f =>
    if cfgField f && (boot || f.2.place != QD_JCFG.SEG.place) then s.fset f.2 e.2 (s.cfgGet f.2 e.2) else s) s) s

/-- The energy models of a blob. -/
def cfgEnergy (s : State) (b : Blob) : State :=
  b.ports.zipIdx.foldl (fun s e => s.setPort e.2 { s.port e.2 with energy := e.1.energy }) s

/-- The content of a version held, where it is a good blob. -/
def blobAt (s : State) (v : Nat) : Option Blob :=
  (s.placeOf 0 v).bind fun i =>
    if s.intact 0 i then blobOf (s.flashRead (placeAddr 0 i) (s.recSize 0 i)) else none

/-- Configuration version `v` takes effect at this edge, 0 the reset values: on every port the unit owns,
and on all at boot (R459, R463). -/
def applyCfg (s : State) (v : Nat) (boot : Bool) : State :=
  let s := match s.blobAt v with
    | some b =>
      let s := { s with cfgVals := fieldTab b.regs, boot := { s.boot with profile := b.profile } }
      let s := s.cfgEnergy b
      if boot then b.ports.zipIdx.foldl (fun (s : State) (e : PortPart × Nat) => match e.1.block with
        | some x => s.extWrite e.2 0 x
        | none => s) s
      else s
    | none => { s with cfgVals := Tab.put 0 (WEIR_CFG.FMODE.key 0) (s.fget WEIR_ST.COMPAT) [] }
  let s := s.cfgUnit boot
  let s := s.forPorts fun p s => s.when (boot || s.owns p) fun s => s.cfgPort p
  s.latchEdge.refreshFault

/-- The bytes of one port in a calibration version: trims, check reference and attenuator factors (R466;
log entry 42). -/
def calLen : Nat := 40

/-- The working trims of a port. -/
def calTrims (s : State) (p : Nat) : List Byte :=
  (List.range 4).flatMap (fun g => s.rbytes (PRT_ADCTRIM.reg g) p) ++ s.rbytes PRT_CHKREF.reg p

/-- A version held, read by a command: one that holds an uncorrectable word gives `bad` (R413, R462). -/
def verReader (s : State) (st v : Nat) (bad ok : State → State) : State :=
  match s.placeOf st v with
  | some i => s.flashReader (placeAddr st i) (s.recSize st i) bad ok
  | none => ok s

/-- The content of a calibration version held. -/
def calAt (s : State) (v : Nat) : Option (List Byte) :=
  (s.placeOf 1 v).bind fun i =>
    if s.intact 1 i then some (s.flashRead (placeAddr 1 i) (s.recSize 1 i)) else none

/-- Calibration version `v`'s trims written, 0 the reset values (R225, R468). -/
def applyCal (s : State) (v : Nat) : State :=
  let b := s.calAt v
  s.forPorts fun p s =>
    let s := s.forEach (List.range 4) fun g s =>
      let x := match b with
        | some b => ofBytes (slice b (calLen * p + 4 * g) 4)
        | none => 0
      s.rput (PRT_ADCTRIM.reg g) p x
    match b with
    | some b => s.rput PRT_CHKREF.reg p (ofBytes (slice b (calLen * p + 16) 2))
    | none => (s.fset PRT_CHKREF.TOL p 8).fset PRT_CHKREF.NOM p 1638

/-- Version `v` of store `st` takes effect. -/
def applyVer (s : State) (st v : Nat) : State := if st = 0 then s.applyCfg v false else s.applyCal v

/-- The trial of a store is no longer in force: its state byte. -/
def endTrial (s : State) (st : Nat) (state : Nat) : State :=
  let t := s.fget (trialF st)
  let s := s.when (decide (t ≠ 0)) fun s => s.setVerState st t state
  let s := (s.fset (trialF st) 0 0).fset (leftF st) 0 0
  let s := s.when (decide (st = 0)) fun s => s.fset DEV_CFGST.PAIR 0 0
  s.onVer st fun h => { h with expiry := none }

/-- A version reaches its apply edge (R459 to R463, R467, R468); one that the twin carries and this unit does not
hold is passed over. -/
def applyNow (s : State) (st : Nat) (a : ApplyAt) : State :=
  let former := s.fget (inForceF st)
  let s := s.onVer st fun h => { h with next := none }
  if (s.placeOf st a.version).isNone then s
  else match a.how with
  | 1 =>
    let again := s.fget (trialF st) != 0
    let prev := if again then s.fget (prevF st) else former
    let before := if again then (s.ver st).before else s.fget (prevF st)
    let s := s.endTrial st stReturned
    let s := (s.fset (prevF st) 0 prev).fset (inForceF st) 0 a.version
    let s := (s.fset (trialF st) 0 a.version).fset (leftF st) 0 a.window
    let s := s.when (decide (st = 0)) fun s => s.fset DEV_CFGST.PAIR 0 (b2n a.pair)
    let s := s.onVer st fun h => { h with expiry := some (a.edge + 125000 * a.window), before := before }
    let s := s.setVerState st a.version stTrial
    ((if st = 0 then s.applyCfg a.version false else s).finish a.cmd 0).versionEvent 1 st former
  | 2 =>
    if s.fget (trialF st) = a.version then
      let s := (s.endTrial st stConfirmed).confirmed st a.version
      s.versionEvent 2 st (s.fget (prevF st))
    else s
  | how =>
    let s := s.endTrial st stReturned
    let s := (s.fset (prevF st) 0 former).fset (inForceF st) 0 a.version
    let s := (s.applyVer st a.version).confirmed st a.version
    (s.finish a.cmd 0).versionEvent (if how = 4 then 4 else 2) st former

/-- The confirm window of a trial ends: the previous version is applied again (R461, R468). -/
def trialExpires (s : State) (st : Nat) : State :=
  let former := s.fget (inForceF st)
  let prev := s.fget (prevF st)
  let s := s.endTrial st stReturned
  let s := (s.fset (inForceF st) 0 prev).fset (prevF st) 0 (s.ver st).before
  (s.applyVer st prev).versionEvent 3 st former

/-! ## Boot (R463) -/

/-- The version a store applies at boot: confirmed, reading without error, with the highest apply
number; 0 none. -/
def bootVersion (s : State) (st : Nat) : Nat :=
  let ok := (List.range (placeCount st)).filter fun i =>
    s.held st i && s.recState st i == stConfirmed && s.intact st i && decide (s.applyTop st i ≠ 0)
  match ok with
  | [] => if st = 1 then (if (s.placeOf 1 1).isSome then 1 else 0) else 0
  | i :: t => s.recVersion st (t.foldl (fun a b => if s.applyTop st a < s.applyTop st b then b else a) i)

/-- The versions of both stores at the end of boot; a trial at the reset becomes returned, with its event
to follow READY. -/
def bootVersions (s : State) : State :=
  let v := s.bootVersion 0
  let c := s.bootVersion 1
  let s := (s.fset DEV_CFGST.INFORCE 0 v).applyCfg v true
  (s.fset DEV_CALST.INFORCE 0 c).applyCal c

/-- Trials of the time before the reset return (R463). -/
def bootReturned (s : State) : State :=
  s.forEach [0, 1] fun st s =>
    s.forEach ((List.range (placeCount st)).filter fun i => s.held st i && s.recState st i == stTrial)
      fun i s => (s.setVerState st (s.recVersion st i) stReturned).versionEvent 3 st (s.recVersion st i)

end State

/-! ## Meanings -/

open State

/-- CONFIG_APPLY_EDGE (R459): a configuration or calibration version whose apply edge has come. -/
def execConfigApplyEdge (s : State) : Out :=
  .next (s.forEach [0, 1] fun st s =>
    match (s.ver st).next with
    | some a => s.when (decide (a.edge ≤ s.tick)) fun s => s.applyNow st a
    | none => s)

/-- CONFIRM_WINDOW_EXPIRY (R461): at edge x of a configuration trial. -/
def execConfirmWindowExpiry (s : State) : Out :=
  match s.cfg.expiry with
  | some x => if x ≤ s.tick then .next (s.trialExpires 0) else .next s
  | none => .next s

/-- CAL_TRIAL_EXPIRY (R468): at the return edge of a calibration trial. -/
def execCalTrialExpiry (s : State) : Out :=
  match s.cal.expiry with
  | some x => if x ≤ s.tick then .next (s.trialExpires 1) else .next s
  | none => .next s

end Sys2Proof.Machine
end

