-- ==== Sys2Proof/Machine/Firmware.lean ====
section
/-!
DEFINITION. Firmware in the field (chapter 16): staging, what a completed flash operation leads to,
activation by live exchange, and transfers with the twin.
-/
namespace Sys2Proof.Machine
namespace State

/-- A firmware record: 1 slot complete, 2 activation done, 3 slot received, 4 exchange failed (R480). -/
def fwRecord (s : State) (action slot ident status : Nat) : State :=
  s.logRec 0x0C 0xFF ([byte action, byte slot] ++ toBytes 4 ident ++ [byte status])

/-- The slot running now, 2 in loader mode. -/
def runSlot (s : State) : Nat := s.fget DEV_FWST.RUN

/-- The descriptor a slot is given (R444). -/
def descJob (s : State) (slot state ident size : Nat) (digest : List Byte) (done : FlashEnd) : State :=
  let b := [byte state, 0xFF, 0xFF, 0xFF] ++ toBytes 4 ident ++ toBytes 4 size ++ digest
  s.flashJob (.program (slotBase slot + 0x1F0000) (b ++ crcBytes b)) done

/-- The sectors of an image and its descriptor erased (R444). -/
def slotErase (s : State) (slot size : Nat) (done : FlashEnd) : State :=
  let n := (size + 0xFFFF) / 0x10000 * 0x10000
  let s := s.when (decide (n ≠ 0)) fun s => s.flashJob (.erase (slotBase slot) n)
  s.flashJob (.erase (slotBase slot + 0x1F0000) 0x10000) done

/-- Staged bytes make a complete image: header, sizes, identity and digest (R444). -/
def imageComplete (img : List Byte) (size ident : Nat) (digest : List Byte) : Bool :=
  let h := imageHead img
  h.ok && decide (h.size = size ∧ h.ident = ident) && Sys2Proof.Crypto.sha256 img == digest

/-- The staged image as FW_STAGE_END finds it: in its slot, or in the shared pool (R454). -/
def stagedImage (s : State) (slot size : Nat) : List Byte :=
  if slot = 2 then s.memRead 0x40 0 size else s.flashAfter.flashRead (slotBase slot) size

/-! ## Instruction banks -/

/-- An image's code segments loaded into every engine's bank `act` (false) or standby (true). -/
def loadBanks (s : State) (img : List Byte) (standby : Bool) : State :=
  let h := imageHead img
  let at_ := fun (s : State) (e : Nat) => if (s.engine e).act != standby then 0x100000 else 0
  let s := s.forEach (List.range 16) fun e s =>
    s.memWrite (0x20 + e) (at_ s e) (slice img 64 h.rlen)
  s.memWrite 0x30 (at_ s 16) (slice img (64 + h.rlen) h.elen)

/-! ## Activation (R449 to R451) -/

/-- The bytes of a slot's image, as its descriptor counts them. -/
def slotSize (s : State) (slot : Nat) : Nat := ofBytes (slice (s.slotDesc slot) 8 4)

/-- The live activation begins: standby banks loaded, all seventeen engines requested. An image that cannot be
read ends it with HW_FAULT (R413). -/
def activate (s : State) (tag slot : Nat) : State :=
  s.flashReader (slotBase slot) (s.slotSize slot) (fun s => s.complete 0xB3 tag 0x60) fun s =>
  let img := s.flashRead (slotBase slot) (ofBytes (slice (s.slotDesc slot) 8 4))
  let s := (s.loadBanks img true).fset DEV_FWST.ACT 0 1
  let s := { s with fw := { s.fw with act := some (tag, slot), restore := false, again := 0 } }
  ((s.fset DEV_SWAPST.DONE 0 0).fset DEV_SWAPST.FAIL 0 0).swapRequest 0x1FFFF

/-- The activation ends with a status. -/
def activated (s : State) (tag slot status : Nat) : State :=
  let s := { s.fset DEV_FWST.ACT 0 0 with fw := { s.fw with act := none, restore := false, again := 0 } }
  (s.complete 0xB3 tag status).fwRecord (if status = 0 then 2 else 4) slot (s.slotIdent slot) status

/-- The exchanges requested for `mask` are restoring ones (R450). -/
def restoreFrom (s : State) (tag slot : Nat) : State :=
  let done := s.fget DEV_SWAPST.DONE
  let s := ((s.fset DEV_SWAPST.DONE 0 0).fset DEV_SWAPST.FAIL 0 0).fset DEV_SWAP.REQ 0 0
  let s := s.forEach (List.range 17) fun e s => s.onEngine e fun g =>
    if g.swap = 3 then g else { g with swap := 0, swapLeft := 0 }
  if done = 0 then s.swapNext.activated tag slot 0x60
  else
    let s := { s with fw := { s.fw with restore := true } }.swapRequest done
    if s.fon DEV_SWAPST.FAIL then { s with fw := { s.fw with resetNext := some 5 } } else s

/-- The exchanges that failed requested once more; a request that is refused has failed again (R378, R450). -/
def exchangeAgain (s : State) (tag slot fail : Nat) : State :=
  let s := ({ s with fw := { s.fw with again := s.fw.again ||| fail } }.fset DEV_SWAPST.FAIL 0 0).swapRequest fail
  if s.fon DEV_SWAPST.FAIL then s.restoreFrom tag slot else s

/-- An exchange has ended: the next step of an activation (R449, R450). -/
def actStep (s : State) : State :=
  match s.fw.act with
  | none => s
  | some (tag, slot) =>
    let fail := s.fget DEV_SWAPST.FAIL
    let req := s.fget DEV_SWAP.REQ
    if s.fw.restore then
      if req ≠ 0 then s
      else if fail ≠ 0 then { s with fw := { s.fw with resetNext := some 5 } }
      else s.activated tag slot 0x60
    else if fail &&& s.fw.again ≠ 0 then s.restoreFrom tag slot
    else if fail ≠ 0 then s.exchangeAgain tag slot fail
    else if req = 0 ∧ s.fget DEV_SWAPST.DONE = 0x1FFFF then s.selectorJob slot (.selected tag slot)
    else s

/-- The boot selector has been written (R448, R449). -/
def selectorDone (s : State) (tag slot : Nat) : State :=
  let s := s.fset DEV_FWST.NEXT 0 slot
  if s.fw.act = some (tag, slot) then
    let s := (s.fset DEV_FWST.UNPROVEN 0 1).fset DEV_FWST.RUN 0 slot
    ({ s with fw := { s.fw with ident := s.slotIdent slot } }).activated tag slot 0
  else (s.complete 0xB3 tag 0).fwRecord 2 slot (s.slotIdent slot) 0

/-! ## Transfers with the twin (R455, R456, R464, R465) -/

/-- A channel 2 message: its transfer word and the words after it. -/
def xferSend (s : State) (kind object version arg : Nat) (words : List Nat) : State :=
  s.bulkQueue 2 0 (pack [(8, kind), (8, object), (16, version), (32, arg)] :: words)

/-- Bytes as 64-bit words, the last padded with zeros. -/
def toWords : Nat → List Byte → List Nat
  | 0, _ => []
  | n + 1, b => if b.isEmpty then [] else ofBytes (b.take 8) :: toWords n (b.drop 8)

/-- Data messages of up to 54 words each. -/
def xferData (s : State) (object version : Nat) : Nat → Nat → List Byte → State
  | 0, _, _ => s
  | n + 1, off, b =>
    if b.isEmpty then s
    else xferData (s.xferSend 2 object version off (toWords 54 (b.take 432))) object version n (off + 432)
      (b.drop 432)

/-- XFER shown for a firmware or a configuration transfer. -/
def xferFlag (s : State) (object v : Nat) : State :=
  if object ≤ 1 then s.fset DEV_FWST.XFER 0 v else s.fset DEV_CFGST.XFER 0 v

/-- A whole object sent: open, data, close. -/
def xferStart (s : State) (t : Transfer) (head b : List Byte) : State :=
  let s := { s with fw := { s.fw with xfer := some t } }.xferFlag t.object 1
  let s := s.xferSend 1 t.object t.version b.length (toWords 8 head)
  let s := s.xferData t.object t.version b.length 0 b
  s.xferSend 3 t.object t.version 0 (toWords 4 (Sys2Proof.Crypto.sha256 b))

/-- The transfer in progress is over. -/
def xferClear (s : State) (t : Transfer) : State :=
  { s with fw := { s.fw with xfer := none } }.xferFlag t.object 0

/-- Configuration version `v` sent to the twin, by CFG_COMMIT (0x91) or CFG_PAIR_SYNC (0x96); one that cannot be
read ends the command with HW_FAULT (R413). -/
def cfgSend (s : State) (v window op tag : Nat) : State :=
  s.verReader 0 v (fun s => s.complete op tag 0x60) fun s =>
  match s.placeOf 0 v with
  | some i =>
    let b := s.flashRead (placeAddr 0 i) (s.recSize 0 i)
    s.xferStart { object := 2, version := v, size := b.length, ident := 0, sends := true,
                  cmd := some (op, tag), window := window } (b.take 16) b
  | none => s.complete op tag 0x60

/-- A complete slot sent to the twin; an uncorrectable word in it ends the command with HW_FAULT (R456). -/
def slotSend (s : State) (slot tag : Nat) : State :=
  s.flashReader (slotBase slot) (s.slotSize slot) (fun s => s.complete 0xB5 tag 0x60) fun s =>
  let d := s.slotDesc slot
  let b := s.flashRead (slotBase slot) (ofBytes (slice d 8 4))
  s.xferStart { object := slot, version := 0, size := b.length, ident := ofBytes (slice d 4 4),
                sends := true, cmd := some (0xB5, tag) } (slice d 4 4) b

/-- An application that both units make at edge `a.edge`, which harbour state carries from the next tick on: H22
version, manner, window and a valid bit, H23 the edge (R464; log entry 43). -/
def bothApply (s : State) (a : ApplyAt) : State :=
  let s := s.onVer 0 fun h => { h with next := some a }
  s.when a.pair fun s =>
    (s.fset (PAIR_HSOUT.WORD 14) 0 (pack [(16, a.version), (8, a.how), (16, a.window), (23, 0), (1, 1)])).fset
      (PAIR_HSOUT.WORD 15) 0 a.edge

/-- The result the receiver sends ends the transfer (R455). -/
def xferResult (s : State) (status : Nat) : State :=
  match s.fw.xfer with
  | some t => (s.xferSend 4 t.object t.version status []).xferClear t
  | none => s

/-- A slot or version that a transfer left unfinished is void or returned (R456, R465). -/
def xferVoid (s : State) (t : Transfer) : State :=
  if t.object ≤ 1 then s.descJob t.object 0 t.ident t.size (List.replicate 32 0) .nothing
  else s.setVerState 0 t.version stReturned

/-- A transfer abandoned: its command completes with the status (R456, R465). -/
def xferAbandon (s : State) (t : Transfer) (status : Nat) : State :=
  let s := (s.xferClear t).finish t.cmd status
  if t.sends then
    s.when (t.cmd.any fun (c : Nat × Nat) => c.1 == 0x91) fun s => s.setVerState 0 t.version stReturned
  else s.xferVoid t

/-- Each edge: the link away for more than 16 ticks, or a takeover, ends a transfer, and that of a firmware slot a
handover too (R456, R465). -/
def xferEdge (s : State) : State :=
  match s.fw.xfer with
  | none => s
  | some t =>
    let up := if t.sends then s.sending else decide (s.fget PAIR_ST.LSTATE = 3 ∨ s.fget PAIR_ST.LSTATE = 4)
    let t := { t with down := if up then 0 else t.down + 1 }
    if 16 < t.down || s.pair.assume.isSome || (decide (t.object ≤ 1) && s.moving) then s.xferAbandon t 0x50
    else { s with fw := { s.fw with xfer := some t } }

/-- Edge number whose low 32 bits a message carries. -/
def edgeOf (s : State) (low : Nat) : Nat :=
  ((s.tick : Int) + toSigned 32 (low + 2 ^ 32 - s.tick % 2 ^ 32)).toNat

/-- An open message received (R455, R465); an object that its slot or place cannot hold is refused (R24, R457). -/
def xferOpen (s : State) (object version arg : Nat) (content : List Byte) : State :=
  let own := s.fw.xfer.any fun t => t.sends && t.cmd.any fun (c : Nat × Nat) => c.1 == 0x91
  let committing := own || s.jobs.any fun j => match j.done with
    | .cfgStored _ _ _ _ => true
    | _ => false
  match object with
  | 3 =>
    let w := ofBytes (content.take 8)
    let n : ApplyAt := { edge := s.edgeOf arg, version := version, how := w % 256, window := bits w 23 8,
                         pair := true }
    s.when (s.placeOf 0 version).isSome fun s => s.onVer 0 fun h => { h with next := some n }
  | 2 =>
    if committing && s.unitA then s.xferSend 4 2 version 0x41 []
    else if s.fon DEV_CFGST.TRIAL then s.xferSend 4 2 version 0x22 []
    else if 65472 < arg then s.xferSend 4 2 version 0x12 []
    else
      let s := match s.fw.xfer with
        | some t => s.xferAbandon t 0x41
        | none => s
      let i := (s.placeOf 0 version).getD (s.flashAfter.newPlace 0)
      let t : Transfer := { object := 2, version := version, size := arg, ident := 0, sends := false,
                            base := placeAddr 0 i }
      ({ s.clearPlace 0 i with fw := { s.fw with xfer := some t } }).xferFlag 2 1
  | slot =>
    if 2 ≤ slot ∨ s.runSlot = slot ∨ s.selected = slot ∨ s.fw.xfer.isSome then
      s.xferSend 4 slot version 0x22 []
    else if 0x200000 < arg then s.xferSend 4 slot version 0x12 []
    else
      let s := s.slotErase slot arg .nothing
      let t : Transfer := { object := slot, version := 0, size := arg, ident := ofBytes (content.take 4),
                            sends := false, base := slotBase slot }
      ({ s with fw := { s.fw with xfer := some t } }).xferFlag slot 1

/-- A data message received: programmed as it arrives. -/
def xferTake (s : State) (object arg : Nat) (content : List Byte) : State :=
  match s.fw.xfer with
  | some t =>
    if t.sends ∨ t.object ≠ object then s
    else if arg ≠ t.got ∨ t.size ≤ arg then
      { s with fw := { s.fw with xfer := some { t with bad := true } } }
    else
      let b := content.take (t.size - arg)
      { s.flashJob (.program (t.base + arg) b) with
        fw := { s.fw with xfer := some { t with got := arg + b.length } } }
  | none => s

/-- A close message received: the object is checked as a whole, and its descriptor or record follows
(R455, R456, R464). -/
def xferClose (s : State) (object : Nat) (digest : List Byte) : State :=
  match s.fw.xfer with
  | some t =>
    if t.sends ∨ t.object ≠ object then s
    else
      let b := s.flashAfter.flashRead t.base t.size
      let whole := !t.bad && decide (t.got = t.size) && Sys2Proof.Crypto.sha256 b == digest
      if object ≤ 1 then
        let ok := whole && imageComplete b t.size t.ident digest
        s.descJob object (if ok then 0x5A else 0) t.ident t.size digest (.received (if ok then 0 else 0x12))
      else if whole && (blobOf b).isSome then
        let r := toBytes 2 t.version ++ [byte stStored, 0xFF] ++ toBytes 4 b.length ++ verCrc t.version b
        s.flashJob (.program (t.base + 0x10000 - 64) r) (.received 0)
      else s.xferResult 0x12
  | none => s

/-- A result received ends the sender's transfer (R455, R464, R465). -/
def xferEnd (s : State) (object status : Nat) : State :=
  match s.fw.xfer with
  | some t =>
    if !t.sends ∨ t.object ≠ object then s
    else
      let apply := fun (s : State) (how : Nat) => (s.xferClear t).bothApply
        { edge := s.tick + 2, version := t.version, how := how, window := t.window, pair := true,
          cmd := t.cmd }
      match t.cmd, status with
      | some (0x91, _), 0 => apply s 1
      | some (0x96, _), 0 => apply s 5
      | _, 0 => (s.xferClear t).finish t.cmd 0
      | _, _ => s.xferAbandon t status
  | none => s

/-! ## Flash operations (R442) -/

/-- The last operation of a version has completed: a local version is applied at the second edge after
it, a pair's goes to the twin, or meets the twin's own (R460, R464, R465). -/
def versionStored (s : State) (tag v window : Nat) (pair : Bool) : State :=
  if pair then
    if s.fw.xfer.isSome then (s.complete 0x91 tag 0x41).setVerState 0 v stReturned else s.cfgSend v window 0x91 tag
  else s.bothApply { edge := s.tick + 2, version := v, how := 1, window := window, cmd := some (0x91, tag) }

/-- What a completed operation leads to. -/
def flashEnded (s : State) : FlashEnd → State
  | .nothing => s
  | .log => ((s.fset LOG_NEXT.NUM 0 (s.fget LOG_NEXT.NUM + 1)).cntEvent 0xA3)
  | .logErase => s.fset LOG_ST.ERASE 0 0
  | .stageOpen tag slot size ident =>
    ({ s with fw := { s.fw with session := some (slot, size, ident), staged := 0, complete := false } }).complete 0xB0 tag 0
  | .staged tag n => ({ s with fw := { s.fw with staged := n } }).reply 0xB1 (byte tag) 0
  | .stageClosed tag status slot =>
    let s := ({ s with fw := { s.fw with session := none, complete := decide (status = 0) } }).complete
      0xB2 tag status
    s.when (decide (status = 0)) fun s => s.fwRecord 1 slot (s.slotIdent slot) 0
  | .selected tag slot => s.selectorDone tag slot
  | .cfgStored tag v window pair => s.versionStored tag v window pair
  | .calStored tag v =>
    let n : ApplyAt := { edge := s.tick + 1, version := v, how := 1, window := 60, cmd := some (0xA1, tag) }
    s.onVer 1 fun h => { h with next := some n }
  | .received status =>
    let t := s.fw.xfer
    let s := s.xferResult status
    match t with
    | some t => s.when (decide (t.object ≤ 1)) fun s => s.fwRecord 3 t.object t.ident status
    | none => s

/-- The operation at the head of the queue completes. -/
def flashComplete (s : State) : State :=
  match s.jobs with
  | [] => s
  | j :: rest => (({ s with jobs := rest }.flashDo j.op).cntEvent 0xA0).flashEnded j.done

end State

/-! ## Meanings -/

open State

/-- LOG_RECORD_WRITE (R479, R481, R484): the oldest buffered record is programmed, or the header of the
next sector where the one being written is full; one log operation at a time. -/
def execLogRecordWrite (s : State) : Out :=
  if !s.fon LOG_ST.READY ∨ s.log.buf = [] ∨ s.logWriting ∨ s.flashFull then .next s
  else if 2048 ≤ s.log.pos then .next s.logMove
  else .next s.logWrite

/-- FLASH_OPERATION_COMPLETE (R24, R442). -/
def execFlashOperationComplete (s : State) : Out := .next s.flashComplete

/-- ENGINE_EXCHANGE (R376): at an attempt edge the engine is held, or the attempt fails; after the tick
of its hold it starts in its other bank. -/
def execEngineExchange (p : Port) (s : State) : Out :=
  let g := s.engine p
  if g.swapLeft ≠ 0 then .next s
  else match g.swap with
    | 0 => .next s
    | 3 => .next ((s.swapStart p).exchangeOver p true).actStep
    | k =>
      if exchangeable g then .next (s.swapHold p)
      else if k = 1 then .next (s.onEngine p fun g => { g with swap := 2, swapLeft := 1 })
      else .next (s.exchangeOver p false).actStep

/-- EH_EXCHANGE (R377): EH is held at the first edge at which it may be. -/
def execEhExchange (s : State) : Out :=
  let g := s.engine 16
  if g.swap = 1 ∧ g.swapLeft = 0 ∧ exchangeable g then .next (s.swapHold 16) else .next s

/-- EH_EXCHANGE_RELEASE (R377): after 125 ticks EH starts in its new bank. -/
def execEhExchangeRelease (s : State) : Out :=
  let g := s.engine 16
  if g.swap = 3 ∧ g.swapLeft = 0 then .next ((s.swapStart 16).exchangeOver 16 true).actStep else .next s

/-- TRANSFER_OPEN (R455): the payload of a channel 2 open message. -/
def execTransferOpen (m : List Byte) (s : State) : Out :=
  let w := ofBytes (m.take 8)
  .next (s.xferOpen (bits w 15 8) (bits w 31 16) (bits w 63 32) (m.drop 8))

/-- TRANSFER_DATA (R455). -/
def execTransferData (m : List Byte) (s : State) : Out :=
  let w := ofBytes (m.take 8)
  .next (s.xferTake (bits w 15 8) (bits w 63 32) (m.drop 8))

/-- TRANSFER_CLOSE (R455). -/
def execTransferClose (m : List Byte) (s : State) : Out :=
  .next (s.xferClose (bits (ofBytes (m.take 8)) 15 8) (slice m 8 32))

/-- TRANSFER_RESULT (R455). -/
def execTransferResult (m : List Byte) (s : State) : Out :=
  let w := ofBytes (m.take 8)
  .next (s.xferEnd (bits w 15 8) (bits w 63 32))

end Sys2Proof.Machine
end

