-- ==== Sys2Proof/Machine/Boot.lean ====
section
/-!
DEFINITION. From reset to the end of boot (chapters 3, 15, 16 and 18): resets and supplies, straps, PLL,
references, the verification of the image, and how boot completes.
-/
namespace Sys2Proof.Machine
namespace State

/-! ## Resets and supplies (R489 to R492) -/

/-- Power-on reset has just ended: all but the fuses, the flash with its failed words, DB_OFF and VDRV is at its
reset value. -/
def powerOn (s : State) : State :=
  let s := s.otpCut.flashCut
  { pending := s.pending, flash := s.flash, fw := { bad := s.fw.bad }, otp := { s.otp with op := none, used := [] }, free := s.free
    pins := { vdrv := s.pins.vdrv, dbOff := s.pins.dbOff } }

/-- A supply becomes invalid: the unit enters reset and stays there until power-on reset ends. Without VCC33
or VCORE its balls are high-impedance, TDO among them, and without VCC33 the junctions stop (R71, R75, R76). -/
def supplyLost (s : State) (supply : Supply) : State :=
  let n := s.unitReset 0
  let pins := match supply with
    | .vcc33 => { n.pins with vcc33 := false, tap := {} }
    | .vcore => { n.pins with vcore := false, tap := {} }
    | .vfl => { n.pins with vfl := false }
  let n := match supply with
    | .vcc33 => { n with quads := [] }
    | _ => n
  { n with pins := pins, boot := { n.boot with phase := .reset } }

/-- Boot is under way and nothing holds the unit in reset. -/
def booting (s : State) : Bool := decide (s.boot.phase = .boot) && !s.boot.hold

/-! ## Straps (R84 to R86, R99, R100) -/

/-- The wiring check of R99 from its two readings: PCHK and PRES. With the mode not yet read from the
fuses, a pin held low is judged as button wiring. -/
def wiring (s : State) (up down : Bool) : State :=
  if up = down then (s.fset DEV_STRAP.PCHK 0 (b2n (!up))).fset DEV_STRAP.PRES 0 (b2n up)
  else
    let d := s.draw 1
    ((d.2.fset DEV_STRAP.PCHK 0 2).fset DEV_STRAP.PRES 0 d.1).unitSource 10

/-- Straps that four readings agree on. -/
def strapTake (s : State) (v : Nat) (up down : Bool) : State :=
  let pos := v % 4
  let s := (s.fset DEV_STRAP.STRAP 0 v).wiring up down
  let s := (s.fset WEIR_CFG.FMODE 0 (bits v 5 5)).fset WEIR_ST.COMPAT 0 (bits v 5 5)
  if pos = 3 then (s.unitSource 2).holdReset
  else { s.fset PAIR_ST.POS 0 pos with boot := { s.boot with strapped := true } }

/-- One attempt at strap sampling. -/
def strapSample (s : State) (r : StrapIn) : State :=
  if r.r1 = r.r2 ∧ r.r1 = r.r3 ∧ r.r1 = r.r4 then s.strapTake r.r1.toNat r.pullUp r.pullDown
  else
    let s := { s with pins := { s.pins with attempts := s.pins.attempts + 1 } }
    s.when (decide (16 ≤ s.pins.attempts)) fun s => (s.unitSource 1).holdReset

/-! ## Clock and pair (R15, R38, R55, R260) -/

/-- The PLL has locked: tick 0 begins, an unpaired unit is master, a paired one listens. How long the
reset lasted until now is a free value (R187; log entry 78). -/
def pllLock (s : State) : State :=
  let d := s.draw 32
  let s := { d.2 with boot := { d.2.boot with early := d.1 } }
  let s := (s.fset TICK_STATUS.PLL_LOCK 0 1).fset TICK_COUNT.COUNT 0 0
  if s.paired then
    (s.fset PAIR_ST.LSTATE 0 1).onPair fun h => { h with listen := some (if s.unitA then 32 else 64) }
  else (s.fset TICK_STATUS.MASTER 0 1).fset TICK_STATUS.FREERUN 0 1

/-! ## What the unit tells of itself (R313) -/

/-- The UNIT_INFO reply, which READY carries too. -/
def unitInfo (s : State) : List Byte :=
  toBytes 2 0x1648 ++ [byte (s.otpUsed 0 1), Config.siliconRevision] ++ toBytes 8 (s.otpUsed 0 0) ++
    toBytes 4 s.fw.ident ++ toBytes 2 (s.fget DEV_CFGST.INFORCE) ++
    [byte (s.fget DEV_CALST.INFORCE), byte s.lifeCycle] ++ s.rbytes DEV_STRAP.reg ++
    s.rbytes DEV_SVID.reg ++ [byte s.runSlot] ++ List.replicate 23 0

/-! ## The end of boot (R405, R412, R441, R446, R447, R463, R480, R484) -/

/-- The bytes of the image a slot's descriptor names. -/
def slotImage (s : State) (slot : Nat) : List Byte :=
  s.flashRead (slotBase slot) (ofBytes (slice (s.slotDesc slot) 8 4))

/-- The KEY region as boot formed it. -/
def keyRegion (s : State) : List Byte := regionBytes s.otp.used 2

/-- Steps 1 to 5 of R446 for the selected slot. -/
def slotVerified (s : State) (slot : Nat) : Bool :=
  let img := s.slotImage slot
  s.slotComplete slot && s.flashSound (slotBase slot) img.length && Sys2Proof.Crypto.sha256 img == slice (s.slotDesc slot) 12 32 &&
    imageSigned s.keyRegion img

/-- The certified configuration (R441), for a unit that booted from flash. -/
def certified (s : State) : Bool :=
  let lc := s.lifeCycle
  let all := fun (w : Nat) => w &&& 0b1110 == 0b1110
  (lc == 2 || lc == 3) && all (s.fget OTP_LOCKST.WL) && all (s.fget OTP_REGST.GOOD) &&
    (s.fget OTP_REGST.MARG &&& 0b1110 == 0) && bit s.secByte 2 && s.fon OTP_LCST.DBGLOCK &&
    s.fon OTP_LCST.TAPOFF && (s.pwire == 0 || s.pwire == 2) && s.fget DEV_STRAP.PCHK == 0

/-- The boot record, and the record of an EH watchdog reset after it. -/
def bootRecords (s : State) : State :=
  let s := s.logRec 0x02 0xFF ([byte (s.fget WDG_CAUSE.CAUSE), byte s.lifeCycle] ++ s.rbytes DEV_STRAP.reg ++
    toBytes 4 s.fw.ident ++ [byte s.runSlot, byte (s.fget DEV_FWST.UNPROVEN)])
  let last := s.boot.ehLast
  let s := s.when (last != 0) fun s =>
    s.logRec 0x06 0xFF ([16, byte last] ++ toBytes 2 (s.fget (WDG_RCNT.COUNT 16)))
  { s with boot := { s.boot with ehLast := 0 } }

/-- FAULT_N takes the state its mode gives, and a unit that finds C3HOLD enters unit safe state. -/
def bootFault (s : State) : State :=
  let hold := s.fon WEIR_RET.C3HOLD
  let s := s.when hold fun s =>
    ((s.setReact 16 { cls := 3, fresh := true }).fset WEIR_ST.USAFE 0 1).fset PAIR_ST.ABLE 0 0
  (s.fset WEIR_ST.FLT 0 (b2n s.weir.bootSevere)).refreshFault

/-- Boot continues with an image in the instruction banks: versions, FAULT_N, READY, and the ports. -/
def bootOn (s : State) : State :=
  let s := { s with boot := { s.boot with phase := .run, loader := false, formT := some 256 } }
  let s := (s.bootVersions.fset OTP_LCST.CERTOK 0 (b2n (s.certified && decide (s.runSlot ≤ 1)))).bootFault
  let s := s.forPorts fun p s => s.fset PRT_CMPMODE.ACTIVE p (s.cmpMode p)
  (((s.hostEvent 0 s.unitInfo).bootReturned).when s.pair.heard fun s => s.pairEv PAIR_EV.JOIN).formation

/-- The unit boots from the slot the boot selector names, or stays in reset. -/
def bootFlash (s : State) : State :=
  let slot := s.selected
  if s.slotVerified slot then
    let s := (s.loadBanks (s.slotImage slot) false).fset DEV_FWST.RUN 0 slot
    let s := { s.fset DEV_FWST.NEXT 0 slot with fw := { s.fw with ident := s.slotIdent slot } }
    s.logLocate.bootRecords.bootOn
  else s.holdReset

/-- The unit boots into loader mode (R333). -/
def bootLoader (s : State) : State :=
  let s := (s.fset DEV_FWST.RUN 0 2).fset DEV_FWST.NEXT 0 s.selected
  let s := { s with boot := { s.boot with phase := .run, loader := true } }
  let s := s.logLocate.bootRecords.bootFault
  s.hostEvent 0 s.unitInfo

/-- All that boot waits for has come, but for the twin. -/
def bootReady (s : State) : Bool :=
  s.booting && s.boot.strapped && s.fon TICK_STATUS.PLL_LOCK && s.fon DEV_REFST.REFOK && s.boot.otpRead

/-- Boot completes: loader mode where the strap selects it and the life cycle allows it (R86). -/
def bootEnd (s : State) : State :=
  if bit (s.fget DEV_STRAP.STRAP) 3 && !s.fon DEV_STRAP.BOOT_IGN then s.bootLoader else s.bootFlash

end State

/-! ## Meanings -/

open State

/-- POWER_ON_RESET (R490). -/
def execPowerOnReset (s : State) : Out := .next s.powerOn

/-- SUPPLY_INVALID (R491). -/
def execSupplyInvalid (supply : Supply) (s : State) : Out := .next (s.supplyLost supply)

/-- RESET_N_ASSERT (R492): a unit reset with cause 1; a unit without supplies is in reset already. -/
def execResetNAssert (s : State) : Out :=
  if s.boot.phase = .reset then .next s else .next (s.unitReset 1)

/-- STRAP_SAMPLING (R84 to R86, R99). -/
def execStrapSampling (r : StrapIn) (s : State) : Out :=
  if s.booting ∧ !s.boot.strapped then .next (s.strapSample r) else .next s

/-- PLL_LOCK (R38, R55): the tick source is known once the straps are latched. -/
def execPllLock (s : State) : Out :=
  if s.booting ∧ s.boot.strapped ∧ !s.fon TICK_STATUS.PLL_LOCK then .next s.pllLock else .next s

/-- REFOK (R243). -/
def execRefok (s : State) : Out :=
  if s.booting then .next (s.fset DEV_REFST.REFOK 0 1) else .next s

/-- REFOK_TIMEOUT (R243): acts where the references have not settled. -/
def execRefokTimeout (s : State) : Out :=
  if s.booting ∧ !s.fon DEV_REFST.REFOK then .next ((s.weirCond 16 0 true).holdReset) else .next s

/-- BOOT_COMPLETE (R15, R446): acts once all that boot waits for has come, the twin heard or 256 ticks
passed. -/
def execBootComplete (s : State) : Out :=
  if s.bootReady ∧ (!s.paired ∨ s.pair.heard ∨ 256 ≤ s.boot.ticks) then .next s.bootEnd else .next s

/-- BOOT_PAIR_WINDOW_EXPIRY (R15, R276): 256 ticks without a twin heard complete boot under case 5; after
boot, 256 ticks without the twin's harbour state settle case 4. -/
def execBootPairWindowExpiry (s : State) : Out :=
  if s.bootReady ∧ s.paired ∧ !s.pair.heard ∧ 256 ≤ s.boot.ticks then .next s.bootEnd
  else if s.boot.formT = some 0 then .next s.formation
  else .next s

end Sys2Proof.Machine
end

