-- ==== Sys2Proof/Machine/Pins.lean ====
section
/-!
DEFINITION. The balls (chapters 3, 10, 15 and 18): DB_OFF and VDRV, what the unit drives on its outputs,
the superframe, MUXBUS, and the boundary-scan test access port.
-/
namespace Sys2Proof.Machine
namespace State

/-! ## What the unit drives -/

/-- The drive modes of a gate driver (R185). -/
inductive Gate
  /-- Left alone. -/
  | highZ
  /-- Pulled to P{n}_SRC through 10 mA. -/
  | holdOff
  /-- Pulled down for the 1 µs of a turn-off. -/
  | fastPull
  /-- The current source of PRT_GATE.IRAMP. -/
  | ramp
  | enhanced
  /-- The current-limit amplifier drives the gate. -/
  | limit
  deriving DecidableEq, Repr

/-- P{n}_GATE (R73, R80, R185, R187): from reset to the end of boot it follows the position last latched;
then the owner's power state, and where limit-active is registered the amplifier (DEDUCED: the mode begins
with R196's limit entry). On an unpaired unit without VCC33 or VCORE the pull, powered from VDRV, holds:
R491 says so where R72's table shows High-Z (DESIGN CHOICE, log entry 82). A port that no unit shows as owned
is turned off by the unit that owned it last (R286). -/
def gate (s : State) (p : Nat) : Gate :=
  if !s.booted then (if s.boot.lastPos = some 0 then .holdOff else .highZ)
  else if !s.owns p then (if bit s.pair.orphan p then .holdOff else .highZ)
  else
    let on : Gate → Gate := fun g => if s.fon PRT_PWRST.LIMIT p then .limit else g
    match s.pwrState p with
    | 1 => if s.pins.vdrv then on .ramp else .holdOff
    | 2 => if s.pins.vdrv then on .enhanced else .highZ
    | _ => if (s.pwr p).fastPull then .fastPull else .holdOff

/-- The NTC bias of port `p` is on in slot `slot` of the tick now running (R72, R80, R228). -/
def ntcBias (s : State) (p slot : Nat) : Bool :=
  s.booted && s.owns p && (s.engine p).awake && decide (slot = 7 ∧ s.tick % 4 = 0)

/-- The 7-bit PMBus address of port `p`'s regulator (R87). -/
def regAddr (s : State) (p : Nat) : Nat :=
  let base := 0x40 + 8 * bits (s.fget DEV_STRAP.STRAP) 7 6
  let q := p / 4
  let upper := (List.range q).any fun r => s.fget QD_JCFG.SEG r == s.fget QD_JCFG.SEG q
  base + 4 * b2n upper + p % 4

/-- Bits 7:0 of the unit's heartbeat word: SEQ, WAKE, LINK, SAFE and POSB (R97). -/
def beatLow (s : State) : Nat :=
  pack [(4, s.pair.seq), (1, b2n s.prof.wake), (1, b2n (decide (3 ≤ s.fget PAIR_ST.LSTATE))),
    (1, s.fget WEIR_ST.USAFE), (1, b2n (s.fget PAIR_ST.POS == 2))]

/-- The heartbeat word of this tick: its low bits as frozen at the edge, OWN, which changes only at edges, and
CRC8 (R97, R275). -/
def heartbeat (s : State) : Nat :=
  let low := pack [(8, s.pair.beat), (16, s.fget PAIR_ST.OWN)]
  low + 2 ^ 24 * Sys2Proof.Crypto.crc8 (toBytes 3 low)

/-- Cycle `c` of a heartbeat interval that carries word `w` (R97): each bit lasts 28 cycles, a 1 high then
low, a 0 low then high, bit 0 first. -/
def manchester (w c : Nat) : Bool := bit w (c / 28) == decide (c % 28 < 14)

/-- What the unit drives on SYNC in cycle `c` of its tick (R95, R96): as master the edge and the master word,
as a locked follower the follower word, and nothing otherwise. -/
def syncOut (s : State) (c : Nat) : Option Bool :=
  if s.boot.phase = .reset ∨ !s.fon TICK_STATUS.PLL_LOCK then none
  else if s.fon TICK_STATUS.MASTER then
    if c < 16 then some true
    else if 32 ≤ c ∧ c < 928 then some (manchester s.heartbeat (c - 32))
    else none
  else if s.fon TICK_STATUS.SYNC_LOCK ∧ 976 ≤ c ∧ c < 1872 then some (manchester s.heartbeat (c - 976))
  else none

/-- The dead-battery clamps of a port are present (R82, R83). -/
def clampOn (s : State) (p : Nat) : Bool := (s.att p).clamp && !s.pins.dbOff

/-- PWROK_OUT (R77, R490, R491). -/
def pwrokOut (s : State) : Bool := s.pins.vcc33 && s.pins.vcore

/-- FAULT_N is asserted; an unpowered unit's is released (R77, R406). -/
def faultN (s : State) : Bool := s.pwrokOut && s.fon WEIR_ST.FLT

/-! ## The superframe (R259 to R263) -/

/-- The record slots of a superframe: every port's, or those of the half that freezes in this tick (R261). -/
def frameRecords (s : State) : List Nat :=
  let ports := (List.range 16).filter fun p => !s.sendNarrow || p / 8 == s.tick % 2
  ports.flatMap fun p => (List.range 8).map fun i => s.pair.frozen.get 0 p / 2 ^ (64 * i) % 2 ^ 64

/-- The data bits of this tick's superframe but for its trailer, in order (R261, R262): header, heartbeat, harbour
state, records, bulk, credit and acknowledge, link status and lane alignment. What stands in the bulk words left
over and in the alignment words is not told (free values, log entry 88). -/
def frameWords (s : State) : List Nat :=
  let fill := fun (n : Nat) => (List.range n).map fun i => (Config.linkFill i).toNat
  let room := if s.sendNarrow then 16 else 56
  [pack [(48, s.tick), (8, s.pair.frame)], s.heartbeat] ++ s.pair.hout ++ s.frameRecords ++ s.pair.bulkOut ++
    fill (room - s.pair.bulkOut.length) ++
    [pack [(8, s.pair.credit), (40, 0), (8, s.pair.rxSeq)],
     pack [(32, s.pair.errs.1), (16, s.pair.errs.2), (8, s.fget PAIR_ST.LANES)]] ++
    fill (if s.sendNarrow then 2 else 9)

/-- The superframe with its trailer, the CRC-32 over every word before it (R262). -/
def superframe (s : State) : List Nat :=
  let w := s.frameWords
  w ++ [Sys2Proof.Crypto.crc32 (w.flatMap (toBytes 8))]

/-! ## MUXBUS (R88 to R94, R248, R250) -/

/-- A byte with odd parity in bit 7 (R90). -/
def oddParity (v : Nat) : Nat :=
  let v := v % 128
  let ones := ((List.range 7).filter fun i => bit v i).length
  v + 128 * (1 - ones % 2)

/-- The data bits of port `p`'s slot (R91): a port owned as at the tick's edge, which PAIR_ST.OWN says (R275),
shows its own, another its inbound record's. In unit safe state every port the unit owned is off and safe (R94). -/
def slotData (s : State) (p : Nat) : Nat :=
  let own := bit (s.fget PAIR_ST.OWN) p
  let unitSafe := s.fon WEIR_ST.USAFE
  if unitSafe && bit s.weir.ownedSafe p then pack [(4, 0), (1, 0), (1, b2n own), (1, 1)]
  else if own then
    let forced := bit s.pins.muxSafe p || bit s.pins.muxSafe 16
    pack [(4, if forced then 0 else s.eget PRT_MUX.STATE p), (1, s.fget PRT_PWRST.PG p), (1, 1),
      (1, s.fget WEIR_PST.SAFE p)]
  else
    let w0 := s.recWord (inBuf p) 0
    let w7 := s.recWord (inBuf p) 7
    pack [(4, bits w7 27 24), (1, b2n (decide (bits w7 60 58 = 2 ∧ bits w0 63 61 = 4))), (1, 0),
      (1, s.recWord (inBuf p) 6 / 2 ^ 63)]

/-- The data bits of slot `k` (R91, R92). -/
def muxSlot (s : State) (k : Nat) : Nat :=
  if k < 16 then s.slotData k
  else if k = 16 then s.eget DEV_MUXIND.IND % 128
  else s.eget DEV_MUXIND.IND / 128

/-- Slot `k` driven: its address byte and its data byte. -/
def muxDrive (s : State) (k : Nat) : State :=
  { s with pins := { s.pins with
      muxAddr := oddParity (32 * s.fget PAIR_ST.POS + k), muxData := oddParity (s.muxSlot k) } }

/-! ## The test access port (R77, R435; IEEE 1149.1; log entry 8) -/

/-- The controller's next state on a rising TCK, coded as IEEE 1149.1 codes its sixteen states. -/
def tapNext (st : Nat) (tms : Bool) : Nat :=
  let r := match st with
    | 0xF => (0xC, 0xF) | 0xC => (0xC, 7) | 7 => (6, 4) | 6 => (2, 1) | 2 => (2, 1) | 1 => (3, 5)
    | 3 => (3, 0) | 0 => (2, 5) | 5 => (0xC, 7) | 4 => (0xE, 0xF) | 0xE => (0xA, 9) | 0xA => (0xA, 9)
    | 9 => (0xB, 0xD) | 0xB => (0xB, 8) | 8 => (0xA, 0xD) | _ => (0xC, 7)
  if tms then r.2 else r.1

/-- A rising TCK: the register of the state shifts or captures, and the state moves. -/
def tapRise (t : TapHw) (tms tdi : Bool) : TapHw :=
  let t := match t.st with
    | 6 => { t with drShift := 0 }
    | 2 => { t with drShift := b2n tdi }
    | 0xE => { t with irShift := 1 }
    | 0xA => { t with irShift := t.irShift / 2 + 2 * b2n tdi }
    | _ => t
  let st := tapNext t.st tms
  { t with st := st, ir := if st = 0xF then 3 else t.ir }

/-- The TAP is open: the supplies are valid and TAPOFF is not blown. -/
def tapOpen (s : State) : Bool :=
  s.pwrokOut && !s.fon OTP_LCST.TAPOFF && !bit (s.otp.ctlNormal ||| s.otp.ctlStrict) 33

/-- An edge on TCK, or TRST_N low, which resets the controller (R77, IEEE 1149.1). TDO is driven while a register shifts; what a data register other than BYPASS holds
is a free value. -/
def tapEdge (s : State) (rise tms tdi trst : Bool) : State :=
  let t := s.pins.tap
  if !s.tapOpen || trst then { s with pins := { s.pins with tap := {} } }
  else if rise then { s with pins := { s.pins with tap := tapRise t tms tdi } }
  else if t.st = 2 ∧ t.ir ≠ 3 then
    let d := s.draw 1
    { d.2 with pins := { s.pins with tap := { t with tdo := some (d.1 == 1) } } }
  else
    let tdo := if t.st = 2 then some (bit t.drShift 0) else if t.st = 0xA then some (bit t.irShift 0) else none
    { s with pins := { s.pins with tap := { t with tdo := tdo, ir := if t.st = 0xD then t.irShift else t.ir } } }

end State

/-! ## Meanings -/

open State

/-- DB_OFF_RISE (R82): the clamps are removed. -/
def execDbOffRise (s : State) : Out := .next { s with pins := { s.pins with dbOff := true } }

/-- DB_OFF_FALL (R82): clamps that no termination has replaced are present again. -/
def execDbOffFall (s : State) : Out := .next { s with pins := { s.pins with dbOff := false } }

/-- VDRV_INVALID (R489): charge pumps and ramp sources stop. -/
def execVdrvInvalid (s : State) : Out := .next { s with pins := { s.pins with vdrv := false } }

/-- VDRV_VALID (R489): they run again. -/
def execVdrvValid (s : State) : Out := .next { s with pins := { s.pins with vdrv := true } }

/-- MUXBUS_SLOT (R88, R89): acts from the first edge after boot. -/
def execMuxbusSlot (slot : Fin 18) (s : State) : Out :=
  if s.pins.muxOn then .next (s.muxDrive slot) else .next s

/-- TAP_TCK_EDGE (R77): acts while the TAP is open; TRST_N low resets it. -/
def execTapTckEdge (rise tms : Bool) (i : TapIn) (s : State) : Out := .next (s.tapEdge rise tms i.tdi i.trst)

end Sys2Proof.Machine
end

