-- ==== Sys2Proof/Machine/Host.lean ====
section
/-!
DEFINITION. The host link (chapter 11): packets and entries, the checks of the front end, the queues of
accepted commands and how one is taken up, and the meanings of the link's transactions.
-/
namespace Sys2Proof.Machine

/-! ## The commands by opcode (R313) -/

/-- Opcode, least and greatest parameter length, and step between allowed lengths: opcodes up to 0x65. -/
def hostLenLow : List (Nat × Nat × Nat × Nat) :=
  [(0x00, 0, 0, 1), (0x01, 0, 0, 1), (0x02, 0, 0, 1), (0x03, 4, 4, 1), (0x04, 4, 4, 1), (0x05, 4, 4, 1),
   (0x06, 4, 4, 1), (0x07, 8, 8, 1), (0x08, 4, 4, 1)] ++
  [(0x10, 4, 4, 1), (0x11, 4, 4, 1), (0x12, 4, 4, 1), (0x13, 4, 4, 1), (0x14, 12, 516, 8),
   (0x15, 8, 260, 4), (0x16, 4, 4, 1)] ++
  [(0x30, 8, 40, 1), (0x31, 16, 136, 8), (0x32, 8, 272, 1), (0x33, 10, 272, 1), (0x34, 8, 8, 1),
   (0x35, 8, 8, 1), (0x36, 8, 8, 1), (0x37, 4, 4, 1), (0x38, 4, 4, 1), (0x39, 8, 8, 1), (0x3A, 4, 4, 1),
   (0x3B, 4, 4, 1)] ++
  [(0x50, 8, 8, 1), (0x51, 8, 8, 1), (0x52, 4, 4, 1), (0x60, 0, 0, 1), (0x61, 4, 4, 1), (0x62, 0, 0, 1),
   (0x63, 0, 0, 1), (0x64, 0, 0, 1), (0x65, 4, 4, 1)]

/-- The opcodes from 0x70. -/
def hostLenHigh : List (Nat × Nat × Nat × Nat) :=
  [(0x70, 0, 0, 1), (0x71, 4, 4, 1), (0x72, 8, 8, 1), (0x73, 4, 4, 1), (0x74, 0, 0, 1), (0x80, 8, 8, 1),
   (0x81, 4, 4, 1), (0x82, 4, 4, 1), (0x83, 2, 18, 1), (0x84, 8, 8, 1), (0x85, 0, 0, 1)] ++
  [(0x90, 4, 1020, 1), (0x91, 8, 8, 1), (0x92, 4, 4, 1), (0x93, 4, 4, 1), (0x94, 0, 0, 1), (0x95, 12, 12, 1),
   (0x96, 4, 4, 1), (0xA0, 4, 4, 1), (0xA1, 4, 4, 1), (0xA2, 4, 4, 1), (0xA3, 4, 4, 1), (0xA4, 0, 0, 1)] ++
  [(0xB0, 12, 12, 1), (0xB1, 4, 1020, 1), (0xB2, 32, 32, 1), (0xB3, 4, 4, 1), (0xB4, 0, 0, 1),
   (0xB5, 4, 4, 1), (0xC0, 4, 4, 1), (0xC1, 12, 12, 1), (0xC2, 4, 4, 1), (0xC3, 0, 0, 1), (0xC4, 8, 8, 1)] ++
  [(0xD0, 8, 8, 1), (0xD1, 16, 16, 1), (0xD2, 8, 8, 1), (0xD3, 9, 1024, 1), (0xD4, 0, 0, 1), (0xE0, 0, 0, 1),
   (0xE1, 16, 16, 1), (0xE2, 0, 0, 1), (0xE3, 0, 0, 1)]

/-- A parameter length is allowed for the opcode; none where the opcode is unassigned (R11). -/
def hostLenOk (op n : Nat) : Option Bool :=
  ((hostLenLow ++ hostLenHigh).find? fun r => r.1 == op).map fun r =>
    decide (r.2.1 ≤ n ∧ n ≤ r.2.2.1) && (n - r.2.1) % r.2.2.2 == 0

/-- The urgent commands (R305). -/
def hostUrgent (op : Nat) : Bool := [0x11, 0x32, 0x37].contains op

/-- The commands of the slow queue (R305, R313). -/
def hostSlow (op : Nat) : Bool :=
  [0x83, 0x84, 0x90, 0x91, 0x93, 0x95, 0x96, 0xA1, 0xA3, 0xB0, 0xB1, 0xB2, 0xB3, 0xB5, 0xC0, 0xC1, 0xC2,
   0xC3, 0xC4].contains op

/-- The commands that a unit in RETIRED accepts (R436). -/
def retiredOps : List Nat :=
  [0x01, 0x02, 0x70, 0x74, 0x80, 0x81, 0x82, 0x84, 0x85, 0xC0, 0xC3, 0xE0, 0xE2]

/-- The commands that loader mode accepts (R333). -/
def loaderOp (op : Nat) (ps : List Byte) : Bool :=
  decide (op ≤ 0x0F) || [0xB1, 0xB2, 0xC0, 0xC1, 0xC2, 0xC3, 0xC4, 0xD0, 0xD1, 0xD2, 0xD4, 0xE0,
    0xE2].contains op ||
    (op == 0xB0 && ps.headD 0 == 2) || (op == 0xB3 && ps.headD 0 == 2 && ps.getD 1 0 == 1)

namespace State

/-- Step 9 of R303: the life-cycle state and loader mode accept the command. -/
def hostLife (s : State) (op : Nat) (ps : List Byte) : Bool :=
  (s.fget OTP_LCST.LC != 4 || retiredOps.contains op) && (!s.boot.loader || loaderOp op ps)

/-! ## Entries (R295, R301, R307) -/

/-- An entry as it is sent. -/
def entryBytes (e : Entry) : List Byte :=
  let b := [0xA7, byte e.op, byte e.tag, byte e.flags] ++ toBytes 2 (1 + e.data.length) ++
    byte e.status :: e.data
  b ++ crcBytes b

/-- The status byte: RDY, REF and FREE; 0x00 until boot completes (R295, R299). -/
def linkStatus (s : State) : Byte :=
  if s.booted then
    let ref := s.host.entries.any fun e => decide (e.place = .refusal)
    let rdy := s.host.entries.any fun e => decide (e.place ≠ .refusal)
    byte (128 * b2n rdy + 64 * b2n ref + (32 - s.host.tags.length))
  else 0

/-- HINT_N is asserted (R298). -/
def hint (s : State) : Bool := s.host.entries != []

/-- A front-end refusal; beyond 8 waiting it is dropped and counted (R307). -/
def refuse (s : State) (op tag status : Nat) : State :=
  let s := s.cntEvent 0x51
  if 8 ≤ s.placeUsed .refusal then s.cntEvent 0x53
  else s.queueEntry ⟨.refusal, op, tag, 2, status, []⟩

/-- An entry has been read in full and leaves the queue: a tag whose final status it carried is free
again, a width or a reset that waited for it goes on (R296, R302, R314, R315). -/
def entryRead (s : State) (e : Entry) : State :=
  let final := decide (e.place = .completion) && e.status != 1 && e.status != 2
  let h := s.host
  let wide := match h.widthNext with
    | some (t, w) => if final && e.op == 4 && e.tag == t then some w else none
    | none => none
  { s with host := { h with
      entries := h.entries.tail
      last := some e
      tags := if final then h.tags.filter (· != e.tag) else h.tags
      width := wide.getD h.width
      widthNext := if wide.isSome then none else h.widthNext
      resetPend := h.resetPend.map fun r =>
        if final && e.op == 6 && e.tag == r.1 then (r.1, r.2.1, true) else r } }

/-- Entries read by a transaction that clocks `n` bytes: what it sends, and the queue afterwards. The
number of entries bounds the rounds. -/
def readOut (s : State) : Nat → Nat → List Byte × State
  | 0, n => (List.replicate n 0, s)
  | k + 1, n =>
    match s.host.entries with
    | [] => (List.replicate n 0, s)
    | e :: _ =>
      let b := entryBytes e
      if n < b.length then (b.take n, s)
      else
        let r := readOut (s.entryRead e) k (n - b.length)
        (b ++ r.1, r.2)

/-! ## Acceptance (R302 to R306) -/

/-- The lowest packet slot that no tag in flight holds. -/
def freeSlot (s : State) : Nat :=
  let used := s.host.tags.map fun t => s.host.slots.get 0 t
  ((List.range 32).find? fun k => !used.contains k).getD 0

/-- The packet's tag goes in flight, and its bytes into a packet slot. -/
def takeTag (s : State) (k : Packet) : State :=
  let n := s.freeSlot
  let h := s.host
  let s := { s with host := { h with tags := h.tags ++ [k.tag], slots := h.slots.put 0 k.tag n } }
  (s.memWrite 0x43 (slotOff n) ([0xA7, byte k.op, byte k.tag, 0] ++ toBytes 2 k.params.length ++
    k.params)).cntEvent 0x50

/-- The steps that the front end makes itself for an urgent command (R306): the failing status, or 0. -/
def urgentStatus (s : State) (k : Packet) : Nat :=
  let p := (k.params.headD 0).toNat
  if !s.hostLife k.op k.params then 0x32
  else if 15 < p ∨ (k.params.take 4).drop 1 ≠ [0, 0, 0] then 0x12
  else if s.fon WEIR_ST.USAFE then 0x60
  else if !s.owns p then 0x40
  else if 8 ≤ (s.mbxEnd (32 + p)).rx.length then 0x20
  else 0

/-- The engines that an accepted packet wakes (R309): EH, and the owning engine of a port command. -/
def wakeFor (s : State) (k : Packet) : State :=
  let p := (k.params.headD 0).toNat
  (s.wake 16).when (decide (0x10 ≤ k.op ∧ k.op < 0x60 ∧ p < 16) && s.owns p) fun s => s.wake p

/-- An accepted packet put in its queue, its descriptor posted. -/
def enqueue (s : State) (k : Packet) : State :=
  let s := (s.takeTag k).wakeFor k
  let h := s.host
  if hostUrgent k.op then
    let p := (k.params.headD 0).toNat
    match s.urgentStatus k with
    | 0 => ({ s with host := { h with urgent := h.urgent ++ [{ k with posted := true }] } }).postWord (64 + p)
        (s.descriptor k 0)
    | st => s.reply k.op (byte k.tag) st
  else if hostSlow k.op then { s with host := { h with slow := h.slow ++ [k] } }.hostFeed
  else { s with host := { h with fast := h.fast ++ [k] } }.hostFeed

/-- Steps 4 to 8 of R303 for a packet whose framing, CRC and length hold, and its acceptance. -/
def frontEnd (s : State) (k : Packet) (flags : Nat) : State :=
  if flags ≠ 0 ∨ k.tag = 0xFF then s.refuse k.op k.tag 0x12
  else match hostLenOk k.op k.params.length with
    | none => s.refuse k.op k.tag 0x10
    | some false => s.refuse k.op k.tag 0x11
    | some true =>
      if s.host.tags.contains k.tag then s.refuse k.op k.tag 0x21
      else if 32 ≤ s.host.tags.length then s.refuse k.op k.tag 0x20
      else s.enqueue k

/-- Steps 1 to 3 of R303, then the rest: the bytes of a WRITE transaction. The CRC is the last four
bytes that arrived (log entry 51). -/
def packetIn (s : State) (b : List Byte) : State :=
  let op := (b.getD 1 0).toNat
  let tag := (b.getD 2 0).toNat
  let len := ofBytes (slice b 4 2)
  if b.length < 10 ∨ b.head? ≠ some 0xA7 then s.cntEvent 0x52
  else if b.drop (b.length - 4) ≠ crcBytes (b.take (b.length - 4)) then s.refuse op tag 0x13
  else if 1024 < len ∨ len + 10 ≠ b.length then s.refuse op tag 0x11
  else s.frontEnd { op := op, tag := tag, params := slice b 6 len } (b.getD 3 0).toNat

/-! ## Taking up a command (R305) -/

/-- The packet is one of those waiting in its queue. -/
def waits (s : State) (k : Packet) : Bool :=
  let same := fun (q : Packet) => q.op == k.op && q.tag == k.tag && decide (q.params = k.params)
  s.host.urgent.any same || s.host.fast.any same || s.host.slow.any same

/-- A slow command that has been taken up is still to be answered. -/
def slowBusy (s : State) : Bool :=
  (match s.otp.op with
    | some o => o.cmd.isSome
    | none => false) ||
    s.jobs.any fun j => match j.done with
      | .staged _ _ => true
      | _ => false

/-- The packet `k` stands first in a queue, and its tag was accepted in an earlier tick. -/
def firstOf (k : Packet) (q : List Packet) : Bool :=
  (q.head?.map fun h => h.op == k.op && h.tag == k.tag && decide (h.params = k.params) && h.late).getD false

/-- The packet stands first in its queue, accepted in an earlier tick, and the queue may go on: the fast queue with
up to 8 commands in a tick, the slow queue one command at a time, the urgent mailbox of its port when the
port's engine runs its tick list (R305, R306). -/
def upNext (s : State) (k : Packet) : Bool :=
  if hostUrgent k.op then
    let p := k.params.headD 0
    firstOf k (s.host.urgent.filter fun q => q.params.headD 0 == p) && s.listRuns p.toNat && !s.hoQuiet p.toNat
  else if hostSlow k.op then firstOf k s.host.slow && !s.slowBusy
  else firstOf k s.host.fast && decide (s.host.took < 8)

/-- The descriptor of a command leaves the mailbox `id` as its engine handles and acknowledges it. -/
def mailTake (s : State) (id tag : Nat) : State :=
  let m := s.mbxEnd id
  let mine := fun (w : Nat) => bits w 23 16 == tag
  if m.rx.any (fun w => mine w.bits) || m.popped.any mine then
    (s.onMbx id fun m => { m with
      rx := m.rx.filter fun w => !mine w.bits, popped := m.popped.filter fun w => !mine w }).onMbx
      (mbxPeer id) fun q => { q with unack := q.unack.drop 1 }
  else s

/-- The command is taken up: packet and descriptor leave their queues. -/
def takeUp (s : State) (k : Packet) : State :=
  let n := if hostUrgent k.op || hostSlow k.op then s.host.took else s.host.took + 1
  let s := { s with host := { s.host with took := n } }
  (s.mailTake (if hostUrgent k.op then 32 + (k.params.headD 0).toNat else 48) k.tag).dropPacket k.tag

/-- At an edge the packets that wait may be taken up (R305). -/
def hostEdge (s : State) : State :=
  let aged := fun (q : List Packet) => q.map fun k => { k with late := true }
  { s with host := { s.host with
      urgent := aged s.host.urgent, fast := aged s.host.fast, slow := aged s.host.slow, took := 0 } }

/-- Step 9 of R303 for the interpreter, and then the command itself. -/
def interpret (op : Nat) (body : Byte → List Byte → State → State) (tag : Byte) (ps : List Byte)
    (s : State) : State :=
  if s.hostLife op ps then body tag ps s else s.reply op tag 0x32

/-- A host command: one that waits in its queue is taken up when its turn comes, in the tick after the one that
accepted its tag at the earliest (R305); any other is received by the front end (log entry 50). -/
def hostRow (op : Nat) (body : Byte → List Byte → State → State) (tag : Byte) (ps : List Byte)
    (s : State) : Out :=
  let k : Packet := { op := op, tag := tag.toNat, params := ps }
  if !s.booted then .next s
  else if s.waits k then .next (if s.upNext k then interpret op body tag ps (s.takeUp k) else s)
  else .next (s.frontEnd k 0)

/-- The first check that fails gives the reply; where none does, the command goes on (R303). -/
def judge (s : State) (op : Nat) (tag : Byte) (checks : List (Bool × Nat)) (go : State → State) : State :=
  match checks.find? fun c => c.1 with
  | some c => s.reply op tag c.2
  | none => go s

/-- The bytes from `a` on, `n` of them, are all zero: a reserved field (R11). -/
def zeroAt (ps : List Byte) (a n : Nat) : Bool := (slice ps a n).all (· == 0)

/-- The little-endian field of `n` bytes at `a`. -/
def par (ps : List Byte) (a n : Nat) : Nat := ofBytes (slice ps a n)

/-- The port prefix breaks R313. -/
def badPort (ps : List Byte) : Bool := decide (15 < par ps 0 1) || !zeroAt ps 1 3

/-- Presence is needed and absent. -/
def absent (s : State) : Bool := !s.fon DEV_PRES.GRANT

/-- The unit safe state, in which a command that changes a port is refused (R309). -/
def unitSafe (s : State) : Bool := s.fon WEIR_ST.USAFE

end State

/-! ## Meanings -/

open State

/-- SPI_WRITE (R294, R297, R299): the bytes of one packet, before boot completes discarded. -/
def execSpiWrite (bytes : List Byte) (s : State) : Out :=
  let b := if bit (s.fget DEV_STRAP.STRAP) 2 then bytes.take 1040 else bytes
  .next (if s.booted then { s with host := { s.host with out := [] } }.packetIn b else s)

/-- SPI_READ (R294, R296): the host clocks `n` bytes of entries. -/
def execSpiRead (n : Nat) (s : State) : Out :=
  let r := s.readOut s.host.entries.length n
  .next { r.2 with host := { r.2.host with out := r.1 } }

/-- SPI_REREAD (R294): the entry most recently removed is sent again. -/
def execSpiReread (s : State) : Out :=
  .next { s with host := { s.host with out := (s.host.last.map entryBytes).getD [] } }

/-- SPI_STATUS (R295). -/
def execSpiStatus (s : State) : Out :=
  .next { s with host := { s.host with out := [s.linkStatus] } }

/-- SPI_SINGLE (R294). -/
def execSpiSingle (s : State) : Out :=
  .next { s with host := { s.host with width := 0, out := [] } }

end Sys2Proof.Machine
end

