-- ==== Sys2Proof/Machine/HostDebug.lean ====
section
/-!
DEFINITION. The host commands of the fuses and of engine and register debug (chapters 11 and 15).
-/
namespace Sys2Proof.Machine
namespace State

/-! ## OTP and life cycle, 0xC0 to 0xCF -/

/-- Body of OTP_READ (R330, R427): the array at normal margin, and the flags of the words. A USER region
that boot replaced by its defaults reads 0 (R428). -/
def doOtpRead (tag : Byte) (ps : List Byte) (s : State) : State :=
  let r := par ps 0 1
  let w := par ps 2 1
  let n := par ps 3 1
  s.judge 0xC0 tag
    [(decide (15 < r ∨ 7 < w ∨ n = 0 ∨ 8 < n ∨ 8 < w + n) || !zeroAt ps 1 1, 0x12),
     (s.otpRefusal 0 r w false 0 == 0x31, 0x31)] fun s =>
    let zero := decide (5 ≤ r) && bit (s.fget OTP_REGST.DEFLT) r
    let word := fun (j : Nat) => if zero then 0 else s.otp.normal.get 0 (8 * r + w + j)
    let flag := fun (j : Nat) => bit (s.fget (OTP_MARGW.MW ((8 * r + w + j) / 64))) ((8 * r + w + j) % 64)
    let flags := ((List.range n).filter flag).foldl (fun a j => a + 2 ^ j) 0
    s.reply 0xC0 tag 0 (((List.range n).flatMap fun j => toBytes 8 (word j)) ++ [byte flags])

/-- An operation of the OTP controller asked by a command: its refusals in the order of R303, then its
start. `bad` is a malformed parameter. -/
def otpAsk (s : State) (op : Nat) (tag : Byte) (bad : Bool) (o : OtpOp) : State :=
  let st := s.otpRefusal o.op o.region o.word o.raw o.data
  s.judge op tag
    [(st == 0x32, 0x32), (bad || st == 0x12, 0x12), (s.absent, 0x30), (st == 0x31, 0x31),
     (s.fon OTP_ST.BUSY, 0x21)] fun s => s.otpStart { o with cmd := some (op, tag.toNat) }

/-- Body of OTP_PROGRAM (R429, R431). -/
def doOtpProgram (tag : Byte) (ps : List Byte) (s : State) : State :=
  let r := par ps 0 1
  let w := par ps 1 1
  let raw := par ps 2 1
  s.otpAsk 0xC1 tag (decide (15 < r ∨ 7 < w ∨ 1 < raw) || !zeroAt ps 3 1)
    ⟨2, r, w, raw == 1, par ps 4 8, none, false⟩

/-- Body of OTP_LOCK (R430). -/
def doOtpLock (tag : Byte) (ps : List Byte) (s : State) : State :=
  let r := par ps 0 1
  let which := par ps 1 1
  s.otpAsk 0xC2 tag (decide (15 < r ∨ 3 < which) || !zeroAt ps 2 2) ⟨3, r, 0, false, which, none, false⟩

/-- Body of OTP_STATUS (R330). -/
def doOtpStatus (tag : Byte) (_ps : List Byte) (s : State) : State :=
  s.reply 0xC3 tag 0 (toBytes 2 (s.fget OTP_LOCKST.WL) ++ toBytes 2 (s.fget OTP_LOCKST.RL) ++
    toBytes 2 (s.fget OTP_REGST.GOOD) ++ toBytes 2 (s.fget OTP_REGST.MARG) ++
    [byte s.lifeCycle, byte s.pwire] ++ List.replicate 6 0)

/-- Body of LC_ADVANCE (R433, R434). -/
def doLcAdvance (tag : Byte) (ps : List Byte) (s : State) : State :=
  let t := par ps 0 1
  let sure := slice ps 4 4 == [0x58, 0x4B, 0x4C, byte t]
  let o : OtpOp := ⟨4, t, 0, false, 0, none, false⟩
  s.otpAsk 0xC4 tag (!sure || !zeroAt ps 1 3) o

/-! ## Engine and register debug, 0xD0 to 0xDF -/

/-- The address in EH's space that a debug command names; none where it breaks the table of 0xD0. -/
def debugAddr (ps : List Byte) : Option Nat :=
  let space := par ps 0 1
  let i := par ps 1 1
  let bank := par ps 2 1
  let size := par ps 3 1
  let off := par ps 4 2
  if !(size == 1 || size == 2 || size == 4 || size == 8) || off % size != 0 || !zeroAt ps 6 2 then none
  else match space with
    | 0 => if i = 0 ∧ 0xF0 ≤ bank then some (bank * 0x10000 + off) else none
    | 1 => if i ≤ 15 ∧ bank = 1 ∧ off < 0x1000 then some (0xFC0000 + 0x1000 * i + off) else none
    | 2 => if i ≤ 3 ∧ bank = 2 ∧ off < 0x1000 then some (0xFD0000 + 0x1000 * i + off) else none
    | _ => none

/-- A read of `n` bytes by the host, register by register; the number of bytes bounds the rounds. A byte
that holds no register reads 0. -/
def debugRead (s : State) : Nat → Nat → Nat → List Byte × State
  | 0, _, _ => ([], s)
  | k + 1, a, n =>
    if n = 0 then ([], s)
    else match regAt a with
      | some (r, i, j) =>
        let m := min n (r.bytes - j)
        let v := s.regLoad 17 r i j m
        let t := debugRead v.2 k (a + m) (n - m)
        (toBytes m v.1 ++ t.1, t.2)
      | none =>
        let t := debugRead s k (a + 1) (n - 1)
        (0 :: t.1, t.2)

/-- The parts of a write of `n` bytes: register, index, value and mask. -/
def debugParts : Nat → Nat → Nat → Nat → List (Reg × Nat × Nat × Nat)
  | 0, _, _, _ => []
  | k + 1, a, n, v =>
    if n = 0 then []
    else match regAt a with
      | some (r, i, j) =>
        let m := min n (r.bytes - j)
        (r, i, v % 256 ^ m * 256 ^ j, (256 ^ m - 1) * 256 ^ j) :: debugParts k (a + m) (n - m) (v / 256 ^ m)
      | none => debugParts k (a + 1) (n - 1) (v / 256)

/-- A host write breaks a rule of a field it covers, which an engine write would clamp or ignore (R10). -/
def debugIllegal (s : State) (e : Reg × Nat × Nat × Nat) : Bool :=
  e.1.flds.any fun f =>
    let m := fldMask f.2 e.2.2.2
    match s.access f e.2.1, legalOf f.2 with
    | .rw, some l | .rwEh, some l =>
      let old := s.fget f.2 e.2.1
      m != 0 && !l.ok (old - (old &&& m) + (fldMask f.2 e.2.2.1 &&& m))
    | _, _ => false

/-- Body of REG_READ (R331): a host debug read, which clears RC fields. -/
def doRegRead (tag : Byte) (ps : List Byte) (s : State) : State :=
  match debugAddr ps with
  | none => s.reply 0xD0 tag 0x12
  | some a =>
    if (regAt a).isNone then s.reply 0xD0 tag 0x12
    else
      let r := s.debugRead 8 a (par ps 3 1)
      r.2.reply 0xD0 tag 0 r.1

/-- Body of REG_WRITE (R331). -/
def doRegWrite (tag : Byte) (ps : List Byte) (s : State) : State :=
  match debugAddr ps with
  | none => s.reply 0xD1 tag 0x12
  | some a =>
    let n := par ps 3 1
    let parts := debugParts 8 a n (par ps 8 8 % 256 ^ n)
    s.judge 0xD1 tag
      [((regAt a).isNone || !zeroAt ps (8 + n) (8 - n) || parts.any s.debugIllegal, 0x12), (s.absent, 0x30),
       (s.fon OTP_LCST.DBGLOCK, 0x31)] fun s =>
      (parts.foldl (fun s e => s.regWrite 17 e.1 e.2.1 e.2.2.1 e.2.2.2) s).reply 0xD1 tag 0

/-- The engine, memory and offset that MEM_READ and MEM_WRITE name; none for a range outside. -/
def debugMem (s : State) (ps : List Byte) : Option (Nat × Nat × Nat) :=
  let e := par ps 0 1
  let bank := par ps 1 1
  let off := par ps 2 2
  let len := par ps 4 2
  let size := if bank = 0 ∧ e < 16 then 0x4000 else 0x10000
  if 16 < e ∨ !(bank == 0 || decide (0x10 ≤ bank ∧ bank ≤ 0x17) || bank == 0x20 || bank == 0x21) ∨
      len = 0 ∨ 1016 < len ∨ size < off + len ∨ !zeroAt ps 6 2 then none
  else (s.memPlace e bank off).map fun m => (e, m)

/-- Body of MEM_READ (R331). -/
def doMemRead (tag : Byte) (ps : List Byte) (s : State) : State :=
  match s.debugMem ps with
  | none => s.reply 0xD2 tag 0x12
  | some (_, m, off) =>
    s.judge 0xD2 tag [(s.fon OTP_LCST.DBGLOCK, 0x31)] fun s =>
      s.reply 0xD2 tag 0 (s.memRead m off (par ps 4 2))

/-- Body of MEM_WRITE (R331). -/
def doMemWrite (tag : Byte) (ps : List Byte) (s : State) : State :=
  if ps.length ≠ 8 + par ps 4 2 then s.reply 0xD3 tag 0x11
  else match s.debugMem ps with
  | none => s.reply 0xD3 tag 0x12
  | some (e, m, off) =>
    s.judge 0xD3 tag [(s.absent, 0x30), (s.fon OTP_LCST.DBGLOCK, 0x31)] fun s =>
      let bank := par ps 1 1
      let base := par ps 2 2
      let open_ := fun (k : Nat) => s.memOpen e bank (base + k)
      ((ps.drop 8).zipIdx.foldl (fun (s : State) (b : Byte × Nat) =>
        if open_ b.2 then s.memPut m (off + b.2) b.1 else s) s).reply 0xD3 tag 0

/-- One engine as ENGINE_STATUS shows it. -/
def engineStatus (s : State) (e : Nat) : List Byte :=
  let g := s.engine e
  let st := match g.run with
    | .running => 0
    | .waiting => if s.lowWater then 3 else 1
    | .held | .stopped => 2
  [byte st, byte (b2n g.act)] ++ toBytes 2 g.cycLast ++ toBytes 2 g.cycMost ++ [0, 0]

/-- Body of ENGINE_STATUS (R331). -/
def doEngineStatus (tag : Byte) (_ps : List Byte) (s : State) : State :=
  s.reply 0xD4 tag 0 ((List.range 17).flatMap s.engineStatus)

end State

/-! ## Meanings -/

open State

/-- OTP_READ (R330). -/
def execOtpRead (tag : Byte) (ps : List Byte) (s : State) : Out := hostRow 0xC0 doOtpRead tag ps s

/-- OTP_PROGRAM (R429). -/
def execOtpProgram (tag : Byte) (ps : List Byte) (s : State) : Out := hostRow 0xC1 doOtpProgram tag ps s

/-- OTP_LOCK (R430). -/
def execOtpLock (tag : Byte) (ps : List Byte) (s : State) : Out := hostRow 0xC2 doOtpLock tag ps s

/-- OTP_STATUS (R330). -/
def execOtpStatus (tag : Byte) (ps : List Byte) (s : State) : Out := hostRow 0xC3 doOtpStatus tag ps s

/-- LC_ADVANCE (R433). -/
def execLcAdvance (tag : Byte) (ps : List Byte) (s : State) : Out := hostRow 0xC4 doLcAdvance tag ps s

/-- REG_READ (R331). -/
def execRegRead (tag : Byte) (ps : List Byte) (s : State) : Out := hostRow 0xD0 doRegRead tag ps s

/-- REG_WRITE (R331). -/
def execRegWrite (tag : Byte) (ps : List Byte) (s : State) : Out := hostRow 0xD1 doRegWrite tag ps s

/-- MEM_READ (R331). -/
def execMemRead (tag : Byte) (ps : List Byte) (s : State) : Out := hostRow 0xD2 doMemRead tag ps s

/-- MEM_WRITE (R331). -/
def execMemWrite (tag : Byte) (ps : List Byte) (s : State) : Out := hostRow 0xD3 doMemWrite tag ps s

/-- ENGINE_STATUS (R331). -/
def execEngineStatus (tag : Byte) (ps : List Byte) (s : State) : Out := hostRow 0xD4 doEngineStatus tag ps s

end Sys2Proof.Machine
end

