-- ==== Sys2Proof/Machine/HostEvidence.lean ====
section
/-!
DEFINITION. The host commands of the weir, the watchdogs, the counters and the log (chapters 11, 14, 17).
-/
namespace Sys2Proof.Machine

/-- The indices that SRC covers, as scope and index; none for a value that names no source or a reserved unit
index (R326, R392). -/
def srcCovers (src : Nat) : Option (List (Nat × Nat)) :=
  let hi := src / 256
  let lo := src % 256
  if src = 0xFFFF then
    some (((List.range 16).flatMap fun p => (List.range 24).map fun i => (p, i)) ++
      (List.range 50).map fun i => (16, i))
  else if hi < 16 ∧ lo < 24 then some [(hi, lo)]
  else if hi = 0xFF ∧ lo < 50 then some [(16, lo)]
  else none

namespace State

/-! ## Weir, 0x70 to 0x7F -/

/-- The WEIR_STATUS reply. -/
def weirStatus (s : State) : List Byte :=
  ((List.range 16).flatMap fun p => s.rbytes WEIR_PSTK.reg p) ++ toBytes 8 (s.rget WEIR_USTK.reg) ++
    [byte s.highClass, byte (s.fget WEIR_ST.FLT), 0, 0] ++
    ((List.range 16).flatMap fun p => toBytes 2 (s.fget WEIR_PST.RCNT p)) ++
    toBytes 2 (s.fget WEIR_ST.URCNT) ++ [0, 0]

/-- The indices at or above the reaction's class that a latched scope watches. -/
def latchWatch (s : State) (sc : Nat) : List (Nat × Nat) :=
  (watched sc).filter fun e => decide ((s.react sc).cls ≤ s.weirClass e.1 e.2)

/-- The scopes whose latched reaction a clear of these indices ends (R411). -/
def latchedBy (s : State) (l : List (Nat × Nat)) : List Nat :=
  (List.range 17).filter fun sc =>
    (s.react sc).latched && (s.latchWatch sc).all fun e => l.contains e

/-- Sticky and severe bits cleared, and the latched reactions that the clear covers made to leave at the
next edge, their escalation windows closed (R411). -/
def weirClear (s : State) (l : List (Nat × Nat)) : State :=
  let sc := s.latchedBy l
  let s := l.foldl (fun s (e : Nat × Nat) =>
    (s.fbit (stickyOf e.1) (scIdx e.1) e.2 false).fbit (severeOf e.1) (scIdx e.1) e.2 false) s
  (s.forEach sc fun k s => (s.setReact k { s.react k with leave := true }).setRelWin k {}).refreshFault

/-- Body of WEIR_CLEAR (R411, R326). -/
def doWeirClear (tag : Byte) (ps : List Byte) (s : State) : State :=
  let l := srcCovers (par ps 0 2)
  let what := par ps 2 1
  let is := l.getD []
  let grave := is.any fun e => s.weirClass e.1 e.2 == 3
  let compat := bit (s.fget DEV_STRAP.STRAP) 5 && is.any fun e =>
    s.weirClass e.1 e.2 == 3 && bit (s.fget (severeOf e.1) (scIdx e.1)) e.2
  let live := bit what 0 && (s.latchedBy is).any fun sc => (s.latchWatch sc).any fun e => s.weirTrue e.1 e.2
  s.judge 0x71 tag
    [(l.isNone || decide (4 ≤ what) || !zeroAt ps 3 1, 0x12), (grave && s.absent, 0x30),
     (compat || live, 0x22)] fun s =>
    let s := s.when (bit what 0) fun s => s.weirClear is
    (s.when (bit what 1) faultReleaseWrite).reply 0x71 tag 0

/-- Class, N and W of an index as working values (R399). -/
def weirSet (s : State) (e : Nat × Nat) (cls n w : Nat) : State :=
  if e.1 < 16 then
    ((s.fset (WEIR_PCFG.CLASS e.2) e.1 cls).fset (WEIR_PCFG.N e.2) e.1 n).fset (WEIR_PCFG.W e.2) e.1 w
  else ((s.fset (WEIR_UCFG.CLASS e.2) 0 cls).fset (WEIR_UCFG.N e.2) 0 n).fset (WEIR_UCFG.W e.2) 0 w

/-- Body of WEIR_CLASS_SET (R326, R399). -/
def doWeirClassSet (tag : Byte) (ps : List Byte) (s : State) : State :=
  let l := srcCovers (par ps 0 2)
  let cls := par ps 2 1
  let n := par ps 3 1
  let w := par ps 4 2
  let is := l.getD []
  let bad1 := decide (cls = 1) && is.any fun e => decide (e.1 = 16 ∧ ¬(20 ≤ e.2 ∧ e.2 < 36))
  s.judge 0x72 tag
    [(l.isNone || decide (3 < cls ∨ n = 0 ∨ w = 0) || bad1 || !zeroAt ps 6 2, 0x12), (s.absent, 0x30)]
    fun s => (is.foldl (fun s e => s.weirSet e cls n w) s).reply 0x72 tag 0

/-- Body of WEIR_FORCE (R395). -/
def doWeirForce (tag : Byte) (ps : List Byte) (s : State) : State :=
  let src := par ps 0 2
  let l := srcCovers src
  let v := par ps 2 1
  s.judge 0x73 tag
    [(l.isNone || decide (src = 0xFFFF ∨ 1 < v) || !zeroAt ps 3 1, 0x12), (s.absent, 0x30)] fun s =>
    match l with
    | some (e :: _) =>
      let was := bit (s.fget (forceOf e.1) (scIdx e.1)) e.2
      let s := s.fbit (forceOf e.1) (scIdx e.1) e.2 (decide (v = 1))
      (s.when (decide (v = 1) && !was) fun s => s.weirEvent e.1 e.2).reply 0x73 tag 0
    | _ => s.reply 0x73 tag 0

/-- The WDG_STATUS reply. -/
def wdgStatus (s : State) : List Byte :=
  ((List.range 17).flatMap fun k => s.rbytes (WDG_RCNT.reg k)) ++ [byte (s.fget WDG_CAUSE.CAUSE), 0, 0, 0, 0, 0]

/-! ## Counters and log, 0x80 to 0x8F -/

/-- Body of CNT_CONFIG (R470). -/
def doCntConfig (tag : Byte) (ps : List Byte) (s : State) : State :=
  let k := par ps 0 1
  let ev := par ps 1 1
  let mask := par ps 2 2
  let mode := par ps 4 1
  let wrong := match eventScope ev with
    | none => true
    | some true => decide (mask = 0)
    | some false => decide (mask ≠ 0)
  s.judge 0x80 tag [(decide (31 < k ∨ 8 ≤ mode) || wrong || !zeroAt ps 5 3, 0x12)] fun s =>
    (s.regWrite 17 (CNT_CFG.reg k) 0 (mode + 256 * ev + 65536 * mask) 0xFFFFFFFF).reply 0x80 tag 0

/-- The CNT_READ reply. -/
def cntRead (s : State) (mask : Nat) : List Byte :=
  ((List.range 32).filter fun k => bit mask k).flatMap fun k =>
    toBytes 6 (s.fget (CNT_VAL.COUNT k)) ++ toBytes 6 (s.fget (CNT_SNAP.SNAP k)) ++ [0, 0, 0, 0]

/-- Body of CNT_CLEAR (R474). -/
def doCntClear (tag : Byte) (ps : List Byte) (s : State) : State :=
  (s.fset CNT_CTL.CLR 0 (s.fget CNT_CTL.CLR ||| par ps 0 4)).reply 0x82 tag 0

/-- Body of LOG_MARK (R482). -/
def doLogMark (tag : Byte) (ps : List Byte) (s : State) : State :=
  let d := ps.drop 2
  s.judge 0x83 tag [(!zeroAt ps 1 1, 0x12), (decide (255 ≤ s.log.buf.length), 0x21)] fun s =>
    let n := s.logPredict
    let s := s.logRec 0x80 (par ps 0 1) (d.take 12)
    (s.when (decide (12 < d.length)) fun s => s.logRec 0x81 (par ps 0 1) (d.drop 12)).reply 0x83 tag 0 (toBytes 4 n)

/-- Body of LOG_READ (R483). -/
def doLogRead (tag : Byte) (ps : List Byte) (s : State) : State :=
  let n := par ps 4 1
  s.judge 0x84 tag [(decide (n = 0 ∨ 31 < n) || !zeroAt ps 5 3, 0x12)] fun s =>
    let at_ := (s.logFrom (par ps 0 4) n).2.filterMap id
    let t := at_.foldl (fun (s : State) a => s.flashReader a 32 id id) s
    t.reply 0x84 tag 0 (s.logRead (par ps 0 4) n)

/-- The LOG_STATUS reply. -/
def logStatus (s : State) : List Byte :=
  toBytes 4 (s.fget LOG_OLDEST.NUM) ++ toBytes 4 (s.fget LOG_NEXT.NUM) ++ toBytes 4 (s.fget LOG_WRAP.COUNT) ++
    [0, 0, 0, 0]

end State

/-! ## Meanings -/

open State

/-- WEIR_STATUS (R313). -/
def execWeirStatus (tag : Byte) (ps : List Byte) (s : State) : Out :=
  hostRow 0x70 (fun tag _ s => s.reply 0x70 tag 0 s.weirStatus) tag ps s

/-- WEIR_CLEAR (R411). -/
def execWeirClear (tag : Byte) (ps : List Byte) (s : State) : Out := hostRow 0x71 doWeirClear tag ps s

/-- WEIR_CLASS_SET (R399). -/
def execWeirClassSet (tag : Byte) (ps : List Byte) (s : State) : Out := hostRow 0x72 doWeirClassSet tag ps s

/-- WEIR_FORCE (R395). -/
def execWeirForce (tag : Byte) (ps : List Byte) (s : State) : Out := hostRow 0x73 doWeirForce tag ps s

/-- WDG_STATUS (R326). -/
def execWdgStatus (tag : Byte) (ps : List Byte) (s : State) : Out :=
  hostRow 0x74 (fun tag _ s => s.reply 0x74 tag 0 s.wdgStatus) tag ps s

/-- CNT_CONFIG (R470). -/
def execCntConfig (tag : Byte) (ps : List Byte) (s : State) : Out := hostRow 0x80 doCntConfig tag ps s

/-- CNT_READ (R327). -/
def execCntRead (tag : Byte) (ps : List Byte) (s : State) : Out :=
  hostRow 0x81 (fun tag ps s => s.reply 0x81 tag 0 (s.cntRead (par ps 0 4))) tag ps s

/-- CNT_CLEAR (R474). -/
def execCntClear (tag : Byte) (ps : List Byte) (s : State) : Out := hostRow 0x82 doCntClear tag ps s

/-- LOG_MARK (R482). -/
def execLogMark (tag : Byte) (ps : List Byte) (s : State) : Out := hostRow 0x83 doLogMark tag ps s

/-- LOG_READ (R483). -/
def execLogRead (tag : Byte) (ps : List Byte) (s : State) : Out := hostRow 0x84 doLogRead tag ps s

/-- LOG_STATUS (R327). -/
def execLogStatus (tag : Byte) (ps : List Byte) (s : State) : Out :=
  hostRow 0x85 (fun tag _ s => s.reply 0x85 tag 0 s.logStatus) tag ps s

end Sys2Proof.Machine
end

