-- ==== Sys2Proof/Machine/HostUnit.lean ====
section
/-!
DEFINITION. The host commands of the unit, the pair, presence and time (chapter 11).
-/
namespace Sys2Proof.Machine
namespace State

/-! ## Unit, 0x00 to 0x0F -/

/-- A port has an EPR, PPS or AVS contract, as its owner's registers or its inbound record show it. -/
def busyContract (s : State) (p : Nat) : Bool :=
  let mine := s.owns p
  let w := s.recWord (inBuf p) 1
  let typ := if mine then s.fget PRT_CONTRACT.TYPE p else bits w 31 29
  let epr := if mine then s.fon PRT_PDST.EPR p else bit w 55
  (mine || bit (s.fget PAIR_SHOK.TWINOWN) p) && (decide (3 ≤ typ) || epr)

/-- A mask of the ports for which `c` holds. -/
def portMask (c : Nat → Bool) : Nat :=
  ((List.range 16).filter c).foldl (fun a p => a + 2 ^ p) 0

/-- The UNIT_STATUS reply. -/
def unitStatus (s : State) : List Byte :=
  let pg := portMask fun p => bit (s.slotData p) 4
  let safe := portMask fun p => if s.owns p then s.fon WEIR_PST.SAFE p else bit (s.slotData p) 6
  pad 6 (s.rbytes TICK_COUNT.reg) ++ s.rbytes TICK_STATUS.reg ++ [byte s.prof.cur, byte s.highClass] ++
    s.rbytes PAIR_ST.reg ++ toBytes 2 pg ++ toBytes 2 safe ++
    [byte (s.fget WEIR_ST.USAFE), byte (s.fget DEV_PRES.GRANT)] ++ s.rbytes TICK_OVR.reg ++
    toBytes 8 s.hostTime ++ List.replicate 8 0

/-- UNIT_PROFILE accepted (R29, R32). From Low Water the twin, which hears only SYNC, is woken as R30 says. -/
def askProfile (s : State) (prof : Nat) (tag : Byte) : State :=
  if s.moving || s.swapping then
    let s := match s.prof.deferred with
      | some d => s.complete 0x03 d.2 0x22
      | none => s
    ({ s with prof := { s.prof with deferred := some (prof, tag.toNat) } }.reply 0x03 tag 2).openCmd 0x03 tag
  else if s.paired then
    ({ s with prof := { s.prof with
        wake := s.prof.wake || s.lowWater, request := some (prof, s.tick) } }.profileAt prof
      (s.tick + 2)).answerLater 0x03 tag
  else (s.profileAt prof (s.tick + 1)).reply 0x03 tag 0

/-- A deferred UNIT_PROFILE applied at the first edge after what it waited for (R32). -/
def deferredProfile (s : State) : State :=
  match s.prof.deferred with
  | some (prof, tag) =>
    if s.moving || s.swapping then s
    else
      let s := ({ s with prof := { s.prof with deferred := none } }).complete 0x03 tag 0
      (s.when s.paired fun s => { s with prof := { s.prof with request := some (prof, s.tick) } }).profileAt
        prof s.tick
  | none => s

/-- UNIT_RESET's reset waits until the reply has been read, at most 10 ms (R315). -/
def resetWhenRead (s : State) (tag : Byte) : State :=
  { s with host := { s.host with resetPend := some (tag.toNat, 1250, false) } }

/-- A command that the pair carries out is accepted and goes on, or is refused at once. -/
def pairRun (s : State) (op : Nat) (tag : Byte) (run : Option (Nat × Nat) → State → Nat × State) : State :=
  let r := run (some (op, tag.toNat)) ((s.reply op tag 1).openCmd op tag)
  if r.1 = 0 then r.2 else s.reply op tag r.1

/-! ## The bodies: steps 10 to 17 of R303 -/

/-- Body of UNIT_PROFILE (R29 to R33). -/
def doUnitProfile (tag : Byte) (ps : List Byte) (s : State) : State :=
  let prof := par ps 0 1
  s.judge 0x03 tag
    [(decide (prof = 0 ∨ 3 < prof) || !zeroAt ps 1 3, 0x12),
     (decide (prof = 3) && (List.range 16).any s.busyContract, 0x22)] fun s => s.askProfile prof tag

/-- Body of HOST_LINK_SET (R308, R314). -/
def doHostLinkSet (tag : Byte) (ps : List Byte) (s : State) : State :=
  let w := par ps 0 1
  s.judge 0x04 tag
    [(decide (2 < w) || !zeroAt ps 1 1, 0x12), (bit (s.fget DEV_STRAP.STRAP) 2 && decide (w ≠ 0), 0x22)]
    fun s => ({ s with host := { s.host with
      evMask := par ps 2 2, widthNext := some (tag.toNat, w) } }).reply 0x04 tag 0

/-- Body of INDICATOR_SET (R92). -/
def doIndicatorSet (tag : Byte) (ps : List Byte) (s : State) : State :=
  let ind := par ps 0 2
  let mask := par ps 2 2
  s.judge 0x05 tag [(decide (2 ^ 14 ≤ ind ∨ 2 ^ 14 ≤ mask), 0x12)] fun s =>
    let old := s.fget DEV_MUXIND.IND
    (s.fset DEV_MUXIND.IND 0 (old - (old &&& mask) + (ind &&& mask))).reply 0x05 tag 0

/-- Body of UNIT_RESET (R315). -/
def doUnitReset (tag : Byte) (ps : List Byte) (s : State) : State :=
  let mode := par ps 0 1
  s.judge 0x06 tag
    [(decide (mode ≠ 1 ∧ mode ≠ 2) || !zeroAt ps 1 3, 0x12), (decide (mode = 2) && s.absent, 0x30)] fun s =>
    if mode = 1 ∧ s.paired ∧ s.fget PAIR_ST.OWN ≠ 0 then
      s.pairRun 0x06 tag fun c s => s.propose false (s.fget PAIR_ST.OWN) c false true
    else (s.reply 0x06 tag 0).resetWhenRead tag

/-- Body of QUAD_SET (R14, R316). -/
def doQuadSet (tag : Byte) (ps : List Byte) (s : State) : State :=
  let q := par ps 0 1
  let v := par ps 4 4
  s.judge 0x07 tag
    [(decide (3 < q) || !zeroAt ps 1 3 || !regLegal QD_JCFG.reg v ||
        decide (bits v 8 8 ≠ s.fget QD_JCFG.SEG q), 0x12),
     (s.absent, 0x30), (s.unitSafe, 0x60)]
    fun s => (s.regWrite 17 QD_JCFG.reg q v 0xFFFFFFFF).reply 0x07 tag 0

/-- Body of QUAD_STATUS (R313). -/
def doQuadStatus (tag : Byte) (ps : List Byte) (s : State) : State :=
  let q := par ps 0 1
  s.judge 0x08 tag [(decide (3 < q) || !zeroAt ps 1 3, 0x12)] fun s =>
    s.reply 0x08 tag 0 (s.rbytes QD_JCFG.reg q ++ s.rbytes QD_JST.reg q ++ s.rbytes QD_JEV.reg q ++
      [byte (s.fget QD_JCFG.SEG q), 0, 0, 0])

/-! ## Pair, 0x60 to 0x6F -/

/-- The PAIR_STATUS reply. -/
def pairStatus (s : State) : List Byte :=
  s.rbytes PAIR_ST.reg ++ pad 6 (s.rbytes PAIR_SHOK.reg) ++ [0, 0] ++ s.rbytes PAIR_HO.reg ++
    s.rbytes PAIR_EV.reg ++ s.rbytes PAIR_LERR.reg ++ s.rbytes PAIR_CREDIT.reg ++ s.rbytes TICK_SKEW.reg ++
    [0, 0, 0] ++ toBytes 2 (s.hin 7) ++ toBytes 4 (s.hin 7 / 2 ^ 32) ++ [0, 0]

/-- Body of PAIR_HANDOVER (R279, R280, R325). -/
def doPairHandover (tag : Byte) (ps : List Byte) (s : State) : State :=
  let op := par ps 0 1
  let mask := par ps 2 2
  s.judge 0x61 tag
    [(decide (op ≠ 1 ∧ op ≠ 2) || !zeroAt ps 1 1 || decide (mask = 0), 0x12), (!s.paired, 0x22)]
    fun s => s.pairRun 0x61 tag fun c s => s.propose (op == 2) mask c false false

/-- Body of PAIR_WITHDRAW (R290, R325). -/
def doPairWithdraw (tag : Byte) (_ps : List Byte) (s : State) : State :=
  s.judge 0x62 tag [(!s.paired, 0x22)] fun s => s.pairRun 0x62 tag fun c s => s.withdraw c

/-- Body of PAIR_REBALANCE (R278, R325). -/
def doPairRebalance (tag : Byte) (_ps : List Byte) (s : State) : State :=
  s.judge 0x63 tag [(!s.paired, 0x22)] fun s => s.pairRun 0x63 tag fun c s => s.rebalance c

/-- Body of PAIR_RETRAIN (R260, R325). -/
def doPairRetrain (tag : Byte) (_ps : List Byte) (s : State) : State :=
  s.judge 0x64 tag [(!s.paired, 0x22)] fun s => s.retrain.reply 0x64 tag 0

/-- Body of PAIR_CFG_SET (R275, R325). -/
def doPairCfgSet (tag : Byte) (ps : List Byte) (s : State) : State :=
  s.judge 0x65 tag [(!zeroAt ps 3 1, 0x12)] fun s =>
    ((s.fset PAIR_CFG.HOME 0 (par ps 0 2)).fset PAIR_CFG.REBALDLY 0 (par ps 2 1)).reply 0x65 tag 0

/-! ## Presence and time, 0xE0 to 0xEF -/

/-- Body of TIME_BIND (R69). -/
def doTimeBind (tag : Byte) (ps : List Byte) (s : State) : State :=
  let e := par ps 8 6
  s.judge 0xE1 tag [(!zeroAt ps 14 2 || decide (e ≠ 0 ∧ e < s.tick + 2), 0x12)] fun s =>
    let at_ := if e = 0 then s.tick + 2 else e
    (s.onPair fun h => { h with bind := some (at_, par ps 0 8), bindAt := some s.tick }).answerLater 0xE1 tag

/-- Body of TIME_READ (R332); the cycle within the tick is free (log entry 2). -/
def doTimeRead (tag : Byte) (_ps : List Byte) (s : State) : State :=
  let d := s.draw 11
  d.2.reply 0xE2 tag 0 (pad 6 (s.rbytes TICK_COUNT.reg) ++ toBytes 2 (d.1 % 2000) ++ toBytes 8 s.hostTime ++
    pad 6 (s.rbytes TICK_HTICK.reg) ++ s.rbytes TICK_STATUS.reg)

/-- Body of PRESENCE_END (R332). -/
def doPresenceEnd (tag : Byte) (_ps : List Byte) (s : State) : State :=
  (s.when s.pres.window.isSome presEnd).reply 0xE3 tag 0

end State

/-! ## Meanings -/

open State

/-- NOP (R313). -/
def execHostNop (tag : Byte) (ps : List Byte) (s : State) : Out :=
  hostRow 0x00 (fun tag _ s => s.reply 0x00 tag 0) tag ps s

/-- UNIT_INFO (R313). -/
def execUnitInfo (tag : Byte) (ps : List Byte) (s : State) : Out :=
  hostRow 0x01 (fun tag _ s => s.reply 0x01 tag 0 s.unitInfo) tag ps s

/-- UNIT_STATUS (R313). -/
def execUnitStatus (tag : Byte) (ps : List Byte) (s : State) : Out :=
  hostRow 0x02 (fun tag _ s => s.reply 0x02 tag 0 s.unitStatus) tag ps s

/-- UNIT_PROFILE (R29). -/
def execUnitProfile (tag : Byte) (ps : List Byte) (s : State) : Out := hostRow 0x03 doUnitProfile tag ps s

/-- HOST_LINK_SET (R314). -/
def execHostLinkSet (tag : Byte) (ps : List Byte) (s : State) : Out := hostRow 0x04 doHostLinkSet tag ps s

/-- INDICATOR_SET (R92). -/
def execIndicatorSet (tag : Byte) (ps : List Byte) (s : State) : Out := hostRow 0x05 doIndicatorSet tag ps s

/-- UNIT_RESET (R315). -/
def execUnitReset (tag : Byte) (ps : List Byte) (s : State) : Out := hostRow 0x06 doUnitReset tag ps s

/-- RESET_AFTER_HANDOVER (R315): at an edge after the entry was read, or 10 ms after it was queued. -/
def execResetAfterHandover (s : State) : Out :=
  match s.host.resetPend with
  | some (_, 0, _) => .next (s.unitReset 3)
  | _ => .next s

/-- QUAD_SET (R316). -/
def execQuadSet (tag : Byte) (ps : List Byte) (s : State) : Out := hostRow 0x07 doQuadSet tag ps s

/-- QUAD_STATUS (R313). -/
def execQuadStatus (tag : Byte) (ps : List Byte) (s : State) : Out := hostRow 0x08 doQuadStatus tag ps s

/-- PAIR_STATUS (R313). -/
def execPairStatus (tag : Byte) (ps : List Byte) (s : State) : Out :=
  hostRow 0x60 (fun tag _ s => s.reply 0x60 tag 0 s.pairStatus) tag ps s

/-- PAIR_HANDOVER (R279). -/
def execPairHandover (tag : Byte) (ps : List Byte) (s : State) : Out := hostRow 0x61 doPairHandover tag ps s

/-- PAIR_WITHDRAW (R290). -/
def execPairWithdraw (tag : Byte) (ps : List Byte) (s : State) : Out := hostRow 0x62 doPairWithdraw tag ps s

/-- PAIR_REBALANCE (R278). -/
def execPairRebalance (tag : Byte) (ps : List Byte) (s : State) : Out := hostRow 0x63 doPairRebalance tag ps s

/-- PAIR_RETRAIN (R260). -/
def execPairRetrain (tag : Byte) (ps : List Byte) (s : State) : Out := hostRow 0x64 doPairRetrain tag ps s

/-- PAIR_CFG_SET (R325). -/
def execPairCfgSet (tag : Byte) (ps : List Byte) (s : State) : Out := hostRow 0x65 doPairCfgSet tag ps s

/-- PRESENCE_STATUS (R332). -/
def execPresenceStatus (tag : Byte) (ps : List Byte) (s : State) : Out :=
  hostRow 0xE0 (fun tag _ s => s.reply 0xE0 tag 0 s.presenceData) tag ps s

/-- TIME_BIND (R69). -/
def execTimeBind (tag : Byte) (ps : List Byte) (s : State) : Out := hostRow 0xE1 doTimeBind tag ps s

/-- TIME_READ (R332). -/
def execTimeRead (tag : Byte) (ps : List Byte) (s : State) : Out := hostRow 0xE2 doTimeRead tag ps s

/-- PRESENCE_END (R332). -/
def execPresenceEnd (tag : Byte) (ps : List Byte) (s : State) : Out := hostRow 0xE3 doPresenceEnd tag ps s

end Sys2Proof.Machine
end

