-- ==== Sys2Proof/Machine/HostPort.lean ====
section
/-!
DEFINITION. The host commands of a port and of its mux (chapters 7, 9 and 11), and what a shadow answers
from its inbound record.
-/
namespace Sys2Proof.Machine
namespace State

/-! ## The inbound record as registers (R266, R277, R312) -/

/-- The fields that the inbound record of port `p` carries, but for those of PRT_CONTRACT and PRT_PDST. -/
def mirrorFields (s : State) (p : Nat) : List (Fld × Nat) :=
  let w0 := s.recWord (inBuf p) 0
  let w1 := s.recWord (inBuf p) 1
  let w6 := s.recWord (inBuf p) 6
  let w7 := s.recWord (inBuf p) 7
  [(PRT_ROLE.BASEPWR, bits w0 6 6), (PRT_ATTST.STATE, bits w0 35 32), (PRT_ATTST.ORIENT, bits w0 36 36),
   (PRT_ATTST.KIND, bits w0 39 37), (PRT_CCSTAT.CC1LVL, bits w0 42 40), (PRT_CCSTAT.CC2LVL, bits w0 45 43),
   (PRT_CCCFG.RPLVL, bits w0 47 46), (PRT_CCCTL.RPSET, bits w0 49 48), (PRT_CCCTL.VCONNON, bits w0 50 50),
   (PRT_CCCTL.HOLDATT, bits w0 51 51)] ++
  [(PRT_ROLE.PWR, bits w0 52 52), (PRT_ROLE.DATA, bits w0 53 53), (PRT_ROLE.VCSRC, bits w0 54 54),
   (PRT_ROLE.SWAP, bits w0 57 55), (PRT_ROLE.SWSTEP, bits w0 60 58), (PRT_PWRST.PGCNT, bits w0 63 61),
   (PRT_ROLE.FRSARM, bits w1 62 62), (PRT_PWRCTL.FRSPRE, bits w1 63 63), (PRT_ILIM.LIM, bits w6 9 0)] ++
  [(PRT_CMP.THR 3, bits w6 19 10), (PRT_CMP.HYST 3, bits w6 25 20), (PRT_CMP.THR 4, bits w6 35 26),
   (PRT_CMP.HYST 4, bits w6 41 36), (PRT_MUX.STATE, bits w7 27 24), (PRT_MODEST.ENTERED, bits w7 28 28),
   (PRT_MODEST.POS, bits w7 31 29), (PRT_MODEST.HOLD, bits w7 33 32), (PRT_PWRST.STATE, bits w7 60 58),
   (PRT_PWRST.MODE, bits w7 61 61), (PRT_PWRCTL.REQ, bits w7 63 62),
   (PRT_PWRST.PG, b2n (decide (bits w7 60 58 = 2 ∧ bits w0 63 61 = 4)))]

/-- PRT_PDST as the inbound record carries it. -/
def mirrorPdst (s : State) (p : Nat) : Nat :=
  let w1 := s.recWord (inBuf p) 1
  pack [(2, bits w1 57 56), (2, 0), (1, bits w1 55 55), (1, b2n (decide (bits w1 31 29 ≠ 0))),
    (2, bits w1 54 53), (1, bits w1 59 59), (1, bits w1 58 58), (1, bits w1 60 60), (3, bits w1 52 50),
    (18, bits w1 49 32)]

/-- A register of a shadowed port from its inbound record; fields it does not carry read 0. -/
def mirrorReg (s : State) (p : Nat) (r : Reg) : Nat :=
  if r.base = PRT_CONTRACT.reg.base then bits (s.recWord (inBuf p) 1) 31 0
  else if r.base = PRT_PDST.reg.base then s.mirrorPdst p
  else
    let l := s.mirrorFields p
    r.flds.foldl (fun a f =>
      match l.find? fun e => e.1.place == f.2.place with
      | some e => a + e.2 * 2 ^ f.2.lo
      | none => a) 0

/-- A port register as this unit answers a command of ownership rule M. -/
def portReg (s : State) (p : Nat) (r : Reg) : Nat := if s.owns p then s.regRead r p else s.mirrorReg p r

/-- Its bytes. -/
def portBytes (s : State) (p : Nat) (r : Reg) : List Byte := toBytes r.bytes (s.portReg p r)

/-- MIRR for a shadowed port. -/
def mirr (s : State) (p : Nat) : Nat := if s.owns p then 0 else 4

/-! ## Port, 0x10 to 0x2F -/

/-- The PORT_STATUS reply (R318). -/
def portStatus (s : State) (p : Nat) : List Byte :=
  let rd := s.portBytes p
  let ev := fun (r : Reg) => if s.owns p then s.rbytes r p else toBytes r.bytes 0
  let stk := if s.owns p then s.fget WEIR_PSTK.STK p else bits (s.recWord (inBuf p) 7) 23 0
  let ftick := if s.owns p then 0 else bits (s.recWord (inBuf p) 0) 31 16
  rd PRT_ATTST.reg ++ rd PRT_CCSTAT.reg ++ rd PRT_PDST.reg ++ rd PRT_ROLE.reg ++ rd PRT_PWRST.reg ++
    rd PRT_CONTRACT.reg ++ rd PRT_PDCBL.reg ++ ev PRT_ATTEV.reg ++ ev PRT_PDEV.reg ++
    ev PRT_SWEV.reg ++ ev PRT_PWREV.reg ++ rd PRT_CMPST.reg ++ rd PRT_MUX.reg ++ rd PRT_MODEST.reg ++
    ev PRT_MODEEV.reg ++ toBytes 4 stk ++ toBytes 2 ftick ++ byte (if s.owns p then 0 else 1) ::
    List.replicate 21 0

/-- The PORT_MEASURE reply (R318). -/
def portMeasure (s : State) (p : Nat) : List Byte :=
  s.rbytes PRT_RISNS.reg p ++ s.rbytes PRT_RVBUS.reg p ++ s.rbytes PRT_RRAIL.reg p ++
    s.rbytes PRT_RIMEAN.reg p ++ ((List.range 8).flatMap fun j => s.rbytes (PRT_RAUX.reg j) p) ++
    s.rbytes PRT_ELAST.reg p ++ s.rbytes PRT_EHEAD.reg p

/-- The entries of a PORT_SET: offset, reserved bytes, value. -/
def setEntries : Nat → List Byte → List (Nat × Nat × Nat)
  | 0, _ => []
  | n + 1, b => (par b 0 2, par b 2 2, par b 4 4) :: setEntries n (b.drop 8)

/-- The register of bank 0x01 that begins at an offset, among those PORT_SET writes (R319). -/
def setReg (off : Nat) : Option Reg :=
  (portCfgRegs ++ portEventRegs).find? fun r => r.base == 0xFC0000 + off

/-- A PORT_SET entry that R319 refuses. -/
def badEntry (e : Nat × Nat × Nat) : Bool :=
  match setReg e.1 with
  | none => true
  | some r => decide (e.2.1 ≠ 0 ∨ 256 ^ r.bytes ≤ e.2.2) || !regLegal r e.2.2

/-- The entry writes a safety-class field (R311). -/
def safetyEntry (e : Nat × Nat × Nat) : Bool := portSafetyRegs.any fun r => r.base == 0xFC0000 + e.1

/-- One entry written. -/
def setEntry (s : State) (p : Nat) (e : Nat × Nat × Nat) : State :=
  match setReg e.1 with
  | some r => s.regWrite 17 r p e.2.2 (if r.base = PRT_MUXCFG.reg.base then 0xFFFFF000 else 0xFFFFFFFF)
  | none => s

/-- A PORT_GET entry's register, and the byte it starts at. -/
def getReg (off : Nat) : Option (Reg × Nat) :=
  (regAt (0xFC0000 + off)).bind fun a =>
    if 0x1000 ≤ off ∨ a.2.1 ≠ 0 then none
    else if a.2.2 = 0 ∨ (a.2.2 = 4 ∧ 4 < a.1.bytes) then some (a.1, a.2.2) else none

/-- Body of PORT_ENABLE (R190, R317). -/
def doPortEnable (tag : Byte) (ps : List Byte) (s : State) : State :=
  let p := par ps 0 1
  s.judge 0x10 tag [(badPort ps, 0x12), (s.unitSafe, 0x60), (!s.owns p, 0x40)] fun s =>
    let s := s.endDefer p 0x22
    let st := s.pwrState p
    if st = 5 then s.reply 0x10 tag 0x22
    else if st = 4 ∨ (st = 0 ∧ (s.pwr p).offMin.isSome) then
      let s := (s.fset PRT_PWRST.DEFER p 1).onPwr p fun h => { h with deferTag := some tag.toNat }
      ((s.reply 0x10 tag 2).openCmd 0x10 tag p).cntEvent 0x29 (some p)
    else if s.attState p = 0 then s.forceWrite p 3 (some ⟨0x10, tag.toNat, false⟩)
    else (s.enableOff p).reply 0x10 tag 0

/-- Body of PORT_DISABLE: what the owning engine makes of it (R306, R317). -/
def doPortDisable (tag : Byte) (ps : List Byte) (s : State) : State :=
  let p := par ps 0 1
  (s.endDefer p 0x22).forceWrite p 2 (some ⟨0x11, tag.toNat, false⟩)

/-- Body of PORT_STATUS (R318). -/
def doPortStatus (tag : Byte) (ps : List Byte) (s : State) : State :=
  let p := par ps 0 1
  s.judge 0x12 tag [(badPort ps, 0x12)] fun s => s.reply 0x12 tag 0 (s.portStatus p) (s.mirr p)

/-- Body of PORT_MEASURE (R318). -/
def doPortMeasure (tag : Byte) (ps : List Byte) (s : State) : State :=
  s.judge 0x13 tag [(badPort ps, 0x12)] fun s => s.reply 0x13 tag 0 (s.portMeasure (par ps 0 1))

/-- Body of PORT_SET (R319). -/
def doPortSet (tag : Byte) (ps : List Byte) (s : State) : State :=
  let p := par ps 0 1
  let l := setEntries ((ps.length - 4) / 8) (ps.drop 4)
  s.judge 0x14 tag
    [(badPort ps || l.any badEntry, 0x12), (l.any safetyEntry && s.absent, 0x30), (s.unitSafe, 0x60),
     (!s.owns p, 0x40)] fun s => (l.foldl (fun s e => s.setEntry p e) s).reply 0x14 tag 0

/-- Body of PORT_GET (R320). -/
def doPortGet (tag : Byte) (ps : List Byte) (s : State) : State :=
  let p := par ps 0 1
  let l := (List.range ((ps.length - 4) / 4)).map fun i => (par ps (4 + 4 * i) 2, par ps (6 + 4 * i) 2)
  let regs := l.map fun e => getReg e.1
  s.judge 0x15 tag
    [(badPort ps || l.any (fun e => e.2 != 0) || regs.any (·.isNone), 0x12)] fun s =>
    s.reply 0x15 tag 0 (regs.flatMap fun r => match r with
      | some a => toBytes 4 (s.portReg p a.1 / 256 ^ a.2)
      | none => []) (s.mirr p)

/-- Body of PORT_RECOVER (R317). -/
def doPortRecover (tag : Byte) (ps : List Byte) (s : State) : State :=
  let p := par ps 0 1
  s.judge 0x16 tag
    [(badPort ps, 0x12), (s.unitSafe, 0x60), (!s.owns p, 0x40), (decide (s.attState p = 0), 0x22)] fun s =>
    s.forceWrite p 1 (some ⟨0x16, tag.toNat, false⟩)

/-! ## Alternate mode and mux, 0x50 to 0x5F -/

/-- A mode is entered, or an entry or exit is in progress. -/
def modeBusy (s : State) (p : Nat) : Bool := s.fon PRT_MODEST.ENTERED p || decide ((s.mux p).busy ≠ 0)

/-- Body of MODE_MAP_SET (R246, R247). -/
def doModeMapSet (tag : Byte) (ps : List Byte) (s : State) : State :=
  let p := par ps 0 1
  let maps := [par ps 4 1, par ps 5 1, par ps 6 1, par ps 7 1]
  s.judge 0x50 tag
    [(decide (s.fget DEV_SVID.SVID = 0), 0x32),
     (badPort ps || maps.any (fun m => !([0, 3, 4, 5, 6].contains m)), 0x12), (s.unitSafe, 0x60),
     (!s.owns p, 0x40), (s.modeBusy p, 0x22)] fun s =>
    let s := (((s.fset PRT_MUXCFG.MAP1 p (par ps 4 1)).fset PRT_MUXCFG.MAP2 p (par ps 5 1)).fset
      PRT_MUXCFG.MAP3 p (par ps 6 1)).fset PRT_MUXCFG.MAP4 p (par ps 7 1)
    (s.writeMaps p).extChanged { port := p, op := 0x50, tag := tag.toNat }

/-- Body of MUX_SET (R257). -/
def doMuxSet (tag : Byte) (ps : List Byte) (s : State) : State :=
  let p := par ps 0 1
  let v := par ps 4 1
  s.judge 0x51 tag
    [(badPort ps || decide (15 < v ∨ v / 2 = 7) || !zeroAt ps 5 3, 0x12), (s.unitSafe, 0x60),
     (!s.owns p, 0x40), (s.modeBusy p || !attached (s.attState p), 0x22)] fun s =>
    (s.setMux p (v / 2)).reply 0x51 tag 0

/-- Body of MUX_STATUS (R313). -/
def doMuxStatus (tag : Byte) (ps : List Byte) (s : State) : State :=
  let p := par ps 0 1
  s.judge 0x52 tag [(badPort ps, 0x12)] fun s =>
    s.reply 0x52 tag 0 (s.portBytes p PRT_MUX.reg ++ s.portBytes p PRT_MUXCFG.reg ++
      s.portBytes p PRT_MODEST.reg) (s.mirr p)

end State

/-! ## Meanings -/

open State

/-- PORT_ENABLE (R317). -/
def execPortEnable (tag : Byte) (ps : List Byte) (s : State) : Out := hostRow 0x10 doPortEnable tag ps s

/-- PORT_DISABLE (R317). -/
def execPortDisable (tag : Byte) (ps : List Byte) (s : State) : Out := hostRow 0x11 doPortDisable tag ps s

/-- PORT_STATUS (R318). -/
def execPortStatus (tag : Byte) (ps : List Byte) (s : State) : Out := hostRow 0x12 doPortStatus tag ps s

/-- PORT_MEASURE (R318). -/
def execPortMeasure (tag : Byte) (ps : List Byte) (s : State) : Out := hostRow 0x13 doPortMeasure tag ps s

/-- PORT_SET (R319). -/
def execPortSet (tag : Byte) (ps : List Byte) (s : State) : Out := hostRow 0x14 doPortSet tag ps s

/-- PORT_GET (R320). -/
def execPortGet (tag : Byte) (ps : List Byte) (s : State) : Out := hostRow 0x15 doPortGet tag ps s

/-- PORT_RECOVER (R317). -/
def execPortRecover (tag : Byte) (ps : List Byte) (s : State) : Out := hostRow 0x16 doPortRecover tag ps s

/-- MODE_MAP_SET (R247). -/
def execModeMapSet (tag : Byte) (ps : List Byte) (s : State) : Out := hostRow 0x50 doModeMapSet tag ps s

/-- MUX_SET (R257). -/
def execMuxSet (tag : Byte) (ps : List Byte) (s : State) : Out := hostRow 0x51 doMuxSet tag ps s

/-- MUX_STATUS (R313). -/
def execMuxStatus (tag : Byte) (ps : List Byte) (s : State) : Out := hostRow 0x52 doMuxStatus tag ps s

end Sys2Proof.Machine
end

