-- ==== Sys2Proof/Machine/HostPd.lean ====
section
/-!
DEFINITION. The host commands of the Power Delivery link (chapters 5, 6, 9 and 11).
-/
namespace Sys2Proof.Machine
namespace State

/-! ## Capability blocks and the reply table -/

/-- The greatest length of each capability block (R321). -/
def capsMax : List Nat := [28, 24, 28, 24, 24, 16, 25, 24, 26, 4, 4]

/-- COUNT names the data given, and the data fit the block. -/
def capsLenOk (b count : Nat) (d : List Byte) : Bool :=
  count == d.length && decide (d.length ≤ capsMax.getD b 0) &&
    (decide (6 ≤ b ∧ b ≤ 8) || d.length % 4 == 0)

/-- A Fixed 5 V object. -/
def fixed5V (o : Nat) : Bool := decide (bits o 31 30 = 0 ∧ bits o 19 10 = 100)

/-- Body of PD_CAPS_SET (R321). -/
def doPdCapsSet (tag : Byte) (ps : List Byte) (s : State) : State :=
  let p := par ps 0 1
  let b := par ps 4 1
  let d := ps.drop 8
  s.judge 0x30 tag
    [(decide (b ≤ 10) && !capsLenOk b (par ps 5 1) d, 0x11),
     (badPort ps || !zeroAt ps 6 2 || decide (10 < b) ||
       (decide (b = 0 ∨ b = 2) && !d.isEmpty && !fixed5V (par d 0 4)), 0x12),
     (s.unitSafe, 0x60), (!s.owns p, 0x40)] fun s =>
    (s.setCaps p b d).extChanged { port := p, op := 0x30, tag := tag.toNat, caps := decide (b ≤ 1) }

/-- The numbers of the bits set in a 16-bit mask, rising. -/
def maskBits (m : Nat) : List Nat := (List.range 16).filter fun i => bit m i

/-- A value of PRT_PDRTe that R148 refuses; R168 adds the positive reply to PR_Swap and FR_Swap on a
port that is no DRP. -/
def badReplyEntry (drp : Bool) (v : Nat) : Bool :=
  let kind := bits v 7 0
  let pos := bits v 15 8
  let reply := bits v 31 24
  (reply == 2 && !decide (1 ≤ kind ∧ kind ≤ 7)) || (reply == 5 && !decide (kind = 12 ∨ kind = 13)) ||
    decide (14 < kind) || decide (5 < reply) || decide (bits v 23 19 ≠ 0) ||
    (kind == 0 && v != 0) || decide (13 < pos) ||
    (decide (kind = 10 ∨ kind = 11) && decide (7 < bits v 55 48 ∨ bits v 63 56 ≠ 0)) ||
    (reply == 0 && decide (kind = 5 ∨ kind = 8) && !drp)

/-- Body of PD_REPLY_SET (R146, R148). -/
def doPdReplySet (tag : Byte) (ps : List Byte) (s : State) : State :=
  let p := par ps 0 1
  let l := (maskBits (par ps 4 2)).zipIdx.map fun (e : Nat × Nat) => (e.1, par ps (8 + 8 * e.2) 8)
  let drp := s.eget PRT_CCCFG.ROLE p == 2
  s.judge 0x31 tag
    [(8 + 8 * l.length != ps.length, 0x11),
     (badPort ps || !zeroAt ps 6 2 || l.any (fun (e : Nat × Nat) => badReplyEntry drp e.2), 0x12),
     (s.unitSafe, 0x60), (!s.owns p, 0x40)] fun s =>
    (l.foldl (fun s (e : Nat × Nat) => s.extWrite p (8 * e.1) (toBytes 8 e.2)) s).extChanged
      { port := p, op := 0x31, tag := tag.toNat, table := l }

/-! ## PD_ANSWER (R322) -/

/-- The request that a raised message is, as the responses of R511 are matched to it. -/
def raisedWait (m : Msg) : ReqWait :=
  let h := m.obj 0
  { sop := m.sop, code := m.code, svid := if m.code = Code.vdm then vdmSvid h else 0,
    vcmd := if m.code = Code.vdm then vdmCmd h else 0 }

/-- The message the host gave is the positive reply of the kind. -/
def isPositive (k : Nat) (r : Msg) : Bool :=
  if k = 9 then r.code == Code.eprMode && bits (r.obj 0) 31 24 == 2
  else if k = 10 ∨ k = 11 then r.code == Code.vdm && vdmType (r.obj 0) == 1
  else r.code == Code.accept

/-- ACTION 0x00 to 0x04 that R322 refuses for the raised message; R168 refuses a positive reply to PR_Swap or
FR_Swap, in either form, on a port that is no DRP. -/
def badAnswer (s : State) (p action : Nat) (m reply : Msg) : Bool :=
  let k := s.tKind p m
  let noSwap := decide (k = 5 ∨ k = 8) && s.eget PRT_CCCFG.ROLE p != 2
  if k ≠ 0 then
    match action with
    | 0 => noSwap || decide (k = 12 ∨ k = 13)
    | 2 => decide (7 < k)
    | 4 => !s.completes p (raisedWait m) reply || (noSwap && isPositive k reply)
    | _ => false
  else
    match action with
    | 0 | 2 => !m.isVdmReq
    | 4 => !s.completes p (raisedWait m) reply
    | _ => false

/-- The positive reply to a T kind, with the checks of R145. -/
def answerPositive (s : State) (p : Nat) (m : Msg) (k : Nat) : State :=
  match s.invalidT p m k with
  | some t => t
  | none => s.replyPositive p m k 0 0

/-- The reply to a raised message of a T kind. -/
def answerT (s : State) (p : Nat) (m : Msg) (k action : Nat) (reply : Msg) : State :=
  match action with
  | 0 => s.answerPositive p m k
  | 4 =>
    if k = 12 ∨ k = 13 then s.sendReply p reply
    else if isPositive k reply then s.answerPositive p m k
    else if reply.code = Code.wait then s.applyReply p m k 2 0 0
    else s.sendReply p reply
  | _ => s.applyReply p m k action 0 0

/-- The reply to a raised request of no T kind. -/
def answerOther (s : State) (p : Nat) (m : Msg) (action : Nat) (reply : Msg) : State :=
  match action with
  | 4 => s.sendReply p reply
  | 3 => s.sendNo p m.sop
  | _ => if m.isVdmReq then s.sendReply p (dat 15 [vdmAnswer (m.obj 0) (action + 1)] m.sop)
    else s.sendNo p m.sop

/-- Body of PD_ANSWER: what the owning engine makes of it (R306, R322). -/
def doPdAnswer (tag : Byte) (ps : List Byte) (s : State) : State :=
  let p := par ps 0 1
  let action := par ps 6 1
  let d := ps.drop 8
  let bad := decide (4 < action) || !zeroAt ps 7 1 || (action == 4) == decide (d.length < 2) ||
    (action != 4 && !d.isEmpty)
  if bad then s.reply 0x32 tag 0x12
  else match (s.pd p).raise with
  | none => s.reply 0x32 tag 0x22
  | some r =>
    let m := r.msg
    let a := msgOfBytes m.sop d
    if r.num ≠ par ps 4 2 then s.reply 0x32 tag 0x22
    else if s.badAnswer p action m a then s.reply 0x32 tag 0x12
    else if action = 4 ∧ a.ext ∧ s.rev2 p then s.reply 0x32 tag 0x22
    else
      let s := (s.onPd p fun h => { h with raise := none }).timStop p 2
      let k := s.tKind p m
      (s.answering p fun s => if k ≠ 0 then s.answerT p m k action a else s.answerOther p m action a).reply
        0x32 tag 0

/-! ## PD_SEND (R323) -/

/-- Codes that PD_SEND refuses: each has its own command or belongs to the hardware. -/
def sendRefused : List Nat := [1, 3, 4, 6, 9, 10, 11, 12, 13, 19, 42]

/-- An Enter Mode of the integrator SVID. -/
def enterMode (s : State) (m : Msg) : Bool :=
  m.isVdmReq && s.fget DEV_SVID.SVID != 0 && vdmSvid (m.obj 0) == s.fget DEV_SVID.SVID &&
    vdmCmd (m.obj 0) == 4

/-- The state refusals of R512 for a message on a SOP type. -/
def linkRefuses (s : State) (p sop : Nat) : Bool :=
  !s.linkRuns p || (sop != 0 && !s.vconnSource p) || (sop == 0 && s.fget PRT_PDST.ESCSTEP p == 3)

/-- The host queue of the port is full (R154). -/
def queueFull (s : State) (p : Nat) : Bool := decide (4 ≤ (s.pd p).hostq.length)

/-- A command's message put in the host queue, at its head or its end, and the block copied. -/
def hostPost (s : State) (p op : Nat) (tag : Byte) (m : Msg) (head : Bool) (a : OnAck := .nothing) : State :=
  let i : TxItem := { msg := m, onAck := a, cmd := some (op, tag.toNat) }
  let s := (s.reply op tag 1).openCmd op tag p
  let s := s.onPd p fun h =>
    if head then { h with hostq := i :: h.hostq, qhead := (h.qhead + 3) % 4 }
    else { h with hostq := h.hostq ++ [i] }
  (s.writeQueue p).extChanged { port := p, op := op, tag := tag.toNat }

/-- Body of PD_SEND (R154, R247, R252, R323). -/
def doPdSend (tag : Byte) (ps : List Byte) (s : State) : State :=
  let p := par ps 0 1
  let sop := par ps 4 1
  let m := msgOfBytes sop (ps.drop 8)
  let asks := decide (m.code = Code.request ∨ m.code = Code.eprRequest)
  s.judge 0x33 tag
    [(badPort ps || decide (2 < sop) || !zeroAt ps 5 3 || sendRefused.contains m.code ||
       (m.ext && !bit (ofBytes (m.data.take 2)) 15) ||
       (s.enterMode m && s.modeCfg p (vdmPos (m.obj 0)) == 0), 0x12),
     (s.unitSafe, 0x60), (!s.owns p, 0x40),
     (s.linkRefuses p sop || (s.enterMode m && !s.fon PRT_ROLE.DATA p) || (asks && s.isSource p) ||
       (m.ext && s.rev2 p), 0x22),
     (s.queueFull p, 0x20)] fun s => s.hostPost p 0x33 tag m false (s.ackOf p m)

/-! ## Swaps, EPR and resets -/

/-- Body of PD_SWAP (R168, R512). -/
def doPdSwap (tag : Byte) (ps : List Byte) (s : State) : State :=
  let p := par ps 0 1
  let kind := par ps 4 1
  let now := s.fget PRT_ROLE.SWAP p
  s.judge 0x34 tag
    [(badPort ps || decide (kind = 0 ∨ 3 < kind) || !zeroAt ps 5 3, 0x12), (s.unitSafe, 0x60),
     (!s.owns p, 0x40),
     (s.linkRefuses p 0 || decide (1 ≤ now ∧ now ≤ 4) ||
       (kind == 1 && s.eget PRT_CCCFG.ROLE p != 2) || (kind == 2 && s.fon PRT_MODEST.ENTERED p), 0x22),
     (s.queueFull p, 0x20)] fun s =>
    let c := if kind = 1 then Code.prSwap else if kind = 2 then Code.drSwap else Code.vconnSwap
    s.hostPost p 0x34 tag (ctl c) false

/-- Body of PD_EPR (R166, R167). -/
def doPdEpr (tag : Byte) (ps : List Byte) (s : State) : State :=
  let p := par ps 0 1
  let op := par ps 4 1
  let pdp := par ps 5 1
  let epr := s.fon PRT_PDST.EPR p
  s.judge 0x35 tag
    [(badPort ps || !zeroAt ps 6 2 || !(decide (op = 1 ∧ 1 ≤ pdp ∧ pdp ≤ 240) || decide (op = 2 ∧ pdp = 0)),
       0x12), (s.unitSafe, 0x60), (!s.owns p, 0x40),
     (s.linkRefuses p 0 || (op == 1 && (epr || s.isSource p)) ||
       (op == 2 && (!epr || decide (1000 < s.fget PRT_CONTRACT.VOLT p))), 0x22),
     (s.queueFull p, 0x20)] fun s =>
    if op = 1 then s.hostPost p 0x35 tag (eprModeMsg 1 pdp) false
    else s.hostPost p 0x35 tag (eprModeMsg 5 0) true .eprExit

/-- Body of PD_SOFT_RESET (R138, R512). -/
def doPdSoftReset (tag : Byte) (ps : List Byte) (s : State) : State :=
  let p := par ps 0 1
  let sop := par ps 4 1
  s.judge 0x36 tag
    [(badPort ps || decide (2 < sop) || !zeroAt ps 5 3, 0x12), (s.unitSafe, 0x60), (!s.owns p, 0x40),
     (s.linkRefuses p sop, 0x22)] fun s =>
    ((s.reply 0x36 tag 1).openCmd 0x36 tag p).softReset p sop (some (0x36, tag.toNat))

/-- Body of PD_HARD_RESET: what the owning engine makes of it (R306, R512). -/
def doPdHardReset (tag : Byte) (ps : List Byte) (s : State) : State :=
  let p := par ps 0 1
  if !s.linkRuns p then s.reply 0x37 tag 0x22
  else
    let s := s.when (decide (s.fget PRT_PDST.ESCSTEP p = 3)) fun s =>
      (s.onPd p fun h => { h with hardSent := 0 }).fset PRT_PDST.ESCSTEP p 2
    ((s.reply 0x37 tag 1).openCmd 0x37 tag p).hardReset p (some (0x37, tag.toNat))

/-- Body of PD_CABLE_RESET (R133, R512). -/
def doPdCableReset (tag : Byte) (ps : List Byte) (s : State) : State :=
  let p := par ps 0 1
  s.judge 0x38 tag
    [(badPort ps, 0x12), (s.unitSafe, 0x60), (!s.owns p, 0x40),
     (!s.linkRuns p || !s.vconnSource p, 0x22)] fun s =>
    ((s.reply 0x38 tag 1).openCmd 0x38 tag p).cableReset p (some (0x38, tag.toNat))

/-- Body of PD_BIST (R142, R324). -/
def doPdBist (tag : Byte) (ps : List Byte) (s : State) : State :=
  let p := par ps 0 1
  let mode := par ps 4 1
  s.judge 0x39 tag
    [(badPort ps || decide (mode ≠ 5 ∧ mode ≠ 8) || !zeroAt ps 5 3, 0x12), (s.unitSafe, 0x60),
     (!s.owns p, 0x40), (!s.linkRuns p, 0x22)] fun s =>
    let s := (s.reply 0x39 tag 1).openCmd 0x39 tag p
    if !s.bistOk p then s.complete 0x39 tag.toNat 0x22
    else if mode = 5 then
      (((s.onPd p fun h => { h with carrier := true }).timStart p 14).fset PRT_PDEV.BISTEV p 1).complete
        0x39 tag.toNat 0
    else (s.sendEngine p (dat 3 [8 * 2 ^ 28])).complete 0x39 tag.toNat 0

/-! ## What the host reads -/

/-- The tag of the message held at the head of its queue (R155), 0xFF where none is. -/
def heldTag (s : State) (p : Nat) : Nat :=
  if s.fon PRT_PDST.HELD p then
    match (s.pd p).engine, (s.pd p).hostq with
    | [], i :: _ => (i.cmd.map (·.2)).getD 0xFF
    | _, _ => 0xFF
  else 0xFF

/-- The count that the inbound record carries for timer index `i`, 0 where it carries none (R267). -/
def recTimer (s : State) (p i : Nat) : Nat :=
  let slots := [2, 3, 4].flatMap fun w =>
    let v := s.recWord (inBuf p) w
    [v % 2 ^ 32, v / 2 ^ 32]
  match slots.find? fun v => v % 256 == i with
  | some v => v / 256
  | none => 0

/-- The PD_STATUS reply (R324); a shadow answers what its inbound record carries (R312). -/
def pdStatus (s : State) (p : Nat) : List Byte :=
  let own := s.owns p
  let h := s.pd p
  let w1 := s.recWord (inBuf p) 1
  let num := if own then (h.raise.map (·.num)).getD 0xFFFF
    else if bit w1 61 then bits (s.recWord (inBuf p) 7) 57 42 else 0xFFFF
  let t2 := if own then (s.timer p 2).getD 0 else s.recTimer p 2
  let depth := if own then h.hostq.length else bits (s.recWord (inBuf p) 6) 62 60
  s.portBytes p PRT_PDST.reg ++ (if own then s.rbytes PRT_PDEV.reg p else [0, 0]) ++ [0, 0] ++
    s.portBytes p PRT_PDCBL.reg ++ toBytes 2 num ++ toBytes 2 t2 ++
    [byte depth, byte (if own then s.heldTag p else 0)] ++ List.replicate 14 0

/-- Body of PD_STATUS (R324). -/
def doPdStatus (tag : Byte) (ps : List Byte) (s : State) : State :=
  let p := par ps 0 1
  s.judge 0x3A tag [(badPort ps, 0x12)] fun s => s.reply 0x3A tag 0 (s.pdStatus p) (s.mirr p)

/-- Body of PD_REPLY_GET (R324): the record carries no reply table, so a shadow answers 0 (R312). -/
def doPdReplyGet (tag : Byte) (ps : List Byte) (s : State) : State :=
  let p := par ps 0 1
  s.judge 0x3B tag [(badPort ps, 0x12)] fun s =>
    s.reply 0x3B tag 0 (if s.owns p then (List.range 16).flatMap fun e => s.rbytes (PRT_PDRT.reg e) p
      else List.replicate 128 0) (s.mirr p)

end State

/-! ## Meanings -/

open State

/-- PD_CAPS_SET (R321). -/
def execPdCapsSet (tag : Byte) (ps : List Byte) (s : State) : Out := hostRow 0x30 doPdCapsSet tag ps s

/-- PD_REPLY_SET (R146, R148). -/
def execPdReplySet (tag : Byte) (ps : List Byte) (s : State) : Out := hostRow 0x31 doPdReplySet tag ps s

/-- PD_ANSWER (R322). -/
def execPdAnswer (tag : Byte) (ps : List Byte) (s : State) : Out := hostRow 0x32 doPdAnswer tag ps s

/-- PD_SEND (R323). -/
def execPdSend (tag : Byte) (ps : List Byte) (s : State) : Out := hostRow 0x33 doPdSend tag ps s

/-- PD_SWAP (R168). -/
def execPdSwap (tag : Byte) (ps : List Byte) (s : State) : Out := hostRow 0x34 doPdSwap tag ps s

/-- PD_EPR (R166, R167). -/
def execPdEpr (tag : Byte) (ps : List Byte) (s : State) : Out := hostRow 0x35 doPdEpr tag ps s

/-- PD_SOFT_RESET (R138). -/
def execPdSoftReset (tag : Byte) (ps : List Byte) (s : State) : Out := hostRow 0x36 doPdSoftReset tag ps s

/-- PD_HARD_RESET (R512). -/
def execPdHardReset (tag : Byte) (ps : List Byte) (s : State) : Out := hostRow 0x37 doPdHardReset tag ps s

/-- PD_CABLE_RESET (R133). -/
def execPdCableReset (tag : Byte) (ps : List Byte) (s : State) : Out := hostRow 0x38 doPdCableReset tag ps s

/-- PD_BIST (R142). -/
def execPdBist (tag : Byte) (ps : List Byte) (s : State) : Out := hostRow 0x39 doPdBist tag ps s

/-- PD_STATUS (R324). -/
def execPdStatus (tag : Byte) (ps : List Byte) (s : State) : Out := hostRow 0x3A doPdStatus tag ps s

/-- PD_REPLY_GET (R324). -/
def execPdReplyGet (tag : Byte) (ps : List Byte) (s : State) : Out := hostRow 0x3B doPdReplyGet tag ps s

end Sys2Proof.Machine
end

