-- ==== Sys2Proof/Machine/HostStore.lean ====
section
/-!
DEFINITION. The host commands of configuration, calibration and firmware (chapters 8, 11 and 16).
-/
namespace Sys2Proof.Machine
namespace State

/-! ## Configuration, 0x90 to 0x9F -/

/-- The memory that holds the 64 KiB configuration staging buffer. -/
def stageMem : Nat := 0x70

/-- Body of CFG_WRITE (R313). -/
def doCfgWrite (tag : Byte) (ps : List Byte) (s : State) : State :=
  let off := par ps 0 4
  let d := ps.drop 4
  s.judge 0x90 tag [(off % 8 != 0 || decide (65536 < off + d.length), 0x12)] fun s =>
    (s.memWrite stageMem off d).reply 0x90 tag 0

/-- The values in force and those of a blob differ in a safety-class field (R310). -/
def needsPresence (s : State) (b : Option Blob) : Bool :=
  match b with
  | some b => s.absent && safetyDiffers s.cfgVals (fieldTab b.regs)
  | none => false

/-- A configuration version is being stored or is about to take effect. -/
def cfgPending (s : State) : Bool :=
  s.cfg.next.isSome || s.jobs.any fun j => match j.done with
    | .cfgStored _ _ _ _ => true
    | _ => false

/-- Body of CFG_COMMIT (R460, R464). -/
def doCfgCommit (tag : Byte) (ps : List Byte) (s : State) : State :=
  let size := par ps 0 4
  let window := par ps 4 2
  let img := s.memRead stageMem 0 (min size 65472)
  let b := blobOf img
  s.judge 0x91 tag
    [(decide (size = 0 ∨ 65472 < size ∨ 3600 < window) || !zeroAt ps 6 2, 0x12), (s.needsPresence b, 0x30),
     (s.fon DEV_CFGST.TRIAL || s.moving, 0x22), (s.fw.xfer.isSome || s.cfgPending || s.flashFull, 0x21),
     (b.isNone, 0x12)] fun s =>
    let t := s.flashAfter
    let v := t.nextVersion 0
    let pair := s.sending && s.fon PAIR_ST.TWINABLE
    let w := if window = 0 then 60 else window
    ((s.reply 0x91 tag 1).openCmd 0x91 tag).storeAt 0 (t.newPlace 0) v stStored img
      (.cfgStored tag.toNat v w pair)

/-- Body of CFG_CONFIRM (R461). -/
def doCfgConfirm (tag : Byte) (ps : List Byte) (s : State) : State :=
  let v := par ps 0 2
  let late := match s.cfg.expiry with
    | some x => decide (x ≤ s.tick + 2)
    | none => true
  s.judge 0x92 tag
    [(!zeroAt ps 2 2, 0x12), (decide (v = 0) || s.fget DEV_CFGST.TRIAL != v || late, 0x22)] fun s =>
    (s.bothApply { edge := s.tick + 2, version := v, how := 2, pair := s.sending }).reply 0x92 tag 0

/-- Body of CFG_REVERT (R462). -/
def doCfgRevert (tag : Byte) (ps : List Byte) (s : State) : State :=
  let v := if par ps 0 2 = 0 then s.fget DEV_CFGST.PREV else par ps 0 2
  s.judge 0x93 tag
    [(!zeroAt ps 2 2, 0x12), (s.needsPresence (s.blobAt v), 0x30),
     (decide (v = 0) || (s.placeOf 0 v).isNone, 0x22)] fun s =>
    s.verReader 0 v (fun s => s.reply 0x93 tag 0x60) fun s =>
      s.judge 0x93 tag [((s.blobAt v).isNone, 0x60)] fun s => ((s.reply 0x93 tag 1).openCmd 0x93 tag).bothApply
        { edge := s.tick + 2, version := v, how := 4, pair := s.sending, cmd := some (0x93, tag.toNat) }

/-- Body of CFG_STATUS (R328). -/
def doCfgStatus (tag : Byte) (_ps : List Byte) (s : State) : State :=
  s.reply 0x94 tag 0 (toBytes 2 (s.fget DEV_CFGST.INFORCE) ++ toBytes 2 (s.fget DEV_CFGST.TRIAL) ++
    toBytes 2 (s.fget DEV_CFGST.LEFT) ++ toBytes 2 (s.fget DEV_CFGST.PREV) ++
    byte (s.versions 0).length :: List.replicate 7 0)

/-- Body of CFG_READ (R313). -/
def doCfgRead (tag : Byte) (ps : List Byte) (s : State) : State :=
  let off := par ps 4 4
  let len := par ps 8 2
  let bad := !zeroAt ps 2 2 || !zeroAt ps 10 2 || decide (len = 0 ∨ 1016 < len)
  match s.placeOf 0 (par ps 0 2) with
  | none => s.reply 0x95 tag 0x12
  | some i =>
    if bad ∨ s.recSize 0 i < off + len then s.reply 0x95 tag 0x12
    else s.flashReader (placeAddr 0 i + off) len (fun s => s.reply 0x95 tag 0x60) fun s =>
      s.reply 0x95 tag 0 (s.flashRead (placeAddr 0 i + off) len)

/-- Body of CFG_PAIR_SYNC (R465). -/
def doCfgPairSync (tag : Byte) (ps : List Byte) (s : State) : State :=
  let v := par ps 0 2
  let good := match s.placeOf 0 v with
    | some i => s.recState 0 i == stConfirmed
    | none => false
  s.judge 0x96 tag
    [(!zeroAt ps 2 2, 0x12), (!s.sending || s.fon DEV_CFGST.TRIAL || !good, 0x22),
     (s.fw.xfer.isSome, 0x21)] fun s =>
    ((s.reply 0x96 tag 1).openCmd 0x96 tag).cfgSend v 0 0x96 tag.toNat

/-! ## Calibration, 0xA0 to 0xAF -/

/-- Body of CAL_RUN (R233, R328). -/
def doCalRun (tag : Byte) (ps : List Byte) (s : State) : State :=
  let p := par ps 0 1
  s.judge 0xA0 tag
    [(badPort ps, 0x12), (s.lowWater, 0x22), (s.fon DEV_EDDY.BUSY, 0x21), (s.fon DEV_EDDY.CHKFAIL, 0x60)]
    fun s => (((s.fset DEV_EDDY.PORT 0 p).calStart p).reply 0xA0 tag 1).openCmd 0xA0 tag p

/-- The bytes of a new calibration version: the working trims of the ports in `mask`, the values in force
of the others, and the factory attenuator factors of version 1 (R466, R467; log entry 42). -/
def calBytes (s : State) (mask : Nat) : List Byte :=
  let cur := s.calAt (s.fget DEV_CALST.INFORCE)
  let one := s.calAt 1
  (List.range 16).flatMap fun p =>
    (match cur with
      | some b => if bit mask p then s.calTrims p else slice b (calLen * p) 18
      | none => s.calTrims p) ++
    pad (calLen - 18) ((one.map fun b => slice b (calLen * p + 18) (calLen - 18)).getD [])

/-- Body of CAL_SAVE (R467). -/
def doCalSave (tag : Byte) (ps : List Byte) (s : State) : State :=
  let mask := par ps 0 2
  s.judge 0xA1 tag
    [(!zeroAt ps 2 2, 0x12),
     ((s.fon DEV_EDDY.BUSY && bit mask s.eddy.port) || s.flashFull, 0x21)] fun s =>
    let t := s.flashAfter
    let v := t.nextVersion 1
    ((s.reply 0xA1 tag 1).openCmd 0xA1 tag).storeAt 1 (t.newPlace 1) v stStored (s.calBytes mask)
      (.calStored tag.toNat v)

/-- Body of CAL_CONFIRM (R461, R468). -/
def doCalConfirm (tag : Byte) (ps : List Byte) (s : State) : State :=
  let v := par ps 0 1
  let late := match s.cal.expiry with
    | some x => decide (x ≤ s.tick + 2)
    | none => true
  s.judge 0xA2 tag
    [(!zeroAt ps 1 3, 0x12), (decide (v = 0) || s.fget DEV_CALST.TRIAL != v || late, 0x22)] fun s =>
    (s.onVer 1 fun h => { h with next := some { edge := s.tick + 2, version := v, how := 2 } }).reply 0xA2 tag 0

/-- Body of CAL_REVERT (R462, R468). -/
def doCalRevert (tag : Byte) (ps : List Byte) (s : State) : State :=
  let v := if par ps 0 1 = 0 then s.fget DEV_CALST.PREV else par ps 0 1
  s.judge 0xA3 tag
    [(!zeroAt ps 1 3, 0x12), (decide (v = 0) || (s.placeOf 1 v).isNone, 0x22)] fun s =>
    s.verReader 1 v (fun s => s.reply 0xA3 tag 0x60) fun s =>
      s.judge 0xA3 tag [((s.calAt v).isNone, 0x60)] fun s => ((s.reply 0xA3 tag 1).openCmd 0xA3 tag).onVer 1 fun h =>
        { h with next := some { edge := s.tick + 2, version := v, how := 4, cmd := some (0xA3, tag.toNat) } }

/-- Body of CAL_STATUS (R328). -/
def doCalStatus (tag : Byte) (_ps : List Byte) (s : State) : State :=
  s.reply 0xA4 tag 0 ([byte (s.fget DEV_CALST.INFORCE), byte (s.fget DEV_CALST.TRIAL)] ++
    toBytes 2 (s.fget DEV_CALST.LEFT) ++ byte (s.fget DEV_CALST.PREV) :: List.replicate 3 0)

/-! ## Firmware, 0xB0 to 0xBF -/

/-- The firmware hardware changed. -/
def onFw (s : State) (g : FwHw → FwHw) : State := { s with fw := g s.fw }

/-- Body of FW_STAGE_BEGIN (R329, R444, R451, R454). -/
def doFwStageBegin (tag : Byte) (ps : List Byte) (s : State) : State :=
  let slot := par ps 0 1
  let size := par ps 4 4
  let ident := par ps 8 4
  s.judge 0xB0 tag
    [(decide (2 < slot ∨ 0x200000 < size) || !zeroAt ps 1 3, 0x12), (s.absent, 0x30),
     ((slot == 2 && !s.boot.loader) || s.runSlot == slot && slot != 2 || s.selected == slot, 0x22),
     (slot != 2 && s.flashFull, 0x21)] fun s =>
    let s := (s.reply 0xB0 tag 1).openCmd 0xB0 tag
    if slot = 2 then
      (s.onFw fun h => { h with session := some (2, size, ident), staged := 0, complete := false,
                                loaded := false }).complete 0xB0 tag.toNat 0
    else s.slotErase slot size (.stageOpen tag.toNat slot size ident)

/-- Body of FW_STAGE_DATA (R329): the reply follows the programming; the shared pool takes its bytes at
once. -/
def doFwStageData (tag : Byte) (ps : List Byte) (s : State) : State :=
  let off := par ps 0 4
  let d := ps.drop 4
  match s.fw.session with
  | none => s.reply 0xB1 tag (if off % 8 ≠ 0 then 0x12 else 0x22)
  | some (slot, size, _) =>
    let top := max s.fw.staged (off + d.length)
    s.judge 0xB1 tag
      [(off % 8 != 0 || decide (size < off + d.length), 0x12), (slot != 2 && s.flashFull, 0x21)] fun s =>
      if slot = 2 then
        ((s.memWrite 0x40 off (d.take (0x80000 - off))).onFw fun h => { h with staged := top }).reply 0xB1 tag 0
      else s.flashJob (.program (slotBase slot + off) d) (.staged tag.toNat top)

/-- Body of FW_STAGE_END (R329, R444). -/
def doFwStageEnd (tag : Byte) (ps : List Byte) (s : State) : State :=
  match s.fw.session with
  | none => s.reply 0xB2 tag 0x22
  | some (slot, size, ident) =>
    if slot ≠ 2 ∧ s.flashFull then s.reply 0xB2 tag 0x21
    else
      let ok := imageComplete (s.stagedImage slot size) size ident ps
      let bad := slot != 2 && !s.flashSound (slotBase slot) size
      let ok := ok && !bad
      let st := if ok then 0 else if bad then 0x60 else 0x12
      let s := (s.reply 0xB2 tag 1).openCmd 0xB2 tag
      let s := s.when bad fun s => s.flashReader (slotBase slot) size id id
      if slot = 2 then
        (s.onFw fun h => { h with session := none, complete := ok, loaded := ok }).complete 0xB2 tag.toNat st
      else s.descJob slot (if ok then 0x5A else 0) ident size ps (.stageClosed tag.toNat st slot)

/-- The image staged in the shared pool passes R446 from its step 2, where R435 asks for the key. -/
def poolVerified (s : State) (img : List Byte) : Bool :=
  (imageHead img).ok &&
    (!(s.wlocked 2 && bit (s.fget OTP_REGST.GOOD) 2) || imageSigned s.keyRegion img)

/-- FW_ACTIVATE of the image in the shared pool (R454). -/
def activatePool (s : State) (tag : Byte) : State :=
  let img := s.memRead 0x40 0 (imageHead (s.memRead 0x40 0 64)).size
  if s.poolVerified img then
    let s := (s.complete 0xB3 tag.toNat 0).loadBanks img false
    (s.onFw fun h => { h with ident := (imageHead img).ident }).bootOn
  else s.complete 0xB3 tag.toNat 0x12

/-- Body of FW_ACTIVATE (R329, R448, R449, R451, R454). -/
def doFwActivate (tag : Byte) (ps : List Byte) (s : State) : State :=
  let slot := par ps 0 1
  let mode := par ps 1 1
  let ready := if slot = 2 then s.boot.loader && s.fw.loaded else s.slotComplete slot
  s.judge 0xB3 tag
    [(decide (2 < slot ∨ mode = 0 ∨ 2 < mode) || (slot == 2 && mode == 2) || !zeroAt ps 2 2, 0x12),
     (s.absent, 0x30),
     (s.moving || s.fw.act.isSome || !ready || (slot != 2 && mode == 1 && s.lowWater), 0x22),
     (slot != 2 && s.flashFull, 0x21)] fun s =>
    let s := (s.reply 0xB3 tag 1).openCmd 0xB3 tag
    if slot = 2 then s.activatePool tag
    else if mode = 2 then s.selectorJob slot (.selected tag.toNat slot)
    else s.activate tag.toNat slot

/-- Body of FW_STATUS (R329). -/
def doFwStatus (tag : Byte) (_ps : List Byte) (s : State) : State :=
  let st := if s.fw.session.isSome then 1 else if s.fw.complete then 2 else 0
  s.reply 0xB4 tag 0 ([byte s.runSlot, byte (s.fget DEV_FWST.NEXT), byte st, 0] ++
    toBytes 4 (s.slotIdent 0) ++ toBytes 4 (s.slotIdent 1) ++ toBytes 4 s.fw.staged ++ List.replicate 8 0)

/-- Body of FW_PAIR_SYNC (R456). -/
def doFwPairSync (tag : Byte) (ps : List Byte) (s : State) : State :=
  let slot := par ps 0 1
  s.judge 0xB5 tag
    [(decide (1 < slot) || !zeroAt ps 1 3, 0x12), (s.absent, 0x30),
     (!s.sending || !s.slotComplete slot, 0x22), (s.fw.xfer.isSome, 0x21)] fun s =>
    ((s.reply 0xB5 tag 1).openCmd 0xB5 tag).slotSend slot tag.toNat

end State

/-! ## Meanings -/

open State

/-- CFG_WRITE (R313). -/
def execCfgWrite (tag : Byte) (ps : List Byte) (s : State) : Out := hostRow 0x90 doCfgWrite tag ps s

/-- CFG_COMMIT (R460). -/
def execCfgCommit (tag : Byte) (ps : List Byte) (s : State) : Out := hostRow 0x91 doCfgCommit tag ps s

/-- CFG_CONFIRM (R461). -/
def execCfgConfirm (tag : Byte) (ps : List Byte) (s : State) : Out := hostRow 0x92 doCfgConfirm tag ps s

/-- CFG_REVERT (R462). -/
def execCfgRevert (tag : Byte) (ps : List Byte) (s : State) : Out := hostRow 0x93 doCfgRevert tag ps s

/-- CFG_STATUS (R328). -/
def execCfgStatus (tag : Byte) (ps : List Byte) (s : State) : Out := hostRow 0x94 doCfgStatus tag ps s

/-- CFG_READ (R313). -/
def execCfgRead (tag : Byte) (ps : List Byte) (s : State) : Out := hostRow 0x95 doCfgRead tag ps s

/-- CFG_PAIR_SYNC (R465). -/
def execCfgPairSync (tag : Byte) (ps : List Byte) (s : State) : Out := hostRow 0x96 doCfgPairSync tag ps s

/-- CAL_RUN (R233, R328). -/
def execCalRun (tag : Byte) (ps : List Byte) (s : State) : Out := hostRow 0xA0 doCalRun tag ps s

/-- CAL_SAVE (R467). -/
def execCalSave (tag : Byte) (ps : List Byte) (s : State) : Out := hostRow 0xA1 doCalSave tag ps s

/-- CAL_CONFIRM (R468). -/
def execCalConfirm (tag : Byte) (ps : List Byte) (s : State) : Out := hostRow 0xA2 doCalConfirm tag ps s

/-- CAL_REVERT (R468). -/
def execCalRevert (tag : Byte) (ps : List Byte) (s : State) : Out := hostRow 0xA3 doCalRevert tag ps s

/-- CAL_STATUS (R328). -/
def execCalStatus (tag : Byte) (ps : List Byte) (s : State) : Out := hostRow 0xA4 doCalStatus tag ps s

/-- FW_STAGE_BEGIN (R329, R444). -/
def execFwStageBegin (tag : Byte) (ps : List Byte) (s : State) : Out := hostRow 0xB0 doFwStageBegin tag ps s

/-- FW_STAGE_DATA (R329). -/
def execFwStageData (tag : Byte) (ps : List Byte) (s : State) : Out := hostRow 0xB1 doFwStageData tag ps s

/-- FW_STAGE_END (R329, R444). -/
def execFwStageEnd (tag : Byte) (ps : List Byte) (s : State) : Out := hostRow 0xB2 doFwStageEnd tag ps s

/-- FW_ACTIVATE (R448 to R451). -/
def execFwActivate (tag : Byte) (ps : List Byte) (s : State) : Out := hostRow 0xB3 doFwActivate tag ps s

/-- FW_STATUS (R329). -/
def execFwStatus (tag : Byte) (ps : List Byte) (s : State) : Out := hostRow 0xB4 doFwStatus tag ps s

/-- FW_PAIR_SYNC (R456). -/
def execFwPairSync (tag : Byte) (ps : List Byte) (s : State) : Out := hostRow 0xB5 doFwPairSync tag ps s

end Sys2Proof.Machine
end

