-- ==== Sys2Proof/Machine/Flags.lean ====
section
/-!
DEFINITION. The flag computations of Swesil-8 (R355, R358): the result of each operation and the C, Z,
N and V bits it sets, at their places in PSW (C 1, Z 2, N 4, V 8), and the branch conditions of R356.
-/
namespace Sys2Proof.Machine

/-- A result and the flags it leaves: which PSW bits 3:0 are set from it, and their values. -/
structure AluOut where
  res : Nat
  mask : Nat := 0
  flags : Nat := 0
  deriving DecidableEq, Repr

/-- Z and N of a `w`-bit result. -/
def flagZN (w r : Nat) : Nat := 2 * b2n (decide (r = 0)) + 4 * b2n (bit r (w - 1))

/-- `a + b + c` in `w` bits with C, Z, N and V. -/
def addFlags (w a b c : Nat) : AluOut :=
  let r := (a + b + c) % 2 ^ w
  let v := toSigned w a + toSigned w b + c ≠ toSigned w r
  ⟨r, 15, b2n (decide (2 ^ w ≤ a + b + c)) + flagZN w r + 8 * b2n (decide v)⟩

/-- `a − b − c` in `w` bits; C is the borrow. -/
def subFlags (w a b c : Nat) : AluOut :=
  let r := (a + 2 * 2 ^ w - b - c) % 2 ^ w
  let v := toSigned w a - toSigned w b - c ≠ toSigned w r
  ⟨r, 15, b2n (decide (a < b + c)) + flagZN w r + 8 * b2n (decide v)⟩

/-- A logical result with Z and N. -/
def logicFlags (r : Nat) : AluOut := ⟨r, 6, flagZN 8 r⟩

/-- A shift's result with C, Z and N. -/
def shiftFlags (r : Nat) (c : Bool) : AluOut := ⟨r, 7, b2n c + flagZN 8 r⟩

/-- A condition of R356 holds of PSW; value 15 is illegal and holds of nothing. -/
def condTrue (cond psw : Nat) : Bool :=
  let c := bit psw 0
  let z := bit psw 1
  let n := bit psw 2
  let v := bit psw 3
  match cond with
  | 0 => true
  | 1 => z
  | 2 => !z
  | 3 => c
  | 4 => !c
  | 5 => n
  | 6 => !n
  | 7 => v
  | 8 => !v
  | 9 => !c && !z
  | 10 => c || z
  | 11 => n == v
  | 12 => n != v
  | 13 => !z && n == v
  | 14 => z || n != v
  | _ => false

end Sys2Proof.Machine
end

