-- ==== Sys2Proof/Machine/Engine.lean ====
section
/-!
DEFINITION. An engine's registers, window, spill stack, loops, traps and interrupts (R335 to R337, R344
to R354). In `Engine.rf` the window file has keys 0 to 127, x0 to x7 keys 128 to 135, p0 to p7 keys 136
to 143.
-/
namespace Sys2Proof.Machine

/-! ## Registers -/

/-- The key of w`i` in the window (R344). -/
def Engine.wkey (g : Engine) (i : Nat) : Nat := (g.base + i / 8) % 16 * 8 + i % 8

/-- The innermost loop level, if any. -/
def Engine.loopTop (g : Engine) : Option Loop := g.loops.head?

/-- The register file key of an 8-bit register that is in the file, and so loads with a delay slot. -/
def Engine.fileKey (g : Engine) (r : Nat) : Option Nat :=
  if r < 16 then some (g.wkey r) else if r < 24 then some (112 + r) else none

/-- The 8-bit register that a register field names (R336). -/
def Engine.reg (g : Engine) (r : Nat) : Nat :=
  match g.fileKey r with
  | some k => g.rf.get 0 k
  | none =>
    let lc := (g.loopTop.map (·.lc)).getD 0
    if r = 24 then g.bank
    else if r = 25 then g.psw % 16
    else if r = 26 then lc % 256
    else if r = 27 then lc / 256
    else 0

/-- The innermost loop level changed; nothing at depth 0. -/
def Engine.onTop (g : Engine) (f : Loop → Loop) : Engine :=
  match g.loops with
  | [] => g
  | l :: t => { g with loops := f l :: t }

/-- PSW bits 3:0 under a mask. -/
def Engine.setFlags (g : Engine) (mask v : Nat) : Engine :=
  { g with psw := g.psw - (g.psw &&& mask) + (v &&& mask) }

/-- A write of an 8-bit register (R336). -/
def Engine.setReg (g : Engine) (r v : Nat) : Engine :=
  let v := v % 256
  match g.fileKey r with
  | some k => { g with rf := g.rf.put 0 k v }
  | none =>
    if r = 24 then { g with bank := v }
    else if r = 25 then g.setFlags 15 v
    else if r = 26 then g.onTop fun l => { l with lc := l.lc / 256 * 256 + v }
    else if r = 27 then g.onTop fun l => { l with lc := v * 256 + l.lc % 256 }
    else g

/-- Pointer pair p`k`. -/
def Engine.ptr (g : Engine) (k : Nat) : Nat := g.rf.get 0 (136 + k)

/-- Pointer pair p`k` written. -/
def Engine.setPtr (g : Engine) (k v : Nat) : Engine := { g with rf := g.rf.put 0 (136 + k) (v % 65536) }

/-- Pointer pair p`k` as an access with an update sees it: with the update of the word before
(DEDUCED, log entry 15). -/
def Engine.ptrInc (g : Engine) (k : Nat) : Nat :=
  match g.delay.find? fun (d : Nat × Nat × Bool) => d.1 == 136 + k && d.2.2 with
  | some d => d.2.1
  | none => g.ptr k

/-- A value that lands at the end of the next word (R341); the last one for a key stands. -/
def Engine.later (g : Engine) (key v : Nat) (update : Bool) : Engine :=
  { g with delay := g.delay.filter (fun (d : Nat × Nat × Bool) => d.1 != key) ++ [(key, v, update)] }

/-- The values that a list of delayed writes lands. -/
def Engine.land (g : Engine) (d : List (Nat × Nat × Bool)) : Engine :=
  { g with rf := d.foldl (fun (t : Tab Nat) (e : Nat × Nat × Bool) => t.put 0 e.1 e.2.1) g.rf }

/-- PSW with LDEPTH (R337). -/
def Engine.pswWord (g : Engine) : Nat := g.psw % 128 + 256 * g.loops.length

/-- WIN. -/
def Engine.winWord (g : Engine) : Nat := g.base + 16 * g.resg

/-- Loop levels in force when the innermost handler was entered (R353): 0 outside handlers. -/
def Engine.entryDepth (g : Engine) : Nat :=
  if bit g.psw 6 then bits g.tpsw 10 8 else if bit g.psw 5 then bits g.ipsw 10 8 else 0

/-- The end of loop levels judged after the word at `a` (R347, R354): the address of the next word and
the levels left. -/
def judgeLoops (a entry : Nat) : List Loop → Nat × List Loop
  | [] => (a + 1, [])
  | l :: t =>
    if entry < t.length + 1 ∧ a = l.le then
      if 1 < l.lc then (l.ls, { l with lc := l.lc - 1 } :: t) else judgeLoops a entry t
    else (a + 1, l :: t)

/-- The word at `a` has executed without a taken transfer (R354, `finish`). -/
def Engine.finish (g : Engine) (a : Nat) : Engine :=
  let j := judgeLoops a g.entryDepth g.loops
  { g with pc := j.1, loops := j.2 }

/-- Words in an instruction bank (R342). -/
def bankWords (e : Nat) : Nat := if e = 16 then 32768 else 8192

/-! ## Accesses -/

/-- Why a word cannot complete (R352): TCAUSE, TVAL, and TBANK where the trap writes it. -/
structure Trap where
  cause : Nat
  val : Nat
  bank : Option Nat := none
  deriving DecidableEq, Repr

/-- What a part of a word does: a trap, or a state. -/
abbrev Ex (α : Type) := Except Trap α

namespace State

/-- Engine cycles of a wait of up to `n` cyc (R66): a free value, halved up in Ebb (R334). -/
def drawWait (s : State) (n : Nat) : Nat × State :=
  let d := s.draw 5
  let w := d.1 % (n + 1)
  (if s.prof.cur = 2 then (w + 1) / 2 else w, d.2)

/-- The bank of a space selector (R338). -/
def spaceBank (bank sel : Nat) : Nat := if sel = 0 then bank else sel - 1

/-- A pool or mirror bank. -/
def shared (bank : Nat) : Bool := decide (0x10 ≤ bank ∧ bank ≤ 0x17) || decide (bank = 0x20 ∨ bank = 0x21)

/-- The cost of one access (R340): engine cycles beyond the first. A streaming access follows `last`, an
access to the same bank that the word before was granted without a wait. -/
def accessCost (s : State) (e bank : Nat) (last : Option Nat) : Nat × State :=
  if shared bank then
    let w := s.drawWait (if bank < 0x20 then 17 else 23)
    let base := if last = some bank then 0 else 2
    (base + w.1, w.2.onEngine e fun g => { g with lastBank := if w.1 = 0 then some bank else none })
  else if bank = 0 ∨ (bank = 1 ∧ e = 16) then (0, s)
  else if bank ≤ 4 then (1, s)
  else if bank < 0x80 then (5, s)
  else
    let w := s.drawWait 17
    (1 + w.1, w.2)

/-- A load: the value, the cycles beyond the first, and the state (R338 to R340, R367). -/
def dataLoad (s : State) (e bank off : Nat) (wide : Bool) (last : Option Nat) : Ex (Nat × Nat × State) :=
  if wide ∧ off % 2 = 1 then .error ⟨3, off, none⟩
  else match if wide then s.load16 e bank off else s.load8 e bank off with
    | none => .error ⟨2, off, some bank⟩
    | some r =>
      if s.windowBad bank off then .error ⟨4, off, some bank⟩
      else
        let c := r.2.accessCost e bank last
        .ok (r.1, c.1, c.2)

/-- A store. -/
def dataStore (s : State) (e bank off v : Nat) (wide : Bool) (last : Option Nat) : Ex (Nat × State) :=
  if wide ∧ off % 2 = 1 then .error ⟨3, off, none⟩
  else match if wide then s.store16 e bank off v else s.store8 e bank off v with
    | none => .error ⟨2, off, some bank⟩
    | some t => .ok (t.accessCost e bank last)

/-- `n` bytes of bank 0x00 from `off`. -/
def localRead (s : State) (e off : Nat) : Nat → Ex (List Byte)
  | 0 => .ok []
  | n + 1 =>
    match s.memPlace e 0 (off % 65536) with
    | none => .error ⟨2, off % 65536, some 0⟩
    | some m => (s.localRead e (off + 1) n).map fun t => s.memGet m.1 m.2 :: t

/-- Bytes written to bank 0x00 from `off` on. -/
def localWrite (s : State) (e off : Nat) : List Byte → Ex State
  | [] => .ok s
  | b :: t =>
    match s.memPlace e 0 (off % 65536) with
    | none => .error ⟨2, off % 65536, some 0⟩
    | some m => (s.memPut m.1 m.2 b).localWrite e (off + 1) t

/-! ## Window slides (R344 to R346) -/

/-- The spill stack registers are multiples of 8, or the spill or fill traps. -/
def spillAligned (g : Engine) : Bool := decide (g.ssb % 8 = 0 ∧ g.ssp % 8 = 0 ∧ g.ssl % 8 = 0)

/-- Group `k` of the window file as bytes. -/
def groupBytes (g : Engine) (k : Nat) : List Byte :=
  (List.range 8).map fun i => byte (g.rf.get 0 (k % 16 * 8 + i))

/-- One slide of the window by a call or an entry; whether it spilled. -/
def slideUp (s : State) (e : Nat) : Ex (Bool × State) :=
  let g := s.engine e
  let up := fun (s : State) (resg ssp : Nat) => s.onEngine e fun g =>
    { g with base := (g.base + 1) % 16, resg := resg, ssp := ssp, depth := g.depth + 1 }
  if g.resg < 16 then .ok (false, up s (g.resg + 1) g.ssp)
  else if !spillAligned g then .error ⟨3, g.ssp, none⟩
  else if g.ssl < g.ssp + 8 then .error ⟨5, g.ssp, none⟩
  else (s.localWrite e g.ssp (groupBytes g (g.base + 2))).map fun s =>
    (true, up s 16 ((g.ssp + 8) % 65536))

/-- One slide back by RET or RETI; whether it filled. -/
def slideDown (s : State) (e : Nat) : Ex (Bool × State) :=
  let g := s.engine e
  let down := fun (s : State) (resg ssp : Nat) => s.onEngine e fun g =>
    { g with base := (g.base + 15) % 16, resg := resg, ssp := ssp, depth := g.depth - 1 }
  if 2 < g.resg then .ok (false, down s (g.resg - 1) g.ssp)
  else if !spillAligned g then .error ⟨3, g.ssp, none⟩
  else if g.ssp = g.ssb then .error ⟨6, g.ssp, none⟩
  else
    let ssp := (g.ssp + 65528) % 65536
    (s.localRead e ssp 8).map fun b =>
      let k := (g.base + 15) % 16 * 8
      let fill := fun (g : Engine) => { g with
        rf := b.zipIdx.foldl (fun (t : Tab Nat) (x : Byte × Nat) => t.put 0 (k + x.2) x.1.toNat) g.rf }
      (true, down (s.onEngine e fill) 2 ssp)

/-- Two slides with the cycles they add. -/
def twice (f : State → Ex (Bool × State)) (s : State) : Ex (Nat × State) :=
  (f s).bind fun a => (f a.2).map fun b => (2 * b2n a.1 + 2 * b2n b.1, b.2)

/-! ## Traps and interrupts (R351 to R353) -/

/-- Engine cycles used. -/
def spend (s : State) (e n : Nat) : State :=
  s.onEngine e fun g => { g with cyc := g.cyc + n, busy0 := g.busy0 - n, busy1 := g.busy1 - n }

/-- An engine source: index `i` of its port, or `u` of the unit for EH (R363). -/
def engineSource (s : State) (e i u : Nat) : State := if e = 16 then s.unitSource u else s.portSource e i

/-- The engine stops issuing after a double trap (R352). -/
def doubleTrap (s : State) (e : Nat) : State :=
  (s.onEngine e fun g => { g with run := .stopped }).engineSource e 22 39

/-- Trap entry from the word at `a` (R352). An entry whose own spill fails stops the engine too
(DEDUCED, log entry 16). -/
def takeTrap (s : State) (e a : Nat) (t : Trap) : State :=
  let g := s.engine e
  if bit g.psw 6 then s.doubleTrap e
  else match twice (·.slideUp e) s with
    | .error _ => s.doubleTrap e
    | .ok (n, s) =>
      (((s.onEngine e fun g => { g with
          tpc := a % 65536, tpsw := g.pswWord, tcause := t.cause, tval := t.val % 65536
          tbank := t.bank.getD g.tbank
          psw := setBit g.psw 6 true, pc := 4, loaded := false, rc := 0, lastBank := none, stepped := true }).spend e
        (3 + n)).when (decide (e < 16)) fun s => s.cntEvent 0x63 (some e)).engineSource e 21 38

/-- The conditions of R351 hold before a word issues, or while the engine waits in WTICK. A stopped
engine in Low Water waits until it is woken (R34, R357). -/
def irqDue (s : State) (e : Nat) : Bool :=
  let g := s.engine e
  (decide (g.run = .running) || (decide (g.run = .waiting) && (!s.lowWater || g.latched))) &&
    bit g.psw 4 && !bit g.psw 5 && !bit g.psw 6 && !g.loaded && decide (g.rc = 0) &&
    decide (s.ipend e &&& g.imask ≠ 0)

/-- Interrupt entry (R351). An entry that cannot spill traps instead (R346). -/
def enterIrq (s : State) (e : Nat) : State :=
  let g := s.engine e
  let run := fun (g : Engine) => { g with inWait := decide (g.run = .waiting), run := .running }
  match twice (·.slideUp e) s with
  | .error t => (s.onEngine e run).takeTrap e g.pc t
  | .ok (n, s) => (s.onEngine e fun g => { run g with
      ipc := g.pc % 65536, ipsw := g.pswWord
      psw := setBit (setBit g.psw 5 true) 4 false, pc := 8, lastBank := none }).spend e (3 + n)

/-- An interrupt taken where it is due. -/
def takeIrq (s : State) (e : Nat) : State := s.when (s.irqDue e) fun s => s.enterIrq e

/-- The release of a waiting engine at an edge (R47, R357): a repeated WTICK waits once more, otherwise
execution goes on behind it. -/
def releaseWait (s : State) (e : Nat) : State :=
  s.onEngine e fun g =>
    if 1 < g.rc then { g with rc := g.rc - 1, cyc := 0 }
    else { { g with rc := 0, cyc := 0, run := .running, latched := false, lastBank := none }.finish g.pc with
      loaded := false }

/-! ## Special registers (R337) -/

/-- Special register `n`. -/
def sregGet (s : State) (e n : Nat) : Nat :=
  let g := s.engine e
  match n with
  | 0 => g.pswWord
  | 1 => g.winWord
  | 2 => g.ssp
  | 3 => g.ssb
  | 4 => g.ssl
  | 5 => (g.loopTop.map (·.ls)).getD 0
  | 6 => (g.loopTop.map (·.le)).getD 0
  | 7 => (g.loopTop.map (·.lc)).getD 0
  | 8 => g.rc
  | 9 => g.ipc
  | 10 => g.ipsw
  | 11 => g.tpc
  | 12 => g.tpsw
  | 13 => g.tcause
  | 14 => g.tval
  | 15 => g.tbank
  | 16 => s.ipend e
  | 17 => g.imask
  | 18 => g.cyc % 65536
  | 19 => e + 1
  | _ => 0

/-- Special register `n` of engine `e` written. -/
def sregSet (g : Engine) (e n v : Nat) : Engine :=
  match n with
  | 0 => g.setFlags 31 v
  | 2 => { g with ssp := v }
  | 3 => { g with ssb := v }
  | 4 => { g with ssl := v }
  | 5 => g.onTop fun l => { l with ls := v }
  | 6 => g.onTop fun l => { l with le := v }
  | 7 => g.onTop fun l => { l with lc := v }
  | 9 => { g with ipc := v }
  | 10 => { g with ipsw := v }
  | 11 => { g with tpc := v }
  | 12 => { g with tpsw := v }
  | 17 => { g with imask := v % (if e = 16 then 64 else 16) }
  | _ => g

end State

/-! ## Meanings -/

open State

/-- INTERRUPT_ENTRY (R351): taken where the conditions hold. -/
def execInterruptEntry (e : Eng) (s : State) : Out := .next (s.takeIrq e)

end Sys2Proof.Machine
end

