-- ==== Sys2Proof/Machine/Operands.lean ====
section
/-!
DEFINITION. The instruction words of Swesil-8 as operations (R342, R355, R358 to R362): the short
operations of a paired word, the long operations, their legality, and the words that spell them.
-/
namespace Sys2Proof.Machine

/-! ## Operations -/

/-- Short operations 0x01 to 0x0A. -/
inductive AluOp | mov | add | adc | sub | sbc | and_ | or_ | xor_ | cmp | tst
  deriving DecidableEq, Repr

/-- The unary functions. -/
inductive UnOp | shl | shr | asr | rol | ror | rlc | rrc | not_ | neg | inc | dec | swapn | clr
  deriving DecidableEq, Repr

/-- The bit operations. -/
inductive BitOp | bset | bclr | btst | btgl
  deriving DecidableEq, Repr

/-- The SYS functions. -/
inductive SysOp | wtick | ret | reti | ei | di | lpop | brk
  deriving DecidableEq, Repr

/-- A short operation; `illegal` holds 15 bits that spell none. -/
inductive Short
  | nop
  | alu (op : AluOp) (d s : BitVec 5)
  | movi (d u : BitVec 5)
  | addi (d v : BitVec 5)
  | cmpi (a u : BitVec 5)
  | unary (op : UnOp) (d : BitVec 5)
  | bits (op : BitOp) (d : BitVec 5) (n : BitVec 3)
  | ld (d : BitVec 5) (loc post : Bool) (k : BitVec 3)
  | st (src : BitVec 5) (loc post : Bool) (k : BitVec 3)
  | padd (sub : Bool) (k : BitVec 3) (src : BitVec 5)
  | movp (reg : BitVec 5) (toPtr : Bool) (k : BitVec 3) (high : Bool)
  | br (cond : BitVec 4) (off : BitVec 6)
  | sys (op : SysOp)
  | illegal (raw : BitVec 15)
  deriving DecidableEq, Repr

/-- Long opcodes 0x01 to 0x06. -/
inductive ImmOp | addi | subi | andi | ori | xori | cmpi
  deriving DecidableEq, Repr

/-- The signedness of a product. -/
inductive MulKind | ss | uu | su
  deriving DecidableEq, Repr

/-- A long operation. -/
inductive Long
  | ldi (r : BitVec 5) (v : Byte)
  | imm (op : ImmOp) (r : BitVec 5) (v : Byte)
  | bank (v : Byte)
  | ldip (k : BitVec 3) (v : BitVec 16)
  | paddi (k : BitVec 3) (v : BitVec 16)
  | pcmpi (k : BitVec 3) (v : BitVec 16)
  | pcpy (k j : BitVec 3)
  | ld (r : BitVec 5) (a : LAddr)
  | st (r : BitVec 5) (a : LAddr)
  | ldw (r : BitVec 5) (a : LAddr)
  | stw (r : BitVec 5) (a : LAddr)
  | br (cond : BitVec 4) (target : BitVec 15)
  | call (target : BitVec 15)
  | jmpp (k : BitVec 3)
  | callp (k : BitVec 3)
  | loop (n : LoopCount) (last : BitVec 12)
  | rep (n : RepCount)
  | movs (k : BitVec 3) (sreg : BitVec 6)
  | movts (k : BitVec 3) (sreg : BitVec 6)
  | rxpop (k : BitVec 3) (r : BitVec 5)
  | txload (k : BitVec 3)
  | txgo (sel : BitVec 2)
  | txstat (r : BitVec 5)
  | ordset (sel : BitVec 2)
  | tstart (k : BitVec 5)
  | tstop (k : BitVec 5)
  | tread (p : BitVec 3) (r k : BitVec 5)
  | idrst (sel : BitVec 2)
  | frstx
  | clra (acc : Bool)
  | mul (kind : MulKind) (add acc : Bool) (i j : BitVec 3)
  | macm (acc : Bool) (i j : BitVec 3)
  | sha (acc : Bool) (sh : BitVec 6)
  | adda (acc src : Bool)
  | sata (acc : Bool)
  | rda (acc : Bool) (k : BitVec 3) (part : BitVec 2)
  | wra (acc : Bool) (k : BitVec 3) (part : BitVec 2)
  | crci (mode : Bool)
  | crcb (r : BitVec 5)
  | crcm (loc : Bool) (k : BitVec 3) (n : BitVec 12)
  | crcr (k : BitVec 3) (half : Bool)
  | eccg (r : BitVec 5) (k : BitVec 3)
  | eccc (r : BitVec 5) (k : BitVec 3)
  deriving DecidableEq, Repr

/-- An instruction word: a pair, a long operation, or 32 bits that spell neither. -/
inductive IWord
  | pair (a b : Short)
  | long (l : Long)
  | illegal (raw : BitVec 32)
  deriving DecidableEq, Repr

/-! ## Codes -/

def AluOp.code : AluOp → Nat
  | .mov => 1 | .add => 2 | .adc => 3 | .sub => 4 | .sbc => 5 | .and_ => 6 | .or_ => 7 | .xor_ => 8
  | .cmp => 9 | .tst => 10

def UnOp.code : UnOp → Nat
  | .shl => 0 | .shr => 1 | .asr => 2 | .rol => 3 | .ror => 4 | .rlc => 5 | .rrc => 6 | .not_ => 7
  | .neg => 8 | .inc => 9 | .dec => 10 | .swapn => 11 | .clr => 12

def BitOp.code : BitOp → Nat
  | .bset => 0 | .bclr => 1 | .btst => 2 | .btgl => 3

def SysOp.code : SysOp → Nat
  | .wtick => 0 | .ret => 1 | .reti => 2 | .ei => 3 | .di => 4 | .lpop => 5 | .brk => 6

def ImmOp.code : ImmOp → Nat
  | .addi => 1 | .subi => 2 | .andi => 3 | .ori => 4 | .xori => 5 | .cmpi => 6

def MulKind.code : MulKind → Nat
  | .ss => 0 | .uu => 1 | .su => 2

def aluOps : List AluOp := [.mov, .add, .adc, .sub, .sbc, .and_, .or_, .xor_, .cmp, .tst]
def unOps : List UnOp :=
  [.shl, .shr, .asr, .rol, .ror, .rlc, .rrc, .not_, .neg, .inc, .dec, .swapn, .clr]
def bitOps : List BitOp := [.bset, .bclr, .btst, .btgl]
def sysOps : List SysOp := [.wtick, .ret, .reti, .ei, .di, .lpop, .brk]
def immOps : List ImmOp := [.addi, .subi, .andi, .ori, .xori, .cmpi]
def mulKinds : List MulKind := [.ss, .uu, .su]

/-! ## Encoding -/

/-- OP, D and S of a short operation put together. -/
def shortBits (op d s : Nat) : Nat := op * 1024 + d * 32 + s

/-- The 15 bits of a short operation (R355). -/
def encodeShort : Short → Nat
  | .nop => 0
  | .alu op d s => shortBits op.code d.toNat s.toNat
  | .movi d u => shortBits 0x0B d.toNat u.toNat
  | .addi d v => shortBits 0x0C d.toNat v.toNat
  | .cmpi a u => shortBits 0x0D a.toNat u.toNat
  | .unary op d => shortBits 0x0E d.toNat op.code
  | .bits op d n => shortBits 0x0F d.toNat (op.code * 8 + n.toNat)
  | .ld d loc post k => shortBits 0x10 d.toNat (b2n loc * 16 + b2n post * 8 + k.toNat)
  | .st r loc post k => shortBits 0x11 r.toNat (b2n loc * 16 + b2n post * 8 + k.toNat)
  | .padd sub k src => shortBits 0x12 (b2n sub * 8 + k.toNat) src.toNat
  | .movp r toPtr k high => shortBits 0x13 r.toNat (b2n toPtr * 16 + k.toNat * 2 + b2n high)
  | .br cond off => shortBits 0x14 (off.toNat / 32 * 16 + cond.toNat) (off.toNat % 32)
  | .sys op => shortBits 0x1F 0 op.code
  | .illegal raw => raw.toNat

/-- Operands of a long load or store: opcode offset 0 for L3, 4 for L4, and bits 18:0. -/
def encodeAddr : LAddr → Nat × Nat
  | .disp p space d => (0, p.toNat * 2 ^ 16 + space.toNat * 2 ^ 13 + d.toNat)
  | .abs space a => (4, space.toNat * 2 ^ 16 + a.toNat)

/-- An access word: its opcode in layout L3, REG and the address. -/
def accessBits (op : Nat) (r : BitVec 5) (a : LAddr) : Nat :=
  (op + (encodeAddr a).1) * 2 ^ 24 + r.toNat * 2 ^ 19 + (encodeAddr a).2

/-- Opcode and operands of a coprocessor word without bit 31 (R359). -/
def cpBits (cp fn ops : Nat) : Nat := 3 * 2 ^ 29 + cp * 2 ^ 27 + fn * 2 ^ 22 + ops

/-- The operands of CP0. -/
def cp0Bits (fn p r k sel : Nat) : Nat := cpBits 0 fn (p * 2 ^ 19 + r * 2 ^ 14 + k * 2 ^ 9 + sel * 2 ^ 7)

/-- The operands of CP1. -/
def cp1Bits (fn : Nat) (acc : Bool) (i j part sh : Nat) : Nat :=
  cpBits 1 fn (b2n acc * 2 ^ 19 + i * 2 ^ 16 + j * 2 ^ 13 + part * 2 ^ 11 + sh * 2 ^ 5)

/-- The operands of CP2. -/
def cp2Bits (fn p r : Nat) (loc mode : Bool) (n : Nat) : Nat :=
  cpBits 2 fn (p * 2 ^ 19 + r * 2 ^ 14 + b2n loc * 2 ^ 13 + b2n mode * 2 ^ 12 + n)

/-- Bits 30:0 of a long operation (R358 to R362). -/
def encodeLong : Long → Nat
  | .ldi r v => r.toNat * 2 ^ 19 + v.toNat
  | .imm op r v => op.code * 2 ^ 24 + r.toNat * 2 ^ 19 + v.toNat
  | .bank v => 0x07 * 2 ^ 24 + v.toNat
  | .ldip k v => 0x08 * 2 ^ 24 + k.toNat * 2 ^ 21 + v.toNat
  | .paddi k v => 0x09 * 2 ^ 24 + k.toNat * 2 ^ 21 + v.toNat
  | .pcmpi k v => 0x0A * 2 ^ 24 + k.toNat * 2 ^ 21 + v.toNat
  | .pcpy k j => 0x0B * 2 ^ 24 + k.toNat * 2 ^ 21 + j.toNat
  | .ld r a => accessBits 0x10 r a
  | .st r a => accessBits 0x11 r a
  | .ldw r a => accessBits 0x12 r a
  | .stw r a => accessBits 0x13 r a
  | .br cond t => 0x18 * 2 ^ 24 + cond.toNat * 2 ^ 20 + t.toNat
  | .call t => 0x19 * 2 ^ 24 + t.toNat
  | .jmpp k => 0x1A * 2 ^ 24 + k.toNat * 2 ^ 21
  | .callp k => 0x1B * 2 ^ 24 + k.toNat * 2 ^ 21
  | .loop (.imm n) last => 0x20 * 2 ^ 24 + n.toNat * 2 ^ 12 + last.toNat
  | .loop (.ptr k) last => 0x21 * 2 ^ 24 + k.toNat * 2 ^ 21 + last.toNat
  | .rep (.imm n) => 0x22 * 2 ^ 24 + n.toNat
  | .rep (.reg r) => 0x23 * 2 ^ 24 + r.toNat * 2 ^ 19
  | .movs k r => 0x28 * 2 ^ 24 + k.toNat * 2 ^ 21 + r.toNat
  | .movts k r => 0x29 * 2 ^ 24 + k.toNat * 2 ^ 21 + r.toNat
  | .rxpop k r => cp0Bits 0 k.toNat r.toNat 0 0
  | .txload k => cp0Bits 1 k.toNat 0 0 0
  | .txgo q => cp0Bits 2 0 0 0 q.toNat
  | .txstat r => cp0Bits 3 0 r.toNat 0 0
  | .ordset q => cp0Bits 4 0 0 0 q.toNat
  | .tstart k => cp0Bits 5 0 0 k.toNat 0
  | .tstop k => cp0Bits 6 0 0 k.toNat 0
  | .tread p r k => cp0Bits 7 p.toNat r.toNat k.toNat 0
  | .idrst q => cp0Bits 8 0 0 0 q.toNat
  | .frstx => cp0Bits 9 0 0 0 0
  | .clra a => cp1Bits 0 a 0 0 0 0
  | .mul k add a i j => cp1Bits (1 + k.code + 3 * b2n add) a i.toNat j.toNat 0 0
  | .macm a i j => cp1Bits 7 a i.toNat j.toNat 0 0
  | .sha a sh => cp1Bits 8 a 0 0 0 sh.toNat
  | .adda a m => cp1Bits 9 a 0 0 (2 * b2n m) 0
  | .sata a => cp1Bits 10 a 0 0 0 0
  | .rda a k part => cp1Bits 11 a k.toNat 0 part.toNat 0
  | .wra a k part => cp1Bits 12 a k.toNat 0 part.toNat 0
  | .crci mode => cp2Bits 0 0 0 false mode 0
  | .crcb r => cp2Bits 1 0 r.toNat false false 0
  | .crcm loc k n => cp2Bits 2 k.toNat 0 loc false n.toNat
  | .crcr k half => cp2Bits 3 k.toNat 0 false half 0
  | .eccg r k => cp2Bits 4 k.toNat r.toNat false false 0
  | .eccc r k => cp2Bits 5 k.toNat r.toNat false false 0

/-- The 32 bits of a word (R342). -/
def encodeWord : IWord → Nat
  | .pair a b => encodeShort a * 2 ^ 16 + encodeShort b
  | .long l => 2 ^ 31 + encodeLong l
  | .illegal raw => raw.toNat

/-! ## Decoding -/

/-- The short operation that 15 bits spell (R355). -/
def decodeShort (n : Nat) : Short :=
  let op := n / 1024 % 32
  let d := n / 32 % 32
  let s := n % 32
  let D := BitVec.ofNat 5 d
  let S := BitVec.ofNat 5 s
  let K := BitVec.ofNat 3 s
  let bad := Short.illegal (BitVec.ofNat 15 n)
  if op = 0 then if d = 0 ∧ s = 0 then .nop else bad
  else if op ≤ 0x0A then .alu (aluOps.getD (op - 1) .mov) D S
  else if op = 0x0B then .movi D S
  else if op = 0x0C then .addi D S
  else if op = 0x0D then .cmpi D S
  else if op = 0x0E then
    match unOps[s]? with
    | some u => .unary u D
    | none => bad
  else if op = 0x0F then .bits (bitOps.getD (s / 8) .bset) D K
  else if op = 0x10 then .ld D (bit s 4) (bit s 3) K
  else if op = 0x11 then .st D (bit s 4) (bit s 3) K
  else if op = 0x12 then if d < 16 then .padd (bit d 3) (BitVec.ofNat 3 d) S else bad
  else if op = 0x13 then .movp D (bit s 4) (BitVec.ofNat 3 (s / 2)) (bit s 0)
  else if op = 0x14 then .br (BitVec.ofNat 4 d) (BitVec.ofNat 6 (d / 16 * 32 + s))
  else if op = 0x1F then
    match sysOps[s]? with
    | some f => if d = 0 then .sys f else bad
    | none => bad
  else bad

/-- The coprocessor operation of `n`, bits 30:0 of a word (R359 to R362). -/
def decodeCp (n : Nat) : Option Long :=
  let cp := n / 2 ^ 27 % 4
  let fn := n / 2 ^ 22 % 32
  let P := BitVec.ofNat 3 (n / 2 ^ 19)
  let R := BitVec.ofNat 5 (n / 2 ^ 14)
  if cp = 0 then
    let K := BitVec.ofNat 5 (n / 2 ^ 9)
    let Q := BitVec.ofNat 2 (n / 2 ^ 7)
    if n % 2 ^ 7 ≠ 0 then none
    else match fn with
      | 0 => some (.rxpop P R)
      | 1 => some (.txload P)
      | 2 => some (.txgo Q)
      | 3 => some (.txstat R)
      | 4 => some (.ordset Q)
      | 5 => some (.tstart K)
      | 6 => some (.tstop K)
      | 7 => some (.tread P R K)
      | 8 => some (.idrst Q)
      | 9 => some .frstx
      | _ => none
  else if cp = 1 then
    let a := bit n 19
    let I := BitVec.ofNat 3 (n / 2 ^ 16)
    let J := BitVec.ofNat 3 (n / 2 ^ 13)
    let part := BitVec.ofNat 2 (n / 2 ^ 11)
    if n % 2 ^ 5 ≠ 0 ∨ n / 2 ^ 20 % 4 ≠ 0 then none
    else if 1 ≤ fn ∧ fn ≤ 6 then some (.mul (mulKinds.getD ((fn - 1) % 3) .ss) (decide (4 ≤ fn)) a I J)
    else match fn with
      | 0 => some (.clra a)
      | 7 => some (.macm a I J)
      | 8 => some (.sha a (BitVec.ofNat 6 (n / 2 ^ 5)))
      | 9 => some (.adda a (bit n 12))
      | 10 => some (.sata a)
      | 11 => some (.rda a I part)
      | 12 => some (.wra a I part)
      | _ => none
  else if cp = 2 then
    match fn with
    | 0 => some (.crci (bit n 12))
    | 1 => some (.crcb R)
    | 2 => some (.crcm (bit n 13) P (BitVec.ofNat 12 n))
    | 3 => some (.crcr P (bit n 12))
    | 4 => some (.eccg R P)
    | 5 => some (.eccc R P)
    | _ => none
  else none

/-- The address of a long load or store in layout L3 (`abs` false) or L4. -/
def decodeAddr (abs : Bool) (n : Nat) : LAddr :=
  if abs then .abs (BitVec.ofNat 3 (n / 2 ^ 16)) (BitVec.ofNat 16 n)
  else .disp (BitVec.ofNat 3 (n / 2 ^ 16)) (BitVec.ofNat 3 (n / 2 ^ 13)) (BitVec.ofNat 13 n)

/-- The long operation of `n`, bits 30:0 of a word with bit 31 at 1 (R358). -/
def decodeLong (n : Nat) : Option Long :=
  let op := n / 2 ^ 24 % 128
  let R := BitVec.ofNat 5 (n / 2 ^ 19)
  let P := BitVec.ofNat 3 (n / 2 ^ 21)
  let v := BitVec.ofNat 8 n
  let w := BitVec.ofNat 16 n
  let l1 := decide (n % 2 ^ 19 < 2 ^ 8)
  let l1z := decide (n % 2 ^ 24 < 2 ^ 8)
  let l2 := decide (n % 2 ^ 21 < 2 ^ 16)
  let when := fun (c : Bool) (l : Long) => if c then some l else none
  if 0x60 ≤ op then decodeCp n
  else if op = 0 then when l1 (.ldi R v)
  else if op ≤ 6 then when l1 (.imm (immOps.getD (op - 1) .addi) R v)
  else if 0x10 ≤ op ∧ op ≤ 0x17 then
    let a := decodeAddr (decide (0x14 ≤ op)) n
    some (match op % 4 with
      | 0 => .ld R a
      | 1 => .st R a
      | 2 => .ldw R a
      | _ => .stw R a)
  else match op with
    | 0x07 => when l1z (.bank v)
    | 0x08 => when l2 (.ldip P w)
    | 0x09 => when l2 (.paddi P w)
    | 0x0A => when l2 (.pcmpi P w)
    | 0x0B => when (decide (n % 2 ^ 21 < 8)) (.pcpy P (BitVec.ofNat 3 n))
    | 0x18 => when (decide (n % 2 ^ 20 < 2 ^ 15)) (.br (BitVec.ofNat 4 (n / 2 ^ 20)) (BitVec.ofNat 15 n))
    | 0x19 => when (decide (n % 2 ^ 24 < 2 ^ 15)) (.call (BitVec.ofNat 15 n))
    | 0x1A => when (decide (n % 2 ^ 21 = 0)) (.jmpp P)
    | 0x1B => when (decide (n % 2 ^ 21 = 0)) (.callp P)
    | 0x20 => some (.loop (.imm (BitVec.ofNat 12 (n / 2 ^ 12))) (BitVec.ofNat 12 n))
    | 0x21 => when (decide (n % 2 ^ 21 < 2 ^ 12)) (.loop (.ptr P) (BitVec.ofNat 12 n))
    | 0x22 => when l1z (.rep (.imm v))
    | 0x23 => when (decide (n % 2 ^ 19 = 0)) (.rep (.reg R))
    | 0x28 => when (decide (n % 2 ^ 21 < 2 ^ 6)) (.movs P (BitVec.ofNat 6 n))
    | 0x29 => when (decide (n % 2 ^ 21 < 2 ^ 6)) (.movts P (BitVec.ofNat 6 n))
    | _ => none

/-- The word that 32 bits spell (R342). -/
def decodeWord (w : BitVec 32) : IWord :=
  let n := w.toNat
  if bit n 31 then
    match decodeLong (n % 2 ^ 31) with
    | some l => .long l
    | none => .illegal w
  else if bit n 15 then .illegal w
  else .pair (decodeShort (n / 2 ^ 16)) (decodeShort (n % 2 ^ 15))

/-- The word of a short operation in its slot with the other slot as given. -/
def slotWord (a : Slot) (op : Short) : IWord :=
  let other := decodeShort a.other.toNat
  if a.inA then .pair op other else .pair other op

/-! ## What a word writes and needs -/

/-- The register a short operation writes. -/
def Short.dest : Short → Option (BitVec 5)
  | .alu .cmp _ _ | .alu .tst _ _ | .bits .btst _ _ => none
  | .alu _ d _ | .movi d _ | .addi d _ | .unary _ d | .bits _ d _ | .ld d _ _ _ => some d
  | .movp r toPtr _ _ => if toPtr then none else some r
  | _ => none

/-- The registers a short operation names. -/
def Short.regs : Short → List (BitVec 5)
  | .alu _ d s => [d, s]
  | .movi d _ | .addi d _ | .cmpi d _ | .unary _ d | .bits _ d _ | .ld d _ _ _ | .st d _ _ _ => [d]
  | .padd _ _ s => [s]
  | .movp r _ _ _ => [r]
  | _ => []

/-- A short operation sets flags. -/
def Short.setsFlags : Short → Bool
  | .alu op _ _ => decide (op ≠ .mov)
  | .addi _ _ | .cmpi _ _ | .padd _ _ _ => true
  | .unary op _ => decide (op ≠ .clr)
  | .bits op _ _ => decide (op = .btst)
  | _ => false

/-- A short operation that may stand only in slot B (R343). -/
def Short.onlyB : Short → Bool
  | .br _ _ | .sys _ => true
  | _ => false

/-- The local bit of a short operation's access, where it makes one. -/
def Short.access : Short → Option Bool
  | .ld _ loc _ _ | .st _ loc _ _ => some loc
  | _ => none

/-- A register field value is legal (R336). -/
def regOk (r : BitVec 5) : Bool := decide (r.toNat < 29)

/-- A short operation is legal by itself. -/
def Short.legal (x : Short) : Bool :=
  x.regs.all regOk && match x with
    | .br cond _ => decide (cond.toNat ≠ 15)
    | .illegal _ => false
    | _ => true

/-- A pair is legal with this value of BANK (R343). -/
def pairLegal (bank : Nat) (a b : Short) : Bool :=
  let acc := [a, b].filterMap Short.access
  let own := acc.filter fun (l : Bool) => !l
  let zero := acc.filter fun (l : Bool) => l || decide (bank = 0)
  a.legal && b.legal && !a.onlyB && decide (own.length ≤ 1) && decide (zero.length ≤ 1)

/-- The register a long operation writes. -/
def Long.dest : Long → Option (BitVec 5)
  | .imm .cmpi _ _ => none
  | .ldi r _ | .imm _ r _ | .ld r _ | .rxpop _ r | .txstat r | .tread _ r _ | .eccg r _ | .eccc r _ => some r
  | _ => none

/-- The registers a long operation names. -/
def Long.regs : Long → List (BitVec 5)
  | .ldi r _ | .imm _ r _ | .ld r _ | .st r _ | .rxpop _ r | .txstat r | .tread _ r _ | .eccg r _
  | .eccc r _ | .crcb r | .rep (.reg r) => [r]
  | _ => []

/-- A space selector is legal (R338). -/
def addrLegal : LAddr → Bool
  | .disp _ space _ | .abs space _ => decide (space.toNat < 6)

/-- Special register `n` can be read. -/
def sregRead (n : Nat) : Bool := decide (n < 20)

/-- Special register `n` can be written (R337). -/
def sregWrite (n : Nat) : Bool := [0, 2, 3, 4, 5, 6, 7, 9, 10, 11, 12, 17].contains n

/-- The word is a CP0 word. -/
def Long.cp0 : Long → Bool
  | .rxpop _ _ | .txload _ | .txgo _ | .txstat _ | .ordset _ | .tstart _ | .tstop _ | .tread _ _ _
  | .idrst _ | .frstx => true
  | _ => false

/-- A long operation is legal on engine `e` (R352, cause 0x01). -/
def Long.legal (e : Nat) (x : Long) : Bool :=
  x.regs.all regOk && (decide (e < 16) || !x.cp0) && match x with
    | .ld _ a | .st _ a => addrLegal a
    | .ldw r a | .stw r a => addrLegal a && decide (r.toNat < 8)
    | .br cond _ => decide (cond.toNat ≠ 15)
    | .loop _ last => decide (last.toNat ≠ 0)
    | .movs _ r => sregRead r.toNat
    | .movts _ r => sregWrite r.toNat
    | .txgo q | .idrst q => decide (q.toNat ≠ 3)
    | .ordset q => decide (q.toNat < 2)
    | .tstart k | .tstop k | .tread _ _ k => decide (k.toNat ≤ 19)
    | .rda _ _ part | .wra _ _ part => decide (part.toNat ≠ 3)
    | .crcm _ _ n => decide (n.toNat ≠ 0)
    | _ => true

/-- A word is legal on engine `e` with this value of BANK. -/
def IWord.legal (e bank : Nat) : IWord → Bool
  | .pair a b => pairLegal bank a b
  | .long l => l.legal e
  | .illegal _ => false

/-- A register field names LCL or LCH. -/
def isLoopReg (r : Option (BitVec 5)) : Bool := r == some 26#5 || r == some 27#5

/-- A word writes a loop or repeat register (R350). -/
def IWord.writesLoop : IWord → Bool
  | .pair a b => isLoopReg a.dest || isLoopReg b.dest || b == .sys .lpop
  | .long (.loop _ _) | .long (.rep _) => true
  | .long (.movts _ r) => [5, 6, 7].contains r.toNat
  | .long l => isLoopReg l.dest
  | .illegal _ => false

/-- A word transfers control (R350). -/
def IWord.transfers : IWord → Bool
  | .pair _ (.br _ _) | .pair _ (.sys .ret) | .pair _ (.sys .reti) => true
  | .long (.br _ _) | .long (.call _) | .long (.jmpp _) | .long (.callp _) => true
  | _ => false

/-- A word loads a register from memory: the next one is its delay slot (R341). -/
def IWord.loads : IWord → Bool
  | .pair (.ld _ _ _ _) _ | .pair _ (.ld _ _ _ _) => true
  | .long (.ld _ _) | .long (.ldw _ _) => true
  | _ => false

end Sys2Proof.Machine
end

