-- ==== Sys2Proof/Machine/Issue.lean ====
section
/-!
DEFINITION. The execution of one Swesil-8 word (R339 to R362) and its issue on an engine (R354).
-/
namespace Sys2Proof.Machine

/-! ## Results of 8-bit operations (R355) -/

/-- `op` on the destination's value `a`, the source's value `b` and the carry. -/
def aluOut (op : AluOp) (a b c : Nat) : AluOut :=
  match op with
  | .mov => ⟨b, 0, 0⟩
  | .add => addFlags 8 a b 0
  | .adc => addFlags 8 a b c
  | .sub | .cmp => subFlags 8 a b 0
  | .sbc => subFlags 8 a b c
  | .and_ | .tst => logicFlags (a &&& b)
  | .or_ => logicFlags (a ||| b)
  | .xor_ => logicFlags (a ^^^ b)

/-- A unary function of `a` with the carry. -/
def unOut (op : UnOp) (a c : Nat) : AluOut :=
  match op with
  | .shl => shiftFlags (a * 2 % 256) (bit a 7)
  | .shr => shiftFlags (a / 2) (bit a 0)
  | .asr => shiftFlags (a / 2 + a / 128 * 128) (bit a 0)
  | .rol => shiftFlags (a * 2 % 256 + a / 128) (bit a 7)
  | .ror => shiftFlags (a / 2 + a % 2 * 128) (bit a 0)
  | .rlc => shiftFlags (a * 2 % 256 + c) (bit a 7)
  | .rrc => shiftFlags (a / 2 + c * 128) (bit a 0)
  | .not_ => logicFlags (255 - a)
  | .neg => subFlags 8 0 a 0
  | .inc => { addFlags 8 a 1 0 with mask := 14 }
  | .dec => { subFlags 8 a 1 0 with mask := 14 }
  | .swapn => logicFlags (a % 16 * 16 + a / 16)
  | .clr => ⟨0, 0, 0⟩

/-- A bit operation on bit `n` of `a`. -/
def bitOut (op : BitOp) (a n : Nat) : AluOut :=
  match op with
  | .bset => ⟨setBit a n true, 0, 0⟩
  | .bclr => ⟨setBit a n false, 0, 0⟩
  | .btst => ⟨a, 2, 2 * b2n (!bit a n)⟩
  | .btgl => ⟨a ^^^ 2 ^ n, 0, 0⟩

/-- A long immediate operation. -/
def immOut (op : ImmOp) (a v : Nat) : AluOut :=
  match op with
  | .addi => addFlags 8 a v 0
  | .subi | .cmpi => subFlags 8 a v 0
  | .andi => logicFlags (a &&& v)
  | .ori => logicFlags (a ||| v)
  | .xori => logicFlags (a ^^^ v)

namespace State

/-- The result `o` written to register `d` (none: flags only) and its flags, where they stand. An
operation that writes FLG and sets flags leaves bits 3:0 free (log entry 17). -/
def writeOut (s : State) (e : Nat) (d : Option (BitVec 5)) (o : AluOut) (flags : Bool) : State :=
  let s := match d with
    | some d => s.onEngine e fun g => g.setReg d.toNat o.res
    | none => s
  if !flags ∨ o.mask = 0 then s
  else if d = some 25#5 then
    let r := s.draw 4
    r.2.onEngine e fun g => g.setFlags 15 r.1
  else s.onEngine e fun g => g.setFlags o.mask o.flags

/-- Flags alone. -/
def writeFlags (s : State) (e : Nat) (o : AluOut) (flags : Bool) : State :=
  s.when flags fun s => s.onEngine e fun g => g.setFlags o.mask o.flags

/-- A loaded byte: into the file one word later (R341), elsewhere at once. -/
def loadInto (s : State) (e : Nat) (g : Engine) (r v : Nat) : State :=
  match g.fileKey r with
  | some k => s.onEngine e fun h => h.later k v false
  | none => s.onEngine e fun h => h.setReg r v

/-- A pointer's update after an access through it, one word later. -/
def updatePtr (s : State) (e k v : Nat) : State :=
  s.onEngine e fun h => h.later (136 + k) (v % 65536) true

/-- A word's or slot's outcome: cycles beyond the first, and the state. -/
abbrev Cost := Nat × State

/-- A short operation other than a branch or SYS; `g` is the engine before the word, `flags` whether
its flags stand (R343). -/
def shortData (s : State) (e : Nat) (g : Engine) (flags : Bool) : Short → Ex Cost
  | .nop | .br _ _ | .sys _ | .illegal _ => .ok (0, s)
  | .alu op d src =>
    let o := aluOut op (g.reg d.toNat) (g.reg src.toNat) (g.psw % 2)
    .ok (0, s.writeOut e (Short.alu op d src).dest o flags)
  | .movi d u => .ok (0, s.writeOut e (some d) ⟨u.toNat, 0, 0⟩ flags)
  | .addi d v =>
    .ok (0, s.writeOut e (some d) (addFlags 8 (g.reg d.toNat) (ofSigned 8 (toSigned 5 v.toNat)) 0) flags)
  | .cmpi a u => .ok (0, s.writeFlags e (subFlags 8 (g.reg a.toNat) u.toNat 0) flags)
  | .unary op d => .ok (0, s.writeOut e (some d) (unOut op (g.reg d.toNat) (g.psw % 2)) flags)
  | .bits op d n => .ok (0, s.writeOut e (Short.bits op d n).dest (bitOut op (g.reg d.toNat) n.toNat) flags)
  | .ld d loc post k =>
    let a := if post then g.ptrInc k.toNat else g.ptr k.toNat
    (s.dataLoad e (if loc then 0 else g.bank) a false g.lastBank).map fun r =>
      let s := r.2.2.loadInto e g d.toNat r.1
      (r.2.1, s.when post fun s => s.updatePtr e k.toNat (a + 1))
  | .st src loc post k =>
    let a := if post then g.ptrInc k.toNat else g.ptr k.toNat
    (s.dataStore e (if loc then 0 else g.bank) a (g.reg src.toNat) false g.lastBank).map fun r =>
      (r.1, r.2.when post fun s => s.updatePtr e k.toNat (a + 1))
  | .padd sub k src =>
    let v := g.ptr k.toNat
    let b := g.reg src.toNat
    let r := (if sub then v + 65536 - b else v + b) % 65536
    let s := s.onEngine e fun h => h.setPtr k.toNat r
    .ok (0, s.writeFlags e ⟨r, 2, 2 * b2n (decide (r = 0))⟩ flags)
  | .movp r toPtr k high =>
    let sh := if high then 256 else 1
    if toPtr then .ok (0, s.onEngine e fun h =>
      let v := h.ptr k.toNat
      h.setPtr k.toNat (v - v / sh % 256 * sh + g.reg r.toNat * sh))
    else .ok (0, s.onEngine e fun h => h.setReg r.toNat (g.ptr k.toNat / sh % 256))

/-- What a word has done: executed (with the cycles it took; `taken` where the pc has been set or the
engine waits), ended in BRK, or trapped. -/
inductive Res
  | done (s : State) (taken : Bool) (cost : Nat)
  | brk (s : State) (cost : Nat)
  | trap (t : Trap)

/-- An executed word without a transfer. -/
def seq (r : Cost) (cost : Nat := 1) : Res := .done r.2 false (cost + r.1)

/-- A taken transfer to word `a`. -/
def goTo (s : State) (e a cost : Nat) : Res :=
  .done (s.onEngine e fun g => { g with pc := a % 65536 }) true cost

/-- An outcome that may have trapped. -/
def Res.of {α : Type} (x : Ex α) (f : α → Res) : Res :=
  match x with
  | .ok a => f a
  | .error t => .trap t

/-- WTICK (R357): waits for the release, or goes on with one already latched. -/
def wtick (s : State) (e c : Nat) : Res :=
  let s := s.when (s.engine e).fresh fun s => (s.wdgResume e).onEngine e fun g => { g with fresh := false }
  if (s.engine e).latched then
    .done (s.onEngine e fun g => { g with latched := false, cyc := 0, stepped := false }) false (1 + c)
  else .done (s.onEngine e fun g => { g with
    run := .waiting, loaded := false, lastBank := none, stepped := false }) true (1 + c)

/-- CALL and CALLP (R344). -/
def call (s : State) (e target : Nat) : Res :=
  let ret := ((s.engine e).pc + 1) % 65536
  Res.of (s.slideUp e) fun r =>
    goTo (r.2.onEngine e fun g => (g.setReg 6 (ret % 256)).setReg 7 (ret / 256)) e target (2 + 2 * b2n r.1)

/-- RET (R344 to R346). -/
def ret (s : State) (e : Nat) (g : Engine) (c : Nat) : Res :=
  if g.depth = 0 then .trap ⟨6, g.ssp, none⟩
  else Res.of (s.slideDown e) fun r => goTo r.2 e (g.reg 6 + 256 * g.reg 7) (2 + 2 * b2n r.1 + c)

/-- RETI (R353), with the word's bits for the trap of one outside a handler. -/
def reti (s : State) (e raw c : Nat) : Res :=
  let g := s.engine e
  let trap := bit g.psw 6
  let saved := if trap then g.tpsw else g.ipsw
  let pc := if trap then g.tpc else g.ipc
  if !trap ∧ !bit g.psw 5 then .trap ⟨1, raw, none⟩
  else if bits saved 10 8 ≠ g.loops.length then .trap ⟨7, g.loops.length, none⟩
  else Res.of (twice (·.slideDown e) s) fun r =>
    goTo (r.2.onEngine e fun g => { g with
      psw := saved % 128, inWait := g.inWait && trap }) e pc (2 + r.1 + c)

/-- A branch or SYS operation in slot B, after slot A has executed; `c` is slot A's extra cycles. -/
def shortControl (s : State) (e : Nat) (g : Engine) (raw c : Nat) : Short → Res
  | .br cond off =>
    if condTrue cond.toNat g.psw then
      goTo s e (ofSigned 16 ((g.pc : Int) + 1 + toSigned 6 off.toNat)) (2 + c)
    else seq (c, s)
  | .sys .wtick => s.wtick e c
  | .sys .ret => s.ret e g c
  | .sys .reti => s.reti e raw c
  | .sys .ei => seq (c, s.onEngine e fun h => { h with psw := setBit h.psw 4 true })
  | .sys .di => seq (c, s.onEngine e fun h => { h with psw := setBit h.psw 4 false })
  | .sys .lpop =>
    if (s.engine e).loops = [] then .trap ⟨7, 0, none⟩
    else seq (c, s.onEngine e fun h => { h with loops := h.loops.tail })
  | .sys .brk => .brk s (1 + c)
  | _ => seq (c, s)

/-- A paired word (R343): both slots read the engine as it stood before the word, slot B's writes and
flags stand over slot A's. -/
def pairWord (s : State) (e : Nat) (g : Engine) (a b : Short) (raw : Nat) : Res :=
  Res.of (s.shortData e g (!b.setsFlags) a) fun r =>
    if b.onlyB then r.2.shortControl e g raw r.1 b
    else Res.of (r.2.shortData e g true b) fun t => seq (r.1 + t.1, t.2)

/-! ## Long operations -/

/-- Bank and offset of a long load or store (R338, R358). -/
def longAddr (g : Engine) : LAddr → Nat × Nat
  | .disp p space d => (spaceBank g.bank space.toNat, ofSigned 16 (g.ptr p.toNat + toSigned 13 d.toNat))
  | .abs space a => (spaceBank g.bank space.toNat, a.toNat)

/-- A long load. -/
def longLoad (s : State) (e : Nat) (g : Engine) (a : LAddr) (wide : Bool) (put : State → Nat → State) :
    Res :=
  let b := longAddr g a
  Res.of (s.dataLoad e b.1 b.2 wide g.lastBank) fun r => seq (r.2.1, put r.2.2 r.1)

/-- A long store. -/
def longStore (s : State) (e : Nat) (g : Engine) (a : LAddr) (wide : Bool) (v : Nat) : Res :=
  let b := longAddr g a
  Res.of (s.dataStore e b.1 b.2 v wide g.lastBank) fun r => seq r

/-- LOOP (R347). -/
def loop (s : State) (e : Nat) (g : Engine) (n last : Nat) : Res :=
  if 4 ≤ g.loops.length then .trap ⟨7, g.loops.length, none⟩
  else if n = 0 then goTo s e (g.pc + last + 1) 2
  else seq (0, s.onEngine e fun h =>
    { h with loops := ⟨(g.pc + 1) % 65536, (g.pc + last) % 65536, n⟩ :: h.loops })

/-! ## CP0 (R156, R360) -/

/-- A descriptor or receive buffer starts on an 8-byte boundary, or the function traps. -/
def aligned8 (a : Nat) (f : Res) : Res := if a % 8 = 0 then f else .trap ⟨3, a, none⟩

/-- Words of 8 bytes that `n` bytes fill. -/
def words8 (n : Nat) : Nat := (n + 7) / 8

/-- RXPOP: SOP type and length in `reg`, the packet at (pk). -/
def rxpop (s : State) (e : Nat) (g : Engine) (k r : Nat) : Res :=
  let a := g.ptr k
  aligned8 a <| match s.owns e, (s.pd e).rx with
    | true, m :: rest =>
      let b := rxBytes m
      Res.of (s.localWrite e a ([byte (m.sop % 4), byte b.length] ++ b)) fun s =>
        seq (0, (s.onPd e fun h => { h with rx := rest }).onEngine e fun h =>
          h.setReg r (m.sop % 8 * 32 + b.length % 32)) (4 + words8 (2 + b.length))
    | _, _ => seq (0, s.onEngine e fun h => h.setReg r 0xE0) 4

/-- TXLOAD. A length outside 2 to 30 or SOP type 3 leaves what is loaded free (log entry 18). -/
def txload (s : State) (e : Nat) (g : Engine) (k : Nat) : Res :=
  let a := g.ptr k
  aligned8 a <| Res.of (s.localRead e a 2) fun d =>
    let n := (d.getD 1 0).toNat
    let t := (d.getD 0 0).toNat % 4
    let f := s.draw 8
    let h := f.2.draw 8
    let (len, sop, s) := if n < 2 ∨ 30 < n ∨ t = 3 then (2 + f.1 % 29, h.1 % 3, h.2) else (n, t, s)
    Res.of (s.localRead e (a + 2) len) fun b =>
      seq (0, s.onPd e fun h => { h with txDesc := some (msgOfBytes sop b) }) (4 + words8 (2 + len))

/-- TXGO: the loaded packet queued in class `q`; class 2 makes it the head of the
host queue, which holds 4. -/
def txgo (s : State) (e q : Nat) : State :=
  match s.owns e, (s.pd e).txDesc with
  | true, some m =>
    let a := s.ackOf e m
    if q = 0 then s.sendReply e m a
    else if q = 1 then s.sendEngine e m a
    else if 4 ≤ (s.pd e).hostq.length then s
    else (s.onPd e fun h => { h with hostq := { msg := m, onAck := a } :: h.hostq, qhead := (h.qhead + 3) % 4 }).writeQueue e
  | _, _ => s

/-- TXSTAT. -/
def txstat (s : State) (e : Nat) : Nat :=
  if s.owns e then
    s.fget PRT_PDST.AWAITGC e + 2 * s.fget PRT_PDST.AWAITRSP e + 4 * s.fget PRT_PDST.HELD e +
      8 * s.fget PRT_PDEV.TXERR e + 16 * ((s.pd e).lastAck % 8)
  else 8

/-- The CP0 words. -/
def cp0 (s : State) (e : Nat) (g : Engine) : Long → Res
  | .rxpop k r => s.rxpop e g k.toNat r.toNat
  | .txload k => s.txload e g k.toNat
  | .txgo q => seq (0, s.txgo e q.toNat)
  | .txstat r => seq (0, s.onEngine e fun h => h.setReg r.toNat (s.txstat e))
  | .ordset q => seq (0, s.when (s.owns e) fun s => if q = 0 then s.hardReset e else s.cableReset e)
  | .tstart k => seq (0, s.when (s.owns e) fun s => s.timStart e k.toNat)
  | .tstop k => seq (0, s.timStop e k.toNat)
  | .tread p r k =>
    let v := (s.timer e k.toNat).getD 0
    seq (1, s.onEngine e fun h => (h.setPtr p.toNat v).setReg r.toNat (v / 65536))
  | .idrst q => seq (0, s.idReset e q.toNat)
  | _ => seq (0, s.when (s.owns e) fun s => s.onPd e fun h => { h with frsGen := true })

/-! ## CP1 (R361) -/

/-- Accumulator A1 or A0. -/
def accOf (g : Engine) (a : Bool) : Nat := if a then g.a1 else g.a0

/-- Engine cycles until an accumulator is ready. -/
def accBusy (g : Engine) (a : Bool) : Nat := if a then g.busy1 else g.busy0

/-- An accumulator written, wrapping at 40 bits. -/
def setAcc (g : Engine) (a : Bool) (v : Int) : Engine :=
  let v := ofSigned 40 v
  if a then { g with a1 := v } else { g with a0 := v }

/-- An accumulator's product is ready 2 cycles after the word, which takes 1. -/
def setBusy (g : Engine) (a : Bool) : Engine := if a then { g with busy1 := 3 } else { g with busy0 := 3 }

/-- A product with the signedness of its mnemonic. -/
def product (k : MulKind) (x y : Nat) : Int :=
  match k with
  | .ss => toSigned 16 x * toSigned 16 y
  | .uu => (x * y : Nat)
  | .su => toSigned 16 x * (y : Nat)

/-- MACM (R361): two signed words of bank 0x00, both pointers advanced by 2. With one pointer for both,
the spec leaves open whether it advances by 2 or by 4 (log entry 19). -/
def macm (s : State) (e : Nat) (g : Engine) (a : Bool) (i j : Nat) : Res :=
  let x := g.ptrInc i
  let y := g.ptrInc j
  Res.of (s.dataLoad e 0 x true none) fun u => Res.of (u.2.2.dataLoad e 0 y true none) fun v =>
    let s := v.2.2.onEngine e fun h =>
      setBusy (setAcc h a (toSigned 40 (accOf h a) + product .ss u.1 v.1)) a
    if i = j then
      let d := s.draw 1
      seq (0, d.2.updatePtr e i (x + 2 + 2 * d.1))
    else seq (0, (s.updatePtr e i (x + 2)).updatePtr e j (y + 2))

/-- Accumulator `v` shifted by a signed amount. -/
def shiftAcc (v : Int) (sh : Int) : Int :=
  if 0 ≤ sh then v * (2 ^ sh.toNat : Nat) else v / (2 ^ (-sh).toNat : Nat)

/-- A part of an accumulator: bits 15:0, 31:16, or 39:32 sign-extended. -/
def accPart (v part : Nat) : Nat :=
  if part = 2 then ofSigned 16 (toSigned 8 (v / 2 ^ 32)) else v / 2 ^ (16 * part) % 65536

/-- An accumulator with a part written. -/
def accWith (v part x : Nat) : Nat :=
  if part = 2 then v % 2 ^ 32 + x % 256 * 2 ^ 32
  else v - v / 2 ^ (16 * part) % 65536 * 2 ^ (16 * part) + x * 2 ^ (16 * part)

/-- SATA: the signed 32-bit range. -/
def satAcc (v : Int) : Int := max (-2147483648) (min 2147483647 v)

/-- The CP1 words. -/
def cp1 (s : State) (e : Nat) (g : Engine) : Long → Res
  | .clra a => seq (0, s.onEngine e fun h => setAcc h a 0)
  | .mul k add a i j =>
    let p := product k (g.ptr i.toNat) (g.ptr j.toNat)
    seq (0, s.onEngine e fun h =>
      setBusy (setAcc h a (if add then toSigned 40 (accOf h a) + p else p)) a)
  | .macm a i j => s.macm e g a i.toNat j.toNat
  | .sha a sh => seq (accBusy g a, s.onEngine e fun h =>
      setAcc h a (shiftAcc (toSigned 40 (accOf h a)) (toSigned 6 sh.toNat)))
  | .adda a m => seq (max (accBusy g a) (accBusy g m), s.onEngine e fun h =>
      setAcc h a (toSigned 40 (accOf h a) + toSigned 40 (accOf h m)))
  | .sata a =>
    let v := toSigned 40 (accOf g a)
    seq (accBusy g a, s.onEngine e fun h =>
      (setAcc h a (satAcc v)).setFlags 8 (8 * b2n (decide (satAcc v ≠ v))))
  | .rda a k part => seq (accBusy g a, s.onEngine e fun h =>
      h.setPtr k.toNat (accPart (accOf h a) part.toNat))
  | .wra a k part => seq (accBusy g a, s.onEngine e fun h =>
      setAcc h a (accWith (accOf h a) part.toNat (g.ptr k.toNat)))
  | _ => seq (0, s)

/-! ## CP2 (R362) -/

/-- One byte fed to the CRC unit. -/
def crcFeed (g : Engine) (b : Byte) : Engine :=
  { g with crc := if g.crc8 then Crypto.crc8Step g.crc b else Crypto.crcStep g.crc b }

/-- The final CRC value with its final XOR. -/
def crcFinal (g : Engine) : Nat := if g.crc8 then g.crc else g.crc ^^^ 0xFFFFFFFF

/-- `n` bytes of a bank loaded in order. -/
def loadBytes (s : State) (e bank off : Nat) : Nat → Ex (List Byte × State)
  | 0 => .ok ([], s)
  | n + 1 =>
    match s.load8 e bank (off % 65536) with
    | none => .error ⟨2, off % 65536, some bank⟩
    | some r =>
      if s.windowBad bank (off % 65536) then .error ⟨4, off % 65536, some bank⟩
      else (r.2.loadBytes e bank (off + 1) n).map fun t => (byte r.1 :: t.1, t.2)

/-- CRCM: 1 + ceil(n / 8) cycles, and through BANK the bank's cost less 1 for each 8 bytes. -/
def crcm (s : State) (e : Nat) (g : Engine) (loc : Bool) (k n : Nat) : Res :=
  let a := g.ptrInc k
  let bank := if loc then 0 else g.bank
  Res.of (s.loadBytes e bank a n) fun r =>
    let c := if loc then (0, r.2) else r.2.accessCost e bank g.lastBank
    let s := c.2.onEngine e fun h => r.1.foldl crcFeed h
    seq (0, s.updatePtr e k (a + n)) (1 + words8 n + words8 n * c.1)

/-- The 8 bytes at an aligned address of bank 0x00 as a word, and `n` bytes after them. -/
def eccWord (s : State) (e a n : Nat) (f : BitVec 64 → List Byte → Res) : Res :=
  aligned8 a <| Res.of (s.localRead e a (8 + n)) fun b => f (BitVec.ofNat 64 (ofBytes (b.take 8))) (b.drop 8)

/-- Ones in a byte. -/
def weight (b : Byte) : Nat := ((List.range 8).filter fun i => b.getLsbD i).length

/-- `n` columns taken from `c`, each the one that a free choice names among those left. -/
def eccTake : Nat → List Byte → List Byte
  | 0, _ => []
  | n + 1, c =>
    match (c.drop (Config.eccPick n % c.length)).head? with
    | some x => x :: eccTake n (c.erase x)
    | none => []

/-- The check matrix: 64 different columns of odd weight above 1, with which every single-bit error has a syndrome
of its own and no double-bit error has one of them (R6; log entry 3). -/
def eccColumns : List Byte :=
  eccTake 64 (((List.range 256).map byte).filter fun b => weight b % 2 == 1 && weight b != 1)

/-- The 8 check bits of a word (R6). -/
def eccCheck (w : BitVec 64) : Byte :=
  (eccColumns.zipIdx).foldl (fun a e => if w.getLsbD e.2 then a ^^^ e.1 else a) 0

/-- What the code makes of a word and a check byte that disagree: the word with its one wrong bit put right, the
word itself where the wrong bit is a check bit, and none where the error is no single bit (R6). -/
def eccCorrect (w : BitVec 64) (got : Byte) : Option (BitVec 64) :=
  let syn := eccCheck w ^^^ got
  if weight syn = 1 then some w
  else match eccColumns.findIdx? (· == syn) with
    | some i => some (w ^^^ BitVec.ofNat 64 (2 ^ i))
    | none => none

/-- ECCC: clean, corrected in place, or uncorrectable. -/
def eccc (s : State) (e a r : Nat) : Res :=
  s.eccWord e a 1 fun w c =>
    let put := fun (s : State) (v : Nat) => s.onEngine e fun h => h.setReg r v
    let got := c.getD 0 0
    if eccCheck w = got then seq (0, put s 0) 3
    else match eccCorrect w got with
      | none => seq (0, put s 2) 3
      | some x => Res.of (s.localWrite e a (toBytes 8 x.toNat ++ [eccCheck x])) fun s =>
          seq (0, put s 1) 3

/-- The CP2 words. -/
def cp2 (s : State) (e : Nat) (g : Engine) : Long → Res
  | .crci mode => seq (0, s.onEngine e fun h => { h with crc8 := mode, crc := if mode then 0 else 0xFFFFFFFF })
  | .crcb r => seq (0, s.onEngine e fun h => crcFeed h (byte (g.reg r.toNat)))
  | .crcm loc k n => s.crcm e g loc k.toNat n.toNat
  | .crcr k half => seq (0, s.onEngine e fun h => h.setPtr k.toNat
      (if half && !h.crc8 then crcFinal h / 65536 else crcFinal h % 65536))
  | .eccg r k => s.eccWord e (g.ptr k.toNat) 0 fun w _ =>
      seq (0, s.onEngine e fun h => h.setReg r.toNat (eccCheck w).toNat) 2
  | .eccc r k => s.eccc e (g.ptr k.toNat) r.toNat
  | _ => seq (0, s)

/-- A long operation. -/
def longWord (s : State) (e : Nat) (g : Engine) : Long → Res
  | .ldi r v => seq (0, s.onEngine e fun h => h.setReg r.toNat v.toNat)
  | .imm op r v => seq (0, s.writeOut e (Long.imm op r v).dest (immOut op (g.reg r.toNat) v.toNat) true)
  | .bank v => seq (0, s.onEngine e fun h => { h with bank := v.toNat })
  | .ldip k v => seq (0, s.onEngine e fun h => h.setPtr k.toNat v.toNat)
  | .paddi k v =>
    let r := (g.ptr k.toNat + v.toNat) % 65536
    seq (0, (s.onEngine e fun h => h.setPtr k.toNat r).writeFlags e ⟨r, 2, 2 * b2n (decide (r = 0))⟩ true)
  | .pcmpi k v => seq (0, s.writeFlags e (subFlags 16 (g.ptr k.toNat) v.toNat 0) true)
  | .pcpy k j => seq (0, s.onEngine e fun h => h.setPtr k.toNat (g.ptr j.toNat))
  | .ld r a => s.longLoad e g a false fun s v => s.loadInto e g r.toNat v
  | .st r a => s.longStore e g a false (g.reg r.toNat)
  | .ldw r a => s.longLoad e g a true fun s v => s.onEngine e fun h => h.later (136 + r.toNat) v false
  | .stw r a => s.longStore e g a true (g.ptr r.toNat)
  | .br cond t => if condTrue cond.toNat g.psw then goTo s e t.toNat 2 else seq (0, s)
  | .call t => s.call e t.toNat
  | .jmpp k => goTo s e (g.ptr k.toNat) 2
  | .callp k => s.call e (g.ptr k.toNat)
  | .loop (.imm n) last => s.loop e g n.toNat last.toNat
  | .loop (.ptr k) last => s.loop e g (g.ptr k.toNat) last.toNat
  | .rep _ => seq (0, s)
  | .movs k r => seq (0, s.onEngine e fun h => h.setPtr k.toNat (s.sregGet e r.toNat))
  | .movts k r => seq (0, s.onEngine e fun h => sregSet h e r.toNat (g.ptr k.toNat))
  | .clra a => s.cp1 e g (.clra a)
  | .mul k add a i j => s.cp1 e g (.mul k add a i j)
  | .macm a i j => s.cp1 e g (.macm a i j)
  | .sha a sh => s.cp1 e g (.sha a sh)
  | .adda a m => s.cp1 e g (.adda a m)
  | .sata a => s.cp1 e g (.sata a)
  | .rda a k part => s.cp1 e g (.rda a k part)
  | .wra a k part => s.cp1 e g (.wra a k part)
  | .crci mode => s.cp2 e g (.crci mode)
  | .crcb r => s.cp2 e g (.crcb r)
  | .crcm loc k n => s.cp2 e g (.crcm loc k n)
  | .crcr k half => s.cp2 e g (.crcr k half)
  | .eccg r k => s.cp2 e g (.eccg r k)
  | .eccc r k => s.cp2 e g (.eccc r k)
  | w => s.cp0 e g w

/-- One word executed on engine `e` (R354, `execute`). -/
def runWord (s : State) (e : Nat) (w : IWord) : Res :=
  let g := s.engine e
  let s := s.onEngine e fun h => { h with delay := [], loaded := w.loads, lastBank := none, stepped := true }
  let raw := encodeWord w % 65536
  if !w.legal e g.bank then .trap ⟨1, raw, none⟩
  else match w with
    | .pair a b => s.pairWord e g a b raw
    | .long l => s.longWord e g l
    | .illegal _ => .trap ⟨1, raw, none⟩

/-! ## Issue (R354) -/

/-- The end of a word: the values of the word before land, and its cycles count. An engine that a reset
has taken meanwhile keeps its reset state. -/
def retire (s : State) (e cost : Nat) (d : List (Nat × Nat × Bool)) : State :=
  s.when (decide ((s.engine e).run ≠ .held)) fun s => (s.onEngine e fun g => g.land d).spend e cost

/-- Execution goes on behind the word at `a` unless it has transferred control. -/
def finishWord (s : State) (e a : Nat) (taken : Bool) : State :=
  s.when (!taken && decide ((s.engine e).run = .running)) fun s => s.onEngine e fun g => g.finish a

/-- A trap of the word at `a`: nothing of the word stands, and the values of the word before it land. -/
def trapWord (s : State) (e a : Nat) (t : Trap) : State :=
  (s.onEngine e fun g => { g with delay := [] }.land g.delay).takeTrap e a t

/-- The trap of a word that cannot complete; an uncorrectable flash word that it met is recorded (R413). -/
def wordTraps (s : State) (e a : Nat) (t : Trap) : State :=
  let s := match t.bank with
    | some b => s.when (decide (t.cause = 4 ∧ 0x40 ≤ b ∧ b ≤ 0x7F)) fun s =>
        s.flashReader (s.windowAddr b t.val) 1 id id
    | none => s
  s.trapWord e a t

/-- A word of the address `a` brought to its end. -/
def settle (s : State) (e a : Nat) : Res → State
  | .done t taken cost => (t.retire e cost (s.engine e).delay).finishWord e a taken
  | .brk t cost => (t.retire e cost (s.engine e).delay).takeTrap e (a + 1) ⟨8, 0, none⟩
  | .trap t => s.wordTraps e a t

/-- The weir source "repeat conflict" (R350). -/
def repConflict (s : State) (e : Nat) : State := s.engineSource e 23 40

/-- The repetitions of the word `v` at `a`, `n` of them left (R349). -/
def repeatWord (s : State) (e a : Nat) (v : IWord) : Nat → State
  | 0 => (s.onEngine e fun g => { g with rc := 0 }).finishWord e a false
  | n + 1 =>
    let s := s.onEngine e fun g => { g with rc := n + 1 }
    match s.runWord e v with
    | .done t _ cost =>
      let t := t.retire e cost (s.engine e).delay
      if (t.engine e).run = .running then t.repeatWord e a v n else t
    | .brk t cost => (t.retire e cost (s.engine e).delay).takeTrap e (a + 1) ⟨8, 0, none⟩
    | .trap t => s.wordTraps e a t

/-- The number of repetitions. -/
def repCount (g : Engine) : RepCount → Nat
  | .imm n => if n.toNat = 0 then 256 else n.toNat
  | .reg r => g.reg r.toNat

/-- REP at the pc with the word `v` after it (R349, R350, R354). -/
def issueRep (s : State) (e : Nat) (n : RepCount) (v : IWord) : State :=
  let g := s.engine e
  let a := g.pc + 1
  let s1 := s.onEngine e fun h => { h with delay := [], loaded := false, lastBank := none, stepped := true }
  let s1 := s1.retire e 1 g.delay
  if !(Long.rep n).legal e then s.trapWord e g.pc ⟨1, encodeWord (.long (.rep n)) % 65536, none⟩
  else if (g.loopTop.map (·.le)) = some g.pc then (s1.finishWord e g.pc false).repConflict e
  else if bankWords e ≤ a then s1.takeTrap e a ⟨2, a % 65536, some 0xFF⟩
  else
    let s1 := s1.onEngine e fun h => { h with pc := a }
    if v.writesLoop || v.transfers then s1.repConflict e
    else s1.repeatWord e a v (repCount g n)

/-- The engine issues the word `w`, which stands at its pc: an interrupt that is due is taken first, and
the word is then the handler's. An engine that is held, waiting or stopped issues nothing. -/
def atIssue (s : State) (e : Nat) (f : State → State) : State :=
  let s := s.takeIrq e
  let g := s.engine e
  if g.run ≠ .running then s
  else if bankWords e ≤ g.pc then s.trapWord e g.pc ⟨2, g.pc % 65536, some 0xFF⟩
  else f s

/-- One word issued (R354). -/
def issue (s : State) (e : Nat) (w : IWord) : State :=
  s.atIssue e fun s => s.settle e (s.engine e).pc (s.runWord e w)

end State
end Sys2Proof.Machine
end

