-- ==== Sys2Proof/Machine/Isa.lean ====
section
/-!
DEFINITION. The meanings of the Swesil-8 rows: engine `e` issues the word that the row's operands spell
(R354). The command carries the word, and the instruction bank is not consulted (log entry 20).
-/
namespace Sys2Proof.Machine

open State

/-- NOP (R355). -/
def execNop (e : Eng) (at_ : Slot) (s : State) : Out :=
  .next (s.issue e (slotWord at_ .nop))

/-- MOV dst, src (R355). -/
def execMov (e : Eng) (at_ : Slot) (dst src : BitVec 5) (s : State) : Out :=
  .next (s.issue e (slotWord at_ (.alu .mov dst src)))

/-- ADD dst, src (R355). -/
def execAdd (e : Eng) (at_ : Slot) (dst src : BitVec 5) (s : State) : Out :=
  .next (s.issue e (slotWord at_ (.alu .add dst src)))

/-- ADC dst, src (R355). -/
def execAdc (e : Eng) (at_ : Slot) (dst src : BitVec 5) (s : State) : Out :=
  .next (s.issue e (slotWord at_ (.alu .adc dst src)))

/-- SUB dst, src (R355). -/
def execSub (e : Eng) (at_ : Slot) (dst src : BitVec 5) (s : State) : Out :=
  .next (s.issue e (slotWord at_ (.alu .sub dst src)))

/-- SBC dst, src (R355). -/
def execSbc (e : Eng) (at_ : Slot) (dst src : BitVec 5) (s : State) : Out :=
  .next (s.issue e (slotWord at_ (.alu .sbc dst src)))

/-- AND dst, src (R355). -/
def execAnd (e : Eng) (at_ : Slot) (dst src : BitVec 5) (s : State) : Out :=
  .next (s.issue e (slotWord at_ (.alu .and_ dst src)))

/-- OR dst, src (R355). -/
def execOr (e : Eng) (at_ : Slot) (dst src : BitVec 5) (s : State) : Out :=
  .next (s.issue e (slotWord at_ (.alu .or_ dst src)))

/-- XOR dst, src (R355). -/
def execXor (e : Eng) (at_ : Slot) (dst src : BitVec 5) (s : State) : Out :=
  .next (s.issue e (slotWord at_ (.alu .xor_ dst src)))

/-- CMP a, b (R355). -/
def execCmp (e : Eng) (at_ : Slot) (a b : BitVec 5) (s : State) : Out :=
  .next (s.issue e (slotWord at_ (.alu .cmp a b)))

/-- TST a, b (R355). -/
def execTst (e : Eng) (at_ : Slot) (a b : BitVec 5) (s : State) : Out :=
  .next (s.issue e (slotWord at_ (.alu .tst a b)))

/-- MOVI dst, #u5 (R355). -/
def execMovi (e : Eng) (at_ : Slot) (dst u : BitVec 5) (s : State) : Out :=
  .next (s.issue e (slotWord at_ (.movi dst u)))

/-- ADDI in its short and long forms (R355, R358). -/
def execAddi (e : Eng) (reg : BitVec 5) (v : Imm) (s : State) : Out :=
  .next (s.issue e (match v with
    | .short at_ u => slotWord at_ (.addi reg u)
    | .long w => .long (.imm .addi reg w)))

/-- CMPI in its short and long forms (R355, R358). -/
def execCmpi (e : Eng) (reg : BitVec 5) (v : Imm) (s : State) : Out :=
  .next (s.issue e (match v with
    | .short at_ u => slotWord at_ (.cmpi reg u)
    | .long w => .long (.imm .cmpi reg w)))

/-- SHL dst (R355). -/
def execShl (e : Eng) (at_ : Slot) (dst : BitVec 5) (s : State) : Out :=
  .next (s.issue e (slotWord at_ (.unary .shl dst)))

/-- SHR dst (R355). -/
def execShr (e : Eng) (at_ : Slot) (dst : BitVec 5) (s : State) : Out :=
  .next (s.issue e (slotWord at_ (.unary .shr dst)))

/-- ASR dst (R355). -/
def execAsr (e : Eng) (at_ : Slot) (dst : BitVec 5) (s : State) : Out :=
  .next (s.issue e (slotWord at_ (.unary .asr dst)))

/-- ROL dst (R355). -/
def execRol (e : Eng) (at_ : Slot) (dst : BitVec 5) (s : State) : Out :=
  .next (s.issue e (slotWord at_ (.unary .rol dst)))

/-- ROR dst (R355). -/
def execRor (e : Eng) (at_ : Slot) (dst : BitVec 5) (s : State) : Out :=
  .next (s.issue e (slotWord at_ (.unary .ror dst)))

/-- RLC dst (R355). -/
def execRlc (e : Eng) (at_ : Slot) (dst : BitVec 5) (s : State) : Out :=
  .next (s.issue e (slotWord at_ (.unary .rlc dst)))

/-- RRC dst (R355). -/
def execRrc (e : Eng) (at_ : Slot) (dst : BitVec 5) (s : State) : Out :=
  .next (s.issue e (slotWord at_ (.unary .rrc dst)))

/-- NOT dst (R355). -/
def execNot (e : Eng) (at_ : Slot) (dst : BitVec 5) (s : State) : Out :=
  .next (s.issue e (slotWord at_ (.unary .not_ dst)))

/-- NEG dst (R355). -/
def execNeg (e : Eng) (at_ : Slot) (dst : BitVec 5) (s : State) : Out :=
  .next (s.issue e (slotWord at_ (.unary .neg dst)))

/-- INC dst (R355). -/
def execInc (e : Eng) (at_ : Slot) (dst : BitVec 5) (s : State) : Out :=
  .next (s.issue e (slotWord at_ (.unary .inc dst)))

/-- DEC dst (R355). -/
def execDec (e : Eng) (at_ : Slot) (dst : BitVec 5) (s : State) : Out :=
  .next (s.issue e (slotWord at_ (.unary .dec dst)))

/-- SWAPN dst (R355). -/
def execSwapn (e : Eng) (at_ : Slot) (dst : BitVec 5) (s : State) : Out :=
  .next (s.issue e (slotWord at_ (.unary .swapn dst)))

/-- CLR dst (R355). -/
def execClr (e : Eng) (at_ : Slot) (dst : BitVec 5) (s : State) : Out :=
  .next (s.issue e (slotWord at_ (.unary .clr dst)))

/-- BSET dst, #bit (R355). -/
def execBset (e : Eng) (at_ : Slot) (dst : BitVec 5) (n : BitVec 3) (s : State) : Out :=
  .next (s.issue e (slotWord at_ (.bits .bset dst n)))

/-- BCLR dst, #bit (R355). -/
def execBclr (e : Eng) (at_ : Slot) (dst : BitVec 5) (n : BitVec 3) (s : State) : Out :=
  .next (s.issue e (slotWord at_ (.bits .bclr dst n)))

/-- BTST dst, #bit (R355). -/
def execBtst (e : Eng) (at_ : Slot) (dst : BitVec 5) (n : BitVec 3) (s : State) : Out :=
  .next (s.issue e (slotWord at_ (.bits .btst dst n)))

/-- BTGL dst, #bit (R355). -/
def execBtgl (e : Eng) (at_ : Slot) (dst : BitVec 5) (n : BitVec 3) (s : State) : Out :=
  .next (s.issue e (slotWord at_ (.bits .btgl dst n)))

/-- LD in its short form and in layouts L3 and L4 (R339, R341, R355, R358). -/
def execLd (e : Eng) (reg : BitVec 5) (a : Addr) (s : State) : Out :=
  .next (s.issue e (match a with
    | .short at_ loc post k => slotWord at_ (.ld reg loc post k)
    | .long l => .long (.ld reg l)))

/-- ST in its short form and in layouts L3 and L4 (R339, R341, R355, R358). -/
def execSt (e : Eng) (reg : BitVec 5) (a : Addr) (s : State) : Out :=
  .next (s.issue e (match a with
    | .short at_ loc post k => slotWord at_ (.st reg loc post k)
    | .long l => .long (.st reg l)))

/-- LDW (R339, R358). -/
def execLdw (e : Eng) (reg : BitVec 5) (a : LAddr) (s : State) : Out :=
  .next (s.issue e (.long (.ldw reg a)))

/-- STW (R339, R358). -/
def execStw (e : Eng) (reg : BitVec 5) (a : LAddr) (s : State) : Out :=
  .next (s.issue e (.long (.stw reg a)))

/-- PADD pk, src (R355). -/
def execPadd (e : Eng) (at_ : Slot) (k : BitVec 3) (src : BitVec 5) (s : State) : Out :=
  .next (s.issue e (slotWord at_ (.padd false k src)))

/-- PSUB pk, src (R355). -/
def execPsub (e : Eng) (at_ : Slot) (k : BitVec 3) (src : BitVec 5) (s : State) : Out :=
  .next (s.issue e (slotWord at_ (.padd true k src)))

/-- MOVP between a register and a byte of pk (R355). -/
def execMovp (e : Eng) (at_ : Slot) (reg : BitVec 5) (toPtr : Bool) (k : BitVec 3) (high : Bool) (s : State) : Out :=
  .next (s.issue e (slotWord at_ (.movp reg toPtr k high)))

/-- BR in its short and long forms (R355, R356, R358). -/
def execBr (e : Eng) (b : Br) (s : State) : Out :=
  .next (s.issue e (match b with
    | .short at_ cond off => slotWord at_ (.br cond off)
    | .long cond t => .long (.br cond t)))

/-- WTICK (R357). -/
def execWtick (e : Eng) (at_ : Slot) (s : State) : Out :=
  .next (s.issue e (slotWord at_ (.sys .wtick)))

/-- RET (R344 to R346). -/
def execRet (e : Eng) (at_ : Slot) (s : State) : Out :=
  .next (s.issue e (slotWord at_ (.sys .ret)))

/-- RETI (R353). -/
def execReti (e : Eng) (at_ : Slot) (s : State) : Out :=
  .next (s.issue e (slotWord at_ (.sys .reti)))

/-- EI (R355). -/
def execEi (e : Eng) (at_ : Slot) (s : State) : Out :=
  .next (s.issue e (slotWord at_ (.sys .ei)))

/-- DI (R355). -/
def execDi (e : Eng) (at_ : Slot) (s : State) : Out :=
  .next (s.issue e (slotWord at_ (.sys .di)))

/-- LPOP (R347). -/
def execLpop (e : Eng) (at_ : Slot) (s : State) : Out :=
  .next (s.issue e (slotWord at_ (.sys .lpop)))

/-- BRK (R352). -/
def execBrk (e : Eng) (at_ : Slot) (s : State) : Out :=
  .next (s.issue e (slotWord at_ (.sys .brk)))

/-- LDI reg, #imm8 (R358). -/
def execLdi (e : Eng) (reg : BitVec 5) (v : Byte) (s : State) : Out :=
  .next (s.issue e (.long (.ldi reg v)))

/-- SUBI reg, #imm8 (R358). -/
def execSubi (e : Eng) (reg : BitVec 5) (v : Byte) (s : State) : Out :=
  .next (s.issue e (.long (.imm .subi reg v)))

/-- ANDI reg, #imm8 (R358). -/
def execAndi (e : Eng) (reg : BitVec 5) (v : Byte) (s : State) : Out :=
  .next (s.issue e (.long (.imm .andi reg v)))

/-- ORI reg, #imm8 (R358). -/
def execOri (e : Eng) (reg : BitVec 5) (v : Byte) (s : State) : Out :=
  .next (s.issue e (.long (.imm .ori reg v)))

/-- XORI reg, #imm8 (R358). -/
def execXori (e : Eng) (reg : BitVec 5) (v : Byte) (s : State) : Out :=
  .next (s.issue e (.long (.imm .xori reg v)))

/-- BANK #imm8 (R358). -/
def execBank (e : Eng) (v : Byte) (s : State) : Out :=
  .next (s.issue e (.long (.bank v)))

/-- LDIP pk, #imm16 (R358). -/
def execLdip (e : Eng) (k : BitVec 3) (v : BitVec 16) (s : State) : Out :=
  .next (s.issue e (.long (.ldip k v)))

/-- PADDI pk, #imm16 (R358). -/
def execPaddi (e : Eng) (k : BitVec 3) (v : BitVec 16) (s : State) : Out :=
  .next (s.issue e (.long (.paddi k v)))

/-- PCMPI pk, #imm16 (R358). -/
def execPcmpi (e : Eng) (k : BitVec 3) (v : BitVec 16) (s : State) : Out :=
  .next (s.issue e (.long (.pcmpi k v)))

/-- PCPY pk, pj (R358). -/
def execPcpy (e : Eng) (k j : BitVec 3) (s : State) : Out :=
  .next (s.issue e (.long (.pcpy k j)))

/-- CALL target (R344). -/
def execCall (e : Eng) (target : BitVec 15) (s : State) : Out :=
  .next (s.issue e (.long (.call target)))

/-- JMPP pk (R358). -/
def execJmpp (e : Eng) (k : BitVec 3) (s : State) : Out :=
  .next (s.issue e (.long (.jmpp k)))

/-- CALLP pk (R344). -/
def execCallp (e : Eng) (k : BitVec 3) (s : State) : Out :=
  .next (s.issue e (.long (.callp k)))

/-- LOOP with its count and END (R347). -/
def execLoop (e : Eng) (n : LoopCount) (last : BitVec 12) (s : State) : Out :=
  .next (s.issue e (.long (.loop n last)))

/-- REP before the prefixed word, which is issued with it (R349, R350). -/
def execRep (e : Eng) (n : RepCount) (word : BitVec 32) (s : State) : Out :=
  .next (s.atIssue e fun s => s.issueRep e n (decodeWord word))

/-- MOVS pk, sreg (R337). -/
def execMovs (e : Eng) (k : BitVec 3) (sreg : BitVec 6) (s : State) : Out :=
  .next (s.issue e (.long (.movs k sreg)))

/-- MOVTS sreg, pk (R337). -/
def execMovts (e : Eng) (k : BitVec 3) (sreg : BitVec 6) (s : State) : Out :=
  .next (s.issue e (.long (.movts k sreg)))

/-- RXPOP pk, reg (R360). -/
def execRxpop (e : Eng) (k : BitVec 3) (reg : BitVec 5) (s : State) : Out :=
  .next (s.issue e (.long (.rxpop k reg)))

/-- TXLOAD pk (R360). -/
def execTxload (e : Eng) (k : BitVec 3) (s : State) : Out :=
  .next (s.issue e (.long (.txload k)))

/-- TXGO #q (R360). -/
def execTxgo (e : Eng) (sel : BitVec 2) (s : State) : Out :=
  .next (s.issue e (.long (.txgo sel)))

/-- TXSTAT reg (R360). -/
def execTxstat (e : Eng) (reg : BitVec 5) (s : State) : Out :=
  .next (s.issue e (.long (.txstat reg)))

/-- ORDSET #kind (R133, R360). -/
def execOrdset (e : Eng) (sel : BitVec 2) (s : State) : Out :=
  .next (s.issue e (.long (.ordset sel)))

/-- TSTART #k (R143, R360). -/
def execTstart (e : Eng) (k : BitVec 5) (s : State) : Out :=
  .next (s.issue e (.long (.tstart k)))

/-- TSTOP #k (R143, R360). -/
def execTstop (e : Eng) (k : BitVec 5) (s : State) : Out :=
  .next (s.issue e (.long (.tstop k)))

/-- TREAD pk, reg, #k (R360). -/
def execTread (e : Eng) (p : BitVec 3) (reg k : BitVec 5) (s : State) : Out :=
  .next (s.issue e (.long (.tread p reg k)))

/-- IDRST #sop (R360). -/
def execIdrst (e : Eng) (sel : BitVec 2) (s : State) : Out :=
  .next (s.issue e (.long (.idrst sel)))

/-- FRSTX (R134, R360). -/
def execFrstx (e : Eng) (s : State) : Out :=
  .next (s.issue e (.long .frstx))

/-- CLRA An (R361). -/
def execClra (e : Eng) (acc : Bool) (s : State) : Out :=
  .next (s.issue e (.long (.clra acc)))

/-- MUL An, pi, pj (R361). -/
def execMul (e : Eng) (acc : Bool) (i j : BitVec 3) (s : State) : Out :=
  .next (s.issue e (.long (.mul .ss false acc i j)))

/-- MULU An, pi, pj (R361). -/
def execMulu (e : Eng) (acc : Bool) (i j : BitVec 3) (s : State) : Out :=
  .next (s.issue e (.long (.mul .uu false acc i j)))

/-- MULSU An, pi, pj (R361). -/
def execMulsu (e : Eng) (acc : Bool) (i j : BitVec 3) (s : State) : Out :=
  .next (s.issue e (.long (.mul .su false acc i j)))

/-- MAC An, pi, pj (R361). -/
def execMac (e : Eng) (acc : Bool) (i j : BitVec 3) (s : State) : Out :=
  .next (s.issue e (.long (.mul .ss true acc i j)))

/-- MACU An, pi, pj (R361). -/
def execMacu (e : Eng) (acc : Bool) (i j : BitVec 3) (s : State) : Out :=
  .next (s.issue e (.long (.mul .uu true acc i j)))

/-- MACSU An, pi, pj (R361). -/
def execMacsu (e : Eng) (acc : Bool) (i j : BitVec 3) (s : State) : Out :=
  .next (s.issue e (.long (.mul .su true acc i j)))

/-- MACM An, (pi)+, (pj)+ (R361). -/
def execMacm (e : Eng) (acc : Bool) (i j : BitVec 3) (s : State) : Out :=
  .next (s.issue e (.long (.macm acc i j)))

/-- SHA An, #sh (R361). -/
def execSha (e : Eng) (acc : Bool) (sh : BitVec 6) (s : State) : Out :=
  .next (s.issue e (.long (.sha acc sh)))

/-- ADDA An, Am (R361). -/
def execAdda (e : Eng) (acc src : Bool) (s : State) : Out :=
  .next (s.issue e (.long (.adda acc src)))

/-- SATA An (R361). -/
def execSata (e : Eng) (acc : Bool) (s : State) : Out :=
  .next (s.issue e (.long (.sata acc)))

/-- RDA pk, An, #part (R361). -/
def execRda (e : Eng) (acc : Bool) (k : BitVec 3) (part : BitVec 2) (s : State) : Out :=
  .next (s.issue e (.long (.rda acc k part)))

/-- WRA An, pk, #part (R361). -/
def execWra (e : Eng) (acc : Bool) (k : BitVec 3) (part : BitVec 2) (s : State) : Out :=
  .next (s.issue e (.long (.wra acc k part)))

/-- CRCI #mode (R362). -/
def execCrci (e : Eng) (mode : Bool) (s : State) : Out :=
  .next (s.issue e (.long (.crci mode)))

/-- CRCB reg (R362). -/
def execCrcb (e : Eng) (reg : BitVec 5) (s : State) : Out :=
  .next (s.issue e (.long (.crcb reg)))

/-- CRCM (pk)+, #n (R362). -/
def execCrcm (e : Eng) (loc : Bool) (k : BitVec 3) (n : BitVec 12) (s : State) : Out :=
  .next (s.issue e (.long (.crcm loc k n)))

/-- CRCR pk, #half (R362). -/
def execCrcr (e : Eng) (k : BitVec 3) (half : Bool) (s : State) : Out :=
  .next (s.issue e (.long (.crcr k half)))

/-- ECCG reg, (pk) (R362). -/
def execEccg (e : Eng) (reg : BitVec 5) (k : BitVec 3) (s : State) : Out :=
  .next (s.issue e (.long (.eccg reg k)))

/-- ECCC reg, (pk) (R362). -/
def execEccc (e : Eng) (reg : BitVec 5) (k : BitVec 3) (s : State) : Out :=
  .next (s.issue e (.long (.eccc reg k)))

end Sys2Proof.Machine
end

