-- ==== Sys2Proof/Machine/TickEdge.lean ====
section
/-!
DEFINITION. The tick edge (R40): counters and snapshots, the engines and their watchdogs, each port's
attach block, power path, mux and engine services, and the unit's pair, link and presence. TICK_EDGE is
the one command of the table that moves time.
-/
namespace Sys2Proof.Machine
namespace State

/-! ## Counters (R470 to R475) -/

/-- Bits of a 17-bit mask that are 1. -/
def ones (v : Nat) : Nat := ((List.range 17).filter fun i => bit v i).length

/-- The condition of an L code holds on port `p` now (R476). -/
def levelNow (s : State) (code p : Nat) : Bool :=
  if code = 0x04 then s.fon PRT_ATTST.VCONN p
  else if code = 0x21 then s.fon PRT_PWRST.PG p
  else if code = 0x22 then s.fon PRT_PWRST.LIMIT p
  else decide (0x30 ≤ code ∧ code ≤ 0x38) && bit (s.fget PRT_CMPNOW.OUT p) (code - 0x30)

/-- The ports on which counter `k`'s condition holds now. -/
def levelPorts (s : State) (k : Nat) : Nat :=
  let code := s.eget (CNT_CFG.EVENT k)
  ((List.range 16).filter fun p => s.levelNow code p).foldl (fun a p => a + 2 ^ p) 0

/-- Counter `k` counts levels. -/
def levelOn (s : State) (k : Nat) : Bool :=
  decide (s.eget (CNT_CFG.EN k) = 1 ∧ s.eget (CNT_CFG.LEVEL k) = 1)

/-- The level counters add the ports that qualified in the tick that ends (R472). -/
def countLevels (s : State) : State :=
  s.forEach (List.range 32) fun k s =>
    s.when (s.levelOn k) fun s =>
      let mask := s.eget (CNT_CFG.PMASK k)
      let q := (s.cnts.get {} k).qual ||| s.levelPorts k
      s.cntAdd k (if mask = 0 then min 1 q else ones (q &&& mask))

/-- Snapshots, then clears, then the ports that qualify from the first cycle of the new tick (R470, R472,
R474, R475). -/
def countersEdge (s : State) : State :=
  let period := s.eget CNT_SNAPCFG.PERIOD
  let snap := decide (period ≠ 0) && decide (s.tick % period = 0)
  let s := s.when snap fun s => (s.fset CNT_SNAPTICK.EDGE 0 s.tick).forEach (List.range 32) fun k s =>
    s.when (decide (s.eget (CNT_CFG.SNAP k) = 1) && !(s.cnts.get {} k).fresh) fun s =>
      let n := s.fget (CNT_VAL.COUNT k)
      let s := s.fset (CNT_SNAP.SNAP k) 0 n
      s.when (decide (s.eget CNT_SNAPCFG.LOG = 1)) fun s =>
        s.logRec 0x0F k (toBytes 6 n ++ [byte (s.eget (CNT_CFG.EVENT k)), byte (s.rget (CNT_CFG.reg k) % 256)] ++
          toBytes 2 (s.eget (CNT_CFG.PMASK k)))
  let clr := s.fget CNT_CTL.CLR
  let s := s.forEach (List.range 32) fun k s =>
    let fresh := (s.cnts.get {} k).fresh
    let s := s.when (fresh || bit clr k) fun s => s.fset (CNT_VAL.COUNT k) 0 0
    let s := s.when fresh fun s => s.fset (CNT_SNAP.SNAP k) 0 0
    let q := if s.levelOn k then s.levelPorts k else 0
    { s with cnts := s.cnts.put {} k { qual := q } }
  s.fset CNT_CTL.CLR 0 0

/-! ## Engines (R47, R48, R357, R376, R402, R414 to R419) -/

/-- Engine `e` has not ended its tick list by this edge (R48). -/
def overrun (s : State) (e : Nat) : State :=
  let s := if e < 16 then (s.fbit TICK_OVR.EN 0 e true).cntEvent 0x60 (some e)
    else (s.fset TICK_OVR.EH 0 1).cntEvent 0x68
  (s.onEngine e fun g => { g with latched := true }).engineSource e 20 36

/-- In Low Water the engine runs the tick that begins: its watchdog window is open (R419), or for a rill
engine a comparator changed or a CC level moved in the tick that ended (R34), or something woke it. -/
def wokenNow (s : State) (e : Nat) : Bool :=
  let w := s.wdg e
  let cc := match (s.att e).scan with
    | some (a, b, _, _) => a != s.cc1 e || b != s.cc2 e
    | none => false
  (s.engine e).latched || (w.begun && !s.fon WDG_ST.SUSP e && decide (w.openT ≤ s.fget WDG_ST.T e + 1)) ||
    (decide (e < 16) && (decide ((s.adc e).chg ≠ 0) || cc))

/-- Engine `e` may be released at this edge. -/
def releasable (s : State) (e : Nat) : Bool :=
  s.booted && !s.boot.loader && !(decide (e < 16) && s.fon WEIR_ST.USAFE)

/-- An engine that has ended its list starts the next one, or stays stopped (R34, R402). -/
def runOn (s : State) (e : Nat) (stay : Bool) : State :=
  s.onEngine e fun g => if stay then { g with run := .waiting } else { g with cyc := 0, stepped := false }

/-- EH's flash erase wait at an edge: its watchdog is suspended through it, for at most 62,500 ticks (R418). -/
def eraseWaitEdge (s : State) (wait : Bool) : State :=
  let erasing := match s.jobs with
    | j :: _ => (match j.op with
      | .erase _ _ => true
      | _ => false)
    | [] => false
  let n := if wait && erasing then (s.wdg 16).waited + 1 else 0
  if n = 0 ∧ (s.wdg 16).waited = 0 then s
  else (s.onWdg 16 fun w => { w with waited := min n 62501 }).fset WDG_ST.SUSP 16
    (b2n (decide (0 < n ∧ n ≤ 62500) || decide ((s.engine 16).swap = 3)))

/-- Engine `e` at an edge: an overrun, a release, or a first release after reset; its watchdog then
advances, but for the edge at which its code is exchanged. An engine that has issued a word of its list and no
WTICK has overrun; of one that issues none in the model the operand says whether its list has ended (R48; log
entry 107). -/
def engineEdge (s : State) (overrun : Nat) (e : Nat) : State :=
  let awake := !s.lowWater || s.wokenNow e
  let s := s.onEngine e fun g => { g with swapLeft := g.swapLeft - 1, awoke := g.awake, awake := awake }
  let g := s.engine e
  let stay := !s.releasable e || !awake
  let open_ := bit overrun e || g.stepped
  let late := decide (g.run = .running) && open_ && !(g.inWait && !g.latched)
  let s := s.onEngine e fun g => { g with behind := late }
  let used := if late then (if s.prof.cur = 2 then 1000 else 2000) else g.cyc
  let s := s.when (decide (g.run = .running ∨ g.run = .waiting)) fun s => s.onEngine e fun g =>
    { g with cycLast := min 65535 used, cycMost := max g.cycMost (min 65535 used) }
  let held := decide (g.swap = 1 ∨ g.swap = 2) && decide (g.swapLeft = 0) && exchangeable g
  let s := match g.run with
    | .running =>
      if late then s.overrun e
      else if open_ then s.onEngine e fun g => { g with latched := true, inWait := false }
      else
        let s := s.when g.fresh fun s => (s.wdgResume e).onEngine e fun g => { g with fresh := false }
        s.runOn e stay
    | .waiting =>
      if stay || held then s
      else (s.releaseWait e).onEngine e fun g => { g with latched := false }
    | .held =>
      s.when (s.releasable e && decide (g.swap ≠ 3)) fun s =>
        ((s.fset WDG_ST.SUSP e 0).onEngine e fun g => { g with run := .running, pc := 0, cyc := 16 }).when (decide (e < 16)) fun s =>
          s.onAdc e fun h => { h with ntc := none }
    | .stopped => s
  let s := s.when (decide (e < 16) && s.fon WEIR_ST.USAFE) fun s => s.fset WDG_ST.SUSP e 1
  if held then s else s.wdgEdge e (decide ((s.engine e).run = .running))

/-! ## Port hardware (R34 to R36, R108 to R119, R185 to R210, R237 to R250) -/

/-- What the results of the tick that ended show: the rail at its start (R218), VBUS in the window awaited
(R161, R162, R169, R179), and the mean current against a PPS contract's (R164). -/
def tickResults (s : State) (p : Nat) : State :=
  let h := s.sw p
  let sw := s.fget PRT_ROLE.SWAP p
  let step := s.fget PRT_ROLE.SWSTEP p
  let goal := h.goal.getD h.held
  let seen :=
    if (sw = 5 ∧ step = 4) ∨ (sw = 6 ∧ step = 2) then s.vbusIn p goal.lo goal.hi
    else if (sw = 1 ∧ s.fget PRT_ROLE.BASEPWR p = 0 ∧ step = 6) ∨ h.hrSeq = 4 then s.vbusIn p 475 550
    else false
  let rail := match (s.adc p).rail with
    | some c => codeIn c 475 550
    | none => false
  let mean := toSigned 12 (s.fget PRT_RIMEAN.CODE p) * 625000
  let cur : Int := (h.held.cur * s.fget PRT_PWRCFG.SHUNT p * 2048 : Nat)
  let pps := decide (h.held.typ = 3) && s.isSource p
  let s := s.onPwr p fun w => { w with
    railOk := if w.regStart.isSome && rail then w.railOk + 1 else 0 }
  let s := s.onSw p fun h => { h with
    okTicks := if seen then h.okTicks + 1 else 0
    ppsOver := if pps && decide (cur < mean) then min 16 (h.ppsOver + 1) else 0
    ppsUnder := if pps && decide (mean * 100 < cur * 95) then min 16 (h.ppsUnder + 1) else 0 }
  s.onAdc p fun h => { h with vb1 := none, vb5 := none, rail := none }

/-- The timers of swaps, transitions and mode holds counted down. -/
def swapCount (s : State) (p : Nat) : State :=
  let s := s.onSw p fun h => { h with
    srcTr := countDown h.srcTr, srcRdy := countDown h.srcRdy, newPwr := countDown h.newPwr,
    psOff := countDown h.psOff, psOn := countDown h.psOn, vconnTo := countDown h.vconnTo,
    vconnOn := countDown h.vconnOn, psHr := countDown h.psHr, srcRec := countDown h.srcRec,
    sinkHr := countDown h.sinkHr }
  s.onMux p fun m => { m with hold := m.hold.map fun h => { h with left := h.left - 1 } }

/-- PRT_MUX.STATE latched, and what forces the slot (R248, R250). -/
def muxLatch (s : State) (p : Nat) : State :=
  let forced := s.fon WEIR_PST.SAFE p || s.fon WEIR_ST.USAFE
  ((s.fset PRT_MUX.LATCHED p (s.fget PRT_MUX.STATE p)).fset PRT_MUX.FORCED p (b2n forced)).latch PRT_MUX.STATE p

/-- The held message judged from the levels copied at this edge (R124, R155). -/
def heldJudge (s : State) (p : Nat) : State :=
  let l := s.activeLvl p
  let head := ((s.pd p).engine ++ (s.pd p).hostq).head?
  let go := fun (s : State) => (s.fset PRT_PDST.HELD p 0).onPd p fun h => { h with heldFor := 0 }
  if s.fon PRT_PDST.HELD p then
    if !s.rev3Contract p 4 || head.isNone || (l != 2 && l != 7) then go s
    else s.onPd p fun h => { h with heldFor := h.heldFor + 1 }
  else match head with
    | some i => s.when (s.rpHolds p i && (s.pd p).cur.isNone) fun s => s.holdHead p
    | none => s

/-- The levels the port's owner mirrored (R126). -/
def mirroredLevels (s : State) (p : Nat) : Nat × Nat :=
  let w := s.recWord (inBuf p) 0
  (bits w 42 40, bits w 45 43)

/-- The hardware of port `p` at an edge: attach before power, then the counters and latches. -/
def portEdge (s : State) (i : EdgeIn) (p : Nat) : State :=
  let own := s.owns p
  let s := (s.fset PRT_CCSTAT.CCOV p (b2n (i.ccov.getLsbD p))).fset PRT_CMPMODE.ACTIVE p (s.cmpMode p)
  let c := ((s.copyCmp p).setDis p).copyScan p
  let s := (c.1.tickResults p).attCount p
  let s := if own then ((s.attachEdge p c.2).vconnEdge p).attShow p
    else s.when c.2 fun s => s.shadowCheck p (s.mirroredLevels p).1 (s.mirroredLevels p).2
  let s := s.rpEdge p
  let s := (s.powerCount p (i.gateOk.getLsbD p) (i.gateDip.getLsbD p)).powerGood p
  let s := (s.when own fun s => s.powerTransition p).startClean p
  let s := (s.onPwr p fun h => { h with fwdOk := false }).swapCount p
  let s := ((s.timCount p).muxLatch p).setDis p
  s.when own fun s => s.heldJudge p

/-! ## Engine services (R123, R144, R152, R160, R172, R212, R218, R252, R254) -/

/-- The rail has reached the vSafe5V window for 4 ticks: the port starts as source (R218). -/
def regStarted (s : State) (p : Nat) : State :=
  s.when (decide (4 ≤ (s.pwr p).railOk) && (s.pwr p).regStart.isSome) fun s =>
    ((s.onPwr p fun h => { h with regStart := none, railOk := 0 }).fset PRT_PWRCTL.REQ p 1).onPd p fun h =>
      { h with capsOwed := true }

/-- The cable is asked, and capabilities owed are sent once the port powers VBUS (R144, R152, R321). -/
def offerService (s : State) (p : Nat) : State :=
  if !(s.linkRuns p && s.isSource p && decide (s.pwrState p = 2) && decide (s.fget PRT_ROLE.SWAP p = 0) &&
      decide ((s.sw p).hrSeq = 0)) then s
  else if s.cableWanted p then s.discoverCable p
  else
    let asking := decide (s.eget PRT_PDCFG.CBLDISC p = 1) && s.vconnSource p && !s.fon PRT_PDST.CONTRACT p &&
      !s.fon PRT_PDCBL.VALID p && decide (s.fget PRT_PDCBL.ATTEMPTS p < 2)
    s.when ((s.pd p).capsOwed && !asking) fun s => (s.onPd p fun h => { h with capsOwed := false }).sendSourceCaps p

/-- Fast Role Swap is armed and disarmed, and FRSPRE follows the armed port's path (R160, R172, R219). -/
def frsService (s : State) (p : Nat) : State :=
  let h := s.sw p
  let want := decide (s.attState p = 4) && decide (s.eget PRT_SWCFG.FRSEN p = 1) && s.fon PRT_PDST.CONTRACT p &&
    decide (h.held.typ = 1 ∧ h.held.volt = 250) && (s.pd p).partnerDrp
  let armed := s.fon PRT_ROLE.FRSARM p
  let busy := decide (s.fget PRT_ROLE.SWAP p = 4) || (s.pd p).frsSeen
  let s :=
    if want && !armed then
      let s := (s.fset PRT_ROLE.FRSARM p 1).setUv p 475
      (s.voutCommand p (s.fget PRT_FRS.VPRE p)).operation p 0x80
    else if armed && !want && !busy then
      let s := s.fset PRT_ROLE.FRSARM p 0
      let s := s.setUv p (s.uvOf p h.held)
      s.when (!s.isSource p) fun s => s.operation p 0
    else s
  s.fset PRT_PWRCTL.FRSPRE p (b2n (s.fon PRT_ROLE.FRSARM p && decide (s.pwrState p = 2) && !s.fon PRT_PWRST.MODE p))

/-- An Enter Mode or Exit Mode of the host at the head of its queue: CFG 2, and the hold of the Enter
(R252, R254). -/
def modeService (s : State) (p : Nat) : State :=
  match (s.pd p).hostq with
  | i :: _ =>
    if !s.modeMsg i.msg || (s.mux p).hold.isSome || decide ((s.mux p).busy ≠ 0) then s
    else if vdmCmd (i.msg.obj 0) = 4 then
      if s.fon PRT_ROLE.DATA p then
        (((s.hostPop p).setMux p 2).onMux p fun m => { m with busy := 1, pos := vdmPos (i.msg.obj 0) }).muxHold
          p 1 (some i)
      else (s.hostPop p).finish i.cmd 0x22
    else (((s.hostPop p).setMux p 2).onMux p fun m => { m with busy := 2 }).onPd p fun h =>
      { h with engine := i :: h.engine }
  | [] => s

/-- As source under an explicit contract of Revision 3.1, SinkTxNG before a sequence and SinkTxOk after it
(R123). -/
def rpService (s : State) (p : Nat) : State :=
  let h := s.pd p
  let idle := h.engine.isEmpty && h.hostq.isEmpty && h.replies.isEmpty && h.cur.isNone && h.wait.isNone &&
    h.raise.isNone && decide (s.fget PRT_ROLE.SWAP p = 0)
  if !s.rev3Contract p 7 then s
  else if ((h.engine ++ h.hostq).head?.any amsStart) && s.fget PRT_CCCTL.RPSET p != 1 then
    (s.fset PRT_CCCTL.RPSET p 1).onAtt p fun a =>
      { a with sinkTx := some (msTicks (s.fget PRT_CCTIM2.TSINKTX p) + 1) }
  else s.when (idle && s.fget PRT_CCCTL.RPSET p != 2) fun s => s.fset PRT_CCCTL.RPSET p 2

/-- The engine of port `p` runs its tasks of group A in this tick (R50): in Ebb those of E0 to E7 run in
odd ticks and those of E8 to E15 in even ones, and the tasks of group B in the others. -/
def groupA (s : State) (p : Nat) : Bool := s.prof.cur != 2 || (s.tick + p / 8) % 2 == 1

/-- The engine of port `p` runs its tasks of group B in this tick. -/
def groupB (s : State) (p : Nat) : Bool := s.prof.cur != 2 || !s.groupA p

/-- Group A: attach supervision, comparator status and the weir's trips, and the mux (R50). -/
def serviceA (s : State) (p : Nat) : State :=
  let s := s.when (s.att p).news fun s => s.evAttach p
  let s := (s.tripService p).sinkRetry p
  (s.when (s.pwr p).news fun s => s.evPower p).modeService p

/-- Group B: the regulator (R50, R160, R218). -/
def serviceB (s : State) (p : Nat) : State :=
  (s.regStarted p).when (decide (s.fget PRT_ROLE.SWAP p = 5)) fun s => s.regPost p .statusWord

/-- What the engine of an owned port does in its tick list, where it runs one in this tick and not only the energy
step (R34, R48, R279, R402, R417). -/
def engineService (s : State) (p : Nat) : State :=
  s.when (s.listRuns p && !s.hoQuiet p) fun s =>
    let s := s.when (s.groupA p) fun s => s.serviceA p
    let s := s.when (s.groupB p) fun s => s.serviceB p
    (((s.offerService p).frsService p).rpService p)

/-! ## The unit and the pair -/

/-- References, converters, supplies and mailboxes at an edge (R231, R234, R242, R387, R394). -/
def deviceEdge (s : State) (i : EdgeIn) : State :=
  let s := s.fset DEV_REFST.DIV 0 (b2n (i.refDiv && s.fon DEV_REFST.DIV))
  let s := s.when (!i.refDiv) fun s => s.weirCond 16 0 false
  let s := s.when (!i.vdrvLow) fun s => s.weirCond 16 7 false
  let s := s.fset PAIR_ST.TWINPWR 0 (b2n i.pwrokIn)
  let idle := !s.fon DEV_EDDY.BUSY
  let s := { s with eddy := { s.eddy with
      okTicks := if idle && i.eddyOk then min 16 (s.eddy.okTicks + 1) else if idle then 0 else s.eddy.okTicks
      outTicks := if idle && !i.eddyOk then min 16 (s.eddy.outTicks + 1) else if idle then 0 else s.eddy.outTicks
      left := countDown s.eddy.left
      since := s.eddy.since + 1 } }
  let s := match s.eddy.left with
    | some n => s.fset DEV_EDDY.TICKS 0 (min 64 n)
    | none => s
  let s := s.when (s.fon DEV_EDDY.CHKFAIL && decide (16 ≤ s.eddy.okTicks)) fun s =>
    (s.fset DEV_EDDY.CHKFAIL 0 0).weirCond 16 19 false
  s.mbxAges

/-- The ideal-diode controllers of quad `q` (R220, R221): one whose forward voltage is above 50 mV conducts,
unless PREF holds its gate off while the preferred feed is present. -/
def junction (s : State) (q : Nat) (i : QuadIn) : State :=
  let pref := s.eget QD_JCFG.PREF q
  s.onQuad q fun h => { h with
    faOn := !(decide (pref = 2) && h.fbPres) && (h.faOn || i.feedA)
    fbOn := !(decide (pref = 1) && h.faPres) && (h.fbOn || i.feedB)
    rtOn := h.rtOn || i.ret }

/-- The monitors and controllers of quad `q` copied into QD_JST at an edge (R222). -/
def quadCopy (s : State) (q : Nat) : State :=
  let h := s.quad q
  let s := ((s.fset QD_JST.FAON q (b2n h.faOn)).fset QD_JST.FBON q (b2n h.fbOn)).fset QD_JST.RTON q (b2n h.rtOn)
  ((s.fset QD_JST.FAPRES q (b2n h.faPres)).fset QD_JST.FBPRES q (b2n h.fbPres)).fset QD_JST.BUSUV q
    (b2n h.busUv)

/-- The quads at an edge. -/
def quadEdge (s : State) (i : EdgeIn) : State :=
  s.forEach (List.range 4) fun q s =>
    (match i.quads[q]? with
      | some x => s.junction q x
      | none => s.junction q ⟨false, false, false⟩).quadCopy q

/-- The PMBus at an edge: the engines' poll counts, and a grant on each segment (R65, R67, R216). -/
def pmbusEdge (s : State) : State :=
  let s := s.forPorts fun p s => s.onReg p fun r => { r with poll := r.poll + 1 }
  (s.segGrant s.tick 0).segGrant s.tick 1

/-- ABLE (R271). -/
def ableNow (s : State) : Bool :=
  s.paired && s.mayOwn && decide ((s.react 16).cls < 2) && !s.fon WEIR_ST.USAFE && !s.fon PAIR_ST.WITHDRAWN &&
    decide (s.fget PAIR_ST.LSTATE = 3 ∨ s.fget PAIR_ST.LSTATE = 4) && s.synced

/-- The pair at an edge: heartbeats judged, link states, ABLE, and the times the pair's rows wait for. -/
def pairEdge (s : State) : State :=
  let s := s.when (s.pair.rise && s.follower) fun s => s.becomeMaster true
  let s := s.judgeBeat
  let s := s.when (decide (s.fget PAIR_ST.LSTATE = 1) && !s.lowWater) fun s => s.setLink 2 0
  let s := s.onPair fun h => { h with
    train := if s.fget PAIR_ST.LSTATE = 2 then h.train + 1 else 0
    noEdge := if s.follower then h.noEdge + 1 else 0
    noFollower := if s.fon TICK_STATUS.MASTER then min 64 (h.noFollower + 1) else 0
    listen := countDown h.listen }
  let s := s.fset PAIR_ST.ABLE 0 (b2n s.ableNow)
  let able := s.fon PAIR_ST.ABLE && s.fon PAIR_ST.TWINABLE
  let away := able && decide (s.fget PAIR_CFG.REBALDLY ≠ 0) && !s.fon PAIR_ST.WITHDRAWN &&
    decide (s.fget PAIR_ST.OWN ≠ s.homeSet)
  let s := s.onPair fun h => { h with rebal := if away then h.rebal + 1 else 0 }
  s.bulkEdge.answered.xferEdge

/-- Seconds left of a confirm window (DEV_CFGST.LEFT, DEV_CALST.LEFT). -/
def windowLeft (s : State) (st : Nat) : State :=
  match (s.ver st).expiry with
  | some e => s.fset (leftF st) 0 ((e - s.tick) / 125000)
  | none => s

/-- The tick now running begins: its number, SEQ, and the ticks since lock (R40, R60, R97). -/
def tickBegins (s : State) : State :=
  let s := s.onPair fun h => { h with
    seq := (h.seq + 1) % 16, ownWas := s.fget PAIR_ST.OWN, frame := (h.frame + 1) % 256, errs := h.errsNow
    errsNow := (0, 0), credit := h.creditNow, creditNow := 0 }
  let s := match s.pair.adopt with
    | some n => ((s.fset TICK_COUNT.COUNT 0 n).fset TICK_STATUS.ADOPTED 0 1).onPair fun h => { h with adopt := none }
    | none => s.fset TICK_COUNT.COUNT 0 (s.tick + 1)
  { s with boot := { s.boot with ticks := s.boot.ticks + 1, formT := countDown s.boot.formT } }

/-- The latched reactions that WEIR_CLEAR ended leave (R411). -/
def clearedLeave (s : State) : State :=
  s.forEach (List.range 17) fun sc s => s.when (s.react sc).leave fun s => s.leaveReaction sc 2

/-- Once boot is complete: MUXBUS carries slots, and the forced slots are noted (R88, R91, R250). -/
def muxbusEdge (s : State) : State :=
  let safe := ((List.range 16).filter fun p => s.fon WEIR_PST.SAFE p).foldl (fun a p => a + 2 ^ p) 0
  { s with pins := { s.pins with
      muxOn := s.pins.muxOn || s.booted, muxSafe := safe + 2 ^ 16 * s.fget WEIR_ST.USAFE } }

/-- What the unit shows its twin in this tick: the state `w` as it stood when the edge came (R41, R97, R270). -/
def freezeHarbour (s w : State) : State := s.onPair fun h => { h with hout := w.harbour, beat := w.beatLow }

/-- A unit reset that waited for its entry to be read, or 10 ms, and one asked for by firmware (R315,
R450). -/
def resetEdge (s : State) : State :=
  let left := fun (r : Nat × Nat × Bool) => (r.1, if r.2.2 then 0 else r.2.1 - 1, r.2.2)
  let s := { s with host := { s.host with resetPend := s.host.resetPend.map left } }
  match s.fw.resetNext with
  | some c => s.unitReset c
  | none => s

/-- The clock runs: the PLL has locked and nothing holds the unit in reset. -/
def ticking (s : State) : Bool :=
  s.fon TICK_STATUS.PLL_LOCK && !s.boot.hold && decide (s.boot.phase ≠ .reset)

/-- A memory word was read with an error in the tick that ends: its location and its source; the engine
that fetched or loaded an uncorrectable one traps at the word it stands at (R352, R413). An uncorrectable flash word
stays so until it is erased. -/
def memError (s : State) (x : MemErr) : State :=
  if x.bad then
    let s := s.eccUncorrectable x.mem.toNat x.word.toNat
    let s := s.when (decide (x.mem.toNat = 0x45) && s.flashSound (8 * x.word.toNat) 8) fun s =>
      { s with fw := { s.fw with bad := s.fw.bad ++ [x.word.toNat] } }
    match x.reader with
    | some (e, bank, off) => s.when (decide ((s.engine e).run = .running)) fun s =>
        s.trapWord e (s.engine e).pc ⟨4, off.toNat, some bank.toNat⟩
    | none => s
  else s.eccCorrected x.mem.toNat x.word.toNat

/-- Every action of an edge, in order. -/
def tickEdge (s : State) (i : EdgeIn) : State :=
  let s := i.memErrs.foldl memError s
  let s := (s.countLevels.weirEdge.tickBegins.freezeHarbour s.tickBegins).dropGone.hostEdge
  let s := s.latchEdge.refreshFault.countersEdge.clearedLeave
  let s := s.when s.ticking fun s => (s.eraseWaitEdge i.eraseWait).forEach (List.range 17) fun e s =>
    s.engineEdge i.overrun.toNat e
  s.when s.ticking fun s =>
    let s := (s.pmbusEdge.quadEdge i).forPorts fun p s => s.portEdge i p
    let s := (s.deviceEdge i).presEdge i.presence
    let s := s.when s.paired pairEdge
    let s := s.fset TICK_STATUS.FREERUN 0
      (b2n (!s.paired || (s.fon TICK_STATUS.MASTER && decide (64 ≤ s.pair.noFollower))))
    let s := s.when (s.booted && !s.boot.loader) fun s => s.forPorts fun p s => s.engineService p
    ((s.windowLeft 0).windowLeft 1).deferredProfile.muxbusEdge.resetEdge

end State

/-! ## Meanings -/

open State

/-- TICK_EDGE (R40): nothing happens before the PLL has locked or while the unit is held in reset. -/
def execTickEdge (i : EdgeIn) (s : State) : Out := if s.ticking then .next (s.tickEdge i) else .next s

end Sys2Proof.Machine
end

