-- ==== Sys2Proof/Machine/Dispatch.lean ====
section
/-! DEFINITION. One arm per command of the opcode table: each calls that command's meaning. -/
namespace Sys2Proof.Machine

def exec (i : Instr) (s : State) : Host.Outcome State Fault Refusal :=
  match i with
  | .spiWrite bytes => Sys2Proof.Machine.execSpiWrite bytes s
  | .spiRead n => Sys2Proof.Machine.execSpiRead n s
  | .spiReread => Sys2Proof.Machine.execSpiReread s
  | .spiStatus => Sys2Proof.Machine.execSpiStatus s
  | .spiSingle => Sys2Proof.Machine.execSpiSingle s
  | .hostNop tag ps => Sys2Proof.Machine.execHostNop tag ps s
  | .unitInfo tag ps => Sys2Proof.Machine.execUnitInfo tag ps s
  | .unitStatus tag ps => Sys2Proof.Machine.execUnitStatus tag ps s
  | .unitProfile tag ps => Sys2Proof.Machine.execUnitProfile tag ps s
  | .hostLinkSet tag ps => Sys2Proof.Machine.execHostLinkSet tag ps s
  | .indicatorSet tag ps => Sys2Proof.Machine.execIndicatorSet tag ps s
  | .unitReset tag ps => Sys2Proof.Machine.execUnitReset tag ps s
  | .resetAfterHandover => Sys2Proof.Machine.execResetAfterHandover s
  | .quadSet tag ps => Sys2Proof.Machine.execQuadSet tag ps s
  | .quadStatus tag ps => Sys2Proof.Machine.execQuadStatus tag ps s
  | .portEnable tag ps => Sys2Proof.Machine.execPortEnable tag ps s
  | .portDisable tag ps => Sys2Proof.Machine.execPortDisable tag ps s
  | .portStatus tag ps => Sys2Proof.Machine.execPortStatus tag ps s
  | .portMeasure tag ps => Sys2Proof.Machine.execPortMeasure tag ps s
  | .portSet tag ps => Sys2Proof.Machine.execPortSet tag ps s
  | .portGet tag ps => Sys2Proof.Machine.execPortGet tag ps s
  | .portRecover tag ps => Sys2Proof.Machine.execPortRecover tag ps s
  | .pdCapsSet tag ps => Sys2Proof.Machine.execPdCapsSet tag ps s
  | .pdReplySet tag ps => Sys2Proof.Machine.execPdReplySet tag ps s
  | .pdAnswer tag ps => Sys2Proof.Machine.execPdAnswer tag ps s
  | .pdSend tag ps => Sys2Proof.Machine.execPdSend tag ps s
  | .pdSwap tag ps => Sys2Proof.Machine.execPdSwap tag ps s
  | .pdEpr tag ps => Sys2Proof.Machine.execPdEpr tag ps s
  | .pdSoftReset tag ps => Sys2Proof.Machine.execPdSoftReset tag ps s
  | .pdHardReset tag ps => Sys2Proof.Machine.execPdHardReset tag ps s
  | .pdCableReset tag ps => Sys2Proof.Machine.execPdCableReset tag ps s
  | .pdBist tag ps => Sys2Proof.Machine.execPdBist tag ps s
  | .pdStatus tag ps => Sys2Proof.Machine.execPdStatus tag ps s
  | .pdReplyGet tag ps => Sys2Proof.Machine.execPdReplyGet tag ps s
  | .modeMapSet tag ps => Sys2Proof.Machine.execModeMapSet tag ps s
  | .muxSet tag ps => Sys2Proof.Machine.execMuxSet tag ps s
  | .muxStatus tag ps => Sys2Proof.Machine.execMuxStatus tag ps s
  | .pairStatus tag ps => Sys2Proof.Machine.execPairStatus tag ps s
  | .pairHandover tag ps => Sys2Proof.Machine.execPairHandover tag ps s
  | .pairWithdraw tag ps => Sys2Proof.Machine.execPairWithdraw tag ps s
  | .pairRebalance tag ps => Sys2Proof.Machine.execPairRebalance tag ps s
  | .pairRetrain tag ps => Sys2Proof.Machine.execPairRetrain tag ps s
  | .pairCfgSet tag ps => Sys2Proof.Machine.execPairCfgSet tag ps s
  | .weirStatus tag ps => Sys2Proof.Machine.execWeirStatus tag ps s
  | .weirClear tag ps => Sys2Proof.Machine.execWeirClear tag ps s
  | .weirClassSet tag ps => Sys2Proof.Machine.execWeirClassSet tag ps s
  | .weirForce tag ps => Sys2Proof.Machine.execWeirForce tag ps s
  | .wdgStatus tag ps => Sys2Proof.Machine.execWdgStatus tag ps s
  | .cntConfig tag ps => Sys2Proof.Machine.execCntConfig tag ps s
  | .cntRead tag ps => Sys2Proof.Machine.execCntRead tag ps s
  | .cntClear tag ps => Sys2Proof.Machine.execCntClear tag ps s
  | .logMark tag ps => Sys2Proof.Machine.execLogMark tag ps s
  | .logRead tag ps => Sys2Proof.Machine.execLogRead tag ps s
  | .logStatus tag ps => Sys2Proof.Machine.execLogStatus tag ps s
  | .cfgWrite tag ps => Sys2Proof.Machine.execCfgWrite tag ps s
  | .cfgCommit tag ps => Sys2Proof.Machine.execCfgCommit tag ps s
  | .cfgConfirm tag ps => Sys2Proof.Machine.execCfgConfirm tag ps s
  | .cfgRevert tag ps => Sys2Proof.Machine.execCfgRevert tag ps s
  | .cfgStatus tag ps => Sys2Proof.Machine.execCfgStatus tag ps s
  | .cfgRead tag ps => Sys2Proof.Machine.execCfgRead tag ps s
  | .cfgPairSync tag ps => Sys2Proof.Machine.execCfgPairSync tag ps s
  | .calRun tag ps => Sys2Proof.Machine.execCalRun tag ps s
  | .calSave tag ps => Sys2Proof.Machine.execCalSave tag ps s
  | .calConfirm tag ps => Sys2Proof.Machine.execCalConfirm tag ps s
  | .calRevert tag ps => Sys2Proof.Machine.execCalRevert tag ps s
  | .calStatus tag ps => Sys2Proof.Machine.execCalStatus tag ps s
  | .fwStageBegin tag ps => Sys2Proof.Machine.execFwStageBegin tag ps s
  | .fwStageData tag ps => Sys2Proof.Machine.execFwStageData tag ps s
  | .fwStageEnd tag ps => Sys2Proof.Machine.execFwStageEnd tag ps s
  | .fwActivate tag ps => Sys2Proof.Machine.execFwActivate tag ps s
  | .fwStatus tag ps => Sys2Proof.Machine.execFwStatus tag ps s
  | .fwPairSync tag ps => Sys2Proof.Machine.execFwPairSync tag ps s
  | .otpRead tag ps => Sys2Proof.Machine.execOtpRead tag ps s
  | .otpProgram tag ps => Sys2Proof.Machine.execOtpProgram tag ps s
  | .otpLock tag ps => Sys2Proof.Machine.execOtpLock tag ps s
  | .otpStatus tag ps => Sys2Proof.Machine.execOtpStatus tag ps s
  | .lcAdvance tag ps => Sys2Proof.Machine.execLcAdvance tag ps s
  | .regRead tag ps => Sys2Proof.Machine.execRegRead tag ps s
  | .regWrite tag ps => Sys2Proof.Machine.execRegWrite tag ps s
  | .memRead tag ps => Sys2Proof.Machine.execMemRead tag ps s
  | .memWrite tag ps => Sys2Proof.Machine.execMemWrite tag ps s
  | .engineStatus tag ps => Sys2Proof.Machine.execEngineStatus tag ps s
  | .presenceStatus tag ps => Sys2Proof.Machine.execPresenceStatus tag ps s
  | .timeBind tag ps => Sys2Proof.Machine.execTimeBind tag ps s
  | .timeRead tag ps => Sys2Proof.Machine.execTimeRead tag ps s
  | .presenceEnd tag ps => Sys2Proof.Machine.execPresenceEnd tag ps s
  | .tickEdge x => Sys2Proof.Machine.execTickEdge x s
  | .energyJudgement p => Sys2Proof.Machine.execEnergyJudgement p s
  | .conversionComplete p slot raw => Sys2Proof.Machine.execConversionComplete p slot raw s
  | .calibrationEnd r => Sys2Proof.Machine.execCalibrationEnd r s
  | .eddySelfTrim gain offs => Sys2Proof.Machine.execEddySelfTrim gain offs s
  | .eddyCheckFail => Sys2Proof.Machine.execEddyCheckFail s
  | .hardTrip p => Sys2Proof.Machine.execHardTrip p s
  | .limitEntry p => Sys2Proof.Machine.execLimitEntry p s
  | .reverseCurrentBlock p => Sys2Proof.Machine.execReverseCurrentBlock p s
  | .vbusOvTrip p => Sys2Proof.Machine.execVbusOvTrip p s
  | .comparatorOutputChange p c level => Sys2Proof.Machine.execComparatorOutputChange p c level s
  | .frsSourceTurnOn p => Sys2Proof.Machine.execFrsSourceTurnOn p s
  | .frsSignalDetected p => Sys2Proof.Machine.execFrsSignalDetected p s
  | .ccOvervoltage p => Sys2Proof.Machine.execCcOvervoltage p s
  | .vconnOvercurrent p => Sys2Proof.Machine.execVconnOvercurrent p s
  | .vconnInputUndervoltage q => Sys2Proof.Machine.execVconnInputUndervoltage q s
  | .referenceDivergence dev => Sys2Proof.Machine.execReferenceDivergence dev s
  | .vdrvUndervoltage => Sys2Proof.Machine.execVdrvUndervoltage s
  | .dieOverTemperature p => Sys2Proof.Machine.execDieOverTemperature p s
  | .feedLost q feedB present => Sys2Proof.Machine.execFeedLost q feedB present s
  | .quadBusUndervoltage q under => Sys2Proof.Machine.execQuadBusUndervoltage q under s
  | .junctionReverseTurnOff q ctl => Sys2Proof.Machine.execJunctionReverseTurnOff q ctl s
  | .dbOffRise => Sys2Proof.Machine.execDbOffRise s
  | .powerOnReset => Sys2Proof.Machine.execPowerOnReset s
  | .supplyInvalid supply => Sys2Proof.Machine.execSupplyInvalid supply s
  | .resetNAssert => Sys2Proof.Machine.execResetNAssert s
  | .strapSampling r => Sys2Proof.Machine.execStrapSampling r s
  | .pllLock => Sys2Proof.Machine.execPllLock s
  | .refok => Sys2Proof.Machine.execRefok s
  | .refokTimeout => Sys2Proof.Machine.execRefokTimeout s
  | .otpBootRead normal strict => Sys2Proof.Machine.execOtpBootRead normal strict s
  | .bootComplete => Sys2Proof.Machine.execBootComplete s
  | .bootPairWindowExpiry => Sys2Proof.Machine.execBootPairWindowExpiry s
  | .formationEdge => Sys2Proof.Machine.execFormationEdge s
  | .syncEdgeReceived skew => Sys2Proof.Machine.execSyncEdgeReceived skew s
  | .syncHeartbeatReceived w => Sys2Proof.Machine.execSyncHeartbeatReceived w s
  | .listenTimeExpiry => Sys2Proof.Machine.execListenTimeExpiry s
  | .syncLockAcquired => Sys2Proof.Machine.execSyncLockAcquired s
  | .syncMasterLost => Sys2Proof.Machine.execSyncMasterLost s
  | .skewFault => Sys2Proof.Machine.execSkewFault s
  | .mirrorFreeze p => Sys2Proof.Machine.execMirrorFreeze p s
  | .mirrorRecordReceive p words intact => Sys2Proof.Machine.execMirrorRecordReceive p words intact s
  | .harbourStateApply words => Sys2Proof.Machine.execHarbourStateApply words s
  | .superframeTrailer f => Sys2Proof.Machine.execSuperframeTrailer f s
  | .linkTrainingTimeout => Sys2Proof.Machine.execLinkTrainingTimeout s
  | .laneLoss lane => Sys2Proof.Machine.execLaneLoss lane s
  | .bulkMessageReceive m => Sys2Proof.Machine.execBulkMessageReceive m s
  | .bulkRetransmit => Sys2Proof.Machine.execBulkRetransmit s
  | .transferOpen m => Sys2Proof.Machine.execTransferOpen m s
  | .transferData m => Sys2Proof.Machine.execTransferData m s
  | .transferClose m => Sys2Proof.Machine.execTransferClose m s
  | .transferResult m => Sys2Proof.Machine.execTransferResult m s
  | .heartbeatLost => Sys2Proof.Machine.execHeartbeatLost s
  | .takeoverFirstOwnedEdge => Sys2Proof.Machine.execTakeoverFirstOwnedEdge s
  | .releaseTake mask => Sys2Proof.Machine.execReleaseTake mask s
  | .handoverCommit => Sys2Proof.Machine.execHandoverCommit s
  | .handoverSwitch => Sys2Proof.Machine.execHandoverSwitch s
  | .handoverKeptRelease => Sys2Proof.Machine.execHandoverKeptRelease s
  | .rebalanceDelayExpiry => Sys2Proof.Machine.execRebalanceDelayExpiry s
  | .profileChangeEdge => Sys2Proof.Machine.execProfileChangeEdge s
  | .timeBindTargetEdge => Sys2Proof.Machine.execTimeBindTargetEdge s
  | .packetReceived p k => Sys2Proof.Machine.execPacketReceived p k s
  | .goodcrcReceived p sop id => Sys2Proof.Machine.execGoodcrcReceived p sop id s
  | .hardResetReceived p => Sys2Proof.Machine.execHardResetReceived p s
  | .cableResetReceived p => Sys2Proof.Machine.execCableResetReceived p s
  | .packetTransmitStart p => Sys2Proof.Machine.execPacketTransmitStart p s
  | .packetTransmitEnd p => Sys2Proof.Machine.execPacketTransmitEnd p s
  | .frsSignalEnd p => Sys2Proof.Machine.execFrsSignalEnd p s
  | .pdMessageParse p => Sys2Proof.Machine.execPdMessageParse p s
  | .crcReceiveTimerExpiry p => Sys2Proof.Machine.execCrcReceiveTimerExpiry p s
  | .senderResponseTimeout p => Sys2Proof.Machine.execSenderResponseTimeout p s
  | .answerTimerExpiry p => Sys2Proof.Machine.execAnswerTimerExpiry p s
  | .chunkTimerExpiry p k => Sys2Proof.Machine.execChunkTimerExpiry p k s
  | .sourceCapabilityTimeout p => Sys2Proof.Machine.execSourceCapabilityTimeout p s
  | .sinkWaitCapTimeout p => Sys2Proof.Machine.execSinkWaitCapTimeout p s
  | .psTransitionTimeout p epr => Sys2Proof.Machine.execPsTransitionTimeout p epr s
  | .noResponseTimeout p => Sys2Proof.Machine.execNoResponseTimeout p s
  | .hardResetCompleteTimeout p => Sys2Proof.Machine.execHardResetCompleteTimeout p s
  | .discoverIdentityTimeout p => Sys2Proof.Machine.execDiscoverIdentityTimeout p s
  | .vdmResponseTimeout p => Sys2Proof.Machine.execVdmResponseTimeout p s
  | .vdmModeEntryTimeout p => Sys2Proof.Machine.execVdmModeEntryTimeout p s
  | .bistContModeTimeout p => Sys2Proof.Machine.execBistContModeTimeout p s
  | .sinkEprEnterTimeout p => Sys2Proof.Machine.execSinkEprEnterTimeout p s
  | .sinkEprKeepaliveTimeout p => Sys2Proof.Machine.execSinkEprKeepaliveTimeout p s
  | .sourceEprKeepaliveTimeout p => Sys2Proof.Machine.execSourceEprKeepaliveTimeout p s
  | .sinkPpsPeriodicTimeout p => Sys2Proof.Machine.execSinkPpsPeriodicTimeout p s
  | .sourcePpsCommTimeout p => Sys2Proof.Machine.execSourcePpsCommTimeout p s
  | .heldMessageTimeout p => Sys2Proof.Machine.execHeldMessageTimeout p s
  | .drpShareEnd p => Sys2Proof.Machine.execDrpShareEnd p s
  | .ccDebounceExpiry p => Sys2Proof.Machine.execCcDebounceExpiry p s
  | .pdDebounceExpiry p => Sys2Proof.Machine.execPdDebounceExpiry p s
  | .tryCcDebounceExpiry p => Sys2Proof.Machine.execTryCcDebounceExpiry p s
  | .drpTryExpiry p => Sys2Proof.Machine.execDrpTryExpiry p s
  | .tryTimeoutExpiry p => Sys2Proof.Machine.execTryTimeoutExpiry p s
  | .errorRecoveryExpiry p => Sys2Proof.Machine.execErrorRecoveryExpiry p s
  | .srcDisconnectExpiry p => Sys2Proof.Machine.execSrcDisconnectExpiry p s
  | .sinkTxWaitExpiry p => Sys2Proof.Machine.execSinkTxWaitExpiry p s
  | .contractTransitionStep p => Sys2Proof.Machine.execContractTransitionStep p s
  | .srcReadyTimeout p => Sys2Proof.Machine.execSrcReadyTimeout p s
  | .sinkTransitionStep p => Sys2Proof.Machine.execSinkTransitionStep p s
  | .snkNewPowerExpiry p => Sys2Proof.Machine.execSnkNewPowerExpiry p s
  | .ppsCurrentLimitStep p => Sys2Proof.Machine.execPpsCurrentLimitStep p s
  | .prSwapStep p => Sys2Proof.Machine.execPrSwapStep p s
  | .srcTransitionExpiry p => Sys2Proof.Machine.execSrcTransitionExpiry p s
  | .psSourceOffTimeout p => Sys2Proof.Machine.execPsSourceOffTimeout p s
  | .psSourceOnTimeout p => Sys2Proof.Machine.execPsSourceOnTimeout p s
  | .vconnSwapStep p => Sys2Proof.Machine.execVconnSwapStep p s
  | .vconnOnTimeout p => Sys2Proof.Machine.execVconnOnTimeout p s
  | .vconnSourceOnExpiry p => Sys2Proof.Machine.execVconnSourceOnExpiry p s
  | .frsSwapStep p => Sys2Proof.Machine.execFrsSwapStep p s
  | .hardResetSequenceStep p => Sys2Proof.Machine.execHardResetSequenceStep p s
  | .psHardResetExpiry p => Sys2Proof.Machine.execPsHardResetExpiry p s
  | .srcRecoverExpiry p => Sys2Proof.Machine.execSrcRecoverExpiry p s
  | .sinkHardResetTimeout p => Sys2Proof.Machine.execSinkHardResetTimeout p s
  | .modeHoldRelease p => Sys2Proof.Machine.execModeHoldRelease p s
  | .offMinElapsed p => Sys2Proof.Machine.execOffMinElapsed p s
  | .quietElapsed p => Sys2Proof.Machine.execQuietElapsed p s
  | .gateRiseTimeout p => Sys2Proof.Machine.execGateRiseTimeout p s
  | .gateStuckOn p => Sys2Proof.Machine.execGateStuckOn p s
  | .limitTimeCap p => Sys2Proof.Machine.execLimitTimeCap p s
  | .fixedTimerExpiry p => Sys2Proof.Machine.execFixedTimerExpiry p s
  | .dischargeTimeout p => Sys2Proof.Machine.execDischargeTimeout p s
  | .regulatorStartTimeout p => Sys2Proof.Machine.execRegulatorStartTimeout p s
  | .pmbusTransactionComplete p data => Sys2Proof.Machine.execPmbusTransactionComplete p data s
  | .pmbusTransactionFail p => Sys2Proof.Machine.execPmbusTransactionFail p s
  | .pmbusArbitrationLost p => Sys2Proof.Machine.execPmbusArbitrationLost p s
  | .statusWordPoll p => Sys2Proof.Machine.execStatusWordPoll p s
  | .pmbusAlert k => Sys2Proof.Machine.execPmbusAlert k s
  | .watchdogExpiry e => Sys2Proof.Machine.execWatchdogExpiry e s
  | .rillHoldExpired p => Sys2Proof.Machine.execRillHoldExpired p s
  | .weirQuietElapsed scope => Sys2Proof.Machine.execWeirQuietElapsed scope s
  | .weirReleaseWindowClose scope => Sys2Proof.Machine.execWeirReleaseWindowClose scope s
  | .weirEventWindowClose scope x => Sys2Proof.Machine.execWeirEventWindowClose scope x s
  | .faultNPulseEnd => Sys2Proof.Machine.execFaultNPulseEnd s
  | .mailboxStall m => Sys2Proof.Machine.execMailboxStall m s
  | .presenceLevelConfirmed level => Sys2Proof.Machine.execPresenceLevelConfirmed level s
  | .presenceWindowEnd => Sys2Proof.Machine.execPresenceWindowEnd s
  | .logRecordWrite => Sys2Proof.Machine.execLogRecordWrite s
  | .flashOperationComplete => Sys2Proof.Machine.execFlashOperationComplete s
  | .configApplyEdge => Sys2Proof.Machine.execConfigApplyEdge s
  | .confirmWindowExpiry => Sys2Proof.Machine.execConfirmWindowExpiry s
  | .calTrialExpiry => Sys2Proof.Machine.execCalTrialExpiry s
  | .engineExchange p => Sys2Proof.Machine.execEngineExchange p s
  | .ehExchange => Sys2Proof.Machine.execEhExchange s
  | .ehExchangeRelease => Sys2Proof.Machine.execEhExchangeRelease s
  | .interruptEntry e => Sys2Proof.Machine.execInterruptEntry e s
  | .nop e at_ => Sys2Proof.Machine.execNop e at_ s
  | .mov e at_ dst src => Sys2Proof.Machine.execMov e at_ dst src s
  | .add e at_ dst src => Sys2Proof.Machine.execAdd e at_ dst src s
  | .adc e at_ dst src => Sys2Proof.Machine.execAdc e at_ dst src s
  | .sub e at_ dst src => Sys2Proof.Machine.execSub e at_ dst src s
  | .sbc e at_ dst src => Sys2Proof.Machine.execSbc e at_ dst src s
  | .and e at_ dst src => Sys2Proof.Machine.execAnd e at_ dst src s
  | .or e at_ dst src => Sys2Proof.Machine.execOr e at_ dst src s
  | .xor e at_ dst src => Sys2Proof.Machine.execXor e at_ dst src s
  | .cmp e at_ a b => Sys2Proof.Machine.execCmp e at_ a b s
  | .tst e at_ a b => Sys2Proof.Machine.execTst e at_ a b s
  | .movi e at_ dst u => Sys2Proof.Machine.execMovi e at_ dst u s
  | .addi e reg v => Sys2Proof.Machine.execAddi e reg v s
  | .cmpi e reg v => Sys2Proof.Machine.execCmpi e reg v s
  | .shl e at_ dst => Sys2Proof.Machine.execShl e at_ dst s
  | .shr e at_ dst => Sys2Proof.Machine.execShr e at_ dst s
  | .asr e at_ dst => Sys2Proof.Machine.execAsr e at_ dst s
  | .rol e at_ dst => Sys2Proof.Machine.execRol e at_ dst s
  | .ror e at_ dst => Sys2Proof.Machine.execRor e at_ dst s
  | .rlc e at_ dst => Sys2Proof.Machine.execRlc e at_ dst s
  | .rrc e at_ dst => Sys2Proof.Machine.execRrc e at_ dst s
  | .not e at_ dst => Sys2Proof.Machine.execNot e at_ dst s
  | .neg e at_ dst => Sys2Proof.Machine.execNeg e at_ dst s
  | .inc e at_ dst => Sys2Proof.Machine.execInc e at_ dst s
  | .dec e at_ dst => Sys2Proof.Machine.execDec e at_ dst s
  | .swapn e at_ dst => Sys2Proof.Machine.execSwapn e at_ dst s
  | .clr e at_ dst => Sys2Proof.Machine.execClr e at_ dst s
  | .bset e at_ dst n => Sys2Proof.Machine.execBset e at_ dst n s
  | .bclr e at_ dst n => Sys2Proof.Machine.execBclr e at_ dst n s
  | .btst e at_ dst n => Sys2Proof.Machine.execBtst e at_ dst n s
  | .btgl e at_ dst n => Sys2Proof.Machine.execBtgl e at_ dst n s
  | .ld e reg a => Sys2Proof.Machine.execLd e reg a s
  | .st e reg a => Sys2Proof.Machine.execSt e reg a s
  | .ldw e reg a => Sys2Proof.Machine.execLdw e reg a s
  | .stw e reg a => Sys2Proof.Machine.execStw e reg a s
  | .padd e at_ k src => Sys2Proof.Machine.execPadd e at_ k src s
  | .psub e at_ k src => Sys2Proof.Machine.execPsub e at_ k src s
  | .movp e at_ reg toPtr k high => Sys2Proof.Machine.execMovp e at_ reg toPtr k high s
  | .br e b => Sys2Proof.Machine.execBr e b s
  | .wtick e at_ => Sys2Proof.Machine.execWtick e at_ s
  | .ret e at_ => Sys2Proof.Machine.execRet e at_ s
  | .reti e at_ => Sys2Proof.Machine.execReti e at_ s
  | .ei e at_ => Sys2Proof.Machine.execEi e at_ s
  | .di e at_ => Sys2Proof.Machine.execDi e at_ s
  | .lpop e at_ => Sys2Proof.Machine.execLpop e at_ s
  | .brk e at_ => Sys2Proof.Machine.execBrk e at_ s
  | .ldi e reg v => Sys2Proof.Machine.execLdi e reg v s
  | .subi e reg v => Sys2Proof.Machine.execSubi e reg v s
  | .andi e reg v => Sys2Proof.Machine.execAndi e reg v s
  | .ori e reg v => Sys2Proof.Machine.execOri e reg v s
  | .xori e reg v => Sys2Proof.Machine.execXori e reg v s
  | .bank e v => Sys2Proof.Machine.execBank e v s
  | .ldip e k v => Sys2Proof.Machine.execLdip e k v s
  | .paddi e k v => Sys2Proof.Machine.execPaddi e k v s
  | .pcmpi e k v => Sys2Proof.Machine.execPcmpi e k v s
  | .pcpy e k j => Sys2Proof.Machine.execPcpy e k j s
  | .call e target => Sys2Proof.Machine.execCall e target s
  | .jmpp e k => Sys2Proof.Machine.execJmpp e k s
  | .callp e k => Sys2Proof.Machine.execCallp e k s
  | .loop e n last => Sys2Proof.Machine.execLoop e n last s
  | .rep e n word => Sys2Proof.Machine.execRep e n word s
  | .movs e k sreg => Sys2Proof.Machine.execMovs e k sreg s
  | .movts e k sreg => Sys2Proof.Machine.execMovts e k sreg s
  | .rxpop e k reg => Sys2Proof.Machine.execRxpop e k reg s
  | .txload e k => Sys2Proof.Machine.execTxload e k s
  | .txgo e sel => Sys2Proof.Machine.execTxgo e sel s
  | .txstat e reg => Sys2Proof.Machine.execTxstat e reg s
  | .ordset e sel => Sys2Proof.Machine.execOrdset e sel s
  | .tstart e k => Sys2Proof.Machine.execTstart e k s
  | .tstop e k => Sys2Proof.Machine.execTstop e k s
  | .tread e p reg k => Sys2Proof.Machine.execTread e p reg k s
  | .idrst e sel => Sys2Proof.Machine.execIdrst e sel s
  | .frstx e => Sys2Proof.Machine.execFrstx e s
  | .clra e acc => Sys2Proof.Machine.execClra e acc s
  | .mul e acc x j => Sys2Proof.Machine.execMul e acc x j s
  | .mulu e acc x j => Sys2Proof.Machine.execMulu e acc x j s
  | .mulsu e acc x j => Sys2Proof.Machine.execMulsu e acc x j s
  | .mac e acc x j => Sys2Proof.Machine.execMac e acc x j s
  | .macu e acc x j => Sys2Proof.Machine.execMacu e acc x j s
  | .macsu e acc x j => Sys2Proof.Machine.execMacsu e acc x j s
  | .macm e acc x j => Sys2Proof.Machine.execMacm e acc x j s
  | .sha e acc sh => Sys2Proof.Machine.execSha e acc sh s
  | .adda e acc src => Sys2Proof.Machine.execAdda e acc src s
  | .sata e acc => Sys2Proof.Machine.execSata e acc s
  | .rda e acc k part => Sys2Proof.Machine.execRda e acc k part s
  | .wra e acc k part => Sys2Proof.Machine.execWra e acc k part s
  | .crci e mode => Sys2Proof.Machine.execCrci e mode s
  | .crcb e reg => Sys2Proof.Machine.execCrcb e reg s
  | .crcm e loc k n => Sys2Proof.Machine.execCrcm e loc k n s
  | .crcr e k half => Sys2Proof.Machine.execCrcr e k half s
  | .eccg e reg k => Sys2Proof.Machine.execEccg e reg k s
  | .eccc e reg k => Sys2Proof.Machine.execEccc e reg k s
  | .mbxPush e base b => Sys2Proof.Machine.execMbxPush e base b s
  | .mbxPop e base => Sys2Proof.Machine.execMbxPop e base s
  | .mbxAck e base b => Sys2Proof.Machine.execMbxAck e base b s
  | .mbxAckinRead e base => Sys2Proof.Machine.execMbxAckinRead e base s
  | .lockTake e off => Sys2Proof.Machine.execLockTake e off s
  | .lockRelease e off b => Sys2Proof.Machine.execLockRelease e off b s
  | .mirrorCommit p => Sys2Proof.Machine.execMirrorCommit p s
  | .wdgCheckIn e b => Sys2Proof.Machine.execWdgCheckIn e b s
  | .wdgService e b => Sys2Proof.Machine.execWdgService e b s
  | .weirPrecWrite p v => Sys2Proof.Machine.execWeirPrecWrite p v s
  | .weirUrecWrite v => Sys2Proof.Machine.execWeirUrecWrite v s
  | .faultNRelease => Sys2Proof.Machine.execFaultNRelease s
  | .eddyStart v => Sys2Proof.Machine.execEddyStart v s
  | .swapRequest v => Sys2Proof.Machine.execSwapRequest v s
  | .flashWindowPlace v => Sys2Proof.Machine.execFlashWindowPlace v s
  | .forceErrorRecovery p => Sys2Proof.Machine.execForceErrorRecovery p s
  | .forceDisabled p => Sys2Proof.Machine.execForceDisabled p s
  | .forceLeaveDisabled p => Sys2Proof.Machine.execForceLeaveDisabled p s
  | .rolesw p => Sys2Proof.Machine.execRolesw p s
  | .limWrite p v => Sys2Proof.Machine.execLimWrite p v s
  | .otpCtlReadNormal v => Sys2Proof.Machine.execOtpCtlReadNormal v s
  | .otpCtlReadStrict v => Sys2Proof.Machine.execOtpCtlReadStrict v s
  | .otpCtlProgram v => Sys2Proof.Machine.execOtpCtlProgram v s
  | .otpCtlLock v => Sys2Proof.Machine.execOtpCtlLock v s
  | .otpCtlLcAdvance v => Sys2Proof.Machine.execOtpCtlLcAdvance v s
  | .pairCtlGive mask => Sys2Proof.Machine.execPairCtlGive mask s
  | .pairCtlTake mask => Sys2Proof.Machine.execPairCtlTake mask s
  | .pairCtlRetrain => Sys2Proof.Machine.execPairCtlRetrain s
  | .pairCtlWithdraw => Sys2Proof.Machine.execPairCtlWithdraw s
  | .pairCtlRebal => Sys2Proof.Machine.execPairCtlRebal s
  | .cntCtlClear mask => Sys2Proof.Machine.execCntCtlClear mask s
  | .tickCountRead e => Sys2Proof.Machine.execTickCountRead e s
  | .rcRegisterRead addr size => Sys2Proof.Machine.execRcRegisterRead addr size s
  | .registerWrite e addr bytes => Sys2Proof.Machine.execRegisterWrite e addr bytes s
  | .ccScanComparison p v1 v2 busy1 busy2 => Sys2Proof.Machine.execCcScanComparison p v1 v2 busy1 busy2 s
  | .muxbusSlot slot => Sys2Proof.Machine.execMuxbusSlot slot s
  | .dbOffFall => Sys2Proof.Machine.execDbOffFall s
  | .vdrvInvalid => Sys2Proof.Machine.execVdrvInvalid s
  | .vdrvValid => Sys2Proof.Machine.execVdrvValid s
  | .vconnInputRecovered q => Sys2Proof.Machine.execVconnInputRecovered q s
  | .otpOperationComplete took weak => Sys2Proof.Machine.execOtpOperationComplete took weak s
  | .tapTckEdge rise tms ins => Sys2Proof.Machine.execTapTckEdge rise tms ins s

end Sys2Proof.Machine
end

