-- ==== Sys2Proof/Safety.lean ====
section
/-!
DEFINITION. What counts as a safe run: no step stops, and the tables the state holds its contents in keep
their one canonical form.
-/
namespace Sys2Proof.Machine

/-- A step answers a next state: no fault and no refusal. -/
def Runs (o : Host.Outcome State Fault Refusal) : Prop := ∃ t, o = .next t

/-- The memory and the flash array in canonical form: addresses strictly rising, and no entry equal to
what an unlisted address reads as (0, and the erased 0xFF). -/
def Memory.wf (s : State) : Bool := Tab.wf (0 : Byte) s.mem && Tab.wf (0xFF : Byte) s.flash

/-- The state holds its contents in one form only: memory and flash are canonical, and the keys of the
register tables (the contents, and the values in force) rise strictly. -/
def State.Inv (s : State) : Prop :=
  Memory.wf s = true ∧ s.regs.rising = true ∧ s.eff.rising = true

/-! ## When a command has its own effect -/

/-- Engine `e` is about to issue the word `w`: it runs, no interrupt is due before the word, its pc lies in
the instruction bank, and the word is legal there (R351, R352, R354). -/
structure Ready (s : State) (e : Nat) (w : IWord) : Prop where
  runs : (s.engine e).run = .running
  quiet : s.irqDue e = false
  inBank : (s.engine e).pc < bankWords e
  legal : w.legal e (s.engine e).bank = true

/-- The engine at the start of a word: what the word before left to land is taken out, to land at the
word's end; `ld` where the word is a load (R341, R351). It has issued since its last WTICK (R48). -/
def Engine.began (ld : Bool) (g : Engine) : Engine :=
  { g with delay := [], loaded := ld, lastBank := none, stepped := true }

/-- The engine `h` as the word that found `g` and took `n` cycles brings it to its end: the values of the
word before land, and the cycles count (R341, R354). -/
def Engine.ended (n : Nat) (g h : Engine) : Engine :=
  let k := h.land g.delay
  { k with cyc := k.cyc + n, busy0 := k.busy0 - n, busy1 := k.busy1 - n }

/-- The engine after a word of `n` cycles that changes it by `f` and transfers no control: execution goes on
behind the word (R354); `ld` where the word is a load. -/
def Engine.ran (ld : Bool) (n : Nat) (f : Engine → Engine) (g : Engine) : Engine :=
  (Engine.ended n g (f (g.began ld))).finish g.pc

/-- The engine after a word of `n` cycles that changes it by `f` and transfers control to the word at `a`
(R354). -/
def Engine.jumped (n a : Nat) (f : Engine → Engine) (g : Engine) : Engine :=
  Engine.ended n g { f (g.began false) with pc := a % 65536 }

/-- The other slot of a short operation's word is a NOP. -/
def Alone (a : Slot) : Prop := decodeShort a.other.toNat = .nop

/-- A result written to a register (none: flags alone), and the flags it leaves. -/
def Engine.result (d : Option (BitVec 5)) (o : AluOut) (g : Engine) : Engine :=
  (match d with
    | some r => g.setReg r.toNat o.res
    | none => g).setFlags o.mask o.flags

/-- The state after a word on engine `e` that takes one cycle, changes only that engine, by `f`, and
transfers no control. -/
def State.ran (s : State) (e : Nat) (f : Engine → Engine) : State := s.onEngine e (Engine.ran false 1 f)

/-- The data address `bank:off` of engine `e` is byte `o` of memory `m`, plain storage: no mailbox, flash
window or register stands there (R366, R367). -/
structure PlainAt (s : State) (e bank off m o : Nat) : Prop where
  noBox : bank ≠ 3
  noFlash : ¬(0x40 ≤ bank ∧ bank ≤ 0x7F)
  noReg : (State.regPlace e bank off).bind regAt = none
  place : s.memPlace e bank off = some (m, o)

/-- A loaded byte on its way to register `r`: into the register file at the end of the next word, elsewhere
at once (R341). -/
def Engine.taken (r v : Nat) (h : Engine) : Engine :=
  match h.fileKey r with
  | some k => h.later k v false
  | none => h.setReg r v

/-- A pointer pair's update after an access, at the end of the next word (R341). -/
def Engine.advanced (post : Bool) (k v : Nat) (h : Engine) : Engine :=
  if post then h.later (136 + k) (v % 65536) true else h

/-- One slide of the window up or down without spill or fill (R344, R345). -/
def Engine.slidUp (h : Engine) : Engine :=
  { h with base := (h.base + 1) % 16, resg := h.resg + 1, depth := h.depth + 1 }

/-- One slide back. -/
def Engine.slidDown (h : Engine) : Engine :=
  { h with base := (h.base + 15) % 16, resg := h.resg - 1, depth := h.depth - 1 }

/-- The packet of the command of opcode `op`. -/
def packetOf (op : Nat) (tag : Byte) (ps : List Byte) : Packet := { op := op, tag := tag.toNat, params := ps }

/-- The command of opcode `op` is taken up in state `s` and its own meaning is judged in state `u`: boot has
completed, its packet waits and stands next in its queue, it leaves its queue, and the life-cycle state and loader
mode accept it (R303, R305, R306; log entry 50). -/
structure Served (op : Nat) (tag : Byte) (ps : List Byte) (s u : State) : Prop where
  booted : s.booted = true
  waits : s.waits (packetOf op tag ps) = true
  first : s.upNext (packetOf op tag ps) = true
  taken : u = s.takeUp (packetOf op tag ps)
  life : u.hostLife op ps = true

end Sys2Proof.Machine
end

