-- ==== Sys2Proof/Certificates/Slice0/Obligations.lean ====
section
/-!
DEFINITION. The statements for the provers: what the commands of the block do, family by family, and what
every step keeps. The helpers at the start name the shapes that the statements share.
-/
set_option maxRecDepth 4000

namespace Sys2Proof.Machine
open State

/-- The command `c` takes the state `s` to `t` where `due` holds, and changes nothing where it does not. -/
def Acts (c : Instr) (s : State) (due : Prop) (t : State) : Prop :=
  (due → exec c s = .next t) ∧ (¬due → exec c s = .next s)

end Sys2Proof.Machine

open Sys2Proof Sys2Proof.Machine Sys2Proof.Machine.State

/-! ## The machine -/

/-- O1. For every command c and every state, a step at a state whose queue begins with c is c executed on the
state with the queue's rest: the outcome is that of exec. With no command waiting a step answers the state
unchanged. The queue, and that time passes only by TICK_EDGE, are the model's own (log entry 1). -/
def Obligations.StepRunsFront : Prop :=
  (∀ (c : Instr) (rest : List Instr) (s : State), s.pending = c :: rest →
    step s = exec c { s with pending := rest }) ∧
    ∀ s : State, s.pending = [] → step s = .next s

/-- O2. Every command, with every operand and in every state, answers a next state: there is no fault and no
refusal. A command whose condition does not hold is discarded, refused by a reply entry or turned into a
trap of its engine, and each of those is a next state. A step therefore answers a next state in every state. -/
def Obligations.EveryCommandAnswers : Prop :=
  (∀ (c : Instr) (s : State), Runs (exec c s)) ∧ ∀ s : State, Runs (step s)

/-- O3. No command adds a command to the queue, removes one or changes one: after exec the queue is as before,
and after a step it has lost its first command and nothing else. The queue is the model's own (log entry 1). -/
def Obligations.QueueIsFirstInFirstOut : Prop :=
  (∀ (c : Instr) (s t : State), exec c s = .next t → t.pending = s.pending) ∧
    ∀ s t : State, step s = .next t → t.pending = s.pending.drop 1

/-- O4. From every state that holds its memory and its flash with addresses strictly rising and no entry equal
to what an unlisted address reads as (SRAM 0 as R369 leaves it; flash 0xFF, log entry 5), and its register
tables with strictly rising keys, every step of every command answers a state that does so too. Equal
contents are therefore equal data. -/
def Obligations.TablesStayCanonical : Prop :=
  ∀ s t : State, s.Inv → step s = .next t → t.Inv

/-- O5. State.reset meets the invariant that every step keeps; its queue is empty, boot is under way and not
complete, every memory byte reads 0, every flash byte reads erased (log entry 5), and every engine is held,
not running. -/
def Obligations.ResetIsCanonical : Prop :=
  State.reset.Inv ∧ State.reset.pending = [] ∧ State.reset.booted = false ∧ State.reset.boot.phase = .boot ∧
    (∀ m off, State.reset.memGet m off = 0) ∧ (∀ a, State.reset.flashGet a = 0xFF) ∧
    ∀ e < 17, (State.reset.engine e).run = .held

/-- O6. After reset every port has its attach configuration and timers, its PD configuration and timer loads,
its swap timers, breaker, gate and limit settings, comparator thresholds and mux configuration at the values
of the register tables, its attach state is Shadow (15) and its power state 6, since it is not owned yet;
the pair's home set, rebalance delay and credit, the weir's windows and quiet times, and the engines' spill
pointers are at theirs. -/
def Obligations.ResetValues : Prop :=
  let f := fun (r : Fld) (i : Nat) => State.reset.fget r i
  (∀ p < 16, f PRT_CCCFG.ROLE p = 2 ∧ f PRT_CCCFG.ATTWAKE p = 1 ∧ f PRT_ATTST.STATE p = 15 ∧
    f PRT_CCSTAT.CC1LVL p = 7 ∧ f PRT_CCSTAT.CC2LVL p = 7 ∧ f PRT_CCHYS.HYST p = 10 ∧
    State.reset.rget PRT_CCTIM0.reg p = 0x0F96324B ∧ State.reset.rget PRT_CCTIM1.reg p = 0x1950640F ∧
    State.reset.rget PRT_CCTIM2.reg p = 0x100A) ∧
  (∀ p < 16, f PRT_PDCFG.CBLDISC p = 1 ∧ f PRT_PDCFG.BISTEN p = 1 ∧ f PRT_PDCFG.REV p = 2 ∧
    f PRT_PDCFG.PDEN p = 1 ∧ f PRT_PDCBL.IMAX p = 1 ∧ f (PRT_PDTIM.LOAD 0) p = 125 ∧
    f (PRT_PDTIM.LOAD 1) p = 3500 ∧ f (PRT_PDTIM.LOAD 9) p = 625000 ∧ f (PRT_PDTIM.LOAD 19) p = 1687500 ∧
    f PRT_SWTIM0.TSRCTR p = 30 ∧ f PRT_SWTIM0.TSRCRDY p = 285 ∧ f PRT_SWTIM1.TPSHR p = 30 ∧
    f PRT_SWTIM1.TSRCREC p = 800 ∧ f PRT_SWTIM2.PSOFF p = 835 ∧ f PRT_SWTIM2.PSON p = 435) ∧
  (∀ p < 16, f PRT_PWRST.STATE p = 6 ∧ f PRT_PWRCFG.SHUNT p = 500 ∧ f PRT_PWRCFG.FWD p = 2 ∧
    f PRT_PWRCFG.MARGIN p = 32 ∧ f PRT_PWRCFG.HTRATIO p = 16 ∧ f PRT_PWRCFG.AUTORETRY p = 1 ∧
    f PRT_GATE.IRAMP p = 10 ∧ f PRT_GATE.TRISE p = 2 ∧ f PRT_ILIM.AUTO p = 1 ∧ f PRT_BRKTIM.TFIX p = 1000 ∧
    f PRT_BRKTIM.LIMCAP p = 12500 ∧ f PRT_PWRTIM.TQUIET p = 100 ∧ f PRT_PWRTIM.TDIS p = 650 ∧
    f PRT_PWRTIM.TOFFMIN p = 20 ∧ f PRT_AUXSEL.EN p = 0xFF ∧ f PRT_CMPST.OUT p = 8 ∧
    f (PRT_CMP.THR 3) p = 108 ∧ f PRT_MUXCFG.TSETTLE p = 2 ∧ f PRT_MUXCFG.USBCFG p = 1) ∧
  f PAIR_CFG.HOME 0 = 0x00FF ∧ f PAIR_CFG.REBALDLY 0 = 50 ∧ f PAIR_CREDIT.HELD 0 = 64 ∧ f WEIR_CFG.Q1 0 = 100 ∧
  f WEIR_CFG.Q2 0 = 1000 ∧ f WEIR_CFG.Q3 0 = 10000 ∧ f WEIR_CFG.ESCW 0 = 10 ∧ f WEIR_CFG.ESCN 0 = 8 ∧
  (∀ e < 16, (State.reset.engine e).ssp = 0x3800 ∧ (State.reset.engine e).ssl = 0x3C00 ∧
    (State.reset.engine e).crc = 0xFFFFFFFF ∧ (State.reset.engine e).resg = 2) ∧
  (State.reset.engine 16).ssp = 0xF800 ∧ (State.reset.engine 16).ssl = 0xFC00

/-- O7. For every long operation of the engines' instruction set, of every layout and coprocessor and with every
value of every operand field, decoding the 32 bits of its word gives that operation: no bit of an encoding
is dropped, and no word is read as a neighbour. No two long operations therefore have the same word. -/
def Obligations.LongWordsRoundTrip : Prop :=
  (∀ l : Long, decodeWord (BitVec.ofNat 32 (encodeWord (.long l))) = .long l) ∧
    ∀ l m : Long, encodeWord (.long l) = encodeWord (.long m) → l = m

/-- O8. For every two short operations that are not illegal codes, with every value of every operand field,
decoding the word with the first in slot A and the second in slot B gives that pair, and the words of two
such pairs are the same only where the pairs are. -/
def Obligations.PairedWordsRoundTrip : Prop :=
  let named := fun (x : Short) => ∀ raw, x ≠ .illegal raw
  ∀ a b : Short, named a → named b →
    decodeWord (BitVec.ofNat 32 (encodeWord (.pair a b))) = .pair a b ∧
    ∀ c d : Short, named c → named d → encodeWord (.pair a b) = encodeWord (.pair c d) → a = c ∧ b = d

/-- O9. 0x40184409 is LD w0 (local, post-increment, p0) with ST w0 (post-increment, p1); 0xA001F002 is LOOP with
count 31 and END 2; 0x95120700 is ST REG 2 to selector 2, address 0x0700; 0x94100010 is LD REG 2 from
selector 0, address 0x0010; 0x95010200 is ST REG 0 to selector 1, address 0x0200. A word of zeros is a pair
of NOPs, and a word with bit 15 set but bit 31 clear is illegal. -/
def Obligations.SampleWords : Prop :=
  decodeWord 0x40184409#32 = .pair (.ld 0 true true 0) (.st 0 false true 1) ∧
    decodeWord 0xA001F002#32 = .long (.loop (.imm 31) 2) ∧
    decodeWord 0x95120700#32 = .long (.st 2 (.abs 2 0x0700)) ∧
    decodeWord 0x94100010#32 = .long (.ld 2 (.abs 0 0x0010)) ∧
    decodeWord 0x95010200#32 = .long (.st 0 (.abs 1 0x0200)) ∧
    decodeWord 0#32 = .pair .nop .nop ∧ decodeWord 0x00008000#32 = .illegal 0x00008000#32

/-! ## The host link (chapter 11) -/

/-- O10. In a unit that has booted, whatever waits in its entry queue and with at most 32 tags in flight,
SPI_STATUS answers a next state in which only the bytes sent differ: one byte whose bit 7 is set exactly
where a reply or event waits, whose bit 6 is set exactly where a front-end refusal waits, and whose bits 5
to 0 are the number of tags still available, 32 less those in flight (6 bits: 32 reads 32). -/
def Obligations.StatusByte : Prop :=
  ∀ s : State, s.booted = true → s.host.tags.length ≤ 32 →
    ∃ b : Byte, exec .spiStatus s = .next { s with host := { s.host with out := [b] } } ∧
      (bit b.toNat 7 = true ↔ ∃ e ∈ s.host.entries, e.place ≠ .refusal) ∧
      (bit b.toNat 6 = true ↔ ∃ e ∈ s.host.entries, e.place = .refusal) ∧
      b.toNat % 64 = 32 - s.host.tags.length

/-- O11. SPI_READ of n bytes: with no entry it sends n zeros; where n is less than the length of the entry at
the head, the entry stays, nothing changes but the bytes sent, which are its first n, so a READ after it
begins with its first byte again; where n reaches the entry's last CRC byte, the entry's bytes are sent, the
entry has left the queue, and what follows is what a READ of the bytes that remain does after it. -/
def Obligations.ReadTakesWholeEntries : Prop :=
  ∀ (n : Nat) (s : State), let sent := fun (x : State) (b : List Byte) => { x with host := { x.host with out := b } }
    (s.host.entries = [] → exec (.spiRead n) s = .next (sent s (List.replicate n 0))) ∧
    ∀ e rest, s.host.entries = e :: rest → (s.entryRead e).host.entries = rest ∧
      (n < (entryBytes e).length → exec (.spiRead n) s = .next (sent s ((entryBytes e).take n)) ∧
        ∀ m, (entryBytes e).length ≤ m → ∃ t, exec (.spiRead m) (sent s ((entryBytes e).take n)) = .next t ∧
          t.host.out.take (entryBytes e).length = entryBytes e) ∧
      ((entryBytes e).length ≤ n → ∃ u, exec (.spiRead (n - (entryBytes e).length)) (s.entryRead e) = .next u ∧
        exec (.spiRead n) s = .next (sent u (entryBytes e ++ u.host.out)))

/-- O12. A READ of exactly the head entry's length leaves that tag's flight exactly where the entry is a reply
or a completion with a status other than ACCEPTED and DEFERRED, and takes a width that waited for the reply
into use; SPI_REREAD sends the entry most recently removed again, and SPI_SINGLE returns the width to
single. -/
def Obligations.TagsAreFreedByReading : Prop :=
  ∀ s : State,
    (∀ e rest, s.host.entries = e :: rest → ∃ t, exec (.spiRead (entryBytes e).length) s = .next t ∧
      t.host.entries = rest ∧ t.host.last = some e ∧ t.host.out = entryBytes e ∧
      (e.place = .completion → e.status ≠ 1 → e.status ≠ 2 → t.host.tags = s.host.tags.filter (· != e.tag) ∧
        ∀ w, s.host.widthNext = some (e.tag, w) → e.op = 4 → t.host.width = w ∧ t.host.widthNext = none) ∧
      (e.place ≠ .completion ∨ e.status = 1 ∨ e.status = 2 → t.host.tags = s.host.tags ∧
        t.host.width = s.host.width)) ∧
    (∀ e, s.host.last = some e →
      exec .spiReread s = .next { s with host := { s.host with out := entryBytes e } }) ∧
    exec .spiSingle s = .next { s with host := { s.host with width := 0, out := [] } }

/-- O13. Before boot completes SPI_WRITE changes nothing. Afterwards, of a packet with SYNC 0xA7 and its length
as announced, a CRC that does not match gives BAD_CRC; one with FLAGS not 0 or tag 0xFF BAD_PARAM; else an
unassigned opcode BAD_OPCODE; else a length its opcode does not allow BAD_LENGTH; else a tag in flight BUSY;
else with 32 tags in flight QFULL; and else it is accepted, its tag in flight and its command in its queue.
A packet without SYNC or shorter than 10 bytes is discarded without an entry and counted. That the CRC is
the last four bytes received is log entry 51. -/
def Obligations.FrontEndChecksInOrder : Prop :=
  ∀ (op tag flags : Byte) (ps c : List Byte) (s : State), ps.length ≤ 1024 → c.length = 4 →
    let head := [0xA7, op, tag, flags] ++ toBytes 2 ps.length ++ ps
    let s' := { s with host := { s.host with out := [] } }
    let k := packetOf op.toNat tag ps
    let refused := fun (st : Nat) => exec (.spiWrite (head ++ c)) s = .next (s'.refuse op.toNat tag.toNat st)
    (s.booted = false → exec (.spiWrite (head ++ c)) s = .next s) ∧
    (s.booted = true →
      (∀ b, b.length < 10 ∨ b.head? ≠ some 0xA7 → exec (.spiWrite b) s = .next (s'.cntEvent 0x52)) ∧
      (c ≠ crcBytes head → refused 0x13) ∧
      (c = crcBytes head →
        (flags ≠ 0 ∨ tag = 0xFF → refused 0x12) ∧
        (flags = 0 → tag ≠ 0xFF →
          (hostLenOk op.toNat ps.length = none → refused 0x10) ∧
          (hostLenOk op.toNat ps.length = some false → refused 0x11) ∧
          (hostLenOk op.toNat ps.length = some true →
            (tag.toNat ∈ s.host.tags → refused 0x21) ∧
            (tag.toNat ∉ s.host.tags → 32 ≤ s.host.tags.length → refused 0x20) ∧
            (tag.toNat ∉ s.host.tags → s.host.tags.length < 32 →
              exec (.spiWrite (head ++ c)) s = .next (s'.enqueue k))))))

/-- O14. For each of the 80 host commands: before boot completes nothing changes; a packet that does not wait
yet is received at the front end, and is not to be taken up before an edge has passed; one that waits and is
not next waits on; where it is its turn and the unit is RETIRED, every command but those of R436 replies
LIFECYCLE; and in loader mode every command but those of R333 does. In each refusal the packet has left its
queue and nothing else changes. That a row receives its packet where it does not wait, and takes it up where
it does, is the model's reading (log entry 50). -/
def Obligations.HostCommandsInTheirTurn : Prop :=
  ∀ (tag : Byte) (ps : List Byte) (s u : State),
    ∀ x ∈ ([(0x00, Instr.hostNop tag ps), (0x01, .unitInfo tag ps), (0x02, .unitStatus tag ps),
         (0x03, .unitProfile tag ps), (0x04, .hostLinkSet tag ps), (0x05, .indicatorSet tag ps),
         (0x06, .unitReset tag ps), (0x07, .quadSet tag ps), (0x08, .quadStatus tag ps),
         (0x10, .portEnable tag ps), (0x11, .portDisable tag ps), (0x12, .portStatus tag ps),
         (0x13, .portMeasure tag ps), (0x14, .portSet tag ps), (0x15, .portGet tag ps),
         (0x16, .portRecover tag ps)] ++
        [(0x30, Instr.pdCapsSet tag ps), (0x31, .pdReplySet tag ps), (0x32, .pdAnswer tag ps),
         (0x33, .pdSend tag ps), (0x34, .pdSwap tag ps), (0x35, .pdEpr tag ps),
         (0x36, .pdSoftReset tag ps), (0x37, .pdHardReset tag ps), (0x38, .pdCableReset tag ps),
         (0x39, .pdBist tag ps), (0x3A, .pdStatus tag ps), (0x3B, .pdReplyGet tag ps),
         (0x50, .modeMapSet tag ps), (0x51, .muxSet tag ps), (0x52, .muxStatus tag ps),
         (0x60, .pairStatus tag ps)] ++
        [(0x61, Instr.pairHandover tag ps), (0x62, .pairWithdraw tag ps), (0x63, .pairRebalance tag ps),
         (0x64, .pairRetrain tag ps), (0x65, .pairCfgSet tag ps), (0x70, .weirStatus tag ps),
         (0x71, .weirClear tag ps), (0x72, .weirClassSet tag ps), (0x73, .weirForce tag ps),
         (0x74, .wdgStatus tag ps), (0x80, .cntConfig tag ps), (0x81, .cntRead tag ps),
         (0x82, .cntClear tag ps), (0x83, .logMark tag ps), (0x84, .logRead tag ps),
         (0x85, .logStatus tag ps)] ++
        [(0x90, Instr.cfgWrite tag ps), (0x91, .cfgCommit tag ps), (0x92, .cfgConfirm tag ps),
         (0x93, .cfgRevert tag ps), (0x94, .cfgStatus tag ps), (0x95, .cfgRead tag ps),
         (0x96, .cfgPairSync tag ps), (0xA0, .calRun tag ps), (0xA1, .calSave tag ps),
         (0xA2, .calConfirm tag ps), (0xA3, .calRevert tag ps), (0xA4, .calStatus tag ps),
         (0xB0, .fwStageBegin tag ps), (0xB1, .fwStageData tag ps), (0xB2, .fwStageEnd tag ps),
         (0xB3, .fwActivate tag ps)] ++
        [(0xB4, Instr.fwStatus tag ps), (0xB5, .fwPairSync tag ps), (0xC0, .otpRead tag ps),
         (0xC1, .otpProgram tag ps), (0xC2, .otpLock tag ps), (0xC3, .otpStatus tag ps),
         (0xC4, .lcAdvance tag ps), (0xD0, .regRead tag ps), (0xD1, .regWrite tag ps),
         (0xD2, .memRead tag ps), (0xD3, .memWrite tag ps), (0xD4, .engineStatus tag ps),
         (0xE0, .presenceStatus tag ps), (0xE1, .timeBind tag ps), (0xE2, .timeRead tag ps),
         (0xE3, .presenceEnd tag ps)] : List (Nat × Instr)),
      let k := packetOf x.1 tag ps
      (s.booted = false → exec x.2 s = .next s) ∧
      (s.booted = true → s.waits k = false →
        exec x.2 s = .next (s.frontEnd k 0) ∧ (s.frontEnd k 0).upNext k = false) ∧
      (s.booted = true → s.waits k = true → s.upNext k = false → exec x.2 s = .next s) ∧
      (s.booted = true → s.waits k = true → s.upNext k = true → u = s.takeUp k →
        (u.fget OTP_LCST.LC = 4 → x.1 ∉ [0x01, 0x02, 0x70, 0x74, 0x80, 0x81, 0x82, 0x84, 0x85, 0xC0, 0xC3, 0xE0,
          0xE2] → exec x.2 s = .next (u.reply x.1 tag 0x32)) ∧
        (u.boot.loader = true → loaderOp x.1 ps = false → exec x.2 s = .next (u.reply x.1 tag 0x32)))

/-! ## Host commands (chapter 11) -/

/-- O15. NOP, UNIT_INFO, UNIT_STATUS, PAIR_STATUS, WEIR_STATUS, WDG_STATUS, CNT_READ, LOG_STATUS, CFG_STATUS,
CAL_STATUS, FW_STATUS, OTP_STATUS, ENGINE_STATUS, PRESENCE_STATUS and TIME_READ, served in their turn,
answer a next state that is the state in which the packet has left its queue with one completion entry of
status 0 and the reply's data added; for LOG_STATUS, CFG_STATUS, CAL_STATUS and OTP_STATUS the data are
spelled out field by field, and TIME_READ's cycle within the tick is existential (log entry 2). -/
def Obligations.HostQueriesAnswer : Prop :=
  ∀ (tag : Byte) (ps : List Byte) (s u : State),
    (∀ x ∈ [(0x00, Instr.hostNop tag ps, []), (0x01, .unitInfo tag ps, u.unitInfo),
        (0x02, .unitStatus tag ps, u.unitStatus), (0x60, .pairStatus tag ps, u.pairStatus),
        (0x70, .weirStatus tag ps, u.weirStatus), (0x74, .wdgStatus tag ps, u.wdgStatus),
        (0x81, .cntRead tag ps, u.cntRead (ofBytes (ps.take 4))), (0xE0, .presenceStatus tag ps, u.presenceData),
        (0xD4, .engineStatus tag ps, (List.range 17).flatMap u.engineStatus),
        (0x85, .logStatus tag ps, toBytes 4 (u.fget LOG_OLDEST.NUM) ++ toBytes 4 (u.fget LOG_NEXT.NUM) ++
          toBytes 4 (u.fget LOG_WRAP.COUNT) ++ [0, 0, 0, 0]),
        (0x94, .cfgStatus tag ps, toBytes 2 (u.fget DEV_CFGST.INFORCE) ++ toBytes 2 (u.fget DEV_CFGST.TRIAL) ++
          toBytes 2 (u.fget DEV_CFGST.LEFT) ++ toBytes 2 (u.fget DEV_CFGST.PREV) ++
          [byte (u.versions 0).length, 0, 0, 0, 0, 0, 0, 0]),
        (0xA4, .calStatus tag ps, [byte (u.fget DEV_CALST.INFORCE), byte (u.fget DEV_CALST.TRIAL)] ++
          toBytes 2 (u.fget DEV_CALST.LEFT) ++ [byte (u.fget DEV_CALST.PREV), 0, 0, 0]),
        (0xC3, .otpStatus tag ps, toBytes 2 (u.fget OTP_LOCKST.WL) ++ toBytes 2 (u.fget OTP_LOCKST.RL) ++
          toBytes 2 (u.fget OTP_REGST.GOOD) ++ toBytes 2 (u.fget OTP_REGST.MARG) ++
          [byte u.lifeCycle, byte u.pwire, 0, 0, 0, 0, 0, 0])],
      Served x.1 tag ps s u → exec x.2.1 s = .next (u.reply x.1 tag 0 x.2.2)) ∧
    (Served 0xB4 tag ps s u → ∃ d, exec (.fwStatus tag ps) s = .next (u.reply 0xB4 tag 0 d) ∧ d.length = 24 ∧
      d.take 3 = [byte u.runSlot, byte (u.fget DEV_FWST.NEXT),
        byte (if u.fw.session.isSome then 1 else if u.fw.complete then 2 else 0)]) ∧
    (Served 0xE2 tag ps s u → ∃ cycle < 2000, exec (.timeRead tag ps) s =
      .next ({ u with free := u.free + 1 }.reply 0xE2 tag 0 (toBytes 6 (u.rget TICK_COUNT.reg) ++
        toBytes 2 cycle ++ toBytes 8 u.hostTime ++ toBytes 6 (u.rget TICK_HTICK.reg) ++
        toBytes TICK_STATUS.reg.bytes (u.rget TICK_STATUS.reg))))

/-- O16. With a legal port prefix PORT_STATUS, PORT_MEASURE, MUX_STATUS, PD_STATUS and PD_REPLY_GET, with a
legal list of offsets PORT_GET, with a legal quad QUAD_STATUS, with COUNT 1 to 31 LOG_READ, for a version
held and a range inside it CFG_READ, for words in a readable region OTP_READ, for a legal debug address with
a register REG_READ, and outside a debug lock MEM_READ, each served in its turn, answer SUCCESS with their
data; MIRR (bit 2 of the flags) is set exactly where a port's answer comes from its mirror record. Nothing
else changes but the fields REG_READ clears by reading. LOG_READ and CFG_READ record a flash word found
uncorrectable, over which CFG_READ replies HW_FAULT instead (R413). -/
def Obligations.PortQueriesAnswer : Prop :=
  ∀ (tag : Byte) (ps : List Byte) (s u : State),
    let p := par ps 0 1
    let mirr := if u.owns p then 0 else 4
    (badPort ps = false →
      (Served 0x12 tag ps s u → exec (.portStatus tag ps) s = .next (u.reply 0x12 tag 0 (u.portStatus p) mirr)) ∧
      (Served 0x13 tag ps s u → exec (.portMeasure tag ps) s = .next (u.reply 0x13 tag 0 (u.portMeasure p))) ∧
      (Served 0x52 tag ps s u → exec (.muxStatus tag ps) s = .next (u.reply 0x52 tag 0
        (u.portBytes p PRT_MUX.reg ++ u.portBytes p PRT_MUXCFG.reg ++ u.portBytes p PRT_MODEST.reg) mirr)) ∧
      (Served 0x3A tag ps s u → exec (.pdStatus tag ps) s = .next (u.reply 0x3A tag 0 (u.pdStatus p) mirr)) ∧
      (Served 0x3B tag ps s u → u.owns p = true → exec (.pdReplyGet tag ps) s = .next (u.reply 0x3B tag 0
        ((List.range 16).flatMap fun e => u.rbytes (PRT_PDRT.reg e) p)))) ∧
    (∀ off a, Served 0x15 tag ps s u → badPort ps = false → ps = ps.take 4 ++ toBytes 2 off ++ [0, 0] →
      ps.length = 8 → off < 65536 → getReg off = some a →
      exec (.portGet tag ps) s = .next (u.reply 0x15 tag 0 (toBytes 4 (u.portReg p a.1 / 256 ^ a.2)) mirr)) ∧
    (Served 0x08 tag ps s u → p ≤ 3 → zeroAt ps 1 3 = true → exec (.quadStatus tag ps) s = .next (u.reply 0x08 tag 0
      (u.rbytes QD_JCFG.reg p ++ u.rbytes QD_JST.reg p ++ u.rbytes QD_JEV.reg p ++
        [byte (u.fget QD_JCFG.SEG p), 0, 0, 0]))) ∧
    (Served 0x84 tag ps s u → 1 ≤ par ps 4 1 → par ps 4 1 ≤ 31 → zeroAt ps 5 3 = true →
      exec (.logRead tag ps) s = .next ((((u.logFrom (par ps 0 4) (par ps 4 1)).2.filterMap id).foldl
        (fun t a => t.flashReader a 32 id id) u).reply 0x84 tag 0 (u.logRead (par ps 0 4) (par ps 4 1)))) ∧
    (∀ i, Served 0x95 tag ps s u → zeroAt ps 2 2 = true → zeroAt ps 10 2 = true → 1 ≤ par ps 8 2 →
      par ps 8 2 ≤ 1016 → u.placeOf 0 (par ps 0 2) = some i → par ps 4 4 + par ps 8 2 ≤ u.recSize 0 i →
      exec (.cfgRead tag ps) s = .next (match u.flashBad (placeAddr 0 i + par ps 4 4) (par ps 8 2) with
        | some w => (u.eccUncorrectable 0x45 w).reply 0x95 tag 0x60
        | none => u.reply 0x95 tag 0 (u.flashRead (placeAddr 0 i + par ps 4 4) (par ps 8 2)))) ∧
    (Served 0xC0 tag ps s u → p ≤ 15 → par ps 2 1 ≤ 7 → 1 ≤ par ps 3 1 → par ps 2 1 + par ps 3 1 ≤ 8 →
      zeroAt ps 1 1 = true → u.otpRefusal 0 p (par ps 2 1) false 0 ≠ 0x31 →
      ∃ flags, exec (.otpRead tag ps) s = .next (u.reply 0xC0 tag 0 (((List.range (par ps 3 1)).flatMap fun j =>
        toBytes 8 (if 5 ≤ p ∧ bit (u.fget OTP_REGST.DEFLT) p = true then 0
          else u.otp.normal.get 0 (8 * p + par ps 2 1 + j))) ++ [flags]))) ∧
    (∀ a, Served 0xD0 tag ps s u → debugAddr ps = some a → (regAt a).isSome = true →
      exec (.regRead tag ps) s = .next ((u.debugRead 8 a (par ps 3 1)).2.reply 0xD0 tag 0
        (u.debugRead 8 a (par ps 3 1)).1)) ∧
    (∀ m, Served 0xD2 tag ps s u → u.debugMem ps = some m → u.fon OTP_LCST.DBGLOCK = false →
      exec (.memRead tag ps) s = .next (u.reply 0xD2 tag 0 (u.memRead m.2.1 m.2.2 (par ps 4 2))))

/-- O17. With legal parameters, presence where it is needed, and outside the unit safe state where that matters,
each command served in its turn answers a next state with exactly its effect: UNIT_PROFILE (not Low Water
over an EPR, PPS or AVS contract, nothing moving) is due at the next edge, or in a pair at the edge after it
and the reply waits; HOST_LINK_SET sets the event mask at once and the width for when its reply has been
read; INDICATOR_SET writes the indicator bits under the mask; UNIT_RESET replies and resets once the reply
has been read; QUAD_SET writes the quad's configuration; PAIR_CFG_SET writes HOME and the delay; TIME_BIND
binds at an edge at least two ticks ahead; PRESENCE_END ends a button window. -/
def Obligations.UnitCommandsAct : Prop :=
  ∀ (tag : Byte) (ps : List Byte) (s u : State),
    let x := par ps 0 1
    let old := u.fget DEV_MUXIND.IND
    (Served 0x03 tag ps s u → 1 ≤ x → x ≤ 3 → zeroAt ps 1 3 = true →
      (x = 3 → ∀ p < 16, u.busyContract p = false) → u.moving = false → u.swapping = false → u.paired = false →
      exec (.unitProfile tag ps) s = .next ((u.profileAt x (u.tick + 1)).reply 0x03 tag 0)) ∧
    (Served 0x03 tag ps s u → 1 ≤ x → x ≤ 3 → zeroAt ps 1 3 = true →
      (x = 3 → ∀ p < 16, u.busyContract p = false) → u.moving = false → u.swapping = false → u.paired = true →
      exec (.unitProfile tag ps) s = .next (({ u with prof := { u.prof with
        wake := u.prof.wake || u.lowWater, request := some (x, u.tick) } }.profileAt x (u.tick + 2)).answerLater
          0x03 tag)) ∧
    (Served 0x04 tag ps s u → x ≤ 2 → zeroAt ps 1 1 = true → (bit (u.fget DEV_STRAP.STRAP) 2 = true → x = 0) →
      exec (.hostLinkSet tag ps) s = .next ({ u with host := { u.host with
        evMask := par ps 2 2, widthNext := some (tag.toNat, x) } }.reply 0x04 tag 0)) ∧
    (Served 0x05 tag ps s u → par ps 0 2 < 2 ^ 14 → par ps 2 2 < 2 ^ 14 →
      exec (.indicatorSet tag ps) s = .next ((u.fset DEV_MUXIND.IND 0
        (old - (old &&& par ps 2 2) + (par ps 0 2 &&& par ps 2 2))).reply 0x05 tag 0)) ∧
    (Served 0x06 tag ps s u → zeroAt ps 1 3 = true → (x = 1 ∧ (u.paired = false ∨ u.fget PAIR_ST.OWN = 0) ∨
        x = 2 ∧ u.absent = false) →
      exec (.unitReset tag ps) s = .next ((u.reply 0x06 tag 0).resetWhenRead tag)) ∧
    (Served 0x07 tag ps s u → x ≤ 3 → zeroAt ps 1 3 = true → regLegal QD_JCFG.reg (par ps 4 4) = true →
      bits (par ps 4 4) 8 8 = u.fget QD_JCFG.SEG x → u.absent = false → u.unitSafe = false →
      exec (.quadSet tag ps) s =
        .next ((u.regWrite 17 QD_JCFG.reg x (par ps 4 4) 0xFFFFFFFF).reply 0x07 tag 0)) ∧
    (Served 0x65 tag ps s u → zeroAt ps 3 1 = true → exec (.pairCfgSet tag ps) s =
      .next (((u.fset PAIR_CFG.HOME 0 (par ps 0 2)).fset PAIR_CFG.REBALDLY 0 (par ps 2 1)).reply 0x65 tag 0)) ∧
    (Served 0xE1 tag ps s u → zeroAt ps 14 2 = true → (par ps 8 6 = 0 ∨ u.tick + 2 ≤ par ps 8 6) →
      exec (.timeBind tag ps) s = .next ((u.onPair fun h => { h with
        bind := some (if par ps 8 6 = 0 then u.tick + 2 else par ps 8 6, par ps 0 8),
        bindAt := some u.tick }).answerLater 0xE1 tag)) ∧
    (Served 0xE3 tag ps s u → exec (.presenceEnd tag ps) s =
      .next ((if u.pres.window.isSome then u.presEnd else u).reply 0xE3 tag 0))

/-- O18. A UNIT_PROFILE with PROFILE 3 that is served while any port of the unit or its twin has an EPR mode or
a contract of type PPS or AVS replies WRONG_STATE and changes nothing else. -/
def Obligations.LowWaterRefusedOverContracts : Prop :=
  ∀ (tag : Byte) (s u : State) (p : Nat), Served 0x03 tag [3, 0, 0, 0] s u → p < 16 →
    (u.owns p = true ∧ (3 ≤ u.fget PRT_CONTRACT.TYPE p ∨ u.fon PRT_PDST.EPR p = true) ∨
      u.owns p = false ∧ bit (u.fget PAIR_SHOK.TWINOWN) p = true ∧
        (3 ≤ bits (u.recWord (inBuf p) 1) 31 29 ∨ bit (u.recWord (inBuf p) 1) 55 = true)) →
    exec (.unitProfile tag [3, 0, 0, 0]) s = .next (u.reply 0x03 tag 0x22)

/-- O19. A UNIT_PROFILE with PROFILE 1 or 2 that is served while a handover or takeover, a code swap or an
activation is in progress replies DEFERRED, stays open, and becomes the one deferred profile; an earlier
deferred UNIT_PROFILE completes WRONG_STATE (the model's choice of the status with which it ends: log entry
136). Nothing else changes. -/
def Obligations.ProfileChangeDefers : Prop :=
  ∀ (tag : Byte) (s u : State) (x : Nat) (d : Option (Nat × Nat)), x = 1 ∨ x = 2 →
    Served 0x03 tag [byte x, 0, 0, 0] s u → (u.moving = true ∨ u.swapping = true) → u.prof.deferred = d →
    let v := match d with
      | some e => u.complete 0x03 e.2 0x22
      | none => u
    exec (.unitProfile tag [byte x, 0, 0, 0]) s = .next (({ v with prof := { v.prof with
      deferred := some (x, tag.toNat) } }.reply 0x03 tag 2).openCmd 0x03 tag)

/-- O20. On a paired unit, served in turn with legal parameters: PAIR_RETRAIN restarts training and replies
SUCCESS; the other three reply ACCEPTED, stay open and start their handover, withdrawal or rebalancing where
the pair accepts it, and otherwise reply with the reason alone. On an unpaired unit each is refused
WRONG_STATE. -/
def Obligations.PairCommandsAct : Prop :=
  ∀ (tag : Byte) (ps : List Byte) (s u : State),
    let opened := fun (op : Nat) => (u.reply op tag 1).openCmd op tag
    let cmd := fun (op : Nat) => some (op, tag.toNat)
    let run := fun (op : Nat) (r : Nat × State) => if r.1 = 0 then r.2 else u.reply op tag r.1
    (Served 0x64 tag ps s u → u.paired = true →
      exec (.pairRetrain tag ps) s = .next (u.retrain.reply 0x64 tag 0)) ∧
    (Served 0x61 tag ps s u → u.paired = true → par ps 0 1 = 1 ∨ par ps 0 1 = 2 → zeroAt ps 1 1 = true →
      par ps 2 2 ≠ 0 → exec (.pairHandover tag ps) s = .next (run 0x61
        ((opened 0x61).propose (decide (par ps 0 1 = 2)) (par ps 2 2) (cmd 0x61) false false))) ∧
    (Served 0x62 tag ps s u → u.paired = true →
      exec (.pairWithdraw tag ps) s = .next (run 0x62 ((opened 0x62).withdraw (cmd 0x62)))) ∧
    (Served 0x63 tag ps s u → u.paired = true →
      exec (.pairRebalance tag ps) s = .next (run 0x63 ((opened 0x63).rebalance (cmd 0x63)))) ∧
    (u.paired = false → ∀ x ∈ [(0x62, Instr.pairWithdraw tag ps), (0x63, .pairRebalance tag ps),
      (0x64, .pairRetrain tag ps)], Served x.1 tag ps s u → exec x.2 s = .next (u.reply x.1 tag 0x22))

/-- O21. On a port that the unit owns, outside the unit safe state, served in turn with legal parameters:
PORT_ENABLE ends an open deferral and then answers WRONG_STATE in power state 5, DEFERRED while the path
discharges or Off is younger than t_OFF_MIN, forces the port out of Disabled, or enables at once;
PORT_DISABLE and PORT_RECOVER force Disabled and error recovery, replying when the attach block has taken
the value; PORT_SET writes its entries in order (safety-class fields only with presence); MODE_MAP_SET and
MUX_SET act only while no mode is entered. -/
def Obligations.PortCommandsAct : Prop :=
  ∀ (tag : Byte) (ps : List Byte) (s u : State),
    let p := par ps 0 1
    let l := setEntries ((ps.length - 4) / 8) (ps.drop 4)
    let e := u.endDefer p 0x22
    let maps := [par ps 4 1, par ps 5 1, par ps 6 1, par ps 7 1]
    badPort ps = false → u.owns p = true →
    (Served 0x11 tag ps s u →
      exec (.portDisable tag ps) s = .next (e.forceWrite p 2 (some ⟨0x11, tag.toNat, false⟩))) ∧
    (u.unitSafe = false →
      (Served 0x10 tag ps s u →
        (e.pwrState p = 5 → exec (.portEnable tag ps) s = .next (e.reply 0x10 tag 0x22)) ∧
        (e.pwrState p = 4 ∨ e.pwrState p = 0 ∧ (e.pwr p).offMin.isSome = true →
          exec (.portEnable tag ps) s = .next (((((e.fset PRT_PWRST.DEFER p 1).onPwr p fun h =>
            { h with deferTag := some tag.toNat }).reply 0x10 tag 2).openCmd 0x10 tag p).cntEvent 0x29 (some p))) ∧
        (e.pwrState p ≠ 5 → e.pwrState p ≠ 4 → (e.pwr p).offMin = none → exec (.portEnable tag ps) s =
          .next (if e.attState p = 0 then e.forceWrite p 3 (some ⟨0x10, tag.toNat, false⟩)
            else (e.enableOff p).reply 0x10 tag 0))) ∧
      (Served 0x14 tag ps s u → l.any badEntry = false → (l.any safetyEntry = true → u.absent = false) →
        exec (.portSet tag ps) s = .next ((l.foldl (fun s e => s.setEntry p e) u).reply 0x14 tag 0)) ∧
      (Served 0x16 tag ps s u → exec (.portRecover tag ps) s = .next (if u.attState p = 0 then u.reply 0x16 tag 0x22
        else u.forceWrite p 1 (some ⟨0x16, tag.toNat, false⟩))) ∧
      (Served 0x50 tag ps s u → u.fget DEV_SVID.SVID ≠ 0 → (∀ m ∈ maps, m ∈ [0, 3, 4, 5, 6]) →
        u.modeBusy p = false → exec (.modeMapSet tag ps) s = .next ((((((u.fset PRT_MUXCFG.MAP1 p
          (par ps 4 1)).fset PRT_MUXCFG.MAP2 p (par ps 5 1)).fset PRT_MUXCFG.MAP3 p (par ps 6 1)).fset
          PRT_MUXCFG.MAP4 p (par ps 7 1)).writeMaps p).extChanged { port := p, op := 0x50, tag := tag.toNat })) ∧
      (Served 0x51 tag ps s u → par ps 4 1 ≤ 13 → zeroAt ps 5 3 = true → u.modeBusy p = false →
        attached (u.attState p) = true →
        exec (.muxSet tag ps) s = .next ((u.setMux p (par ps 4 1 / 2)).reply 0x51 tag 0)))

/-- O22. For PORT_SET, PORT_RECOVER, PD_SEND, PD_SWAP, PD_SOFT_RESET and PD_BIST served in turn with all
parameters legal: in the unit safe state the reply is HW_FAULT whoever owns the port; otherwise, on a port
that the unit does not own, it is NOT_OWNER; and a bad port prefix is BAD_PARAM before either. Nothing but
the reply is changed. -/
def Obligations.PortCommandsRefuse : Prop :=
  ∀ (tag : Byte) (ps : List Byte) (s u : State),
    let p := par ps 0 1
    let l := setEntries ((ps.length - 4) / 8) (ps.drop 4)
    let m := msgOfBytes (par ps 4 1) (ps.drop 8)
    let sent := par ps 4 1 ≤ 2 ∧ zeroAt ps 5 3 = true ∧ sendRefused.contains m.code = false ∧
      (m.ext = true → bit (ofBytes (m.data.take 2)) 15 = true) ∧
      (u.enterMode m = true → u.modeCfg p (vdmPos (m.obj 0)) ≠ 0)
    ∀ x ∈ [(0x14, Instr.portSet tag ps, l.any badEntry = false ∧ l.any safetyEntry = false),
        (0x16, .portRecover tag ps, True), (0x33, .pdSend tag ps, sent),
        (0x34, .pdSwap tag ps, 1 ≤ par ps 4 1 ∧ par ps 4 1 ≤ 3 ∧ zeroAt ps 5 3 = true),
        (0x36, .pdSoftReset tag ps, par ps 4 1 ≤ 2 ∧ zeroAt ps 5 3 = true),
        (0x39, .pdBist tag ps, (par ps 4 1 = 5 ∨ par ps 4 1 = 8) ∧ zeroAt ps 5 3 = true)],
      Served x.1 tag ps s u →
      (badPort ps = true → exec x.2.1 s = .next (u.reply x.1 tag 0x12)) ∧
      (badPort ps = false → x.2.2 → u.unitSafe = true → exec x.2.1 s = .next (u.reply x.1 tag 0x60)) ∧
      (badPort ps = false → x.2.2 → u.unitSafe = false → u.owns p = false →
        exec x.2.1 s = .next (u.reply x.1 tag 0x40))

/-- O23. On a port that the unit owns whose link runs, outside the unit safe state, served in turn with legal
parameters and room in the host queue: PD_CAPS_SET writes its capability block and PD_REPLY_SET its table
entries and both go to the twin; PD_SEND, PD_SWAP and PD_EPR queue their message (an EPR exit at the head)
and reply ACCEPTED; PD_SOFT_RESET, PD_HARD_RESET and PD_CABLE_RESET reply ACCEPTED and start their reset;
PD_BIST replies ACCEPTED and, outside its two conditions, starts the carrier or test data and completes;
PD_ANSWER to the open raise stops the answer timer, gives the reply its ACTION asks for and replies SUCCESS. -/
def Obligations.PdCommandsAct : Prop :=
  ∀ (tag : Byte) (ps : List Byte) (s u : State),
    let p := par ps 0 1
    let x := par ps 4 1
    let d := ps.drop 8
    let cmd := fun (op : Nat) => some (op, tag.toNat)
    let opened := fun (op : Nat) => (u.reply op tag 1).openCmd op tag p
    let m := msgOfBytes x d
    let now := u.fget PRT_ROLE.SWAP p
    let entries := (maskBits (par ps 4 2)).zipIdx.map fun (e : Nat × Nat) => (e.1, par ps (8 + 8 * e.2) 8)
    badPort ps = false → u.unitSafe = false → u.owns p = true →
    (Served 0x30 tag ps s u → x ≤ 10 → capsLenOk x (par ps 5 1) d = true → zeroAt ps 6 2 = true →
      (x = 0 ∨ x = 2 → d = [] ∨ fixed5V (par d 0 4) = true) → exec (.pdCapsSet tag ps) s =
        .next ((u.setCaps p x d).extChanged { port := p, op := 0x30, tag := tag.toNat, caps := decide (x ≤ 1) })) ∧
    (Served 0x31 tag ps s u → ps.length = 8 + 8 * entries.length → zeroAt ps 6 2 = true →
      (∀ e ∈ entries, badReplyEntry (u.eget PRT_CCCFG.ROLE p == 2) e.2 = false) → exec (.pdReplySet tag ps) s =
        .next ((entries.foldl (fun s (e : Nat × Nat) => s.extWrite p (8 * e.1) (toBytes 8 e.2)) u).extChanged
          { port := p, op := 0x31, tag := tag.toNat, table := entries })) ∧
    (∀ r a, Served 0x32 tag ps s u → (u.pd p).raise = some r → r.num = par ps 4 2 → par ps 6 1 = a → a ≤ 4 →
      zeroAt ps 7 1 = true → (a = 4 → 2 ≤ d.length) → (a ≠ 4 → d = []) →
      let w := msgOfBytes r.msg.sop d
      u.badAnswer p a r.msg w = false → (a = 4 → w.ext = true → u.rev2 p = false) →
      let v := (u.onPd p fun h => { h with raise := none }).timStop p 2
      exec (.pdAnswer tag ps) s = .next ((v.answering p fun t => if v.tKind p r.msg ≠ 0
        then t.answerT p r.msg (v.tKind p r.msg) a w else t.answerOther p r.msg a w).reply 0x32 tag 0)) ∧
    (u.queueFull p = false →
      (Served 0x33 tag ps s u → x ≤ 2 → zeroAt ps 5 3 = true → sendRefused.contains m.code = false →
        (m.ext = true → bit (ofBytes (m.data.take 2)) 15 = true ∧ u.rev2 p = false) →
        (u.enterMode m = true → u.modeCfg p (vdmPos (m.obj 0)) ≠ 0 ∧ u.fon PRT_ROLE.DATA p = true) →
        u.linkRefuses p x = false →
        ((m.code = Code.request ∨ m.code = Code.eprRequest) → u.isSource p = false) →
        exec (.pdSend tag ps) s = .next (u.hostPost p 0x33 tag m false (u.ackOf p m))) ∧
      (Served 0x34 tag ps s u → zeroAt ps 5 3 = true → u.linkRefuses p 0 = false → (now = 0 ∨ 4 < now) →
        (x = 1 ∧ u.eget PRT_CCCFG.ROLE p = 2 ∨ x = 2 ∧ u.fon PRT_MODEST.ENTERED p = false ∨ x = 3) →
        exec (.pdSwap tag ps) s = .next (u.hostPost p 0x34 tag
          (ctl (if x = 1 then Code.prSwap else if x = 2 then Code.drSwap else Code.vconnSwap)) false)) ∧
      (Served 0x35 tag ps s u → zeroAt ps 6 2 = true → u.linkRefuses p 0 = false →
        (x = 1 → 1 ≤ par ps 5 1 → par ps 5 1 ≤ 240 → u.fon PRT_PDST.EPR p = false → u.isSource p = false →
          exec (.pdEpr tag ps) s = .next (u.hostPost p 0x35 tag (eprModeMsg 1 (par ps 5 1)) false)) ∧
        (x = 2 → par ps 5 1 = 0 → u.fon PRT_PDST.EPR p = true → u.fget PRT_CONTRACT.VOLT p ≤ 1000 →
          exec (.pdEpr tag ps) s = .next (u.hostPost p 0x35 tag (eprModeMsg 5 0) true .eprExit)))) ∧
    (Served 0x36 tag ps s u → x ≤ 2 → zeroAt ps 5 3 = true → u.linkRefuses p x = false →
      exec (.pdSoftReset tag ps) s = .next ((opened 0x36).softReset p x (cmd 0x36))) ∧
    (Served 0x37 tag ps s u → u.linkRuns p = true → u.fget PRT_PDST.ESCSTEP p ≠ 3 →
      exec (.pdHardReset tag ps) s = .next ((opened 0x37).hardReset p (cmd 0x37))) ∧
    (Served 0x38 tag ps s u → u.linkRuns p = true → u.vconnSource p = true →
      exec (.pdCableReset tag ps) s = .next ((opened 0x38).cableReset p (cmd 0x38))) ∧
    (Served 0x39 tag ps s u → zeroAt ps 5 3 = true → u.linkRuns p = true →
      let v := opened 0x39
      (x = 5 → v.bistOk p = true →
        exec (.pdBist tag ps) s = .next ((((v.onPd p fun h => { h with carrier := true }).timStart p 14).fset
          PRT_PDEV.BISTEV p 1).complete 0x39 tag.toNat 0)) ∧
      (x = 8 → v.bistOk p = true →
        exec (.pdBist tag ps) s = .next ((v.sendEngine p (dat 3 [8 * 2 ^ 28])).complete 0x39 tag.toNat 0)))

/-- O24. Served in turn with legal parameters: WEIR_CLEAR of sources below class severe (or with presence), with
no latched reaction kept true by a condition and no compatibility hold, clears sticky and severe bits and,
with WHAT bit 1, releases FAULT_N; WEIR_CLASS_SET writes class, N and W of every index the source covers;
WEIR_FORCE sets or clears one force bit and records an event where it rises; CNT_CONFIG writes a counter's
setting; CNT_CLEAR asks for clears at the next edge; LOG_MARK puts one record, or two beyond 12 bytes, in
the strandline and answers the number. All reply SUCCESS and change nothing else. -/
def Obligations.EvidenceCommandsAct : Prop :=
  ∀ (tag : Byte) (ps : List Byte) (s u : State),
    let is := (srcCovers (par ps 0 2)).getD []
    let what := par ps 2 1
    (Served 0x71 tag ps s u → (srcCovers (par ps 0 2)).isSome = true → what < 4 → zeroAt ps 3 1 = true →
      (∀ e ∈ is, u.weirClass e.1 e.2 ≠ 3) → (∀ k ∈ u.latchedBy is, ∀ e ∈ u.latchWatch k, u.weirTrue e.1 e.2 = false) →
      let v := if bit what 0 then u.weirClear is else u
      exec (.weirClear tag ps) s = .next ((if bit what 1 then v.faultReleaseWrite else v).reply 0x71 tag 0)) ∧
    (Served 0x72 tag ps s u → (srcCovers (par ps 0 2)).isSome = true → (par ps 2 1 = 0 ∨ par ps 2 1 = 2 ∨
        par ps 2 1 = 3) → par ps 3 1 ≠ 0 → par ps 4 2 ≠ 0 → zeroAt ps 6 2 = true → u.absent = false →
      exec (.weirClassSet tag ps) s = .next ((is.foldl (fun s e =>
        s.weirSet e (par ps 2 1) (par ps 3 1) (par ps 4 2)) u).reply 0x72 tag 0)) ∧
    (∀ sc i, Served 0x73 tag ps s u → srcCovers (par ps 0 2) = some [(sc, i)] → par ps 0 2 ≠ 0xFFFF → what ≤ 1 →
      zeroAt ps 3 1 = true → u.absent = false →
      let v := u.fbit (forceOf sc) (scIdx sc) i (decide (what = 1))
      exec (.weirForce tag ps) s = .next ((if what = 1 ∧ bit (u.fget (forceOf sc) (scIdx sc)) i = false
        then v.weirEvent sc i else v).reply 0x73 tag 0)) ∧
    (Served 0x80 tag ps s u → par ps 0 1 ≤ 31 → par ps 4 1 < 8 → zeroAt ps 5 3 = true →
      (eventScope (par ps 1 1) = some true ∧ par ps 2 2 ≠ 0 ∨ eventScope (par ps 1 1) = some false ∧ par ps 2 2 = 0) →
      exec (.cntConfig tag ps) s = .next ((u.regWrite 17 (CNT_CFG.reg (par ps 0 1)) 0
        (par ps 4 1 + 256 * par ps 1 1 + 65536 * par ps 2 2) 0xFFFFFFFF).reply 0x80 tag 0)) ∧
    (Served 0x82 tag ps s u → exec (.cntClear tag ps) s =
      .next ((u.fset CNT_CTL.CLR 0 (u.fget CNT_CTL.CLR ||| par ps 0 4)).reply 0x82 tag 0)) ∧
    (Served 0x83 tag ps s u → zeroAt ps 1 1 = true → u.log.buf.length < 255 → ps.length ≤ 14 →
      exec (.logMark tag ps) s = .next ((u.logRec 0x80 (par ps 0 1) (ps.drop 2)).reply 0x83 tag 0
        (toBytes 4 u.logPredict)))

/-- O25. Served in turn with legal parameters, outside their refusals: CFG_WRITE stores its bytes in the staging
buffer; CFG_COMMIT of a legal blob stores it as the next version; CFG_CONFIRM of the running trial, at least
three ticks before its expiry, and CFG_REVERT to a held version with a legal blob (0 names the version
before) apply two ticks on; CFG_PAIR_SYNC sends a confirmed version; CAL_RUN starts a calibration; CAL_SAVE
stores the working trims as the next version; CAL_CONFIRM and CAL_REVERT apply two ticks on. Those that
finish later reply ACCEPTED and stay open. A version over a flash word found uncorrectable is not reverted
to: the reply is HW_FAULT and the word is recorded (R413). -/
def Obligations.StoreCommandsAct : Prop :=
  ∀ (tag : Byte) (ps : List Byte) (s u : State),
    let opened := fun (op : Nat) (port : Nat) => (u.reply op tag 1).openCmd op tag port
    let cmd := fun (op : Nat) => some (op, tag.toNat)
    let off := par ps 0 4
    let v := par ps 0 2
    let c := par ps 0 1
    let back := if v = 0 then u.fget DEV_CFGST.PREV else v
    let calBack := if c = 0 then u.fget DEV_CALST.PREV else c
    let img := u.memRead stageMem 0 off
    let w := if par ps 4 2 = 0 then 60 else par ps 4 2
    (Served 0x90 tag ps s u → off % 8 = 0 → off + (ps.drop 4).length ≤ 65536 →
      exec (.cfgWrite tag ps) s = .next ((u.memWrite stageMem off (ps.drop 4)).reply 0x90 tag 0)) ∧
    (Served 0x91 tag ps s u → 1 ≤ off → off ≤ 65472 → par ps 4 2 ≤ 3600 → zeroAt ps 6 2 = true →
      (blobOf img).isSome = true → u.needsPresence (blobOf img) = false → u.fon DEV_CFGST.TRIAL = false →
      u.moving = false → u.fw.xfer = none → u.cfgPending = false → u.flashFull = false →
      exec (.cfgCommit tag ps) s = .next ((opened 0x91 0xFF).storeAt 0 (u.flashAfter.newPlace 0)
        (u.flashAfter.nextVersion 0) stStored img (.cfgStored tag.toNat (u.flashAfter.nextVersion 0) w
          (u.sending && u.fon PAIR_ST.TWINABLE)))) ∧
    (∀ x, Served 0x92 tag ps s u → zeroAt ps 2 2 = true → v ≠ 0 → u.fget DEV_CFGST.TRIAL = v →
      u.cfg.expiry = some x → u.tick + 2 < x → exec (.cfgConfirm tag ps) s =
        .next ((u.bothApply { edge := u.tick + 2, version := v, how := 2, pair := u.sending }).reply 0x92 tag 0)) ∧
    (∀ i, Served 0x93 tag ps s u → zeroAt ps 2 2 = true → back ≠ 0 → u.needsPresence (u.blobAt back) = false →
      u.placeOf 0 back = some i →
      (∀ w, u.flashBad (placeAddr 0 i) (u.recSize 0 i) = some w → exec (.cfgRevert tag ps) s =
        .next ((u.eccUncorrectable 0x45 w).reply 0x93 tag 0x60)) ∧
      (u.flashSound (placeAddr 0 i) (u.recSize 0 i) = true → (u.blobAt back).isSome = true →
        exec (.cfgRevert tag ps) s = .next ((opened 0x93 0xFF).bothApply
          { edge := u.tick + 2, version := back, how := 4, pair := u.sending, cmd := cmd 0x93 }))) ∧
    (∀ i, Served 0x96 tag ps s u → zeroAt ps 2 2 = true → u.sending = true → u.fon DEV_CFGST.TRIAL = false →
      u.placeOf 0 v = some i → u.recState 0 i = stConfirmed → u.fw.xfer = none →
      exec (.cfgPairSync tag ps) s = .next ((opened 0x96 0xFF).cfgSend v 0 0x96 tag.toNat)) ∧
    (Served 0xA0 tag ps s u → badPort ps = false → u.lowWater = false → u.fon DEV_EDDY.BUSY = false →
      u.fon DEV_EDDY.CHKFAIL = false → exec (.calRun tag ps) s =
        .next ((((u.fset DEV_EDDY.PORT 0 c).calStart c).reply 0xA0 tag 1).openCmd 0xA0 tag c)) ∧
    (Served 0xA1 tag ps s u → zeroAt ps 2 2 = true → u.fon DEV_EDDY.BUSY = false → u.flashFull = false →
      exec (.calSave tag ps) s = .next ((opened 0xA1 0xFF).storeAt 1 (u.flashAfter.newPlace 1)
        (u.flashAfter.nextVersion 1) stStored (u.calBytes v) (.calStored tag.toNat (u.flashAfter.nextVersion 1)))) ∧
    (∀ x, Served 0xA2 tag ps s u → zeroAt ps 1 3 = true → c ≠ 0 → u.fget DEV_CALST.TRIAL = c →
      u.cal.expiry = some x → u.tick + 2 < x → exec (.calConfirm tag ps) s = .next ((u.onVer 1 fun h =>
        { h with next := some { edge := u.tick + 2, version := c, how := 2 } }).reply 0xA2 tag 0)) ∧
    (∀ i, Served 0xA3 tag ps s u → zeroAt ps 1 3 = true → calBack ≠ 0 → u.placeOf 1 calBack = some i →
      (∀ w, u.flashBad (placeAddr 1 i) (u.recSize 1 i) = some w → exec (.calRevert tag ps) s =
        .next ((u.eccUncorrectable 0x45 w).reply 0xA3 tag 0x60)) ∧
      (u.flashSound (placeAddr 1 i) (u.recSize 1 i) = true → (u.calAt calBack).isSome = true →
        exec (.calRevert tag ps) s = .next ((opened 0xA3 0xFF).onVer 1 fun h =>
          { h with next := some { edge := u.tick + 2, version := calBack, how := 4, cmd := cmd 0xA3 } })))

/-- O26. Served in turn with legal parameters and presence, outside their refusals: FW_STAGE_BEGIN erases the
slot and opens a session (the shared pool in loader mode at once); FW_STAGE_DATA programs its bytes into the
slot, replying afterwards, or into the shared pool, replying at once; FW_STAGE_END closes the session with a
descriptor that says whether size, identity and digest agree and no word of the slot is uncorrectable;
FW_ACTIVATE of a complete slot with MODE 2 writes the boot selector and with MODE 1 starts the live
exchange, and of the pool's image in loader mode loads it where it verifies; FW_PAIR_SYNC sends a complete
slot. FW_ACTIVATE replies WRONG_STATE and changes nothing for MODE 1 in Low Water, during a handover,
takeover or activation, and for a slot that is not complete; so does FW_STAGE_BEGIN of the running or the
selected slot. -/
def Obligations.FirmwareCommandsAct : Prop :=
  ∀ (tag : Byte) (ps : List Byte) (s u : State),
    let slot := par ps 0 1
    let size := par ps 4 4
    let ident := par ps 8 4
    let off := par ps 0 4
    let d := ps.drop 4
    let top := max u.fw.staged (off + d.length)
    let opened := fun (op : Nat) => (u.reply op tag 1).openCmd op tag
    (Served 0xB0 tag ps s u → slot ≤ 1 → size ≤ 0x200000 → zeroAt ps 1 3 = true → u.absent = false →
      u.runSlot ≠ slot → u.selected ≠ slot → u.flashFull = false → exec (.fwStageBegin tag ps) s =
        .next ((opened 0xB0).slotErase slot size (.stageOpen tag.toNat slot size ident))) ∧
    (Served 0xB0 tag ps s u → slot = 2 → size ≤ 0x200000 → zeroAt ps 1 3 = true → u.absent = false →
      u.boot.loader = true → u.selected ≠ 2 → exec (.fwStageBegin tag ps) s = .next (((opened 0xB0).onFw fun h =>
        { h with session := some (2, size, ident), staged := 0, complete := false, loaded := false }).complete
          0xB0 tag.toNat 0)) ∧
    (∀ k n x, Served 0xB1 tag ps s u → u.fw.session = some (k, n, x) → off % 8 = 0 → off + d.length ≤ n →
      (k ≠ 2 → u.flashFull = false → exec (.fwStageData tag ps) s =
        .next (u.flashJob (.program (slotBase k + off) d) (.staged tag.toNat top))) ∧
      (k = 2 → exec (.fwStageData tag ps) s = .next (((u.memWrite 0x40 off (d.take (0x80000 - off))).onFw fun h =>
        { h with staged := top }).reply 0xB1 tag 0))) ∧
    (∀ k n x, Served 0xB2 tag ps s u → u.fw.session = some (k, n, x) →
      let ok := imageComplete (u.stagedImage k n) n x ps
      (k ≠ 2 → u.flashFull = false →
        (u.flashSound (slotBase k) n = true → exec (.fwStageEnd tag ps) s = .next ((opened 0xB2).descJob k
          (if ok then 0x5A else 0) x n ps (.stageClosed tag.toNat (if ok then 0 else 0x12) k))) ∧
        (∀ w, u.flashBad (slotBase k) n = some w → exec (.fwStageEnd tag ps) s =
          .next (((opened 0xB2).eccUncorrectable 0x45 w).descJob k 0 x n ps (.stageClosed tag.toNat 0x60 k)))) ∧
      (k = 2 → exec (.fwStageEnd tag ps) s = .next (((opened 0xB2).onFw fun h =>
        { h with session := none, complete := ok, loaded := ok }).complete 0xB2 tag.toNat (if ok then 0 else 0x12)))) ∧
    (Served 0xB3 tag ps s u → zeroAt ps 2 2 = true → u.absent = false → u.moving = false → u.fw.act = none →
      (slot ≤ 1 → u.slotComplete slot = true → u.flashFull = false →
        (par ps 1 1 = 2 → exec (.fwActivate tag ps) s =
          .next ((opened 0xB3).selectorJob slot (.selected tag.toNat slot))) ∧
        (par ps 1 1 = 1 → u.lowWater = false → exec (.fwActivate tag ps) s =
          .next ((opened 0xB3).activate tag.toNat slot))) ∧
      (slot = 2 → par ps 1 1 = 1 → u.boot.loader = true → u.fw.loaded = true →
        exec (.fwActivate tag ps) s = .next ((opened 0xB3).activatePool tag))) ∧
    (Served 0xB5 tag ps s u → slot ≤ 1 → zeroAt ps 1 3 = true → u.absent = false → u.sending = true →
      u.slotComplete slot = true → u.fw.xfer = none →
      exec (.fwPairSync tag ps) s = .next ((opened 0xB5).slotSend slot tag.toNat)) ∧
    (∀ k mode, k ≤ 1 → mode = 1 ∨ mode = 2 → ps = [byte k, byte mode, 0, 0] → Served 0xB3 tag ps s u →
      u.absent = false →
      mode = 1 ∧ u.lowWater = true ∨ u.moving = true ∨ u.fw.act.isSome = true ∨ u.slotComplete k = false →
      exec (.fwActivate tag ps) s = .next (u.reply 0xB3 tag 0x22)) ∧
    (Served 0xB0 tag ps s u → slot ≤ 1 → zeroAt ps 1 3 = true → size ≤ 0x200000 → u.absent = false →
      u.runSlot = slot ∨ u.selected = slot → exec (.fwStageBegin tag ps) s = .next (u.reply 0xB0 tag 0x22))

/-- O27. Served in turn with legal parameters, with presence, and where the fuse controller has no refusal and
is free, the three fuse commands start their operation and reply when it ends; REG_WRITE writes the parts of
the registers it covers and MEM_WRITE the bytes that may be written, outside a debug lock, and reply
SUCCESS. A debug lock refuses both writes with LOCKED and changes nothing else. -/
def Obligations.FuseAndDebugCommandsAct : Prop :=
  ∀ (tag : Byte) (ps : List Byte) (s u : State),
    let r := par ps 0 1
    let x := par ps 1 1
    let cmd := fun (op : Nat) => some (op, tag.toNat)
    let n := par ps 3 1
    (u.absent = false →
      (u.fon OTP_ST.BUSY = false →
        (Served 0xC1 tag ps s u → r ≤ 15 → x ≤ 7 → par ps 2 1 ≤ 1 → zeroAt ps 3 1 = true →
          u.otpRefusal 2 r x (par ps 2 1 == 1) (par ps 4 8) = 0 → exec (.otpProgram tag ps) s =
            .next (u.otpStart ⟨2, r, x, par ps 2 1 == 1, par ps 4 8, cmd 0xC1, false⟩)) ∧
        (Served 0xC2 tag ps s u → r ≤ 15 → x ≤ 3 → zeroAt ps 2 2 = true → u.otpRefusal 3 r 0 false x = 0 →
          exec (.otpLock tag ps) s = .next (u.otpStart ⟨3, r, 0, false, x, cmd 0xC2, false⟩)) ∧
        (Served 0xC4 tag ps s u → slice ps 4 4 = [0x58, 0x4B, 0x4C, byte r] → zeroAt ps 1 3 = true →
          u.otpRefusal 4 r 0 false 0 = 0 →
          exec (.lcAdvance tag ps) s = .next (u.otpStart ⟨4, r, 0, false, 0, cmd 0xC4, false⟩))) ∧
      (∀ a, Served 0xD1 tag ps s u → debugAddr ps = some a → (regAt a).isSome = true →
        zeroAt ps (8 + n) (8 - n) = true →
        (∀ e ∈ debugParts 8 a n (par ps 8 8 % 256 ^ n), u.debugIllegal e = false) →
        exec (.regWrite tag ps) s = .next (if u.fon OTP_LCST.DBGLOCK then u.reply 0xD1 tag 0x31
          else ((debugParts 8 a n (par ps 8 8 % 256 ^ n)).foldl (fun s e =>
            s.regWrite 17 e.1 e.2.1 e.2.2.1 e.2.2.2) u).reply 0xD1 tag 0)) ∧
      (∀ e m o, Served 0xD3 tag ps s u → ps.length = 8 + par ps 4 2 → u.debugMem ps = some (e, m, o) →
        exec (.memWrite tag ps) s = .next (if u.fon OTP_LCST.DBGLOCK then u.reply 0xD3 tag 0x31
          else ((ps.drop 8).zipIdx.foldl (fun (s : State) (b : Byte × Nat) =>
            if s.memOpen e x (par ps 2 2 + b.2) then s.memPut m (o + b.2) b.1 else s) u).reply 0xD3 tag 0)))

/-! ## Mailboxes, locks and registers (chapter 13) -/

/-- O28. Between a rill engine and EH, from either end: a store to byte 7 of MBX_TX with room pushes the staged
word, assigns the next SEQ and sets the other end's RXMSG when it completes a message; into a full queue, or
with 8 messages unacknowledged, it leaves the other end alone and sets OVER. A load of byte 7 of MBX_RX
removes the head word and, on an empty queue, sets UNDER. A store to MBX_ACK acknowledges the oldest popped
message to its sender, and without one sets ACKERR. A read of MBX_ACKIN removes the oldest acknowledgement.
MAILBOX_STALL sets both STALL bits and records both sources where both ages exceed 64 and it has not done so
yet, and changes nothing else. -/
def Obligations.MailboxRowsComplete : Prop :=
  (∀ (p : Port) (s : State), ∀ x ∈ [(p.eng, 0, p.val, p.val + 16), ((16 : Eng), 0x40 * p.val, p.val + 16, p.val)],
    let base := BitVec.ofNat 16 x.2.1
    let id := x.2.2.1
    let peer := x.2.2.2
    let m := s.mbxEnd id
    let q := s.mbxEnd peer
    (∀ b : Byte, let w := m.staged - byteOf m.staged 7 * 256 ^ 7 + b.toNat * 256 ^ 7
      (q.rx.length < 8 → m.unack.length < 8 → m.txLeft = 0 → mbxLen w = 1 →
        ∃ t, exec (.mbxPush x.1 base b) s = .next t ∧ (t.mbxEnd peer).rx = q.rx ++ [⟨w, true, true⟩] ∧
          bit (t.mbxEnd peer).ev 0 = true ∧ (t.mbxEnd id).staged = w ∧
          (t.mbxEnd id).txSeq = (m.txSeq + 1) % 256 ∧
          (t.mbxEnd id).unack = m.unack ++ [((m.txSeq + 1) % 256, 0)] ∧
          (∀ j, j ≠ id → j ≠ peer → t.mbxEnd j = s.mbxEnd j) ∧ t.regs = s.regs ∧ t.mem = s.mem) ∧
      (8 ≤ q.rx.length ∨ m.txLeft = 0 ∧ 8 ≤ m.unack.length →
        ∃ t, exec (.mbxPush x.1 base b) s = .next t ∧ t.mbxEnd peer = q ∧ bit (t.mbxEnd id).ev 2 = true ∧
          (t.mbxEnd id).unack = m.unack ∧ (t.mbxEnd id).txSeq = m.txSeq ∧ t.mem = s.mem)) ∧
    (∀ w rest, m.rx = w :: rest → ∃ t, exec (.mbxPop x.1 base) s = .next t ∧ (t.mbxEnd id).rx = rest ∧
      (t.mbxEnd id).popped = m.popped ++ (if w.last then [if w.first then w.bits else m.rxFirst] else []) ∧
      (∀ j, j ≠ id → t.mbxEnd j = s.mbxEnd j) ∧ t.regs = s.regs ∧ t.mem = s.mem) ∧
    (m.rx = [] → exec (.mbxPop x.1 base) s = .next (s.mbxEv id 3)) ∧
    (∀ (b : Byte) (w : Nat) (rest : List Nat) (seq n : Nat) (more : List (Nat × Nat)),
      m.popped = w :: rest → q.unack = (seq, n) :: more → ∃ t, exec (.mbxAck x.1 base b) s = .next t ∧
        (t.mbxEnd id).popped = rest ∧ (t.mbxEnd peer).unack = more ∧
        (t.mbxEnd peer).ackin = q.ackin ++ [(seq, b.toNat)] ∧
        (∀ j, j ≠ id → j ≠ peer → t.mbxEnd j = s.mbxEnd j) ∧ t.regs = s.regs ∧ t.mem = s.mem) ∧
    (∀ b : Byte, m.popped = [] → exec (.mbxAck x.1 base b) s = .next (s.mbxEv id 4)) ∧
    (∀ seq code rest, m.ackin = (seq, code) :: rest → exec (.mbxAckinRead x.1 base) s = .next (s.onMbx id fun h =>
      { h with ackin := rest, ackRead := 65536 + seq * 256 + code }))) ∧
  ∀ (k : Fin 20) (s : State), let id := if k.val < 16 then k.val else k.val + 64
    Acts (.mailboxStall k) s
      (64 < mbxAge (s.mbxEnd id) ∧ 64 < mbxAge (s.mbxEnd (mbxPeer id)) ∧ (s.mbxEnd id).stalled = false)
      (((((s.onMbx id fun h => { h with stalled := true }).mbxEv id 5).mbxEv (mbxPeer id) 5).stallSource
        id).stallSource (mbxPeer id))

/-- O29. For each of the 16 general locks: a load of its byte 0 by an engine reads 0 and makes the engine the
owner where the lock was free, reads 0 and changes nothing where the engine owns it, and reads the owner's
requester number and changes nothing where another does. A store of 0 by the owner frees it; a store by
another, or of another value, changes no lock and sets the storing engine's LOCK_EV.BADREL. No other lock
changes. A requester number is the engine's plus 1. -/
def Obligations.LockRowsComplete : Prop :=
  ∀ (e : Eng) (l : Fin 16) (b : Byte) (s : State),
    let off := BitVec.ofNat 16 (0xA00 + 2 * l.val)
    let owner := s.lockOwner l.val
    ∃ n t, s.boxRead e off.toNat = some (n, t) ∧ exec (.lockTake e off) s = .next t ∧
      n = (if owner = 0 ∨ owner = e.val + 1 then 0 else owner) ∧
      t.lockOwner l.val = (if owner = 0 then e.val + 1 else owner) ∧
      (∀ j, j ≠ l.val → t.lockOwner j = s.lockOwner j) ∧ { t with locks := s.locks } = s ∧
      ∃ u, exec (.lockRelease e off b) s = .next u ∧
        (owner = e.val + 1 → b = 0 → u.lockOwner l.val = 0 ∧ u.lockEv = s.lockEv) ∧
        (owner ≠ e.val + 1 ∨ b ≠ 0 → u.locks = s.locks ∧ bit (u.lockEv.get 0 e.val) l.val = true) ∧
        (∀ j, j ≠ l.val → u.lockOwner j = s.lockOwner j) ∧ { u with locks := s.locks, lockEv := s.lockEv } = s

/-- O30. A write of bytes to a register goes through the access codes of its fields; where no register stands
nothing changes. EH's write of DEV_MUXIND leaves its 14 bits and drops the reserved ones; a rill engine's
write of QD_JCFG is ignored. FL_WIN takes a window inside the flash and outside the firmware slots and
refuses any other; DEV_SWAP adds requests, or refuses them in Low Water and during a handover; CNT_CTL adds
its bits to the clears of the next edge; a read of byte 0 of TICK_COUNT latches the whole count for the
engine's later bytes; a read of an RC register clears what it covered. -/
def Obligations.RegisterRowsComplete : Prop :=
  (∀ (e : Eng) (addr : BitVec 24) (bytes : List Byte) (s : State),
    let bank := addr.toNat / 0x10000
    let off := addr.toNat % 0x10000
    (regPlace e bank off = none → exec (.registerWrite e addr bytes) s = .next s) ∧
    ∀ r i j, (regPlace e bank off).bind regAt = some (r, i, j) → bank ≠ 4 → exec (.registerWrite e addr bytes) s =
      .next (s.regWrite e r i (ofBytes bytes * 256 ^ j) ((256 ^ bytes.length - 1) * 256 ^ j))) ∧
  (∀ (v : BitVec 16) (s : State), ∃ t, exec (.registerWrite 16 0xF10004#24 (toBytes 2 v.toNat)) s = .next t ∧
    t = s.fset DEV_MUXIND.IND 0 (v.toNat % 2 ^ 14) ∧ t.rget DEV_MUXIND.reg = v.toNat % 2 ^ 14) ∧
  (∀ (p : Port) (v : BitVec 32) (s : State),
    exec (.registerWrite p.eng 0x020000#24 (toBytes 4 v.toNat)) s = .next s) ∧
  (∀ (v : BitVec 16) (s : State), v.toNat < 1024 →
    let lo := v.toNat * 0x10000
    let s' := s.fset FL_WIN.REFUSED 0 (s.fget FL_WIN.REFUSED)
    exec (.flashWindowPlace v) s = .next (if 1024 < v.toNat + 64 ∨ lo < 0xC00000 ∧ 0xA00000 < lo + 0x400000 then
      s'.fset FL_WIN.REFUSED 0 1 else s'.fset FL_WIN.BASE 0 v.toNat)) ∧
  (∀ (v : BitVec 32) (s : State), let m := v.toNat % 2 ^ 17
    (s.lowWater = true ∨ s.moving = true → exec (.swapRequest v) s =
      .next (s.fset DEV_SWAPST.FAIL 0 (s.fget DEV_SWAPST.FAIL ||| m))) ∧
    (s.lowWater = false → s.moving = false → exec (.swapRequest v) s =
      .next (s.fset DEV_SWAP.REQ 0 (s.fget DEV_SWAP.REQ ||| m)).swapNext)) ∧
  (∀ (v : BitVec 32) (s : State), exec (.cntCtlClear v) s =
    .next (s.fset CNT_CTL.CLR 0 (s.fget CNT_CTL.CLR ||| v.toNat))) ∧
  (∀ (e : Eng) (s : State), exec (.tickCountRead e) s =
    .next (s.onEngine e fun g => { g with coh := g.coh.put none 0xF00000 (some s.tick) })) ∧
  ∀ s : State, ∃ t, exec (.rcRegisterRead 0xF4040C#24 4) s = .next t ∧
    t.fget LOG_ST.DROP = 0 ∧ { t with regs := s.regs } = s ∧
    ∀ k, k ≠ LOG_ST.DROP.key 0 → ∀ d, t.regs.get d k = s.regs.get d k

/-! ## The weir and the watchdogs (chapter 14) -/

/-- O31. WEIR_PREC_WRITE and WEIR_UREC_WRITE record one event of the index written and ignore indices not in
use. An event below N opens its window at the tick, or counts in the window still open, and touches no host
entry, port or engine; the event that reaches N closes the window and is classified severe.
WEIR_EVENT_WINDOW_CLOSE and WEIR_RELEASE_WINDOW_CLOSE empty a window exactly where it is over.
WEIR_QUIET_ELAPSED, exactly where a reaction's quiet time is over, releases the first of a port's reactions
in its window and latches the ESCN-th. The end of FAULT_N's pulse and a written release act as R406 says.
That indices 50 to 63 record nothing is the model's reading (log entry 100). -/
def Obligations.WeirRowsComplete : Prop :=
  (∀ (p : Port) (v : BitVec 16) (s : State), let i := v.toNat % 32
    Acts (.weirPrecWrite p v) s (i ≤ 23) (s.weirEvent p i)) ∧
  (∀ (v : BitVec 16) (s : State), let i := v.toNat % 64
    Acts (.weirUrecWrite v) s (i ≤ 49) (s.weirEvent 16 i)) ∧
  (∀ (sc i : Nat) (s : State), let h := s.weirIdx sc i
    let live := h.opened && decide (s.tick < h.start + s.weirW sc i)
    let cnt := (if live then h.cnt else 0) + 1
    let start := if live then h.start else s.tick
    (cnt < s.weirN sc i → let t := s.weirEvent sc i
      t.weirIdx sc i = { h with opened := true, start := start, cnt := cnt, hit := true } ∧
        t.host = s.host ∧ t.ports = s.ports ∧ t.engines = s.engines ∧ t.log = s.log) ∧
    (s.weirN sc i ≤ cnt → ∃ u : State, s.weirEvent sc i = u.severe sc i cnt ∧
      u.weirIdx sc i = { h with opened := false, start := start, cnt := 0, hit := true } ∧ u.host = s.host)) ∧
  (∀ (sc : Fin 17) (i : Fin 64) (s : State), let h := s.weirIdx sc i
    Acts (.weirEventWindowClose sc i) s (h.opened = true ∧ h.start + s.weirW sc i ≤ s.tick)
      (s.onIdx sc i fun h => { h with opened := false, start := 0, cnt := 0 })) ∧
  (∀ (sc : Fin 17) (s : State), let w := s.relWin sc
    let r := s.react sc
    let due := r.cls ≠ 0 ∧ r.latched = false ∧ r.fresh = false ∧ s.quietTicks r.cls ≤ r.quiet ∧
      ¬(r.cls = 3 ∧ s.fon WEIR_ST.COMPAT = true)
    let n := (if w.opened && decide (s.tick < w.start + s.escTicks) then w.cnt else 0) + 1
    let escn := s.fget WEIR_CFG.ESCN
    Acts (.weirReleaseWindowClose sc) s (w.opened = true ∧ w.start + s.escTicks ≤ s.tick) (s.setRelWin sc {}) ∧
    (¬due → exec (.weirQuietElapsed sc) s = .next s) ∧
    (due → escn ≠ 0 → escn ≤ n → exec (.weirQuietElapsed sc) s = .next ((((s.setReact sc { r with latched := true }).fset
      (escOf sc) (scIdx sc) 1).leftRecord sc r.cls 1).unitSource 49)) ∧
    (due → escn = 0 ∨ n < escn → w.opened = false → exec (.weirQuietElapsed sc) s =
      .next ((s.setRelWin sc ⟨true, s.tick, 1⟩).leaveReaction sc 0))) ∧
  ∀ s : State,
    Acts .faultNPulseEnd s (s.weir.pulse = some 0) (({ s with weir := { s.weir with
      pulse := none, release := false } } : State).when s.weir.release fun u => (u.fset WEIR_ST.FLT 0 0).refreshFault) ∧
    (s.fget WEIR_CFG.FMODE = 1 → exec .faultNRelease s = .next s) ∧
    (s.fget WEIR_CFG.FMODE ≠ 1 → s.weir.pulse.isSome = true →
      exec .faultNRelease s = .next { s with weir := { s.weir with release := true } }) ∧
    (s.fget WEIR_CFG.FMODE ≠ 1 → s.weir.pulse = none →
      exec .faultNRelease s = .next (s.fset WEIR_ST.FLT 0 0).refreshFault)

/-- O32. A check-in adds its bits and counts a repeat; a service with a wrong key sets BADKEY, one before the
window opens marks it early, one with a check-in missing sets REFUSED, and any other begins a new window.
The expiry resets the engine, or for EH the unit, exactly where a begun window that is not suspended has
reached its limit. A rill engine reset leaves the engine at its reset values, held, in the bank it used, its
inbound queues empty and none of the locks its own. An expired hold puts the port in safe state and records
source 43. -/
def Obligations.WatchdogRowsComplete : Prop :=
  (∀ (e : Eng) (b : Byte) (s : State), let cin := s.fget WDG_CHK.CIN e
    exec (.wdgCheckIn e b) s = .next (((if cin &&& b.toNat = 0 then s else
      if e.val < 16 then s.cntEvent 0x61 (some e.val) else s.cntEvent 0x69)).fset WDG_CHK.CIN e (cin ||| b.toNat)) ∧
    (b ≠ 0x5A → exec (.wdgService e b) s = .next (s.fset WDG_ST.BADKEY e 1)) ∧
    (b = 0x5A → s.fget WDG_ST.T e < (s.wdg e).openT →
      exec (.wdgService e b) s = .next (s.onWdg e fun w => { w with early := true })) ∧
    (b = 0x5A → (s.wdg e).openT ≤ s.fget WDG_ST.T e → cin &&& (s.wdg e).mask ≠ (s.wdg e).mask →
      exec (.wdgService e b) s = .next (if e.val < 16 then (s.fset WDG_ST.REFUSED e 1).cntEvent 0x62 (some e.val)
        else (s.fset WDG_ST.REFUSED e 1).cntEvent 0x6A)) ∧
    (b = 0x5A → (s.wdg e).openT ≤ s.fget WDG_ST.T e → cin &&& (s.wdg e).mask = (s.wdg e).mask →
      ∃ t, exec (.wdgService e b) s = .next t ∧ t.fget WDG_ST.T e = 0 ∧ t.fget WDG_CHK.CIN e = 0 ∧
        (t.wdg e).begun = true ∧ (t.wdg e).early = false ∧ (t.wdg e).limit = s.fget WDG_CFG.CLOSE e ∧
        (t.wdg e).openT = s.fget WDG_CFG.OPEN e ∧ (t.wdg e).mask = s.fget WDG_CFG.MASK e ∧
        t.engines = s.engines ∧ t.host = s.host ∧ t.mem = s.mem)) ∧
  (∀ (e : Eng) (s : State), Acts (.watchdogExpiry e) s
    ((s.wdg e).begun = true ∧ s.fon WDG_ST.SUSP e = false ∧ (s.wdg e).limit ≤ s.fget WDG_ST.T e) (s.wdgReset e 2)) ∧
  (∀ (s : State) (last : Nat), let u := (s.wdgCount 16 last).unitReset 2
    s.wdgReset 16 last = { u with boot := { u.boot with ehLast := last } } ∧
      (s.wdgReset 16 last).fget WDG_CAUSE.CAUSE = 2 ∧ (s.wdgReset 16 last).booted = false) ∧
  (∀ (p : Port) (s : State), let t := s.rillReset p
    t.engine p = { Engine.init p with act := (s.engine p).act } ∧ (t.engine p).run = .held ∧
      (t.mbxEnd p).rx = [] ∧ (t.mbxEnd p).popped = [] ∧ (t.mbxEnd (32 + p)).rx = [] ∧
      (∀ l < 24, t.lockOwner l ≠ p.val + 1) ∧ t.mem = s.mem ∧ t.regs = s.regs) ∧
  ∀ (p : Port) (s : State), let u := s.onWdg p fun w => { w with hold := none }
    Acts (.rillHoldExpired p) s ((s.wdg p).hold = some 0)
      (((({ u with weir := { u.weir with holdPorts := setBit u.weir.holdPorts p true } } : State).reactPort p).portSafe
        p).unitSource 43)

/-! ## Converters and comparators (chapter 8) -/

/-- O33. A conversion in slot 1 or 5 is a VBUS result, in slot 3 a RAIL result, in slot 7 the tick's auxiliary
result where its channel is on, and else an ISNS result, and nothing where the port's engine sleeps in Low
Water; without trims and away from the ends of the range, outside a calibration, the VBUS register takes the
raw code with SAT 0. HARD_TRIP, LIMIT_ENTRY, REVERSE_CURRENT_BLOCK and VBUS_OV_TRIP are comparators 0 to 3
going true. EDDY_START names its port and begins 64 ticks of calibration where one may start;
CALIBRATION_END judges it exactly where it is due, EDDY_SELF_TRIM acts only idle and every 4,096 ticks,
EDDY_CHECK_FAIL, DIE_OVER_TEMPERATURE and REFERENCE_DIVERGENCE act exactly where their condition holds, and
VDRV_UNDERVOLTAGE records source 7. -/
def Obligations.SensingRowsComplete : Prop :=
  (∀ (p : Port) (k : Fin 8) (raw : BitVec 13) (s : State), let c := Instr.conversionComplete p k raw
    ((s.engine p).awake = false → exec c s = .next s) ∧
    ((s.engine p).awake = true →
      (k = 1 ∨ k = 5 → exec c s = .next (s.vbusResult p k raw.toInt)) ∧
      (k = 3 → exec c s = .next (s.railResult p raw.toInt)) ∧
      (k = 0 ∨ k = 2 ∨ k = 4 ∨ k = 6 → exec c s = .next (s.isnsResult p k raw.toInt)) ∧
      (k = 7 → exec c s = .next (if bit (s.eget PRT_AUXSEL.EN p) (s.tick % 8) then
        s.auxResult p (s.tick % 8) raw.toInt else s.isnsResult p 7 raw.toInt)) ∧
      (k = 1 → s.fon DEV_EDDY.BUSY = false → s.eget (PRT_ADCTRIM.GAIN 1) p = 0 →
        s.eget (PRT_ADCTRIM.OFFS 1) p = 0 → 0 < raw.toInt → raw.toInt < 4095 → ∃ t, exec c s = .next t ∧
          t.fget PRT_RVBUS.CODE p = raw.toInt.toNat ∧ t.fget PRT_RVBUS.SAT p = 0 ∧
          (t.adc p).vb1 = some raw.toInt.toNat ∧ t.mem = s.mem ∧ t.host = s.host))) ∧
  (∀ (p : Port) (n : Fin 9) (level : Bool) (s : State),
    exec (.comparatorOutputChange p n level) s = .next (s.cmpOut p n level) ∧
    (exec (.hardTrip p) s = .next (s.cmpOut p 0 true) ∧ exec (.limitEntry p) s = .next (s.cmpOut p 1 true)) ∧
    exec (.reverseCurrentBlock p) s = .next (s.cmpOut p 2 true) ∧ exec (.vbusOvTrip p) s = .next (s.cmpOut p 3 true) ∧
    Acts (.dieOverTemperature p) s (8 ≤ (s.adc p).hot)
      ((s.onAdc p fun h => { h with overTemp := true }).weirCond 16 8 true)) ∧
  (∀ (v : BitVec 16) (s : State), let k := v.toNat % 16
    let u := s.fset DEV_EDDY.PORT 0 k
    (bit v.toNat 4 = false → exec (.eddyStart v) s = .next u) ∧
    (bit v.toNat 4 = true → u.calMay = false → exec (.eddyStart v) s = .next u) ∧
    (bit v.toNat 4 = true → u.calMay = true → ∃ t, exec (.eddyStart v) s = .next t ∧ t.fget DEV_EDDY.BUSY = 1 ∧
      t.fget DEV_EDDY.TICKS = 64 ∧ t.fget DEV_EDDY.PORT = k ∧ t.eddy = { s.eddy with port := k, left := some 65 })) ∧
  (∀ (r : Residuals) (s : State), Acts (.calibrationEnd r) s (s.eddy.left = some 0)
    (s.calJudge s.eddy.port [r.isns, r.vbus, r.rail, r.aux])) ∧
  (∀ (gain offs : BitVec 16) (s : State), Acts (.eddySelfTrim gain offs) s
    (s.fon DEV_EDDY.BUSY = false ∧ 4096 ≤ s.eddy.since)
    { (s.fset DEV_EDDYTRIM.GAIN 0 gain.toNat).fset DEV_EDDYTRIM.OFFS 0 offs.toNat with
      eddy := { s.eddy with since := 0 } }) ∧
  (∀ (dev : Byte) (s : State), Acts (.referenceDivergence dev) s (s.fon DEV_REFST.REFOK = true)
    ((((s.fset DEV_REFST.DIV 0 1).fset DEV_REFST.DIVSTK 0 1).fset DEV_REFST.DEVMAX 0
      (max (s.fget DEV_REFST.DEVMAX) dev.toNat)).weirCond 16 0 true)) ∧
  ∀ s : State, Acts .eddyCheckFail s (16 ≤ s.eddy.outTicks ∧ s.fon DEV_EDDY.BUSY = false)
      ((s.fset DEV_EDDY.CHKFAIL 0 1).weirCond 16 19 true) ∧
    exec .vdrvUndervoltage s = .next ((s.unitSource 7).onIdx 16 7 fun h => { h with cond := true })

/-! ## Attach (chapter 4) -/

/-- O34. The end of a DRP share exchanges Unattached.SNK and .SRC; tCCDebounce with exactly one Rp and VBUS
valid attaches a sink port, and with exactly one Rd and VBUS at vSafe0V a source port, or goes to Try.SRC or
TryWait.SNK's path where TRY says so; tPDDebounce without Rp returns to Unattached.SNK; tryCC debounce,
tDRPTry, tTryTimeout, tErrorRecovery and tSRCDisconnect act as R113 says, each exactly where it is due. A
comparison of the scan sets its latch above the threshold and clears it below threshold less hysteresis, and
one that falls in no scan does nothing. FORCE and ROLESW wait for the next edge. VCONN opens at once on
overcurrent, undervoltage and CC overvoltage, and the last of these takes the packet off the line too. -/
def Obligations.AttachRowsComplete : Prop :=
  (∀ (p : Port) (s : State), let h := s.att p
    let st := s.attState p
    (s.attDue p h.drp = true → st = 2 ∨ st = 5 → exec (.drpShareEnd p) s = .next
      (((((s.onAtt p fun h => { h with drp := none }).latchCccfg p).setAtt p (if st = 2 then 5 else 2)).fset
        PRT_ATTST.KIND p 0).cntEvent 0x02 (some p.val))) ∧
    (s.attDue p h.drp = false → exec (.drpShareEnd p) s = .next s) ∧
    (s.attDue p h.ccDb = false → exec (.ccDebounceExpiry p) s = .next s) ∧
    (s.attDue p h.ccDb = true → st = 3 → s.oneRp p = true → s.fon PRT_CCSTAT.VBUSOK p = true →
      exec (.ccDebounceExpiry p) s = .next (if s.eget PRT_CCCFG.TRY p = 1 then s.setAtt p 8 else s.attOn p 4)) ∧
    (s.attDue p h.ccDb = true → st = 6 → s.oneRd p = true → s.fon PRT_CCSTAT.VSAFE0 p = true →
      exec (.ccDebounceExpiry p) s = .next (if s.eget PRT_CCCFG.TRY p = 2 then s.setAtt p 0xA else s.attOn p 7)) ∧
    Acts (.pdDebounceExpiry p) s
      (s.attDue p h.pdDb = true ∧ (st = 3 ∨ st = 9) ∧ (s.ref p).1 = 0 ∧ (s.ref p).2 = 0) (s.attOff p 2) ∧
    (s.attDue p h.tryCcDb = true → st = 8 ∨ st = 0xB → s.oneRd p = true →
      exec (.tryCcDebounceExpiry p) s = .next (s.attOn p 7)) ∧
    (s.attDue p h.tryCcDb = false → exec (.tryCcDebounceExpiry p) s = .next s) ∧
    (s.attDue p h.drpTry = true → st = 8 →
      exec (.drpTryExpiry p) s = .next ((s.onAtt p fun h => { h with drpTry := none }).setAtt p 9)) ∧
    (s.attDue p h.drpTry = true → st = 0xB →
      exec (.drpTryExpiry p) s = .next ((s.onAtt p fun h => { h with drpTry := none }).attOff p 2)) ∧
    Acts (.tryTimeoutExpiry p) s (s.attDue p h.tryTo = true ∧ st = 0xA) (s.setAtt p 0xB) ∧
    Acts (.errorRecoveryExpiry p) s (s.attDue p h.errRec = true ∧ st = 1 ∧ s.fon PRT_CCSTAT.VSAFE0 p = true)
      (s.toUnattached p) ∧
    Acts (.srcDisconnectExpiry p) s (s.attDue p h.srcDis = true ∧
        (s.fget PRT_CCCTL.HOLDATT p = 0 ∨ st = 0xE ∧ h.ref2 = 2)) (s.toUnattached p)) ∧
  (∀ (p : Port) (s : State) (st : Nat), st < 16 → (s.setAtt p st).attState p = st ∧
    (s.setAtt p st).mem = s.mem ∧ (s.setAtt p st).host = s.host) ∧
  (∀ (p : Port) (b thr v : Nat) (s : State), b < 10 → let t := s.compareCc p b thr v
    let low := thr * 3000 - s.eget PRT_CCHYS.HYST p * 3000
    (thr * 3000 < v → bit (t.att p).latches b = true) ∧
    (v ≤ thr * 3000 → low ≤ v → bit (t.att p).latches b = bit (s.att p).latches b) ∧
    (v < low → bit (t.att p).latches b = false)) ∧
  (∀ (p : Port) (v1 v2 : BitVec 23) (b1 b2 : Bool) (s : State),
    exec (.ccScanComparison p v1 v2 b1 b2) s = .next (s.scanStep p v1.toNat v2.toNat b1 b2) ∧
    (appliesRp (s.termState p) = false ∧ appliesRd (s.termState p) = false ∨ s.scanDue p = false →
      s.scanStep p v1.toNat v2.toNat b1 b2 = s)) ∧
  (∀ (p : Port) (s : State),
    exec (.forceErrorRecovery p) s = .next (s.onAtt p fun h => { h with force := 1 }) ∧
    exec (.forceDisabled p) s = .next (s.onAtt p fun h => { h with force := 2 }) ∧
    Acts (.forceLeaveDisabled p) s (s.attState p = 0) (s.onAtt p fun h => { h with force := 3 }) ∧
    Acts (.rolesw p) s (s.attState p = 4 ∨ s.attState p = 7) (s.onAtt p fun h => { h with roleSw := true })) ∧
  (∀ (p : Port) (s : State),
    Acts (.vconnOvercurrent p) s (s.fon PRT_ATTST.VCONN p = true)
      ((((s.openVconn p).fset PRT_CCCTL.VCONNON p 0).attEv PRT_ATTEV.VCONNOC p).portSource p 11) ∧
    let u := (s.attEv PRT_ATTEV.CCOV p).portSource p 13
    exec (.ccOvervoltage p) s = .next (if u.owns p then
      ((u.openVconn p).onAtt p fun h => { h with ovPend := true, termChg := true }).onPd p fun h =>
        { h with line := Line.aborted h.line, resend := h.resend || decide (h.line = .packet) } else u)) ∧
  ∀ (q : Quad) (s : State),
    exec (.vconnInputRecovered q) s = .next (s.onQuad q fun h => { h with vconnUv := false }) ∧
    exec (.vconnInputUndervoltage q) s =
      .next ((s.onQuad q fun h => { h with vconnUv := true }).forEach ((List.range 16).filter fun p => p / 4 == q.val)
        fun p u => (u.openVconn p).when (u.fon PRT_CCCTL.VCONNON p && u.owns p) fun u =>
          (u.attEv PRT_ATTEV.VCONNUV p).portSource p 12)

/-! ## Time, resets, boot and pins (chapters 2, 3, 15, 17 and 18) -/

/-- O35. TICK_EDGE makes every action of an edge while the clock runs, and nothing before the PLL has locked or
while the unit is held in reset. In it the tick number rises by 1, SEQ rises by 1 modulo 16 even where a
tick number is adopted, each attach timer falls by 1 and stays at 0, a count that would pass 2^48 - 1 stays
there, an edge counter adds 1 for a selected event and a level counter notes the port instead, and
countLevels adds to a level counter its selected ports that qualified. PROFILE_CHANGE_EDGE and
TIME_BIND_TARGET_EDGE bring in a profile and a time binding exactly from their edge on. -/
def Obligations.TickEdgeActs : Prop :=
  (∀ (i : EdgeIn) (s : State), Acts (.tickEdge i) s
    (s.fon TICK_STATUS.PLL_LOCK = true ∧ s.boot.hold = false ∧ s.boot.phase ≠ .reset) (s.tickEdge i)) ∧
  (∀ s : State, (s.pair.adopt = none → s.tick + 1 < 2 ^ 48 → s.tickBegins.tick = s.tick + 1) ∧
    (∀ n, s.pair.adopt = some n → n < 2 ^ 48 → s.tickBegins.tick = n ∧ s.tickBegins.pair.adopt = none) ∧
    s.tickBegins.pair.seq = (s.pair.seq + 1) % 16) ∧
  (∀ (p : Nat) (s : State), let h := s.att p
    let k := (s.attCount p).att p
    (∀ n, h.ccDb = some (n + 1) → k.ccDb = some n) ∧ (h.ccDb = some 0 → k.ccDb = some 0) ∧
      (∀ n, h.errRec = some (n + 1) → k.errRec = some n) ∧ (h.errRec = none → k.errRec = none) ∧
      k.latches = h.latches) ∧
  (∀ (k n : Nat) (s : State), let c := s.fget (CNT_VAL.COUNT k)
    (s.cntAdd k n).fget (CNT_VAL.COUNT k) = min (c + n) (2 ^ 48 - 1) ∧
      ((s.cntAdd k n).cntAdd k 1).fget (CNT_VAL.COUNT k) = min (c + n + 1) (2 ^ 48 - 1)) ∧
  (∀ (code p : Nat) (s : State), ∀ k < 32, s.cntSelects k code (some p) = true →
    (s.eget (CNT_CFG.LEVEL k) = 0 → (s.cntEvent code (some p)).fget (CNT_VAL.COUNT k) =
      min (s.fget (CNT_VAL.COUNT k) + 1) (2 ^ 48 - 1)) ∧
    (s.eget (CNT_CFG.LEVEL k) = 1 → (s.cntEvent code (some p)).fget (CNT_VAL.COUNT k) = s.fget (CNT_VAL.COUNT k) ∧
      bit ((s.cntEvent code (some p)).cnts.get {} k).qual p = true)) ∧
  (∀ (k : Nat) (s : State), k < 32 → s.levelOn k = true → s.eget (CNT_CFG.PMASK k) ≠ 0 →
    s.countLevels.fget (CNT_VAL.COUNT k) = min (s.fget (CNT_VAL.COUNT k) +
      ones (((s.cnts.get {} k).qual ||| s.levelPorts k) &&& s.eget (CNT_CFG.PMASK k))) (2 ^ 48 - 1)) ∧
  (∀ (prof e : Nat) (rest : List (Nat × Nat)) (s : State), s.prof.pend = (prof, e) :: rest →
    (∀ c ∈ rest, s.tick < c.2) → Acts .profileChangeEdge s (e ≤ s.tick)
      (({ s with prof := { s.prof with pend := rest } } : State).setProfile prof)) ∧
  ∀ (e time : Nat) (s : State), s.pair.bind = some (e, time) → e < 2 ^ 48 → time < 2 ^ 64 →
    (s.tick < e → exec .timeBindTargetEdge s = .next s) ∧
    (e ≤ s.tick → ∃ t, exec .timeBindTargetEdge s = .next t ∧ t.pair.bind = none ∧ t.fget TICK_HTICK.HTICK = e ∧
      t.fget TICK_HTIME.HTIME = time ∧ t.fon TICK_STATUS.HBOUND = true ∧ t.mem = s.mem ∧ t.host = s.host)

/-- O36. After power-on reset every register field has its reset value, every memory byte is 0, the queue, flash
and the fuse arrays stand, and boot is under way; RESET_N, without effect on a unit in reset already, leaves
memory only its retained part and sets WDG_CAUSE to 1; an invalid supply holds the unit in reset. Straps are
sampled until four readings agree, and then latch the position; sixteen failures hold the unit. PLL_LOCK,
REFOK, REFOK_TIMEOUT, OTP_BOOT_READ, BOOT_COMPLETE and BOOT_PAIR_WINDOW_EXPIRY act exactly where boot stands
ready for them; the end of boot is loader mode where the strap asks for it and the life cycle does not
forbid it. -/
def Obligations.BootRowsComplete : Prop :=
  (∀ s : State, ∃ t, exec .powerOnReset s = .next t ∧ (∀ (f : Fld) (i : Nat), t.fget f i = f.rst i) ∧
    (∀ m a, t.memGet m a = 0) ∧ t.pending = s.pending ∧ t.booted = false ∧ t.boot = {} ∧ t.host = {} ∧
    (s.otp.op = none → s.jobs = [] → t.otp = { s.otp with used := [] } ∧ t.flash = s.flash)) ∧
  (∀ s : State, (s.boot.phase = .reset → exec .resetNAssert s = .next s) ∧
    (s.boot.phase ≠ .reset → ∃ t, exec .resetNAssert s = .next t ∧ t.fget WDG_CAUSE.CAUSE = 1 ∧
      t.booted = false ∧ t.host = {} ∧ t.engines = [] ∧ (∀ a < 2 ^ 24, t.memGet 0x42 a = s.memGet 0x42 a) ∧
      ∀ m, ∀ a < 2 ^ 24, m ≠ 0x42 → t.memGet m a = 0) ∧
    ∀ k, ∃ t, exec (.supplyInvalid k) s = .next t ∧ t.boot.phase = .reset ∧
      (k = .vcc33 ∨ k = .vcore → t.pwrokOut = false)) ∧
  (∀ (r : StrapIn) (s : State), let c := Instr.strapSampling r
    let due := s.booting = true ∧ s.boot.strapped = false
    (¬due → exec c s = .next s) ∧
    (due → r.r1 = r.r2 → r.r1 = r.r3 → r.r1 = r.r4 → exec c s = .next (s.strapTake r.r1.toNat r.pullUp r.pullDown)) ∧
    (due → r.r1 = r.r2 → r.r1 = r.r3 → r.r1 = r.r4 → r.pullUp = r.pullDown → r.r1.toNat % 4 ≠ 3 → ∃ t,
      exec c s = .next t ∧ t.boot.strapped = true ∧ t.fget PAIR_ST.POS = r.r1.toNat % 4 ∧
        t.fget DEV_STRAP.STRAP = r.r1.toNat ∧ t.boot.hold = s.boot.hold) ∧
    (due → ¬(r.r1 = r.r2 ∧ r.r1 = r.r3 ∧ r.r1 = r.r4) → s.pins.attempts < 15 →
      exec c s = .next { s with pins := { s.pins with attempts := s.pins.attempts + 1 } })) ∧
  (∀ (n st : List (BitVec 64)) (s : State), Acts (.otpBootRead n st) s
    (s.boot.phase = .boot ∧ s.boot.hold = false ∧ s.fon DEV_REFST.REFOK = true ∧ s.boot.otpRead = false)
    (s.otpBoot (n.map (·.toNat)) (st.map (·.toNat)))) ∧
  (∀ s : State,
    Acts .pllLock s (s.booting = true ∧ s.boot.strapped = true ∧ s.fon TICK_STATUS.PLL_LOCK = false) s.pllLock ∧
    (s.pllLock.tick = 0 ∧ s.pllLock.fon TICK_STATUS.PLL_LOCK = true) ∧
    Acts .refok s (s.booting = true) (s.fset DEV_REFST.REFOK 0 1) ∧
    Acts .refokTimeout s (s.booting = true ∧ s.fon DEV_REFST.REFOK = false) ((s.weirCond 16 0 true).holdReset) ∧
    Acts .bootComplete s (s.bootReady = true ∧ (s.paired = false ∨ s.pair.heard = true ∨ 256 ≤ s.boot.ticks))
      s.bootEnd ∧
    (s.bootEnd = if bit (s.fget DEV_STRAP.STRAP) 3 && !s.fon DEV_STRAP.BOOT_IGN then s.bootLoader else s.bootFlash) ∧
    let late := s.bootReady = true ∧ s.paired = true ∧ s.pair.heard = false ∧ 256 ≤ s.boot.ticks
    (late → exec .bootPairWindowExpiry s = .next s.bootEnd) ∧
    (¬late → s.boot.formT = some 0 → exec .bootPairWindowExpiry s = .next s.formation) ∧
    (¬late → s.boot.formT ≠ some 0 → exec .bootPairWindowExpiry s = .next s))

/-- O37. DB_OFF and VDRV change their own bit and nothing else; a MUXBUS slot drives the address 32 times the
position plus the slot and the slot's data, each with odd parity, once MUXBUS runs; a TCK edge moves the TAP
while it is open and TRST_N high, and TRST_N low resets it. A level held for 6,250 edges is confirmed once,
a fitted jumper without presence anew: in button mode a low level begins a press and the high level after
one of at most 10 s grants presence for 120 s where it may be granted, in switch and seal mode the low level
grants it, and PRESENCE_WINDOW_END ends it exactly where the window has run out. The layout of the TAP is
log entry 8. -/
def Obligations.PinAndPresenceRowsComplete : Prop :=
  (∀ s : State, exec .dbOffRise s = .next { s with pins := { s.pins with dbOff := true } } ∧
    exec .dbOffFall s = .next { s with pins := { s.pins with dbOff := false } } ∧
    exec .vdrvInvalid s = .next { s with pins := { s.pins with vdrv := false } } ∧
    exec .vdrvValid s = .next { s with pins := { s.pins with vdrv := true } }) ∧
  (∀ (k : Fin 18) (s : State), Acts (.muxbusSlot k) s (s.pins.muxOn = true) { s with pins := { s.pins with
      muxAddr := oddParity (32 * s.fget PAIR_ST.POS + k), muxData := oddParity (s.muxSlot k) } }) ∧
  (∀ v, oddParity v % 128 = v % 128 ∧ (((List.range 8).filter fun i => bit (oddParity v) i).length) % 2 = 1) ∧
  (∀ (rise tms tdi trst : Bool) (s : State), let c := Instr.tapTckEdge rise tms ⟨tdi, trst⟩
    (s.tapOpen = false ∨ trst = true → exec c s = .next { s with pins := { s.pins with tap := {} } }) ∧
    (s.tapOpen = true → trst = false → rise = true →
      exec c s = .next { s with pins := { s.pins with tap := tapRise s.pins.tap tms tdi } }) ∧
    (s.tapOpen = true → trst = false → rise = false → s.pins.tap.st = 2 → s.pins.tap.ir = 3 → ∃ t, exec c s = .next t ∧
      t.pins.tap.tdo = some (bit s.pins.tap.drShift 0))) ∧
  (∀ n st, st < 16 → (List.replicate 5 true).foldl tapNext st = 0xF ∧ tapNext 0xF n < 16) ∧
  (∀ (level : Bool) (s : State),
    let due := s.pres.sample = level ∧ 6250 ≤ s.pres.count ∧ (s.pres.known = false ∨
      s.fget DEV_PRES.PIN ≠ b2n level ∨ s.pwire = 1 ∧ s.fon DEV_PRES.GRANT = false)
    let c := Instr.presenceLevelConfirmed level
    let u := ({ s with pres := { s.pres with known := true } } : State).fset DEV_PRES.PIN 0 (b2n level)
    (¬due → exec c s = .next s) ∧
    (due → level = false → s.pwire = 0 →
      exec c s = .next { u with pres := { u.pres with press := some 0 } }) ∧
    (due → level = false → s.pwire = 1 → exec c s = .next (u.presGrant none)) ∧
    (∀ n, due → level = true → s.pwire = 0 → s.pres.press = some n → exec c s = .next
      (if n ≤ 1250000 then ({ u with pres := { u.pres with press := none } } : State).presGrant (some 15000000)
        else { u with pres := { u.pres with press := none } }))) ∧
  (∀ (w : Option Nat) (s : State), (s.presAllowed = false → s.presGrant w = s) ∧
    (s.presAllowed = true → (s.presGrant w).fon DEV_PRES.GRANT = true ∧ (s.presGrant w).pres.window = w)) ∧
  ∀ s : State, Acts .presenceWindowEnd s (s.pres.window = some 0) s.presEnd ∧ s.presEnd.fon DEV_PRES.GRANT = false

/-! ## The pair and the fuses (chapters 2, 10 and 15) -/

/-- O38. A SYNC edge is taken by a follower only, a heartbeat word only with its CRC8 and the next sequence
number; the listening unit that hears no edge becomes master, and the follower that misses two does at its
next edge; SYNC_LOCK, SKEW_FAULT, training timeout, lane loss, the trailer and bulk messages act as chapters
2 and 10 say, each exactly where its condition holds, and a message with a damaged word is dropped but for
its credits. A mirror record is written intact and owned or not at all, and at its freeze point the
committed record is frozen. A write of OTP_CTL with START off or the controller busy only sets the
operation's fields; the end of a read gives the word's reading at its margin, and the end of an operation
frees the controller. -/
def Obligations.LinkRowsComplete : Prop :=
  (∀ (k : BitVec 8) (w : BitVec 32) (s : State),
    (s.paired = false ∨ s.fon TICK_STATUS.MASTER = true → exec (.syncEdgeReceived k) s = .next s) ∧
    (s.paired = true → s.fon TICK_STATUS.MASTER = false → ∃ t, exec (.syncEdgeReceived k) s = .next t ∧
      t.pair.edgeHeard = true ∧ t.pair.noEdge = 0 ∧ t.fget TICK_SKEW.SKEW = k.toNat ∧
      t.pair.skewBig = (if 16 < k.toInt.natAbs then s.pair.skewBig + 1 else 0)) ∧
    (¬(s.paired = true ∧ beatOk w.toNat = true ∧ seqOk s.pair.syncSeq (w.toNat % 16) = true) →
      exec (.syncHeartbeatReceived w) s = .next s) ∧
    (s.paired = true → beatOk w.toNat = true → seqOk s.pair.syncSeq (w.toNat % 16) = true → s.booted = false →
      exec (.syncHeartbeatReceived w) s = .next ((s.onPair fun h =>
        { h with syncHb := true, syncSeq := some (w.toNat % 16), noFollower := 0 }).hearWord w.toNat))) ∧
  (∀ s : State, let u := s.onPair fun h => { h with listen := none, noEdge := 0 }
    Acts .listenTimeExpiry s (s.pair.listen = some 0) (if s.pair.edgeHeard then u else u.becomeMaster false) ∧
    Acts .syncLockAcquired s (s.paired = true ∧ s.fon TICK_STATUS.MASTER = false ∧ s.pair.edgeHeard = true ∧
      (toSigned 8 (s.fget TICK_SKEW.SKEW)).natAbs ≤ 16) (s.fset TICK_STATUS.SYNC_LOCK 0 1) ∧
    Acts .syncMasterLost s (s.follower = true ∧ 2 ≤ s.pair.noEdge) (s.onPair fun h => { h with rise := true }) ∧
    ((s.becomeMaster true).fon TICK_STATUS.MASTER = true ∧ (s.becomeMaster true).fon TICK_STATUS.SYNC_LOST = true ∧
      (s.becomeMaster true).fon TICK_STATUS.SYNC_LOCK = false ∧ (s.becomeMaster true).tick = s.tick) ∧
    (s.pair.skewBig < 4 → exec .skewFault s = .next (s.weirCond 16 9 false)) ∧
    (4 ≤ s.pair.skewBig → exec .skewFault s = .next ((s.fset TICK_STATUS.SKEW_FAULT 0 1).weirCond 16 9 true)) ∧
    Acts .linkTrainingTimeout s (s.fget PAIR_ST.LSTATE = 2 ∧ 16 ≤ s.pair.train)
      ((s.setLink 1 0).weirCond 16 13 true) ∧
    exec .pairCtlRetrain s = .next s.retrain ∧
    (s.fget PAIR_ST.LSTATE ≠ 0 → s.retrain.fget PAIR_ST.LSTATE = 2) ∧
    ∃ t, exec .bulkRetransmit s = .next t ∧ (t.pair.sent = s.pair.sent.filter fun e => !decide (4 ≤ e.2)) ∧
      (s.pair.bulkPos = 0 → t.pair.bulk =
        (s.pair.sent.filter fun e => decide (4 ≤ e.2)).map (·.1) ++ s.pair.bulk)) ∧
  (∀ (lane : Fin 2) (f : Frame) (m : BulkMsg) (s : State), let st := s.fget PAIR_ST.LSTATE
    (st = 3 → s.fget PAIR_ST.LANES = 2 → exec (.laneLoss lane) s = .next ((s.setLink 4 1).unitSource 14)) ∧
    (st = 4 ∨ st = 3 ∧ s.fget PAIR_ST.LANES ≠ 2 → exec (.laneLoss lane) s =
      .next ((s.setLink 1 0).weirCond 16 13 true)) ∧
    (st ≠ 3 → st ≠ 4 → exec (.laneLoss lane) s = .next s) ∧
    (st = 0 ∨ st = 1 → exec (.superframeTrailer f) s = .next s) ∧
    (2 ≤ st → f.heartbeat = none → f.twinLanes = none → f.ack = none → exec (.superframeTrailer f) s =
      .next ((s.linkErrors f.corrected.toNat f.uncorrected.toNat).trailer f.crcOk f.lanes.val)) ∧
    let u := s.onPair fun h => { h with creditNow := h.creditNow + m.words.length + 1 }
    (m.intact = false → exec (.bulkMessageReceive m) s = .next u) ∧
    (m.intact = true → exec (.bulkMessageReceive m) s = .next ((u.onPair fun h =>
      { h with rxSeq := m.seq.toNat }).bulkReceive m.chan m.port m.ack m.off (m.words.map (·.toNat))))) ∧
  (∀ (p : Port) (w : List (BitVec 64)) (ok : Bool) (s : State),
    exec (.mirrorCommit p) s = .next (s.mirrorCommit p) ∧
    Acts (.mirrorFreeze p) s (s.freezesNow p = true) (s.freeze p) ∧
    ((s.freeze p).pair.frozen.get 0 p = ofBytes ((s.framed p (!bit s.pair.committed p)).flatMap (toBytes 8)) ∧
      bit (s.freeze p).pair.committed p = false ∧
      (s.freeze p).fget PRT_MIRCMT.STALE p = b2n (s.owns p && !bit s.pair.committed p)) ∧
    let good := ok = true ∧ w.length = 8 ∧ bit ((w.map (·.toNat)).getD 0 0) 5 = true
    (¬good → ∃ t, exec (.mirrorRecordReceive p w ok) s = .next t ∧ t.mem = s.mem ∧ bit t.pair.recOk p = false) ∧
    (good → s.owns p = true → ∃ t, exec (.mirrorRecordReceive p w ok) s = .next t ∧
      t.mem = (s.memWrite 0x41 (inBuf p) ((w.map (·.toNat)).flatMap (toBytes 8))).mem ∧ bit t.pair.recOk p = true)) ∧
  ∀ (v : BitVec 32) (took weak : BitVec 64) (s : State),
    (∀ x ∈ [(0, Instr.otpCtlReadNormal v), (1, .otpCtlReadStrict v), (2, .otpCtlProgram v), (3, .otpCtlLock v),
        (4, .otpCtlLcAdvance v)],
      let u := (((s.fset OTP_CTL.OP 0 x.1).fset OTP_CTL.RAW 0 (b2n (bit v.toNat 12))).fset OTP_CTL.REGION 0
        (bits v.toNat 11 8)).fset OTP_CTL.WORD 0 (bits v.toNat 2 0)
      let st := u.otpRefusal x.1 (bits v.toNat 11 8) (bits v.toNat 2 0) (bit v.toNat 12) (u.fget OTP_DATA.DATA)
      (bit v.toNat 31 = false ∨ s.fon OTP_ST.BUSY = true → exec x.2 s = .next u) ∧
      (bit v.toNat 31 = true → s.fon OTP_ST.BUSY = false → st ≠ 0 → exec x.2 s = .next (u.fset OTP_ST.RESULT 0 st)) ∧
      (bit v.toNat 31 = true → s.fon OTP_ST.BUSY = false → st = 0 → ∃ t o, exec x.2 s = .next t ∧
        t.otp = { s.otp with op := some o } ∧ o.op = x.1 ∧ o.cmd = none ∧ t.fon OTP_ST.BUSY = true)) ∧
    (s.otp.op = none → exec (.otpOperationComplete took weak) s = .next s) ∧
    ∀ o, s.otp.op = some o → o.cmd = none → o.op = 0 ∨ o.op = 1 → ∃ t,
      exec (.otpOperationComplete took weak) s = .next t ∧ t.otp.op = none ∧ t.fon OTP_ST.BUSY = false ∧
      t.fget OTP_ST.RESULT = 0 ∧ t.otp.normal = s.otp.normal ∧ t.otp.strict = s.otp.strict ∧
      t.fget OTP_DATA.DATA = (if o.op = 0 then s.otp.normal else s.otp.strict).get 0 (8 * o.region + o.word) % 2 ^ 64

/-- O39. A lost heartbeat, where two were missed, leads to the takeover of the ports the twin owned and of an
open handover's; at their first owned edge the ports assumed become owned. A handover commits in its third
tick where the twin accepted it and fails with the twin's reason, or 7, where it did not; at its switch edge
it moves the ports, or fails; neither moves a port while SYNC_LOCK is 0 (R58; REASON 2 then is the model's
choice, log entry 126). A unit that may own none, or has withdrawn, assumes no port. A PAIR_CTL proposal
that is refused sets HOFAIL and opens nothing; a unit without ports withdraws at once. The twin's harbour
state is applied whole and only while a link is up. Formation at its edge gives the unit its home set. -/
def Obligations.OwnershipRowsComplete : Prop :=
  (∀ s : State, Acts .heartbeatLost s (s.paired = true ∧ 2 ≤ s.pair.missed ∧ s.pair.lost = false) s.twinLost) ∧
  (∀ (a : Assume) (s : State), s.pair.assume = some a →
    let u := (s.onPair fun h => { h with assume := none }).takePorts a.mask a.why 0 true
    Acts .takeoverFirstOwnedEdge s (a.edge ≤ s.tick) (if a.why = 3 then (u.pairEv PAIR_EV.TAKEOVER).cntEvent 0x45
      else u.pairEv PAIR_EV.RELTAKE)) ∧
  (∀ (s : State) (mask why : Nat), mask &&& s.fget PAIR_ST.OWN = 0 →
    (mask ≠ 0 → s.pair.assume = none → s.mayOwn = true → s.fon PAIR_ST.WITHDRAWN = false →
      s.assume mask why = s.onPair fun h => { h with assume := some ⟨mask, s.tick + 1, why⟩ }) ∧
    (s.mayOwn = false ∨ s.fon PAIR_ST.WITHDRAWN = true → s.assume mask why = s)) ∧
  (∀ (m : BitVec 16) (s : State), exec (.releaseTake m) s =
    .next ((s.assume (m.toNat &&& s.pair.dropped) 4).onPair fun h => { h with dropped := 0 })) ∧
  (∀ (h : Handover) (s : State), s.pair.ho = some h →
    let due := h.prop = true ∧ h.phase = 1 ∧ h.start + 2 ≤ s.tick
    let heard := s.pair.hinTick = h.start + 2 ∧ bits (s.hin 2) 7 0 = h.id
    (¬due → exec .handoverCommit s = .next s) ∧
    (due → s.synced = false → exec .handoverCommit s = .next (s.hoFail h 4 2)) ∧
    (due → s.synced = true → heard → bits (s.hin 2) 10 8 = 2 → exec .handoverCommit s = .next (s.hoOpen { h with commit := true } 3)) ∧
    (due → s.synced = true → heard → bits (s.hin 2) 10 8 = 5 → exec .handoverCommit s = .next (s.hoFail h 4 (bits (s.hin 2) 14 12))) ∧
    (due → s.synced = true → ¬heard → exec .handoverCommit s = .next (s.hoFail h 4 7)) ∧
    Acts .handoverSwitch s (h.edge ≤ s.tick) (if !h.commit then s.hoFail h 4 7
      else if !s.synced then s.hoFail h 4 2 else s.hoSwitch h)) ∧
  (∀ s : State, s.pair.ho = none → exec .handoverCommit s = .next s ∧ exec .handoverSwitch s = .next s) ∧
  (∀ (h : Handover) (phase : Nat) (s : State), let t := s.hoOpen h phase
    t.pair.ho = some { h with phase := phase } ∧ t.fon PAIR_ST.HOOPEN = true ∧ t.ports = s.ports ∧ t.host = s.host) ∧
  (∀ s : State, let kept := s.pair.received &&& s.fget PAIR_SHOK.TWINOWN
    let due := s.pair.received ≠ 0 ∧ s.pair.receivedAt + 1 ≤ s.tick
    let u := s.onPair fun h => { h with received := 0 }
    Acts .handoverKeptRelease s due (if kept = 0 then u else (u.releasePorts kept 1).pairEv PAIR_EV.HOKEPT)) ∧
  (∀ s : State, let own := s.fget PAIR_ST.OWN
    let give := own - (own &&& s.homeSet)
    Acts .rebalanceDelayExpiry s (s.fget PAIR_CFG.REBALDLY ≠ 0 ∧ s.fget PAIR_CFG.REBALDLY * 12500 ≤ s.pair.rebal ∧
        give ≠ 0 ∧ s.fon PAIR_ST.WITHDRAWN = false)
      ((s.propose false give none false false).2.onPair fun h => { h with rebal := 0 })) ∧
  (∀ (m : BitVec 16) (s : State), ∀ x ∈ [(Instr.pairCtlGive m, s.propose false m.toNat none false false),
      (.pairCtlTake m, s.propose true m.toNat none false false), (.pairCtlWithdraw, s.withdraw none),
      (.pairCtlRebal, s.rebalance none)],
    (x.2.1 = 0 → exec x.1 s = .next x.2.2) ∧ (x.2.1 ≠ 0 → exec x.1 s = .next (s.pairEv PAIR_EV.HOFAIL))) ∧
  (∀ s : State, s.fget PAIR_ST.OWN = 0 → ∃ t, exec .pairCtlWithdraw s = .next t ∧
    t.fon PAIR_ST.WITHDRAWN = true ∧ t.fon PAIR_ST.ABLE = false ∧ t.host = s.host) ∧
  (∀ (l : List (BitVec 64)) (s : State), Acts (.harbourStateApply l) s
    (l.length = 24 ∧ s.paired = true ∧ 2 ≤ s.fget PAIR_ST.LSTATE) ((s.harbourHear (l.map (·.toNat))).formation)) ∧
  ∀ (f : Nat) (s : State), s.pair.form = some f → Acts .formationEdge s
    (f ≤ s.tick ∧ s.mayOwn = true ∧ s.fget PAIR_ST.FORM = 0)
    ((s.formWith 3 s.homeSet).onPair fun h => { h with form := none })

/-! ## The link, the power path, swaps and storage (chapters 5, 6, 7, 9, 13, 16 and 17) -/

/-- O40. In Low Water a packet or reset at a sleeping PHY only wakes it. Awake, a shadow overhears good packets
and counts resets; an owned port whose link does not run, or blanked by FRS signalling, ignores them; a
damaged packet only counts; SOP'_Debug and SOP''_Debug set DBGSOP; a cable SOP type not enabled is ignored;
a good packet that is neither finds the receive buffer, and with both in use it is dropped with OVFL; a
matching GoodCRC advances the transmit ID. A hard reset acts at once. A packet is sent only on a free line,
and its end starts CRCReceiveTimer. The oldest buffered message is parsed, except in a handover's quiet
ticks. Every timer row acts exactly where its timer is due; CRCReceiveTimer resends while retries remain;
the timers whose expiry is a Hard_Reset request it with timer 10 running. -/
def Obligations.PdRowsComplete : Prop :=
  (∀ (p : Port) (k : PacketIn) (s : State), let c := Instr.packetReceived p k
    let m := rxMsg k.sop.val k.bytes
    let up := s.phyUp p = true
    let own := up ∧ s.owns p = true ∧ s.linkRuns p = true ∧ s.blanked p = false
    let w := s.ccActivity p
    let v := if k.sop.val = 0 then w.goodSop p false else w
    (s.lowWater = false → up ∧ w = s) ∧
    (¬up → exec c s = .next w) ∧
    (up → s.owns p = false → exec c s = .next (if k.good = true ∧ k.sop.val < 3
      then s.overhear p m (s.fromOwner p k.sop.val (ofBytes (k.bytes.take 2))) else s)) ∧
    (up → s.owns p = true → ¬own → exec c s = .next s) ∧
    (own → k.good = false → exec c s = .next (w.cntEvent 0x12 (some p))) ∧
    (own → k.good = true → 3 ≤ k.sop.val →
      exec c s = .next ((w.cntEvent 0x13 (some p)).fset PRT_PDEV.DBGSOP p 1)) ∧
    (own → k.good = true → k.sop = 1 ∨ k.sop = 2 → w.fon PRT_PDST.SOPPEN p = false → exec c s = .next w) ∧
    (own → k.good = true → k.sop = 0 ∨ (k.sop = 1 ∨ k.sop = 2) ∧ w.fon PRT_PDST.SOPPEN p = true →
      exec c s = .next (if m.code = 1 then v.goodCrc p m.sop m.id else v.acceptPacket p m)) ∧
    (s.fon PRT_PDST.BIST p = false → 2 ≤ (s.pd p).rx.length →
      s.acceptPacket p m = (s.cntEvent 0x18 (some p)).linkEvent p PRT_PDEV.OVFL)) ∧
  (∀ (p : Port) (sop : Fin 3) (id : BitVec 3) (s : State), let c := Instr.goodcrcReceived p sop id
    let up := s.phyUp p = true
    let own := up ∧ s.owns p = true ∧ s.linkRuns p = true ∧ s.blanked p = false ∧
      (sop = 0 ∨ s.fon PRT_PDST.SOPPEN p = true)
    let w := s.ccActivity p
    (¬up → exec c s = .next w) ∧
    (up → s.owns p = false → exec c s =
      .next (s.overhear p { sop := sop.val, typ := 1, id := id.toNat } false)) ∧
    (up → s.owns p = true → ¬own → exec c s = .next s) ∧
    (own → exec c s = .next ((if sop = 0 then w.goodSop p false else w).goodCrc p sop.val id.toNat))) ∧
  (∀ (p : Port) (s : State), let h := s.pd p
    let up := s.phyUp p = true
    let w := s.ccActivity p
    let hr := Instr.hardResetReceived p
    let cr := Instr.cableResetReceived p
    (¬up → exec hr s = .next w ∧ exec cr s = .next w) ∧
    (up → s.owns p = false → exec hr s = .next (s.heardCount p true) ∧ exec cr s = .next (s.heardCount p true)) ∧
    (up → s.owns p = true → Acts cr s (s.blanked p = false) (w.cntEvent 0x14 (some p)) ∧
      Acts hr s (s.linkRuns p = true ∧ s.blanked p = false)
        (w.hardResetDone p (decide (h.line = .hardReset)))) ∧
    Acts (.packetTransmitStart p) s (s.owns p = true ∧ s.linkRuns p = true ∧ s.phyUp p = true ∧ h.line = .idle ∧
      h.carrier = false ∧ h.frsGen = false ∧ (s.att p).ovPend = false) (s.txNext p) ∧
    (h.line = .packet → exec (.packetTransmitEnd p) s =
      .next (((s.onPd p fun h => { h with line := .idle }).fset PRT_PDST.AWAITGC p 1).timStart p 0)) ∧
    (h.line = .hardReset → exec (.packetTransmitEnd p) s =
      .next ((s.onPd p fun h => { h with line := .idle }).hardResetDone p true)) ∧
    (h.line = .idle → exec (.packetTransmitEnd p) s = .next (s.onPd p fun h => { h with line := .idle })) ∧
    (∀ sop head, h.line = .goodCrc sop head → exec (.packetTransmitEnd p) s =
      .next (match (s.sw p).acc with
        | some c => (s.onPd p fun h => { h with line := .idle }).acceptTaken p c
        | none => s.onPd p fun h => { h with line := .idle })) ∧
    (h.line = .cableReset → exec (.packetTransmitEnd p) s = .next (s.txEnd p)) ∧
    (s.hoQuiet p = true ∨ h.rx = [] → exec (.pdMessageParse p) s = .next s) ∧
    (∀ m rest, s.hoQuiet p = false → h.rx = m :: rest → exec (.pdMessageParse p) s =
      .next ((s.onPd p fun h => { h with rx := rest }).parseMsg p m)) ∧
    exec (.frsSignalEnd p) s = .next (s.onPd p fun d => { d with frsGen := false }) ∧
    Acts (.sinkTxWaitExpiry p) s ((s.att p).sinkTx = some 0) (s.onAtt p fun h => { h with sinkTx := none })) ∧
  (∀ (p : Port) (s : State), (∀ x ∈ [(0, Instr.crcReceiveTimerExpiry p), (1, .senderResponseTimeout p),
        (2, .answerTimerExpiry p), (3, .chunkTimerExpiry p false), (4, .chunkTimerExpiry p true),
        (5, .sourceCapabilityTimeout p), (6, .sinkWaitCapTimeout p), (7, .psTransitionTimeout p false),
        (8, .psTransitionTimeout p true), (9, .noResponseTimeout p), (10, .hardResetCompleteTimeout p),
        (11, .discoverIdentityTimeout p), (12, .vdmResponseTimeout p), (13, .vdmModeEntryTimeout p),
        (14, .bistContModeTimeout p), (15, .sinkEprEnterTimeout p), (16, .sinkEprKeepaliveTimeout p),
        (17, .sourceEprKeepaliveTimeout p), (18, .sinkPpsPeriodicTimeout p), (19, .sourcePpsCommTimeout p)],
      s.timDue p x.1 = false → exec x.2 s = .next s) ∧
    (∀ x ∈ [(6, Instr.sinkWaitCapTimeout p), (7, .psTransitionTimeout p false), (8, .psTransitionTimeout p true),
        (17, .sourceEprKeepaliveTimeout p), (19, .sourcePpsCommTimeout p)], s.timDue p x.1 = true → ∃ t,
      exec x.2 s = .next t ∧ (t.pd p).ordHard = true ∧ (t.timer p 10).isSome = true ∧
      ((s.pd p).owedT.contains x.1 = false → t.timer p x.1 = none) ∧
      t = (s.timExpire p x.1).hardReset p)) ∧
  (∀ (p : Port) (s : State),
    (∀ i, s.timDue p 0 = true → (s.pd p).cur = some i → 0 < (s.pd p).retries →
      exec (.crcReceiveTimerExpiry p) s = .next (((s.timExpire p 0).onPd p fun h =>
        { h with retries := h.retries - 1, resend := true }).cntEvent 0x15 (some p))) ∧
    (∀ i, s.timDue p 0 = true → (s.pd p).cur = some i → (s.pd p).retries = 0 →
      exec (.crcReceiveTimerExpiry p) s = .next ((s.timExpire p 0).txFail p i)) ∧
    (s.timDue p 0 = true → (s.pd p).cur = none → exec (.crcReceiveTimerExpiry p) s = .next (s.timExpire p 0)) ∧
    (s.timDue p 1 = true → (s.pd p).wait = none → exec (.senderResponseTimeout p) s = .next (s.timExpire p 1)) ∧
    (∀ w, s.timDue p 1 = true → (s.pd p).wait = some w → w.code = Code.getSourceCap → s.eget PRT_PDCFG.ESC p = 0 →
      (s.timExpire p 1).eget PRT_PDCFG.ESC p = 0 → ∃ t, exec (.senderResponseTimeout p) s = .next t ∧
        (t.pd p).wait = none ∧ t.timer p 1 = none ∧
        (∃ i, (t.pd p).engine.head? = some i ∧ i.msg = ctl Code.softReset w.sop)) ∧
    (s.timDue p 2 = true → s.answerWaits p = true → exec (.answerTimerExpiry p) s = .next s) ∧
    (∀ r, s.timDue p 2 = true → s.answerWaits p = false → (s.pd p).raise = some r →
      exec (.answerTimerExpiry p) s = .next ((((((s.timExpire p 2).onPd p fun h =>
        { h with raise := none }).answering p fun s => s.fallback p r.msg).unitSource 41).cntEvent 0x1C
          (some p)).linkEvent p PRT_PDEV.ANSLATE)) ∧
    (s.timDue p 2 = true → s.answerWaits p = false → (s.pd p).raise = none →
      exec (.answerTimerExpiry p) s = .next (s.timExpire p 2))) ∧
  (∀ (p : Port) (s : State),
    (s.timDue p 3 = true → exec (.chunkTimerExpiry p false) s =
      .next (((s.timExpire p 3).onPd p fun h => { h with asm := none }).evPdLink p)) ∧
    (s.timDue p 4 = true → exec (.chunkTimerExpiry p true) s =
      .next ((((s.timExpire p 4).onPd p fun h => { h with chunks := [], chunkOf := none }).finish
        ((s.pd p).chunkOf.bind (·.cmd)) 0x50).evPdLink p)) ∧
    (s.timDue p 5 = true → exec (.sourceCapabilityTimeout p) s = .next (if (s.pd p).capsSent < 50
      then (s.timExpire p 5).sendSourceCaps p else s.timExpire p 5)) ∧
    (s.timDue p 9 = true → 3 ≤ (s.pd p).hardSent → exec (.noResponseTimeout p) s =
      .next (((s.timExpire p 9).fset PRT_PDST.ESCSTEP p 3).evPdLink p)) ∧
    (s.timDue p 9 = true → (s.pd p).hardSent < 3 → exec (.noResponseTimeout p) s =
      .next (if (s.timExpire p 9).eget PRT_PDCFG.ESC p = 0 then (s.timExpire p 9).hardReset p
        else (s.timExpire p 9).evPdLink p)) ∧
    Acts (.hardResetCompleteTimeout p) s (s.timDue p 10 = true) (if ((s.timExpire p 10).pd p).ordHard
      then (s.timExpire p 10).hardResetDone p true else s.timExpire p 10) ∧
    (s.timDue p 11 = true → exec (.discoverIdentityTimeout p) s = .next (if (s.timExpire p 11).cableWanted p
      then (s.timExpire p 11).discoverCable p else s.timExpire p 11)) ∧
    (s.timDue p 12 = true → (s.pd p).wait = none → exec (.vdmResponseTimeout p) s = .next (s.timExpire p 12)) ∧
    (∀ w, s.timDue p 12 = true → (s.pd p).wait = some w → w.sop = 0 → w.vcmd = 1 →
      exec (.vdmResponseTimeout p) s = .next (((s.timExpire p 12).endWait p).evPdLink p)) ∧
    (s.timDue p 13 = true → (s.mux p).busy = 0 → exec (.vdmModeEntryTimeout p) s =
      .next (((s.timExpire p 13).endWait p).evPdLink p)) ∧
    Acts (.bistContModeTimeout p) s (s.timDue p 14 = true) (((s.timExpire p 14).onPd p fun h =>
      { h with carrier := false }).linkEvent p PRT_PDEV.BISTEV) ∧
    Acts (.sinkEprEnterTimeout p) s (s.timDue p 15 = true)
      ((((s.timExpire p 15).completeAll 0x35 p 0x50).endWait p).softReset p 0) ∧
    Acts (.sinkEprKeepaliveTimeout p) s (s.timDue p 16 = true)
      (((s.timExpire p 16).sendEngine p (extCtl 3)).timStart p 16)) ∧
  ∀ (p : Port) (s : State),
    (∀ m, s.timDue p 18 = true → ((s.timExpire p 18).pd p).lastReq = some m → exec (.sinkPpsPeriodicTimeout p) s =
      .next (((s.timExpire p 18).sendEngine p m).timStart p 18)) ∧
    (s.timDue p 18 = true → ((s.timExpire p 18).pd p).lastReq = none → exec (.sinkPpsPeriodicTimeout p) s =
      .next ((s.timExpire p 18).timStart p 18)) ∧
    (¬(250000 ≤ (s.pd p).heldFor ∧ s.fon PRT_PDST.HELD p = true) → exec (.heldMessageTimeout p) s = .next s) ∧
    (∀ i rest, 250000 ≤ (s.pd p).heldFor → s.fon PRT_PDST.HELD p = true → (s.pd p).engine = i :: rest →
      exec (.heldMessageTimeout p) s = .next (((s.fset PRT_PDST.HELD p 0).onPd p fun h =>
        { h with engine := rest, heldFor := 0 }).finish i.cmd 0x50)) ∧
    (∀ i rest, 250000 ≤ (s.pd p).heldFor → s.fon PRT_PDST.HELD p = true → (s.pd p).engine = [] →
      (s.pd p).hostq = i :: rest → exec (.heldMessageTimeout p) s =
      .next ((((s.fset PRT_PDST.HELD p 0).hostPop p).onPd p fun h => { h with heldFor := 0 }).finish i.cmd 0x50))

/-- O41. The judgement moves the energy sum to PRT_ELAST, restarts it, and trips a judged, owned port in energy
form whose energy exceeds its headroom; where the engine runs its tick list in energy form the poles then
advance through that energy, and PRT_EHEAD gets the headroom they leave. t_OFF_MIN, t_QUIET, the gate-rise
test, the stuck-gate test, the limit-time cap, the fixed timer (TFIX x 10 us), the discharge time and the
regulator start each act exactly where they are due. A completed PMBus transaction clears FAILS and hands
its data on; one that fails or loses arbitration waits to be made again, and the third failure in succession
is "regulator not responding". A poll after 64 ticks outside a transition, or an alert on every port of its
segment, posts STATUS_WORD, on owned ports only; a segment's grant takes the first claimant's oldest
transaction, and none while one is in flight. A write of LIM sets AUTO and the threshold. -/
def Obligations.PowerRowsComplete : Prop :=
  (∀ (p : Port) (s : State), let u := (s.closeEnergy p).closeMean p
    (s.closeEnergy p).fget PRT_ELAST.SUM p = s.fget PRT_EACC.SUM p ∧ (s.closeEnergy p).fget PRT_EACC.SUM p = 0 ∧
    (let v := if (u.pwr p).judged = true ∧ u.owns p = true ∧ u.eget PRT_PWRCFG.FORM p = 0 then u.judgeEnergy p else u
     exec (.energyJudgement p) s =
      .next (if v.listRuns p = true ∧ u.eget PRT_PWRCFG.FORM p = 0 then v.energyStep p else v)) ∧
    ((s.pwr p).idle = 0 → let t := s.energyStep p
      let e := s.fget PRT_ELAST.SUM p
      (t.pwr p).t1 = poleStep (s.pwr p).t1 (s.coeff p 0) (s.coeff p 1) (s.coeff p 5) e ∧
      (t.pwr p).t2 = poleStep (s.pwr p).t2 (s.coeff p 2) (s.coeff p 3) (s.coeff p 5) e ∧
      (t.pwr p).headNow = true ∧ ∃ u : State, t.fget PRT_EHEAD.HEAD p = u.headOf p % 2 ^ 32 ∧
        (u.pwr p).t1 = (t.pwr p).t1 ∧ (u.pwr p).t2 = (t.pwr p).t2 ∧ u.port p = { s.port p with pwr := u.pwr p }) ∧
    ((s.pwr p).headPrev = true → s.fget PRT_ELAST.SUM p ≤ (s.pwr p).headVal → s.judgeEnergy p = s) ∧
    ((s.pwr p).headPrev = true → (s.pwr p).headVal < s.fget PRT_ELAST.SUM p → s.tripsAny p = true →
      s.judgeEnergy p = s.trip p 2 1 0x24)) ∧
  (∀ (p : Port) (s : State), let h := s.pwr p
    let u := s.onPwr p fun h => { h with offMin := none }
    (h.offMin ≠ some 0 → exec (.offMinElapsed p) s = .next s) ∧
    (h.offMin = some 0 → h.deferTag = none → exec (.offMinElapsed p) s = .next u) ∧
    (∀ t, h.offMin = some 0 → h.deferTag = some t → u.fget PRT_ATTST.STATE p = 0 → exec (.offMinElapsed p) s =
      .next (((u.fset PRT_PWRST.DEFER p 0).onPwr p fun h => { h with deferTag := none }).onAtt p
        fun h => { h with force := 3, forceCmd := some ⟨0x10, t, true⟩ })) ∧
    (∀ t, h.offMin = some 0 → h.deferTag = some t → u.fget PRT_ATTST.STATE p ≠ 0 → exec (.offMinElapsed p) s =
      .next ((u.enableOff p).endDefer p 0)) ∧
    Acts (.quietElapsed p) s (h.quiet = some 0) ((s.onPwr p fun h => { h with quiet := none }).leaveTripped p) ∧
    (h.gateRise ≠ some 0 → exec (.gateRiseTimeout p) s = .next s) ∧
    (h.gateRise = some 0 → s.pwrState p ≠ 1 ∨ s.fon PRT_PWRST.GATEOK p = true → exec (.gateRiseTimeout p) s =
      .next (s.onPwr p fun h => { h with gateRise := none })) ∧
    (h.gateRise = some 0 → s.pwrState p = 1 → s.fon PRT_PWRST.GATEOK p = false → exec (.gateRiseTimeout p) s =
      .next ((s.onPwr p fun h => { h with gateRise := none }).gateWontRise p))) ∧
  (∀ (p : Port) (s : State), let h := s.pwr p
    let u := s.onPwr p fun h => { h with limOn := false, limCnt := 0 }
    Acts (.gateStuckOn p) s (16 ≤ h.stuck) ((((s.onPwr p fun h => { h with stuck := 0 }).pwrEv PRT_PWREV.GSTUCK
      p).enterTripped p 7).portSource p 5) ∧
    Acts (.limitTimeCap p) s (s.fget PRT_BRKTIM.LIMCAP p ≤ h.limCnt ∧ h.limOn = true ∧
      s.eget PRT_PWRCFG.FORM p = 0 ∧ s.tripsAny p = true) (u.trip p 3 2 0x25) ∧
    Acts (.fixedTimerExpiry p) s (h.limOn = true ∧ s.eget PRT_PWRCFG.FORM p = 1 ∧ s.tripsAny p = true ∧
      s.fget PRT_BRKTIM.TFIX p * 2500 ≤ (h.limCnt + 1) * 2000)
      (u.trip p 3 2 0x25) ∧
    Acts (.dischargeTimeout p) s (h.dis = some 0 ∧ s.pwrState p = 4)
      (((s.setPwr p 0).pwrEv PRT_PWREV.DISTO p).portSource p 7) ∧
    Acts (.regulatorStartTimeout p) s (h.regStart = some 0) (((s.onPwr p fun h =>
      { h with regStart := none }).pwrEv PRT_PWREV.REGFLT p).portSource p 10)) ∧
  (∀ (p : Port) (data : BitVec 16) (s : State), let n := ((s.finc PRT_REG.FAILS p).cntEvent 0x2A (some p)).regRetry p
    ((s.vreg p).txn = none → exec (.pmbusTransactionComplete p data) s = .next s ∧
      exec (.pmbusTransactionFail p) s = .next s) ∧
    (∀ t, (s.vreg p).txn = some t → exec (.pmbusTransactionComplete p data) s =
      .next (((s.onReg p fun r => { r with txn := none }).fset PRT_REG.FAILS p 0).regDone p t data.toNat)) ∧
    ((s.vreg p).txn ≠ none → n.fget PRT_REG.FAILS p ≠ 3 → exec (.pmbusTransactionFail p) s = .next n) ∧
    ((s.vreg p).txn ≠ none → n.fget PRT_REG.FAILS p = 3 → exec (.pmbusTransactionFail p) s =
      .next ((if (n.pwrEv PRT_PWREV.REGNR p).fon PRT_PWRST.MODE p = true ∧
          (n.pwrEv PRT_PWREV.REGNR p).pwrState p ≠ 0
        then (n.pwrEv PRT_PWREV.REGNR p).enterTripped p 6 else n.pwrEv PRT_PWREV.REGNR p).portSource p 10)) ∧
    exec (.pmbusArbitrationLost p) s = .next ((s.regRetry p).cntEvent 0x2B (some p)) ∧
    ((s.regRetry p).vreg p = { s.vreg p with txn := none, waiting := (s.vreg p).txn.toList ++ (s.vreg p).waiting }) ∧
    Acts (.statusWordPoll p) s (64 ≤ (s.vreg p).poll ∧ s.fget PRT_ROLE.SWAP p ≠ 5)
      ((s.onReg p fun r => { r with poll := 0 }).regPost p .statusWord) ∧
    (s.owns p = false → s.regPost p .statusWord = s)) ∧
  (∀ (k : Fin 2) (n : Nat) (s : State),
    (s.segBusy k.val = true ∨ s.claimants k.val n = [] → s.segGrant n k.val = s) ∧
    (∀ p l, s.segBusy k.val = false → s.claimants k.val n = p :: l → s.segGrant n k.val =
      s.onReg p fun r => { r with txn := r.waiting.head?, waiting := r.waiting.tail })) ∧
  (∀ (k : Fin 2) (s : State), exec (.pmbusAlert k) s = .next (s.forPorts fun p s =>
    if s.segment p = k.val then s.regPost p .statusWord else s)) ∧
  ∀ (p : Port) (v : BitVec 32) (s : State), exec (.limWrite p v) s =
    .next ((s.fset PRT_ILIM.AUTO p (bits v.toNat 31 31)).writeLim p (bits v.toNat 25 16)) ∧
    ∃ t, exec (.limWrite p v) s = .next t ∧ t.fget PRT_ILIM.LIM p = bits v.toNat 25 16 ∧
      t.fget PRT_ILIM.AUTO p = bits v.toNat 31 31

/-- O42. A source transition begins with the accepted goal outside every swap, waits tSrcTransition, commands
the voltage, waits for four ticks in the window and sends PS_RDY; a step not ended, or with no goal, changes
nothing. A sink transition, a PR_Swap in each direction, a VCONN_Swap, a Fast Role Swap and a hard-reset
sequence likewise take the step named here on its awaited event. The source, sink and swap timers act
exactly where they are due: a missed PS_RDY or VCONN is FAIL's Hard_Reset, as is a VCONN switch that cannot
close. FRS signalling acts only on an armed port. A mode hold is released at 0. A junction's reverse
turn-off opens its pass element with REV; a feed or bus level acts only where it changes. -/
def Obligations.SwapRowsComplete : Prop :=
  (∀ (p : Port) (s : State), let h := s.sw p
    let run := s.fget PRT_ROLE.SWAP p = 5
    let c := Instr.contractTransitionStep p
    (h.goal = none → exec c s = .next s ∧ exec (.sinkTransitionStep p) s = .next s) ∧
    ∀ g, h.goal = some g →
      (¬run → h.go = true → s.isSource p = true → s.fget PRT_ROLE.SWAP p = 0 →
        exec c s = .next (s.srcStep1 p h.held g)) ∧
      (¬run → ¬(h.go = true ∧ s.isSource p = true ∧ s.fget PRT_ROLE.SWAP p = 0) → exec c s = .next s) ∧
      (run → s.fget PRT_ROLE.SWSTEP p = 1 → exec c s = .next (s.srcStep2 p h.held g)) ∧
      (run → s.fget PRT_ROLE.SWSTEP p = 2 → Acts c s (h.srcTr = some 0) (s.srcStep3 p h.held g)) ∧
      (run → s.fget PRT_ROLE.SWSTEP p = 3 → exec c s =
        .next ((s.fset PRT_ROLE.SWSTEP p 4).onSw p fun h => { h with okTicks := 0 })) ∧
      (run → s.fget PRT_ROLE.SWSTEP p = 4 → Acts c s (4 ≤ h.okTicks) (s.srcStep5 p h.held g)) ∧
      (s.fget PRT_ROLE.SWAP p = 6 → s.fget PRT_ROLE.SWSTEP p = 1 → Acts (.sinkTransitionStep p) s (h.rdySeen = true)
        ((s.fset PRT_ROLE.SWSTEP p 2).onSw p fun h => { h with okTicks := 0 })) ∧
      (s.fget PRT_ROLE.SWAP p = 6 → s.fget PRT_ROLE.SWSTEP p = 2 → h.okTicks < 4 →
        exec (.sinkTransitionStep p) s = .next s) ∧
      (s.fget PRT_ROLE.SWAP p = 6 → s.fget PRT_ROLE.SWSTEP p = 2 → 4 ≤ h.okTicks → ∃ t,
        exec (.sinkTransitionStep p) s = .next t ∧ t.fget PRT_ROLE.SWAP p = 0 ∧ (t.sw p).goal = none ∧
        t.fget PRT_VWIN.WLO p = g.lo % 8192 ∧ t.fget PRT_VWIN.WHI p = g.hi % 8192)) ∧
  (∀ (p : Port) (s : State), let h := s.sw p
    let failed := fun (u : State) => (((u.finish h.cmd 0x50).onSw p fun h =>
      { h with cmd := none }).swEvent p PRT_SWEV.FAIL).hardReset p
    (h.srcTr ≠ some 0 → exec (.srcTransitionExpiry p) s = .next s) ∧
    (h.srcTr = some 0 → s.fget PRT_ROLE.SWAP p = 1 → exec (.srcTransitionExpiry p) s =
      .next ((((s.onSw p fun h => { h with srcTr := none }).operation p 0).fset
        PRT_PWRCTL.REQ p 0).fset PRT_ROLE.SWSTEP p 3)) ∧
    (h.srcTr = some 0 → s.fget PRT_ROLE.SWAP p ≠ 1 → exec (.srcTransitionExpiry p) s = .next (s.contractStep p)) ∧
    Acts (.srcReadyTimeout p) s (h.srcRdy = some 0) ((((s.onSw p fun h => { h with srcRdy := none }).hardReset
      p).swEvent p PRT_SWEV.TRTO).portSource p 17) ∧
    Acts (.snkNewPowerExpiry p) s (h.newPwr = some 0)
      (let u := (s.onSw p fun h => { h with newPwr := none }).setLimFor p h.held.cur
       if u.fget PRT_ROLE.SWAP p = 5 then (u.fset PRT_ROLE.SWAP p 0).fset PRT_ROLE.SWSTEP p 0 else u) ∧
    Acts (.psSourceOffTimeout p) s (h.psOff = some 0) (failed (s.onSw p fun h => { h with psOff := none })) ∧
    Acts (.psSourceOnTimeout p) s (h.psOn = some 0) (failed (s.onSw p fun h => { h with psOn := none })) ∧
    Acts (.vconnOnTimeout p) s (h.vconnTo = some 0) (failed (s.onSw p fun h => { h with vconnTo := none })) ∧
    Acts (.vconnSourceOnExpiry p) s (h.vconnOn = some 0)
      ((s.onSw p fun h => { h with vconnOn := none }).sendReply p (ctl Code.psRdy) .rdyVconn) ∧
    Acts (.psHardResetExpiry p) s (h.psHr = some 0) (((s.onSw p fun h =>
      { h with psHr := none, hrSeq := 2 }).operation p 0).fset PRT_PWRCTL.REQ p 0) ∧
    Acts (.srcRecoverExpiry p) s (h.srcRec = some 0) ((s.onSw p fun h =>
      { h with srcRec := none, hrSeq := 4, okTicks := 0, vout := 500 }).regStart p) ∧
    Acts (.sinkHardResetTimeout p) s (h.sinkHr = some 0) (s.hardSeqEnd p)) ∧
  (∀ (p : Port) (s : State), let h := s.sw p
    let c := h.held
    let pps := c.typ = 3 ∧ s.isSource p = true ∧ s.eget PRT_SWCFG.PPSCL p = 1 ∧
      (s.fget PRT_ROLE.SWAP p ≠ 5 ∨ s.fget PRT_ROLE.SWSTEP p = 6)
    let low := max (bits ((s.pd p).offered.getD (c.pos - 1) 0) 15 8 * 10) (h.vout - 10)
    let high := min c.mv10 (h.vout + 10)
    (¬pps ∨ h.ppsOver < 16 ∧ h.ppsUnder < 16 → exec (.ppsCurrentLimitStep p) s = .next s) ∧
    (pps → 16 ≤ h.ppsOver → exec (.ppsCurrentLimitStep p) s = .next (((s.onSw p fun h =>
      { h with vout := low, ppsOver := 0, ppsUnder := 0 }).voutCommand p low).fset PRT_CONTRACT.CL p
        (b2n (decide (low < c.mv10))))) ∧
    (pps → h.ppsOver < 16 → 16 ≤ h.ppsUnder → exec (.ppsCurrentLimitStep p) s = .next (((s.onSw p fun h =>
      { h with vout := high, ppsOver := 0, ppsUnder := 0 }).voutCommand p high).fset PRT_CONTRACT.CL p
        (b2n (decide (high < c.mv10)))))) ∧
  (∀ (p : Port) (s : State), let h := s.sw p
    let c := Instr.prSwapStep p
    let k := s.fget PRT_ROLE.SWSTEP p
    let src := s.fget PRT_ROLE.SWAP p = 1 ∧ s.fget PRT_ROLE.BASEPWR p = 1
    let snk := s.fget PRT_ROLE.SWAP p = 1 ∧ s.fget PRT_ROLE.BASEPWR p = 0
    (s.fget PRT_ROLE.SWAP p ≠ 1 → exec c s = .next s) ∧
    (src → k = 1 → Acts c s (h.go = true) (((s.fset PRT_CCCTL.HOLDATT p 1).fset PRT_ROLE.SWSTEP p 2).onSw p fun h =>
      { h with go := false, srcTr := some (msTicks (s.fget PRT_SWTIM0.TSRCTR p)) })) ∧
    (src → k = 3 → Acts c s (s.fon PRT_CCSTAT.VSAFE0 p = true) ((((s.fset PRT_ROLE.SWSTEP p 4).roleSwap p).fset
      PRT_ROLE.PWR p 0).sendReply p (ctl Code.psRdy) .rdyPrSwap)) ∧
    (src → k = 5 → Acts c s (h.rdySeen = true)
      ((s.fset PRT_ROLE.SWSTEP p 7).onSw p fun h => { h with psOn := none })) ∧
    (src → k = 7 → Acts c s (s.fon PRT_CCSTAT.VBUSOK p = true)
      (((s.fset PRT_PWRCTL.REQ p 2).fset PRT_CCCTL.HOLDATT p 0).swapDone p)) ∧
    (snk → k = 1 → Acts c s (h.go = true) ((((s.fset PRT_CCCTL.HOLDATT p 1).fset PRT_PWRCTL.REQ p 0).fset
      PRT_ROLE.SWSTEP p 2).onSw p fun h => { h with
        go := false, psOff := some (msTicks (s.fget PRT_SWTIM2.PSOFF p)) })) ∧
    (snk → k = 2 → Acts c s (h.rdySeen = true) (((((s.onSw p fun h =>
      { h with psOff := none, rdySeen := false, okTicks := 0 }).fset PRT_ROLE.SWSTEP p 5).roleSwap p).fset
        PRT_ROLE.PWR p 1).regStart p)) ∧
    (snk → k = 5 → exec c s = .next (s.fset PRT_ROLE.SWSTEP p 6)) ∧
    (snk → k = 6 → Acts c s (4 ≤ h.okTicks ∧ h.rdySent = false)
      ((s.onSw p fun h => { h with okTicks := 0, rdySent := true }).sendReply p (ctl Code.psRdy) .rdyPrSwap))) ∧
  (∀ (p : Port) (s : State), let h := s.sw p
    let c := Instr.vconnSwapStep p
    let run := s.fget PRT_ROLE.SWAP p = 3
    let barred := s.eget PRT_CCCFG.VCONN_EN p = 0 ∨ (s.quad (p.val / 4)).vconnUv = true
    let k := s.fget PRT_ROLE.SWSTEP p
    (¬run → exec c s = .next s) ∧
    (run → k = 1 → h.go = false → exec c s = .next s) ∧
    (run → k = 1 → h.go = true → s.vconnSource p = true → exec c s = .next ((s.fset PRT_ROLE.SWSTEP p 2).onSw p
      fun h => { h with go := false, vconnTo := some (msTicks (s.fget PRT_SWTIM3.VCONNTO p)) })) ∧
    (run → k = 1 → h.go = true → s.vconnSource p = false →
      barred → exec c s = .next ((s.swapFail p 0x22).hardReset p)) ∧
    (run → k = 1 → h.go = true → s.vconnSource p = false → ¬barred → exec c s =
      .next (((s.fset PRT_CCCTL.VCONNON p 1).fset PRT_ROLE.SWSTEP p 2).onSw p fun h => { h with go := false })) ∧
    (run → k = 2 → s.vconnSource p = true → Acts c s (h.rdySeen = true)
      ((((s.fset PRT_CCCTL.VCONNON p 0).fset PRT_ROLE.VCSRC p 0).setSoppEn p).swapDone p)) ∧
    (run → k = 2 → s.vconnSource p = false → s.fon PRT_ATTST.VCONN p = true →
      exec c s = .next ((s.fset PRT_ROLE.SWSTEP p 3).onSw p fun h =>
        { h with vconnOn := some (msTicks (s.fget PRT_SWTIM3.TVCONNON p)) })) ∧
    (run → k = 2 → s.vconnSource p = false → s.fon PRT_ATTST.VCONN p = false →
      Acts c s barred ((s.swapFail p 0x22).hardReset p))) ∧
  (∀ (p : Port) (s : State), let h := s.sw p
    let c := Instr.frsSwapStep p
    let k := s.fget PRT_ROLE.SWSTEP p
    let snk := s.fget PRT_ROLE.SWAP p = 4 ∧ s.fget PRT_ROLE.BASEPWR p = 0
    let src := s.fget PRT_ROLE.SWAP p = 4 ∧ s.fget PRT_ROLE.BASEPWR p ≠ 0
    (s.fget PRT_ROLE.SWAP p ≠ 4 → Acts c s ((s.pd p).frsSeen = true ∧
        (s.fget PRT_ROLE.SWAP p = 0 ∨ s.fget PRT_ROLE.SWAP p = 6))
      ((((s.swapEnd p).swapBegin p 4 none).sendFirst p (ctl Code.frSwap)).onPd p fun d =>
        { d with frsSeen := false })) ∧
    (snk → k = 1 → Acts c s (h.go = true) ((s.fset PRT_ROLE.SWSTEP p 2).onSw p fun h => { h with go := false })) ∧
    (snk → k = 2 → Acts c s (h.rdySeen = true)
      (((s.fset PRT_ROLE.SWSTEP p 3).roleSwap p).sendReply p (ctl Code.psRdy) .rdyFrs)) ∧
    (src → k = 1 → Acts c s (h.go = true) (((((s.fset PRT_CCCTL.HOLDATT p 1).operation p 0).fset PRT_PWRCTL.REQ p
      0).fset PRT_ROLE.SWSTEP p 2).onSw p fun h => { h with go := false })) ∧
    (src → k = 2 → Acts c s (s.fget PRT_RVBUS.CODE p * 60000 < 500 * 40960)
      (((s.fset PRT_ROLE.SWSTEP p 3).roleSwap p).sendReply p (ctl Code.psRdy) .rdyFrs)) ∧
    (src → k = 4 → Acts c s (h.rdySeen = true)
      ((((s.fset PRT_ROLE.PWR p 0).fset PRT_PWRCTL.REQ p 2).fset PRT_CCCTL.HOLDATT p 0).swapDone p)) ∧
    (s.fon PRT_ROLE.FRSARM p = false → exec (.frsSignalDetected p) s = .next s) ∧
    (s.fon PRT_ROLE.FRSARM p = true → let a := s.fset PRT_CCCTL.HOLDATT p 1
      let b := if ((a.pd p).wait.any fun w => [9, 10, 11].contains w.code) then a.withdrawSwap p else a
      exec (.frsSignalDetected p) s = .next ((b.onPd p fun d =>
        { d with frsSeen := true, frsDet := true }).swEvent p PRT_SWEV.FRSDET)) ∧
    Acts (.frsSourceTurnOn p) s (s.fon PRT_PWRCTL.FRSPRE p = true ∧ (s.pd p).frsDet = true ∧
      s.pwrState p = 2) (((((s.onPd p fun d => { d with frsDet := false }).fset PRT_PWRST.MODE p 1).fset
        PRT_PWRCTL.REQ p 1).onSw p fun h => { h with frsOn := true }).voutCommand p 500)) ∧
  (∀ (p : Port) (s : State), let h := s.sw p
    let c := Instr.hardResetSequenceStep p
    (h.hrSeq = 0 ∨ h.hrSeq = 1 ∨ h.hrSeq = 3 → exec c s = .next s) ∧
    (h.hrSeq = 2 → Acts c s (s.fon PRT_CCSTAT.VSAFE0 p = true) (s.onSw p fun h =>
      { h with hrSeq := 3, srcRec := some (msTicks (s.fget PRT_SWTIM1.TSRCREC p)) })) ∧
    (h.hrSeq = 4 → Acts c s (4 ≤ h.okTicks) (s.hardSeqEnd p)) ∧
    (h.hrSeq = 5 → Acts c s (s.fon PRT_CCSTAT.VBUSOK p = false) (s.onSw p fun h =>
      { h with hrSeq := 6, sinkHr := some 240625 })) ∧
    (h.hrSeq = 6 → Acts c s (s.fon PRT_CCSTAT.VBUSOK p = true) ((s.hardSeqEnd p).timStart p 6)) ∧
    ((s.mux p).hold = none → exec (.modeHoldRelease p) s = .next s) ∧
    ∀ x, (s.mux p).hold = some x → Acts (.modeHoldRelease p) s (x.left = 0) (s.muxRelease p)) ∧
  ∀ (q : Quad) (ctl : Fin 3) (b present : Bool) (s : State),
    (∃ t, exec (.junctionReverseTurnOff q ctl) s = .next t ∧ t.fget QD_JEV.REV q = 1 ∧
      (ctl = 0 → (t.quad q).faOn = false) ∧ (ctl = 1 → (t.quad q).fbOn = false) ∧
      (ctl = 2 → (t.quad q).rtOn = false)) ∧
    ((if b then (s.quad q).fbPres else (s.quad q).faPres) = present → exec (.feedLost q b present) s = .next s) ∧
    ((if b then (s.quad q).fbPres else (s.quad q).faPres) ≠ present → ∃ t,
      exec (.feedLost q b present) s = .next t ∧
      (if b then (t.quad q).fbPres else (t.quad q).faPres) = present ∧
      t.fget (if present then QD_JEV.FRET else if b then QD_JEV.FBLOST else QD_JEV.FALOST) q = 1) ∧
    ((s.quad q).busUv = present → exec (.quadBusUndervoltage q present) s = .next s) ∧
    ((s.quad q).busUv = true → exec (.quadBusUndervoltage q false) s =
      .next ((s.onQuad q fun h => { h with busUv := false }).weirCond 16 (28 + q) false)) ∧
    ((s.quad q).busUv = false → ∃ t, exec (.quadBusUndervoltage q true) s = .next t ∧ t.fget QD_JEV.BUSUV q = 1 ∧
      (t.quad q).busUv = true)

/-- O43. A log record is written only with the log ready, a record buffered, no write under way and room in the
flash queue, and a full area moves on first. Each of the other rows does what its rule gives at its event:
an engine not pending exchange, a version with no edge due, a trial without expiry and a reset without a
handover just ended change nothing; an exchangeable rill engine is held for exchange at its attempt, waits
one edge where it is not, and fails at the second; EH is exchanged only where exchangeable, and released
after its hold; the four transfer messages open, feed, close and end the slot's transfer named in their
first word. -/
def Obligations.StorageRowsComplete : Prop :=
  (∀ s : State, let may := s.fon LOG_ST.READY = true ∧ s.log.buf ≠ [] ∧ s.logWriting = false ∧ s.flashFull = false
    (¬may → exec .logRecordWrite s = .next s) ∧
    (may → exec .logRecordWrite s = .next (if 2048 ≤ s.log.pos then s.logMove else s.logWrite)) ∧
    exec .flashOperationComplete s = .next s.flashComplete ∧
    (s.jobs = [] → exec .flashOperationComplete s = .next s)) ∧
  (∀ (p : Port) (s : State), let g := s.engine p
    (g.swapLeft ≠ 0 ∨ g.swap = 0 → exec (.engineExchange p) s = .next s) ∧
    (g.swapLeft = 0 → g.swap = 3 → exec (.engineExchange p) s = .next ((s.swapStart p).exchangeOver p true).actStep) ∧
    (g.swapLeft = 0 → g.swap = 1 ∨ g.swap = 2 → exchangeable g = true →
      exec (.engineExchange p) s = .next (s.swapHold p)) ∧
    (g.swapLeft = 0 → g.swap = 1 → exchangeable g = false → exec (.engineExchange p) s =
      .next (s.onEngine p fun g => { g with swap := 2, swapLeft := 1 })) ∧
    (g.swapLeft = 0 → g.swap = 2 → exchangeable g = false → exec (.engineExchange p) s =
      .next (s.exchangeOver p false).actStep)) ∧
  (∀ s : State, let g := s.engine 16
    Acts .ehExchange s (g.swap = 1 ∧ g.swapLeft = 0 ∧ exchangeable g = true) (s.swapHold 16) ∧
    Acts .ehExchangeRelease s (g.swap = 3 ∧ g.swapLeft = 0) ((s.swapStart 16).exchangeOver 16 true).actStep) ∧
  (∀ (m : List Byte) (s : State), let w := ofBytes (m.take 8)
    let ok := fun (i : Instr) (t : State) => exec i s = .next t
    ok (.transferOpen m) (s.xferOpen (bits w 15 8) (bits w 31 16) (bits w 63 32) (m.drop 8)) ∧
    ok (.transferData m) (s.xferTake (bits w 15 8) (bits w 63 32) (m.drop 8)) ∧
    ok (.transferClose m) (s.xferClose (bits w 15 8) (slice m 8 32)) ∧
    ok (.transferResult m) (s.xferEnd (bits w 15 8) (bits w 63 32))) ∧
  ∀ s : State,
    exec .configApplyEdge s = .next (s.forEach [0, 1] fun st s => match (s.ver st).next with
      | some a => if a.edge ≤ s.tick then s.applyNow st a else s
      | none => s) ∧
    ((s.ver 0).next = none → (s.ver 1).next = none → exec .configApplyEdge s = .next s) ∧
    (s.cfg.expiry = none → exec .confirmWindowExpiry s = .next s) ∧
    (∀ x, s.cfg.expiry = some x → Acts .confirmWindowExpiry s (x ≤ s.tick) (s.trialExpires 0)) ∧
    (s.cal.expiry = none → exec .calTrialExpiry s = .next s) ∧
    (∀ x, s.cal.expiry = some x → Acts .calTrialExpiry s (x ≤ s.tick) (s.trialExpires 1)) ∧
    (∀ a b, s.host.resetPend = some (a, 0, b) → exec .resetAfterHandover s = .next (s.unitReset 3)) ∧
    (∀ a n b, s.host.resetPend = some (a, n, b) → n ≠ 0 → exec .resetAfterHandover s = .next s) ∧
    (s.host.resetPend = none → exec .resetAfterHandover s = .next s)

/-! ## Swesil-8 (chapter 12) -/

/-- O44. For MOV, ADD, ADC, SUB, SBC, AND, OR, XOR, CMP, TST, MOVI, and the short forms of ADDI and CMPI, with a
NOP in the other slot: where the engine is ready for the word, exec answers the next state in which the
destination register (none for CMP, TST, CMPI) holds the result of the operation on the values before the
word, the flags that R355 names are set from it, loads of the word before have landed, one cycle has passed
and the pc has gone on; every other part of the state is as before. A destination of FLG with flags to set
is another statement's. -/
def Obligations.ShortAluRowsComplete : Prop :=
  ∀ (e : Eng) (a : Slot) (d r : BitVec 5) (s : State), Alone a →
    let g := s.engine e
    let x := g.reg d.toNat
    let y := g.reg r.toNat
    let c := g.psw % 2
    (Ready s e (slotWord a (.alu .mov d r)) →
      exec (.mov e a d r) s = .next (s.ran e fun h => h.setReg d.toNat y)) ∧
    (Ready s e (slotWord a (.alu .add d r)) → d ≠ 25 →
      exec (.add e a d r) s = .next (s.ran e (Engine.result (some d) (addFlags 8 x y 0)))) ∧
    (Ready s e (slotWord a (.alu .adc d r)) → d ≠ 25 →
      exec (.adc e a d r) s = .next (s.ran e (Engine.result (some d) (addFlags 8 x y c)))) ∧
    (Ready s e (slotWord a (.alu .sub d r)) → d ≠ 25 →
      exec (.sub e a d r) s = .next (s.ran e (Engine.result (some d) (subFlags 8 x y 0)))) ∧
    (Ready s e (slotWord a (.alu .sbc d r)) → d ≠ 25 →
      exec (.sbc e a d r) s = .next (s.ran e (Engine.result (some d) (subFlags 8 x y c)))) ∧
    (Ready s e (slotWord a (.alu .and_ d r)) → d ≠ 25 →
      exec (.and e a d r) s = .next (s.ran e (Engine.result (some d) (logicFlags (x &&& y))))) ∧
    (Ready s e (slotWord a (.alu .or_ d r)) → d ≠ 25 →
      exec (.or e a d r) s = .next (s.ran e (Engine.result (some d) (logicFlags (x ||| y))))) ∧
    (Ready s e (slotWord a (.alu .xor_ d r)) → d ≠ 25 →
      exec (.xor e a d r) s = .next (s.ran e (Engine.result (some d) (logicFlags (x ^^^ y))))) ∧
    (Ready s e (slotWord a (.alu .cmp d r)) →
      exec (.cmp e a d r) s = .next (s.ran e (Engine.result none (subFlags 8 x y 0)))) ∧
    (Ready s e (slotWord a (.alu .tst d r)) →
      exec (.tst e a d r) s = .next (s.ran e (Engine.result none (logicFlags (x &&& y))))) ∧
    (Ready s e (slotWord a (.movi d r)) →
      exec (.movi e a d r) s = .next (s.ran e fun h => h.setReg d.toNat r.toNat)) ∧
    (Ready s e (slotWord a (.addi d r)) → d ≠ 25 →
      exec (.addi e d (.short a r)) s =
        .next (s.ran e (Engine.result (some d) (addFlags 8 x (ofSigned 8 (toSigned 5 r.toNat)) 0)))) ∧
    (Ready s e (slotWord a (.cmpi d r)) →
      exec (.cmpi e d (.short a r)) s = .next (s.ran e (Engine.result none (subFlags 8 x r.toNat 0))))

/-- O45. For SHL, SHR, ASR, ROL, ROR, RLC, RRC, NOT, NEG, INC, DEC, SWAPN, CLR, BSET, BCLR, BTST and BTGL with a
NOP in the other slot: where the engine is ready for the word, exec answers the next state in which the
register holds the result R355 gives (BTST: no register), the flags R355 names are set, and nothing else but
the word's end has happened. The value before the word is below 256, as every register the machine writes
is. FLG as the destination of an operation that sets flags is another statement's. -/
def Obligations.ShortUnaryRowsComplete : Prop :=
  ∀ (e : Eng) (a : Slot) (d : BitVec 5) (n : BitVec 3) (s : State), Alone a →
    let g := s.engine e
    let x := g.reg d.toNat
    let c := g.psw % 2
    x < 256 →
    (Ready s e (slotWord a (.unary .shl d)) → d ≠ 25 →
      exec (.shl e a d) s = .next (s.ran e (Engine.result (some d)
        (shiftFlags (2 * x % 256) (decide (128 ≤ x)))))) ∧
    (Ready s e (slotWord a (.unary .shr d)) → d ≠ 25 →
      exec (.shr e a d) s = .next (s.ran e (Engine.result (some d)
        (shiftFlags (x / 2) (decide (x % 2 = 1)))))) ∧
    (Ready s e (slotWord a (.unary .asr d)) → d ≠ 25 →
      exec (.asr e a d) s = .next (s.ran e (Engine.result (some d)
        (shiftFlags (x / 2 + if 128 ≤ x then 128 else 0) (decide (x % 2 = 1)))))) ∧
    (Ready s e (slotWord a (.unary .rol d)) → d ≠ 25 →
      exec (.rol e a d) s = .next (s.ran e (Engine.result (some d)
        (shiftFlags (2 * x % 256 + if 128 ≤ x then 1 else 0) (decide (128 ≤ x)))))) ∧
    (Ready s e (slotWord a (.unary .ror d)) → d ≠ 25 →
      exec (.ror e a d) s = .next (s.ran e (Engine.result (some d)
        (shiftFlags (x / 2 + 128 * (x % 2)) (decide (x % 2 = 1)))))) ∧
    (Ready s e (slotWord a (.unary .rlc d)) → d ≠ 25 →
      exec (.rlc e a d) s = .next (s.ran e (Engine.result (some d)
        (shiftFlags (2 * x % 256 + c) (decide (128 ≤ x)))))) ∧
    (Ready s e (slotWord a (.unary .rrc d)) → d ≠ 25 →
      exec (.rrc e a d) s = .next (s.ran e (Engine.result (some d)
        (shiftFlags (x / 2 + 128 * c) (decide (x % 2 = 1)))))) ∧
    (Ready s e (slotWord a (.unary .not_ d)) → d ≠ 25 →
      exec (.not e a d) s = .next (s.ran e (Engine.result (some d) (logicFlags (255 - x))))) ∧
    (Ready s e (slotWord a (.unary .neg d)) → d ≠ 25 →
      exec (.neg e a d) s = .next (s.ran e (Engine.result (some d) (subFlags 8 0 x 0)))) ∧
    (Ready s e (slotWord a (.unary .inc d)) → d ≠ 25 →
      exec (.inc e a d) s = .next (s.ran e (Engine.result (some d)
        ⟨(x + 1) % 256, 14, (addFlags 8 x 1 0).flags⟩))) ∧
    (Ready s e (slotWord a (.unary .dec d)) → d ≠ 25 →
      exec (.dec e a d) s = .next (s.ran e (Engine.result (some d)
        ⟨(x + 255) % 256, 14, (subFlags 8 x 1 0).flags⟩))) ∧
    (Ready s e (slotWord a (.unary .swapn d)) → d ≠ 25 →
      exec (.swapn e a d) s = .next (s.ran e (Engine.result (some d)
        (logicFlags (x % 16 * 16 + x / 16))))) ∧
    (Ready s e (slotWord a (.unary .clr d)) →
      exec (.clr e a d) s = .next (s.ran e fun h => h.setReg d.toNat 0)) ∧
    (Ready s e (slotWord a (.bits .bset d n)) →
      exec (.bset e a d n) s = .next (s.ran e fun h => h.setReg d.toNat (x ||| 2 ^ n.toNat))) ∧
    (Ready s e (slotWord a (.bits .bclr d n)) →
      exec (.bclr e a d n) s = .next (s.ran e fun h => h.setReg d.toNat (x - (x &&& 2 ^ n.toNat)))) ∧
    (Ready s e (slotWord a (.bits .btst d n)) →
      exec (.btst e a d n) s = .next (s.ran e fun h =>
        h.setFlags 2 (if x / 2 ^ n.toNat % 2 = 0 then 2 else 0))) ∧
    (Ready s e (slotWord a (.bits .btgl d n)) →
      exec (.btgl e a d n) s = .next (s.ran e fun h => h.setReg d.toNat (x ^^^ 2 ^ n.toNat)))

/-- O46. For ADD, ADC, SUB, SBC, AND, OR, XOR, ADDI, SHL, SHR, ASR, ROL, ROR, RLC, RRC, NOT, NEG, INC, DEC,
SWAPN in short form (NOP in the other slot) and ADDI, SUBI, ANDI, ORI, XORI in long form, with FLG (register
25) as destination: where the engine is ready, exec answers a next state that differs from the end of a word
without effect in PSW bits 3:0 only, whose value the spec does not give (the model's choice to leave it
free: log entry 17; the draw advances the model's own counter of free values). -/
def Obligations.FlagRegisterDestination : Prop :=
  ∀ (e : Eng) (a : Slot) (r : BitVec 5) (v : Byte) (s : State), Alone a →
    let after := fun (i : Instr) => ∃ f, exec i s =
      .next ({ s with free := s.free + 1 }.ran e fun h => { h with psw := h.psw / 16 * 16 + f % 16 })
    (∀ x ∈ [(AluOp.add, Instr.add e a 25 r), (.adc, .adc e a 25 r), (.sub, .sub e a 25 r),
        (.sbc, .sbc e a 25 r), (.and_, .and e a 25 r), (.or_, .or e a 25 r), (.xor_, .xor e a 25 r)],
      Ready s e (slotWord a (.alu x.1 25 r)) → after x.2) ∧
    (∀ x ∈ [(UnOp.shl, Instr.shl e a 25), (.shr, .shr e a 25), (.asr, .asr e a 25), (.rol, .rol e a 25),
        (.ror, .ror e a 25), (.rlc, .rlc e a 25), (.rrc, .rrc e a 25), (.not_, .not e a 25),
        (.neg, .neg e a 25), (.inc, .inc e a 25), (.dec, .dec e a 25), (.swapn, .swapn e a 25)],
      Ready s e (slotWord a (.unary x.1 25)) → after x.2) ∧
    (Ready s e (slotWord a (.addi 25 r)) → after (.addi e 25 (.short a r))) ∧
    (∀ x ∈ [(ImmOp.addi, Instr.addi e 25 (.long v)), (.subi, .subi e 25 v), (.andi, .andi e 25 v),
        (.ori, .ori e 25 v), (.xori, .xori e 25 v)],
      Ready s e (.long (.imm x.1 25 v)) → after x.2)

/-- O47. For operands below 2^w (w 8 or 16) and a carry of at most 1: the sum's C is 1 exactly where the
unsigned sum does not fit, its V exactly where the signed sum does not; the difference's C (a borrow) is 1
exactly where a is below b plus the borrow in, its V exactly where the signed difference does not fit; Z and
N are the result's zero and its top bit. The result is the sum or difference modulo 2^w. -/
def Obligations.FlagsOfSumsAndDifferences : Prop :=
  ∀ w ∈ [8, 16], ∀ a b c : Nat, a < 2 ^ w → b < 2 ^ w → c ≤ 1 →
    let m := addFlags w a b c
    let d := subFlags w a b c
    let lo : Int := -(2 ^ (w - 1))
    let hi : Int := 2 ^ (w - 1)
    m.res = (a + b + c) % 2 ^ w ∧ (bit m.flags 0 = true ↔ 2 ^ w ≤ a + b + c) ∧
    (bit m.flags 1 = true ↔ m.res = 0) ∧ (bit m.flags 2 = true ↔ 2 ^ (w - 1) ≤ m.res) ∧
    (bit m.flags 3 = true ↔
      toSigned w a + toSigned w b + c < lo ∨ hi ≤ toSigned w a + toSigned w b + c) ∧
    (d.res : Int) = ((a : Int) - b - c) % 2 ^ w ∧ (bit d.flags 0 = true ↔ a < b + c) ∧
    (bit d.flags 1 = true ↔ d.res = 0) ∧ (bit d.flags 2 = true ↔ 2 ^ (w - 1) ≤ d.res) ∧
    (bit d.flags 3 = true ↔
      toSigned w a - toSigned w b - c < lo ∨ hi ≤ toSigned w a - toSigned w b - c)

/-- O48. For two ALU operations in one word that both write a register and set flags (ADD, ADC, SUB, SBC, AND,
OR, XOR in each slot, neither destination FLG): where the engine is ready, the row of slot A's operation and
the row of slot B's answer the same next state, in which slot A's result and then slot B's are written, both
computed from the registers and the carry before the word, and only slot B's flags are set. -/
def Obligations.PairedWordReadsBefore : Prop :=
  ∀ (e : Eng) (d r d' r' : BitVec 5) (s : State), d ≠ 25 → d' ≠ 25 →
    let rows := fun (a : Slot) (d r : BitVec 5) =>
      [(AluOp.add, Instr.add e a d r), (.adc, .adc e a d r), (.sub, .sub e a d r), (.sbc, .sbc e a d r),
       (.and_, .and e a d r), (.or_, .or e a d r), (.xor_, .xor e a d r)]
    let g := s.engine e
    let out := fun (op : AluOp) (d r : BitVec 5) => aluOut op (g.reg d.toNat) (g.reg r.toNat) (g.psw % 2)
    ∀ x ∈ [AluOp.add, .adc, .sub, .sbc, .and_, .or_, .xor_], ∀ y ∈ [AluOp.add, .adc, .sub, .sbc, .and_, .or_, .xor_],
    Ready s e (.pair (.alu x d r) (.alu y d' r')) →
    let t := s.ran e fun h => ((h.setReg d.toNat (out x d r).res).setReg d'.toNat (out y d' r').res).setFlags
      (out y d' r').mask (out y d' r').flags
    (∀ i, (x, i) ∈ rows ⟨true, BitVec.ofNat 15 (encodeShort (.alu y d' r'))⟩ d r → exec i s = .next t) ∧
    (∀ i, (y, i) ∈ rows ⟨false, BitVec.ofNat 15 (encodeShort (.alu x d r))⟩ d' r' → exec i s = .next t)

/-- O49. Where the engine is ready for the word: NOP (with a NOP beside it) only ends; LDI writes its byte; BANK
writes BANK; ADDI, SUBI, ANDI, ORI, XORI in long form write the result to the register and set the flags of
R358; CMPI in long form sets flags alone; one cycle each and nothing else changes. FLG as the destination of
an operation that sets flags is another statement's. -/
def Obligations.LongImmediateRowsComplete : Prop :=
  ∀ (e : Eng) (a : Slot) (r : BitVec 5) (v : Byte) (s : State),
    let x := (s.engine e).reg r.toNat
    (Alone a → Ready s e (slotWord a .nop) → exec (.nop e a) s = .next (s.ran e id)) ∧
    (Ready s e (.long (.ldi r v)) →
      exec (.ldi e r v) s = .next (s.ran e fun h => h.setReg r.toNat v.toNat)) ∧
    (Ready s e (.long (.bank v)) →
      exec (.bank e v) s = .next (s.ran e fun h => { h with bank := v.toNat })) ∧
    (Ready s e (.long (.imm .addi r v)) → r ≠ 25 →
      exec (.addi e r (.long v)) s = .next (s.ran e (Engine.result (some r) (addFlags 8 x v.toNat 0)))) ∧
    (Ready s e (.long (.imm .subi r v)) → r ≠ 25 →
      exec (.subi e r v) s = .next (s.ran e (Engine.result (some r) (subFlags 8 x v.toNat 0)))) ∧
    (Ready s e (.long (.imm .andi r v)) → r ≠ 25 →
      exec (.andi e r v) s = .next (s.ran e (Engine.result (some r) (logicFlags (x &&& v.toNat))))) ∧
    (Ready s e (.long (.imm .ori r v)) → r ≠ 25 →
      exec (.ori e r v) s = .next (s.ran e (Engine.result (some r) (logicFlags (x ||| v.toNat))))) ∧
    (Ready s e (.long (.imm .xori r v)) → r ≠ 25 →
      exec (.xori e r v) s = .next (s.ran e (Engine.result (some r) (logicFlags (x ^^^ v.toNat))))) ∧
    (Ready s e (.long (.imm .cmpi r v)) →
      exec (.cmpi e r (.long v)) s = .next (s.ran e (Engine.result none (subFlags 8 x v.toNat 0))))

/-- O50. PADD, PSUB and MOVP (a NOP beside them), LDIP, PADDI, PCMPI, PCPY, MOVS and MOVTS: where the engine is
ready, exec answers the next state in which the pointer pair (MOVP: either side; MOVTS: the special
register) holds the value R355, R358 and R337 give, PADD, PSUB and PADDI set Z alone from the 16-bit result,
PCMPI sets C, Z, N and V of the 16-bit difference, and nothing else but the end of a one-cycle word has
happened. Bytes read from registers are below 256, as every register the machine writes is. -/
def Obligations.PointerRowsComplete : Prop :=
  ∀ (e : Eng) (a : Slot) (k j : BitVec 3) (r : BitVec 5) (v : BitVec 16) (n : BitVec 6) (s : State),
    let g := s.engine e
    let x := g.ptr k.toNat
    let y := g.reg r.toNat
    let zero := fun (z : Nat) => if z % 65536 = 0 then 2 else 0
    (Alone a → Ready s e (slotWord a (.padd false k r)) → exec (.padd e a k r) s =
      .next (s.ran e fun h => (h.setPtr k.toNat (x + y)).setFlags 2 (zero (x + y)))) ∧
    (Alone a → Ready s e (slotWord a (.padd true k r)) → exec (.psub e a k r) s =
      .next (s.ran e fun h => (h.setPtr k.toNat (x + 65536 - y)).setFlags 2 (zero (x + 65536 - y)))) ∧
    (Alone a → Ready s e (slotWord a (.movp r true k true)) → exec (.movp e a r true k true) s =
      .next (s.ran e fun h => h.setPtr k.toNat (x % 256 + 256 * y))) ∧
    (Alone a → Ready s e (slotWord a (.movp r true k false)) → exec (.movp e a r true k false) s =
      .next (s.ran e fun h => h.setPtr k.toNat (x / 256 * 256 + y))) ∧
    (Alone a → Ready s e (slotWord a (.movp r false k true)) → exec (.movp e a r false k true) s =
      .next (s.ran e fun h => h.setReg r.toNat (x / 256))) ∧
    (Alone a → Ready s e (slotWord a (.movp r false k false)) → exec (.movp e a r false k false) s =
      .next (s.ran e fun h => h.setReg r.toNat (x % 256))) ∧
    (Ready s e (.long (.ldip k v)) →
      exec (.ldip e k v) s = .next (s.ran e fun h => h.setPtr k.toNat v.toNat)) ∧
    (Ready s e (.long (.paddi k v)) → exec (.paddi e k v) s =
      .next (s.ran e fun h => (h.setPtr k.toNat (x + v.toNat)).setFlags 2 (zero (x + v.toNat)))) ∧
    (Ready s e (.long (.pcmpi k v)) → exec (.pcmpi e k v) s =
      .next (s.ran e (Engine.result none (subFlags 16 x v.toNat 0)))) ∧
    (Ready s e (.long (.pcpy k j)) →
      exec (.pcpy e k j) s = .next (s.ran e fun h => h.setPtr k.toNat (g.ptr j.toNat))) ∧
    (Ready s e (.long (.movs k n)) →
      exec (.movs e k n) s = .next (s.ran e fun h => h.setPtr k.toNat (s.sregGet e n.toNat))) ∧
    (Ready s e (.long (.movts k n)) →
      exec (.movts e k n) s = .next (s.ran e fun h => sregSet h e n.toNat x))

/-- O51. Where the engine is ready and the address is plain memory (R366), LD in its short form (a NOP beside
it; local or through BANK, with or without post-increment), LD long and LDW (at an even offset) answer a
next state in which engine e alone has changed (and the model's counter of free values, for a shared bank's
wait): the byte, or the word little-endian, is on its way to the register and lands at the end of the next
word, a post-increment likewise, the word is marked a load, and the pc has gone on. All memory, every
register bank and every other engine is as before. The number of cycles and the streaming mark are
existential: waits are the model's free values (log entry 2). -/
def Obligations.LoadRowsComplete : Prop :=
  ∀ (e : Eng) (a : Slot) (r : BitVec 5) (loc post : Bool) (k : BitVec 3) (w : LAddr) (m o o' : Nat) (s : State),
    let g := s.engine e
    let after := fun (f : Engine → Engine) (i : Instr) => ∃ fr n last,
      exec i s = .next ({ s with free := fr }.onEngine e
        (Engine.ran true n fun h => f { h with lastBank := last }))
    let off := if post then g.ptrInc k.toNat else g.ptr k.toNat
    (Alone a → Ready s e (slotWord a (.ld r loc post k)) →
      PlainAt s e (if loc then 0 else g.bank) off m o →
      after (fun h => (h.taken r.toNat (s.memGet m o).toNat).advanced post k.toNat (off + 1))
        (.ld e r (.short a loc post k))) ∧
    (Ready s e (.long (.ld r w)) → PlainAt s e (longAddr g w).1 (longAddr g w).2 m o →
      after (fun h => h.taken r.toNat (s.memGet m o).toNat) (.ld e r (.long w))) ∧
    (Ready s e (.long (.ldw r w)) → PlainAt s e (longAddr g w).1 (longAddr g w).2 m o →
      PlainAt s e (longAddr g w).1 ((longAddr g w).2 + 1) m o' → (longAddr g w).2 % 2 = 0 →
      after (fun h => h.later (136 + r.toNat) ((s.memGet m o).toNat + 256 * (s.memGet m o').toNat) false)
        (.ldw e r w))

/-- O52. Where the engine is ready and the address computed by the row's form is plain memory that the engine
may write, ST short (a NOP beside it), ST long and STW (at an even offset) answer a next state in which the
byte at the address is the register's, or the two bytes are the pointer pair's little-endian; every byte of
memory at any other key reads as before; no register bank, flash byte or other engine changes; and of the
engine itself only what the end of the word changes and, for a post-increment, the pointer's update. The
cycles are existential (log entry 2). -/
def Obligations.StoreRowsComplete : Prop :=
  ∀ (e : Eng) (a : Slot) (r : BitVec 5) (loc post : Bool) (k : BitVec 3) (w : LAddr) (m o o' : Nat) (s : State),
    let g := s.engine e
    let after := fun (f : Engine → Engine) (u : State) (i : Instr) => ∃ fr n last,
      exec i s = .next ({ u with free := fr }.onEngine e
        (Engine.ran false n fun h => f { h with lastBank := last }))
    let off := if post then g.ptrInc k.toNat else g.ptr k.toNat
    let bank := if loc then 0 else g.bank
    let b := byte (g.reg r.toNat)
    let p := g.ptr r.toNat
    (Alone a → Ready s e (slotWord a (.st r loc post k)) → PlainAt s e bank off m o →
      s.memOpen e bank off = true →
      after (fun h => h.advanced post k.toNat (off + 1)) (s.memPut m o b) (.st e r (.short a loc post k)) ∧
      (s.memPut m o b).memGet m o = b ∧
      ∀ m' o', memKey m' o' ≠ memKey m o → (s.memPut m o b).memGet m' o' = s.memGet m' o') ∧
    (Ready s e (.long (.st r w)) → PlainAt s e (longAddr g w).1 (longAddr g w).2 m o →
      s.memOpen e (longAddr g w).1 (longAddr g w).2 = true →
      after id (s.memPut m o b) (.st e r (.long w))) ∧
    (Ready s e (.long (.stw r w)) → PlainAt s e (longAddr g w).1 (longAddr g w).2 m o →
      PlainAt s e (longAddr g w).1 ((longAddr g w).2 + 1) m o' → (longAddr g w).2 % 2 = 0 →
      s.memOpen e (longAddr g w).1 (longAddr g w).2 = true →
      s.memOpen e (longAddr g w).1 ((longAddr g w).2 + 1) = true →
      after id ((s.memPut m o (byte p)).memPut m o' (byte (p / 256))) (.stw e r w) ∧
      ∀ m' q, memKey m' q ≠ memKey m o → memKey m' q ≠ memKey m o' →
        ((s.memPut m o (byte p)).memPut m o' (byte (p / 256))).memGet m' q = s.memGet m' q)

/-- O53. Where the engine is ready: BR (short form with a NOP beside it, or long) goes to its target where its
condition holds of PSW and otherwise on, in 2 cycles or 1; JMPP goes to its pointer pair; CALL and CALLP
with a resident group free slide the window up by one, put the address of the next word in w6 and w7 of the
new window, and go to the target; RET with more than two resident groups slides back and goes to the address
in w6 and w7 as they stood. With 16 resident groups CALL and CALLP of an engine first store the oldest
group's 8 bytes at SSP of its own memory and advance SSP by 8, 2 cycles more. Nothing else changes. -/
def Obligations.TransferRowsComplete : Prop :=
  ∀ (e : Eng) (a : Slot) (cond : BitVec 4) (off : BitVec 6) (t : BitVec 15) (k : BitVec 3) (s : State),
    let g := s.engine e
    let ret := (g.pc + 1) % 65536
    let linked := fun (h : Engine) => (h.slidUp.setReg 6 (ret % 256)).setReg 7 (ret / 256)
    let code := if e.val = 16 then 0x10 else e.val
    let spilt := fun (n : Nat) => (s.memWrite code g.ssp (groupBytes g (g.base + 2))).onEngine e
      (Engine.jumped 4 n fun h => (({ h with
        base := (h.base + 1) % 16, depth := h.depth + 1, ssp := (g.ssp + 8) % 65536 }).setReg 6
        (ret % 256)).setReg 7 (ret / 256))
    let spills := g.resg = 16 ∧ spillAligned g = true ∧ g.ssp + 8 ≤ g.ssl ∧
      g.ssp + 8 ≤ (if e.val = 16 then 0x10000 else 0x4000)
    (Alone a → Ready s e (slotWord a (.br cond off)) →
      exec (.br e (.short a cond off)) s = .next (if condTrue cond.toNat g.psw then
        s.onEngine e (Engine.jumped 2 (ofSigned 16 (g.pc + 1 + toSigned 6 off.toNat)) id)
      else s.ran e id)) ∧
    (Ready s e (.long (.br cond t)) →
      exec (.br e (.long cond t)) s = .next (if condTrue cond.toNat g.psw then
        s.onEngine e (Engine.jumped 2 t.toNat id) else s.ran e id)) ∧
    (Ready s e (.long (.jmpp k)) →
      exec (.jmpp e k) s = .next (s.onEngine e (Engine.jumped 2 (g.ptr k.toNat) id))) ∧
    (Ready s e (.long (.call t)) → g.resg < 16 →
      exec (.call e t) s = .next (s.onEngine e (Engine.jumped 2 t.toNat linked))) ∧
    (Ready s e (.long (.callp k)) → g.resg < 16 →
      exec (.callp e k) s = .next (s.onEngine e (Engine.jumped 2 (g.ptr k.toNat) linked))) ∧
    (Ready s e (.long (.call t)) → spills → exec (.call e t) s = .next (spilt t.toNat)) ∧
    (Ready s e (.long (.callp k)) → spills → exec (.callp e k) s = .next (spilt (g.ptr k.toNat))) ∧
    (Alone a → Ready s e (slotWord a (.sys .ret)) → g.depth ≠ 0 → 2 < g.resg →
      exec (.ret e a) s =
        .next (s.onEngine e (Engine.jumped 2 (g.reg 6 + 256 * g.reg 7) Engine.slidDown)))

/-- O54. Where the engine is ready: LOOP with fewer than four levels in force and a count other than 0 (an
immediate or a pointer pair) pushes a level that starts at the next word, ends at END words on and has that
count; with count 0 it goes behind the loop; LPOP drops the innermost level. REP with an immediate count n
(0 means 256), before the word PADDI pk, #v in the bank's next place and outside loops with nothing left to
land, adds v to pk n times, ends with RC 0 and the pc behind the repeated word, and takes 1 + n cycles;
memory and every register bank are as before. -/
def Obligations.LoopRowsComplete : Prop :=
  ∀ (e : Eng) (a : Slot) (n last : BitVec 12) (k : BitVec 3) (c : BitVec 8) (v : BitVec 16) (s : State),
    let g := s.engine e
    let pushed := fun (n : Nat) => s.ran e fun h =>
      { h with loops := ⟨(g.pc + 1) % 65536, (g.pc + last.toNat) % 65536, n⟩ :: h.loops }
    let times := if c.toNat = 0 then 256 else c.toNat
    (Ready s e (.long (.loop (.imm n) last)) → g.loops.length < 4 →
      exec (.loop e (.imm n) last) s = .next (if n.toNat = 0 then
        s.onEngine e (Engine.jumped 2 (g.pc + last.toNat + 1) id) else pushed n.toNat)) ∧
    (Ready s e (.long (.loop (.ptr k) last)) → g.loops.length < 4 →
      exec (.loop e (.ptr k) last) s = .next (if g.ptr k.toNat = 0 then
        s.onEngine e (Engine.jumped 2 (g.pc + last.toNat + 1) id) else pushed (g.ptr k.toNat))) ∧
    (Alone a → Ready s e (slotWord a (.sys .lpop)) → g.loops ≠ [] →
      exec (.lpop e a) s = .next (s.ran e fun h => { h with loops := h.loops.tail })) ∧
    (Ready s e (.long (.rep (.imm c))) → g.loops = [] → g.delay = [] → g.pc + 1 < bankWords e →
      ∃ t, exec (.rep e (.imm c) (BitVec.ofNat 32 (encodeWord (.long (.paddi k v))))) s = .next t ∧
        (t.engine e).ptr k.toNat = (g.ptr k.toNat + times * v.toNat) % 65536 ∧ (t.engine e).rc = 0 ∧
        (t.engine e).pc = g.pc + 2 ∧ (t.engine e).cyc = g.cyc + 1 + times ∧ t.mem = s.mem ∧
        t.regs = s.regs ∧ ∀ d, d ≠ e.val → t.engine d = s.engine d)

/-- O55. Where the engine is ready (a NOP beside the operation): WTICK waits, or goes on where a release was
latched, and the first WTICK since the engine's reset also ends the hold of the port (R414); EI and DI set
and clear PSW.IE; RETI in a handler with its loop depth and more than three resident groups restores PSW
from TPSW (in a trap handler) or IPSW, slides back twice and goes to TPC or IPC; BRK traps with cause 8 and
TPC at the next word. Where an interrupt is due and two groups are free, INTERRUPT_ENTRY saves pc and PSW in
IPC and IPSW, sets PSW.II, clears PSW.IE, slides up twice and goes to word 8. -/
def Obligations.SystemRowsComplete : Prop :=
  ∀ (e : Eng) (a : Slot) (s : State),
    let g := s.engine e
    let trap := bit g.psw 6
    let saved := if trap then g.tpsw else g.ipsw
    let u := if g.fresh then (s.wdgResume e).onEngine e fun h => { h with fresh := false } else s
    (Alone a → Ready s e (slotWord a (.sys .wtick)) →
      exec (.wtick e a) s = .next (if g.latched then
          u.ran e fun h => { h with latched := false, cyc := 0, stepped := false }
        else u.onEngine e fun g => Engine.ended 1 g { g.began false with run := .waiting, stepped := false })) ∧
    (Alone a → Ready s e (slotWord a (.sys .ei)) →
      exec (.ei e a) s = .next (s.ran e fun h => { h with psw := setBit h.psw 4 true })) ∧
    (Alone a → Ready s e (slotWord a (.sys .di)) →
      exec (.di e a) s = .next (s.ran e fun h => { h with psw := setBit h.psw 4 false })) ∧
    (Alone a → Ready s e (slotWord a (.sys .reti)) → (trap = true ∨ bit g.psw 5 = true) →
      bits saved 10 8 = g.loops.length → 3 < g.resg →
      exec (.reti e a) s = .next (s.onEngine e (Engine.jumped 2 (if trap then g.tpc else g.ipc) fun h =>
        { h.slidDown.slidDown with psw := saved % 128, inWait := g.inWait && trap }))) ∧
    (Alone a → Ready s e (slotWord a (.sys .brk)) →
      exec (.brk e a) s = .next ((s.onEngine e fun g => Engine.ended 1 g (g.began false)).takeTrap e (g.pc + 1)
        ⟨8, 0, none⟩)) ∧
    (s.irqDue e = true → g.resg < 15 →
      exec (.interruptEntry e) s = .next (s.onEngine e fun g =>
        let h := g.slidUp.slidUp
        { h with inWait := decide (g.run = .waiting), run := .running, ipc := g.pc % 65536, ipsw := g.pswWord,
                 psw := setBit (setBit g.psw 5 true) 4 false, pc := 8, lastBank := none, cyc := g.cyc + 3,
                 busy0 := g.busy0 - 3, busy1 := g.busy1 - 3 }))

/-- O56. A trap of the word at a, outside a trap handler and with two groups free, saves the address in TPC and
PSW in TPSW, writes TCAUSE, TVAL and, where the trap names a bank, TBANK, sets PSW.TI, slides up twice,
clears RC, goes to word 4 in 3 cycles, counts (on a port's engine), and records the engine's trap source;
inside a trap handler the engine stops instead and the double-trap source is recorded. Every other register
of the engine is as before. -/
def Obligations.TrapEntrySavesAndGoes : Prop :=
  ∀ (e : Eng) (a : Nat) (t : Trap) (s : State),
    let u := s.onEngine e fun g => let h := g.slidUp.slidUp
      { h with tpc := a % 65536, tpsw := g.pswWord, tcause := t.cause, tval := t.val % 65536,
               tbank := t.bank.getD g.tbank, psw := setBit g.psw 6 true, pc := 4, loaded := false, rc := 0,
               lastBank := none, stepped := true, cyc := g.cyc + 3, busy0 := g.busy0 - 3, busy1 := g.busy1 - 3 }
    (bit (s.engine e).psw 6 = true →
      s.takeTrap e a t = (s.onEngine e fun g => { g with run := .stopped }).engineSource e 22 39) ∧
    (bit (s.engine e).psw 6 = false → (s.engine e).resg < 15 →
      s.takeTrap e a t = (if e.val < 16 then u.cntEvent 0x63 (some e) else u).engineSource e 21 38)

/-- O57. On an engine that runs, with no interrupt due and the pc in its bank: a word that is illegal there
(shown for LDI to a reserved register, MOVTS to a read-only register, LDW to no pointer pair, TSTART on EH,
BR with condition 15) traps with cause 1 and its low 16 bits; LDW and STW at an odd offset with cause 3 and
the offset; LD long from a flash window over a word found uncorrectable with cause 4, the offset and the
bank, the word being recorded (R413); LD and ST long where nothing answers with cause 2, the offset and the
bank; RET with no call to return from with cause 6 and SSP; LPOP without a level and LOOP with four with
cause 7 and the depth; RETI outside a handler with cause 1. With the pc beyond the bank every word traps
with cause 2, the pc and bank 0xFF. Nothing of the word itself stands. -/
def Obligations.TrapCauses : Prop :=
  ∀ (e : Eng) (a : Slot) (r k5 : BitVec 5) (k : BitVec 3) (n : BitVec 6) (v : Byte) (w : LAddr) (t : BitVec 15)
      (last c : BitVec 12) (s : State),
    let g := s.engine e
    let trap := fun (cause val : Nat) (bank : Option Nat) => s.trapWord e g.pc ⟨cause, val, bank⟩
    let low := fun (l : Long) => encodeWord (.long l) % 65536
    let off := (longAddr g w).2
    let bank := (longAddr g w).1
    let began := fun (ld : Bool) => s.onEngine e (Engine.began ld)
    (g.run = .running → s.irqDue e = false → g.pc < bankWords e →
      (29 ≤ r.toNat → exec (.ldi e r v) s = .next (trap 1 (low (.ldi r v)) none)) ∧
      (sregWrite n.toNat = false → exec (.movts e k n) s = .next (trap 1 (low (.movts k n)) none)) ∧
      (8 ≤ r.toNat → exec (.ldw e r w) s = .next (trap 1 (low (.ldw r w)) none)) ∧
      (e.val = 16 → exec (.tstart e k5) s = .next (trap 1 (low (.tstart k5)) none)) ∧
      exec (.br e (.long 15 t)) s = .next (trap 1 (low (.br 15 t)) none)) ∧
    (Ready s e (.long (.ldw r w)) → off % 2 = 1 → exec (.ldw e r w) s = .next (trap 3 off none)) ∧
    (Ready s e (.long (.stw r w)) → off % 2 = 1 → exec (.stw e r w) s = .next (trap 3 off none)) ∧
    (Ready s e (.long (.ld r w)) → (began true).load8 e bank off = none →
      exec (.ld e r (.long w)) s = .next (trap 2 off (some bank))) ∧
    (Ready s e (.long (.ld r w)) → (began true).load8 e bank off ≠ none → (began true).windowBad bank off = true →
      exec (.ld e r (.long w)) s =
        .next ((s.flashReader (s.windowAddr bank off) 1 id id).trapWord e g.pc ⟨4, off, some bank⟩)) ∧
    (Ready s e (.long (.st r w)) → (began false).store8 e bank off (g.reg r.toNat) = none →
      exec (.st e r (.long w)) s = .next (trap 2 off (some bank))) ∧
    (Alone a → Ready s e (slotWord a (.sys .ret)) → g.depth = 0 →
      exec (.ret e a) s = .next (trap 6 g.ssp none)) ∧
    (Alone a → Ready s e (slotWord a (.sys .lpop)) → g.loops = [] →
      exec (.lpop e a) s = .next (trap 7 0 none)) ∧
    (Ready s e (.long (.loop (.imm c) last)) → 4 ≤ g.loops.length →
      exec (.loop e (.imm c) last) s = .next (trap 7 g.loops.length none)) ∧
    (Alone a → Ready s e (slotWord a (.sys .reti)) → bit g.psw 6 = false → bit g.psw 5 = false →
      exec (.reti e a) s =
        .next (trap 1 (encodeWord (.pair .nop (.sys .reti)) % 65536) none)) ∧
    (g.run = .running → s.irqDue e = false → bankWords e ≤ g.pc →
      exec (.ldi e r v) s = .next (trap 2 (g.pc % 65536) (some 0xFF)))

/-- O58. On an engine of a port that is ready for the word: RXPOP at an aligned pointer with nothing received
(or a port not owned) writes 0xE0; with a packet of an owned port it stores SOP type, length and packet at
the pointer and takes the packet off; TXLOAD loads a descriptor of 2 to 30 bytes; TXGO of an owned port
queues the loaded packet as a reply, an engine message, or at the head of the host queue where that has
room; TXSTAT reads the status (8 on a port not owned); ORDSET requests Hard_Reset or Cable_Reset, TSTART and
FRSTX act, on an owned port only; TSTOP stops a timer; TREAD reads its count; IDRST clears MessageIDs. The
engine goes on; nothing else changes. -/
def Obligations.Cp0RowsComplete : Prop :=
  ∀ (e : Eng) (k p : BitVec 3) (r k5 : BitVec 5) (q : BitVec 2) (s : State),
    let g := s.engine e
    let a := g.ptr k.toNat
    let begun := s.onEngine e (Engine.began false)
    let ends := fun (n : Nat) (u : State) => u.onEngine e fun h => (Engine.ended n g h).finish g.pc
    let timer := (s.timer e k5.toNat).getD 0
    (Ready s e (.long (.rxpop k r)) → a % 8 = 0 → (s.owns e = false ∨ (s.pd e).rx = []) →
      exec (.rxpop e k r) s = .next (s.onEngine e (Engine.ran false 4 fun h => h.setReg r.toNat 0xE0))) ∧
    (∀ m rest, Ready s e (.long (.rxpop k r)) → a % 8 = 0 → s.owns e = true → (s.pd e).rx = m :: rest →
      a + 2 + (rxBytes m).length ≤ 0x4000 →
      exec (.rxpop e k r) s = .next (ends (4 + words8 (2 + (rxBytes m).length))
        (((begun.memWrite e a ([byte (m.sop % 4), byte (rxBytes m).length] ++ rxBytes m)).onPd e fun h =>
          { h with rx := rest }).onEngine e fun h =>
            h.setReg r.toNat (m.sop % 8 * 32 + (rxBytes m).length % 32)))) ∧
    (∀ n sop, Ready s e (.long (.txload k)) → a % 8 = 0 → 2 ≤ n → n ≤ 30 → a + 2 + n ≤ 0x4000 → sop < 3 →
      (s.memGet e (a + 1)).toNat = n → (s.memGet e a).toNat % 4 = sop →
      exec (.txload e k) s = .next (ends (4 + words8 (2 + n)) (begun.onPd e fun h =>
        { h with txDesc := some (msgOfBytes sop (s.memRead e (a + 2) n)) }))) ∧
    (∀ m, Ready s e (.long (.txgo q)) → s.owns e = true → (s.pd e).txDesc = some m →
      (q.toNat = 0 → exec (.txgo e q) s = .next (ends 1 (begun.sendReply e m (begun.ackOf e m)))) ∧
      (q.toNat = 1 → exec (.txgo e q) s = .next (ends 1 (begun.sendEngine e m (begun.ackOf e m)))) ∧
      (q.toNat = 2 → (s.pd e).hostq.length < 4 → exec (.txgo e q) s = .next (ends 1 ((begun.onPd e fun h =>
        { h with hostq := { msg := m, onAck := begun.ackOf e m } :: h.hostq, qhead := (h.qhead + 3) % 4 }).writeQueue e)))) ∧
    (Ready s e (.long (.txstat r)) → exec (.txstat e r) s =
      .next (s.ran e fun h => h.setReg r.toNat (if s.owns e then s.txstat e else 8))) ∧
    (Ready s e (.long (.ordset q)) → exec (.ordset e q) s =
      .next (ends 1 (if s.owns e then if q = 0 then begun.hardReset e else begun.cableReset e else begun))) ∧
    (Ready s e (.long (.tstart k5)) → exec (.tstart e k5) s =
      .next (ends 1 (if s.owns e then begun.timStart e k5.toNat else begun))) ∧
    (Ready s e (.long (.tstop k5)) → exec (.tstop e k5) s = .next (ends 1 (begun.timStop e k5.toNat))) ∧
    (Ready s e (.long (.tread p r k5)) → exec (.tread e p r k5) s =
      .next (s.onEngine e (Engine.ran false 2 fun h =>
        (h.setPtr p.toNat timer).setReg r.toNat (timer / 65536)))) ∧
    (Ready s e (.long (.idrst q)) → exec (.idrst e q) s = .next (ends 1 (begun.idReset e q.toNat))) ∧
    (Ready s e (.long .frstx) → exec (.frstx e) s = .next (ends 1
      (if s.owns e then begun.onPd e fun h => { h with frsGen := true } else begun)))

/-- O59. Where the engine is ready: CLRA clears an accumulator; MUL, MULU, MULSU write and MAC, MACU, MACSU add
the product of two pointer pairs with the mnemonic's signedness, modulo 2^40, ready two cycles later; MACM
multiplies two signed words of the engine's own memory at even pointers and advances two different pointers
by 2; SHA shifts left or arithmetically right by a signed amount, ADDA adds, SATA saturates to 32 signed
bits and sets V where it changed the value, RDA reads a part (the top part sign-extended), WRA writes one;
those five wait until the accumulator is ready. Only that engine changes. -/
def Obligations.Cp1RowsComplete : Prop :=
  ∀ (e : Eng) (x y : Bool) (i j : BitVec 3) (sh : BitVec 6) (part : BitVec 2) (s : State),
    let g := s.engine e
    let p := g.ptr i.toNat
    let q := g.ptr j.toNat
    let v := toSigned 40 (accOf g x)
    let amount := toSigned 6 sh.toNat
    let mul := fun (r : Int) => s.ran e fun h => setBusy (setAcc h x r) x
    let waited := fun (n : Nat) (f : Engine → Engine) => s.onEngine e (Engine.ran false (1 + n) f)
    let uu : Int := ((p * q : Nat) : Int)
    (Ready s e (.long (.clra x)) → exec (.clra e x) s = .next (s.ran e fun h => setAcc h x 0)) ∧
    (Ready s e (.long (.mul .ss false x i j)) →
      exec (.mul e x i j) s = .next (mul (toSigned 16 p * toSigned 16 q))) ∧
    (Ready s e (.long (.mul .uu false x i j)) → exec (.mulu e x i j) s = .next (mul uu)) ∧
    (Ready s e (.long (.mul .su false x i j)) →
      exec (.mulsu e x i j) s = .next (mul (toSigned 16 p * (q : Int)))) ∧
    (Ready s e (.long (.mul .ss true x i j)) →
      exec (.mac e x i j) s = .next (mul (v + toSigned 16 p * toSigned 16 q))) ∧
    (Ready s e (.long (.mul .uu true x i j)) → exec (.macu e x i j) s = .next (mul (v + uu))) ∧
    (Ready s e (.long (.mul .su true x i j)) →
      exec (.macsu e x i j) s = .next (mul (v + toSigned 16 p * (q : Int)))) ∧
    (Ready s e (.long (.macm x i j)) → e.val < 16 → i ≠ j → g.ptrInc i.toNat % 2 = 0 →
      g.ptrInc j.toNat % 2 = 0 → g.ptrInc i.toNat < 0x4000 → g.ptrInc j.toNat < 0x4000 →
      exec (.macm e x i j) s = .next (s.ran e fun h => ((setBusy (setAcc h x (v +
        toSigned 16 (ofBytes (s.memRead e (g.ptrInc i.toNat) 2)) *
        toSigned 16 (ofBytes (s.memRead e (g.ptrInc j.toNat) 2)))) x).later (136 + i.toNat)
          (g.ptrInc i.toNat + 2) true).later (136 + j.toNat) (g.ptrInc j.toNat + 2) true)) ∧
    (Ready s e (.long (.sha x sh)) → exec (.sha e x sh) s = .next (waited (accBusy g x) fun h =>
      setAcc h x (if 0 ≤ amount then v * 2 ^ amount.toNat else v / 2 ^ (-amount).toNat))) ∧
    (Ready s e (.long (.adda x y)) → exec (.adda e x y) s =
      .next (waited (max (accBusy g x) (accBusy g y)) fun h => setAcc h x (v + toSigned 40 (accOf g y)))) ∧
    (Ready s e (.long (.sata x)) → exec (.sata e x) s = .next (waited (accBusy g x) fun h =>
      (setAcc h x (if v < -2147483648 then -2147483648 else if 2147483647 < v then 2147483647 else v)).setFlags 8
        (if v < -2147483648 ∨ 2147483647 < v then 8 else 0))) ∧
    (Ready s e (.long (.rda x i part)) → exec (.rda e x i part) s = .next (waited (accBusy g x) fun h =>
      h.setPtr i.toNat (if part = 2 then ofSigned 16 (toSigned 8 (accOf g x / 2 ^ 32))
        else accOf g x / 2 ^ (16 * part.toNat)))) ∧
    (Ready s e (.long (.wra x i part)) → exec (.wra e x i part) s = .next (waited (accBusy g x) fun h =>
      setAcc h x (accWith (accOf g x) part.toNat p)))

/-- O60. Where the engine is ready: CRCI selects CRC-32 from all ones or CRC-8 from 0; CRCB feeds the register's
byte; CRCM through the local port, of n bytes inside the engine's own memory, feeds them in order and
advances the pointer by n in 1 + ceil(n/8) cycles; CRCR reads the low half, or the high half of CRC-32, with
CRC-32's final inversion; ECCG writes the check byte of the 8 bytes at an aligned pointer; ECCC writes 0
where the ninth byte agrees, 2 where no single bit explains the difference, and otherwise 1 with the
corrected word and its check byte stored in place. The check matrix is free within its class (log entry 3),
but of every matrix: a word whose one bit is wrong, or whose check byte's one bit is wrong, is corrected,
and no two wrong bits are taken for none or for one (R6). -/
def Obligations.Cp2RowsComplete : Prop :=
  ∀ (e : Eng) (mode : Bool) (r : BitVec 5) (k : BitVec 3) (n : BitVec 12) (s : State),
    let g := s.engine e
    let a := g.ptr k.toNat
    let m := if e.val = 16 then 0x10 else e.val
    let room := if e.val = 16 then 0x10000 else 0x4000
    let word := BitVec.ofNat 64 (ofBytes (s.memRead m a 8))
    let sum := if g.crc8 then g.crc else g.crc ^^^ 0xFFFFFFFF
    let after := fun (c : Nat) (u : State) (f : Engine → Engine) => u.onEngine e (Engine.ran false c f)
    (Ready s e (.long (.crci mode)) → exec (.crci e mode) s = .next (s.ran e fun h =>
      { h with crc8 := mode, crc := if mode then 0 else 0xFFFFFFFF })) ∧
    (Ready s e (.long (.crcb r)) → exec (.crcb e r) s = .next (s.ran e fun h => { h with
      crc := (if g.crc8 then Crypto.crc8Step else Crypto.crcStep) g.crc (byte (g.reg r.toNat)) })) ∧
    (Ready s e (.long (.crcm true k n)) → g.ptrInc k.toNat + n.toNat ≤ room →
      exec (.crcm e true k n) s = .next (after (1 + (n.toNat + 7) / 8) s fun h =>
        ((s.memRead m (g.ptrInc k.toNat) n.toNat).foldl crcFeed h).later (136 + k.toNat)
          ((g.ptrInc k.toNat + n.toNat) % 65536) true)) ∧
    (Ready s e (.long (.crcr k false)) →
      exec (.crcr e k false) s = .next (s.ran e fun h => h.setPtr k.toNat sum)) ∧
    (Ready s e (.long (.crcr k true)) → g.crc8 = false →
      exec (.crcr e k true) s = .next (s.ran e fun h => h.setPtr k.toNat (sum / 65536))) ∧
    (Ready s e (.long (.eccg r k)) → a % 8 = 0 → a + 8 ≤ room →
      exec (.eccg e r k) s = .next (after 2 s fun h => h.setReg r.toNat (eccCheck word).toNat)) ∧
    (Ready s e (.long (.eccc r k)) → a % 8 = 0 → a + 9 ≤ room →
      exec (.eccc e r k) s = .next (if eccCheck word = s.memGet m (a + 8) then
          after 3 s fun h => h.setReg r.toNat 0
        else match eccCorrect word (s.memGet m (a + 8)) with
          | none => after 3 s fun h => h.setReg r.toNat 2
          | some x => after 3 (s.memWrite m a (toBytes 8 x.toNat ++ [eccCheck x])) fun h =>
              h.setReg r.toNat 1)) ∧
    ∀ w : BitVec 64,
      let c := eccCheck w
      let wrong := fun (i : Nat) => w ^^^ BitVec.ofNat 64 (2 ^ i)
      let off := fun (i : Nat) => c ^^^ BitVec.ofNat 8 (2 ^ i)
      (∀ i < 64, eccCheck (wrong i) ≠ c ∧ eccCorrect (wrong i) c = some w) ∧
      (∀ i < 8, off i ≠ c ∧ eccCorrect w (off i) = some w) ∧
      (∀ i < 64, ∀ j < i, eccCheck (wrong i ^^^ BitVec.ofNat 64 (2 ^ j)) ≠ c ∧
        eccCorrect (wrong i ^^^ BitVec.ofNat 64 (2 ^ j)) c = none) ∧
      (∀ i < 64, ∀ j < 8, eccCheck (wrong i) ≠ off j ∧ eccCorrect (wrong i) (off j) = none) ∧
      (∀ i < 8, ∀ j < i, off i ^^^ BitVec.ofNat 8 (2 ^ j) ≠ c ∧
        eccCorrect w (off i ^^^ BitVec.ofNat 8 (2 ^ j)) = none)
end

