-- ==== Sys2Proof/Laws/Tab.lean ====
section
/-!
SUPPORT. The laws of tables: a read after a write, and the canonical form that every operation keeps.
-/
namespace Sys2Proof.Machine.Tab

variable {α : Type}

/-- Every key of the table is larger than `k`. -/
def above (k : Nat) (t : Tab α) : Prop := ∀ e ∈ t, k < e.1

theorem rising_cons (a : Nat) (v : α) (t : Tab α) :
    rising ((a, v) :: t) = true ↔ above a t ∧ rising t = true := by
  induction t generalizing a v with
  | nil => simp [rising, above]
  | cons e t ih =>
    obtain ⟨b, w⟩ := e
    simp only [rising, Bool.and_eq_true, decide_eq_true_eq, above, List.mem_cons, forall_eq_or_imp]
    constructor
    · rintro ⟨hab, hr⟩
      exact ⟨⟨hab, fun e he => Nat.lt_trans hab (((ih b w).1 hr).1 e he)⟩, hr⟩
    · rintro ⟨⟨hab, _⟩, hr⟩
      exact ⟨hab, hr⟩

theorem get_drop_ne [DecidableEq α] (d : α) {k n : Nat} (h : n ≠ k) (t : Tab α) :
    get d n (drop k t) = get d n t := by
  induction t with
  | nil => rfl
  | cons e t ih =>
    obtain ⟨a, v⟩ := e
    by_cases hk : a = k
    · subst hk
      simp [drop, get, ih, Ne.symm h]
    · by_cases hn : a = n
      · subst hn
        simp [drop, get, hk]
      · simp [drop, get, hk, hn, ih]

theorem get_drop_same (d : α) (k : Nat) (t : Tab α) : get d k (drop k t) = d := by
  induction t with
  | nil => rfl
  | cons e t ih =>
    obtain ⟨a, v⟩ := e
    by_cases hk : a = k <;> simp [drop, get, hk, ih]

theorem get_ins_same (d : α) (k : Nat) (v : α) (t : Tab α) (h : ∀ e ∈ t, e.1 ≠ k) :
    get d k (ins k v t) = v := by
  induction t with
  | nil => simp [ins, get]
  | cons e t ih =>
    obtain ⟨a, w⟩ := e
    have ha : a ≠ k := h (a, w) (by simp)
    by_cases hk : k < a
    · simp [ins, get, hk]
    · simp [ins, get, hk, ha, ih fun e he => h e (by simp [he])]

theorem get_ins_ne (d : α) {k n : Nat} (hn : n ≠ k) (v : α) (t : Tab α) :
    get d n (ins k v t) = get d n t := by
  induction t with
  | nil => simp [ins, get, Ne.symm hn]
  | cons e t ih =>
    obtain ⟨a, w⟩ := e
    by_cases hk : k < a
    · simp [ins, get, hk, Ne.symm hn]
    · by_cases h : a = n
      · subst h
        simp [ins, get, hk]
      · simp [ins, get, hk, h, ih]

theorem not_mem_drop (k : Nat) (t : Tab α) : ∀ e ∈ drop k t, e.1 ≠ k := by
  induction t with
  | nil => simp [drop]
  | cons e t ih =>
    obtain ⟨a, v⟩ := e
    by_cases hk : a = k
    · simpa [drop, hk] using ih
    · simpa [drop, hk] using ih

theorem mem_drop {k : Nat} {t : Tab α} {e : Nat × α} (h : e ∈ drop k t) : e ∈ t := by
  induction t with
  | nil => simp [drop] at h
  | cons a t ih =>
    obtain ⟨n, v⟩ := a
    by_cases hk : n = k
    · exact List.mem_cons_of_mem _ (ih (by simpa [drop, hk] using h))
    · simp only [drop, hk, if_false, List.mem_cons] at h
      rcases h with h | h
      · simp [h]
      · exact List.mem_cons_of_mem _ (ih h)

theorem mem_ins {k : Nat} {v : α} {t : Tab α} {e : Nat × α} (h : e ∈ ins k v t) :
    e = (k, v) ∨ e ∈ t := by
  induction t with
  | nil => simpa [ins] using h
  | cons a t ih =>
    obtain ⟨n, w⟩ := a
    by_cases hk : k < n
    · simpa [ins, hk] using h
    · simp only [ins, hk, if_false, List.mem_cons] at h
      rcases h with h | h
      · exact .inr (by simp [h])
      · rcases ih h with h | h
        · exact .inl h
        · exact .inr (List.mem_cons_of_mem _ h)

/-- A read at the key just written gives the value written. -/
theorem get_put_same [DecidableEq α] (d : α) (k : Nat) (v : α) (t : Tab α) :
    get d k (put d k v t) = v := by
  by_cases h : v = d
  · simp [put, h, get_drop_same]
  · simp [put, h, get_ins_same d k v _ (not_mem_drop k t)]

/-- A write leaves every other key alone. -/
theorem get_put_ne [DecidableEq α] (d : α) {k n : Nat} (h : n ≠ k) (v : α) (t : Tab α) :
    get d n (put d k v t) = get d n t := by
  by_cases hv : v = d
  · simp [put, hv, get_drop_ne d h]
  · simp [put, hv, get_ins_ne d h, get_drop_ne d h]

/-- The same where the two keys have different defaults. -/
theorem get_put_ne' [DecidableEq α] (d d' : α) {k n : Nat} (h : n ≠ k) (v : α) (t : Tab α) :
    get d' n (put d k v t) = get d' n t := by
  by_cases hv : v = d
  · simp [put, hv, get_drop_ne d' h]
  · simp [put, hv, get_ins_ne d' h, get_drop_ne d' h]

theorem above_drop {a k : Nat} {t : Tab α} (h : above a t) : above a (drop k t) :=
  fun e he => h e (mem_drop he)

theorem rising_drop (k : Nat) {t : Tab α} (h : rising t = true) : rising (drop k t) = true := by
  induction t with
  | nil => rfl
  | cons e t ih =>
    obtain ⟨a, v⟩ := e
    obtain ⟨ha, hr⟩ := (rising_cons a v t).1 h
    by_cases hk : a = k
    · simpa [drop, hk] using ih hr
    · simp only [drop, hk, if_false]
      exact (rising_cons a v _).2 ⟨above_drop ha, ih hr⟩

theorem rising_ins (k : Nat) (v : α) {t : Tab α} (hk : ∀ e ∈ t, e.1 ≠ k) (h : rising t = true) :
    rising (ins k v t) = true := by
  induction t with
  | nil => rfl
  | cons e t ih =>
    obtain ⟨a, w⟩ := e
    obtain ⟨ha, hr⟩ := (rising_cons a w t).1 h
    have hne : a ≠ k := hk (a, w) (by simp)
    by_cases hlt : k < a
    · simp only [ins, hlt, if_true]
      refine (rising_cons k v _).2 ⟨?_, h⟩
      intro e he
      rcases List.mem_cons.1 he with rfl | he
      · exact hlt
      · exact Nat.lt_trans hlt (ha e he)
    · simp only [ins, hlt, if_false]
      refine (rising_cons a w _).2 ⟨?_, ih (fun e he => hk e (by simp [he])) hr⟩
      intro e he
      rcases mem_ins he with rfl | he
      · exact show a < k by omega
      · exact ha e he

/-- A write keeps the keys strictly rising. -/
theorem rising_put [DecidableEq α] (d : α) (k : Nat) (v : α) {t : Tab α} (h : rising t = true) :
    rising (put d k v t) = true := by
  by_cases hv : v = d
  · simpa [put, hv] using rising_drop k h
  · simpa [put, hv] using rising_ins k v (not_mem_drop k t) (rising_drop k h)

/-- A write keeps the canonical form. -/
theorem wf_put [DecidableEq α] (d : α) (k : Nat) (v : α) {t : Tab α} (h : wf d t = true) :
    wf d (put d k v t) = true := by
  simp only [wf, Bool.and_eq_true, List.all_eq_true, decide_eq_true_eq] at h ⊢
  refine ⟨rising_put d k v h.1, ?_⟩
  intro e he
  by_cases hv : v = d
  · exact h.2 e (mem_drop (by simpa [put, hv] using he))
  · rcases mem_ins (by simpa [put, hv] using he) with rfl | he
    · exact hv
    · exact h.2 e (mem_drop he)

theorem rising_filter (p : Nat × α → Bool) {t : Tab α} (h : rising t = true) :
    rising (t.filter p) = true := by
  induction t with
  | nil => rfl
  | cons e t ih =>
    obtain ⟨a, v⟩ := e
    obtain ⟨ha, hr⟩ := (rising_cons a v t).1 h
    by_cases hp : p (a, v) = true
    · simp only [List.filter, hp]
      exact (rising_cons a v _).2 ⟨fun e he => ha e (List.mem_filter.1 he).1, ih hr⟩
    · simpa [List.filter, hp] using ih hr

/-- Leaving entries out keeps the canonical form. -/
theorem wf_filter [DecidableEq α] (d : α) (p : Nat × α → Bool) {t : Tab α} (h : wf d t = true) :
    wf d (t.filter p) = true := by
  simp only [wf, Bool.and_eq_true, List.all_eq_true, decide_eq_true_eq] at h ⊢
  exact ⟨rising_filter p h.1, fun e he => h.2 e (List.mem_filter.1 he).1⟩

theorem drop_drop (k : Nat) (t : Tab α) : drop k (drop k t) = drop k t := by
  induction t with
  | nil => rfl
  | cons e t ih =>
    obtain ⟨a, v⟩ := e
    by_cases hk : a = k <;> simp [drop, hk, ih]

theorem drop_ins (k : Nat) (v : α) (t : Tab α) : drop k (ins k v t) = drop k t := by
  induction t with
  | nil => simp [ins, drop]
  | cons e t ih =>
    obtain ⟨a, w⟩ := e
    by_cases hk : k < a
    · simp [ins, drop, hk]
    · by_cases ha : a = k <;> simp [ins, drop, hk, ha, ih]

/-- Of two writes to one key the later stands. -/
theorem put_put [DecidableEq α] (d : α) (k : Nat) (v w : α) (t : Tab α) :
    put d k w (put d k v t) = put d k w t := by
  by_cases hv : v = d <;> by_cases hw : w = d <;> simp [put, hv, hw, drop_drop, drop_ins]

end Sys2Proof.Machine.Tab
end

