-- ==== Sys2Proof/Laws/State.lean ====
section
/-!
SUPPORT. What the basic updates of the state do: each changes one field and leaves the others (one
lemma per field), a read of what was just written gives it, and a write elsewhere is not seen.
-/
namespace Sys2Proof.Machine.State

/-! ### fset -/

@[simp] theorem fset_pending (s : State) (f : Fld) (i v : Nat) : (s.fset f i v).pending = s.pending := rfl
@[simp] theorem fset_eff (s : State) (f : Fld) (i v : Nat) : (s.fset f i v).eff = s.eff := rfl
@[simp] theorem fset_mem (s : State) (f : Fld) (i v : Nat) : (s.fset f i v).mem = s.mem := rfl
@[simp] theorem fset_flash (s : State) (f : Fld) (i v : Nat) : (s.fset f i v).flash = s.flash := rfl
@[simp] theorem fset_ports (s : State) (f : Fld) (i v : Nat) : (s.fset f i v).ports = s.ports := rfl
@[simp] theorem fset_quads (s : State) (f : Fld) (i v : Nat) : (s.fset f i v).quads = s.quads := rfl
@[simp] theorem fset_weir (s : State) (f : Fld) (i v : Nat) : (s.fset f i v).weir = s.weir := rfl
@[simp] theorem fset_log (s : State) (f : Fld) (i v : Nat) : (s.fset f i v).log = s.log := rfl
@[simp] theorem fset_cnts (s : State) (f : Fld) (i v : Nat) : (s.fset f i v).cnts = s.cnts := rfl
@[simp] theorem fset_wdgs (s : State) (f : Fld) (i v : Nat) : (s.fset f i v).wdgs = s.wdgs := rfl
@[simp] theorem fset_host (s : State) (f : Fld) (i v : Nat) : (s.fset f i v).host = s.host := rfl
@[simp] theorem fset_prof (s : State) (f : Fld) (i v : Nat) : (s.fset f i v).prof = s.prof := rfl
@[simp] theorem fset_boot (s : State) (f : Fld) (i v : Nat) : (s.fset f i v).boot = s.boot := rfl
@[simp] theorem fset_eddy (s : State) (f : Fld) (i v : Nat) : (s.fset f i v).eddy = s.eddy := rfl
@[simp] theorem fset_engines (s : State) (f : Fld) (i v : Nat) : (s.fset f i v).engines = s.engines := rfl
@[simp] theorem fset_mbx (s : State) (f : Fld) (i v : Nat) : (s.fset f i v).mbx = s.mbx := rfl
@[simp] theorem fset_locks (s : State) (f : Fld) (i v : Nat) : (s.fset f i v).locks = s.locks := rfl
@[simp] theorem fset_lockEv (s : State) (f : Fld) (i v : Nat) : (s.fset f i v).lockEv = s.lockEv := rfl
@[simp] theorem fset_otp (s : State) (f : Fld) (i v : Nat) : (s.fset f i v).otp = s.otp := rfl
@[simp] theorem fset_pres (s : State) (f : Fld) (i v : Nat) : (s.fset f i v).pres = s.pres := rfl
@[simp] theorem fset_pair (s : State) (f : Fld) (i v : Nat) : (s.fset f i v).pair = s.pair := rfl
@[simp] theorem fset_jobs (s : State) (f : Fld) (i v : Nat) : (s.fset f i v).jobs = s.jobs := rfl
@[simp] theorem fset_cfgVals (s : State) (f : Fld) (i v : Nat) : (s.fset f i v).cfgVals = s.cfgVals := rfl
@[simp] theorem fset_cfg (s : State) (f : Fld) (i v : Nat) : (s.fset f i v).cfg = s.cfg := rfl
@[simp] theorem fset_cal (s : State) (f : Fld) (i v : Nat) : (s.fset f i v).cal = s.cal := rfl
@[simp] theorem fset_fw (s : State) (f : Fld) (i v : Nat) : (s.fset f i v).fw = s.fw := rfl
@[simp] theorem fset_pins (s : State) (f : Fld) (i v : Nat) : (s.fset f i v).pins = s.pins := rfl
@[simp] theorem fset_free (s : State) (f : Fld) (i v : Nat) : (s.fset f i v).free = s.free := rfl

/-! ### latch -/

@[simp] theorem latch_pending (s : State) (f : Fld) (i : Nat) : (s.latch f i).pending = s.pending := rfl
@[simp] theorem latch_regs (s : State) (f : Fld) (i : Nat) : (s.latch f i).regs = s.regs := rfl
@[simp] theorem latch_mem (s : State) (f : Fld) (i : Nat) : (s.latch f i).mem = s.mem := rfl
@[simp] theorem latch_flash (s : State) (f : Fld) (i : Nat) : (s.latch f i).flash = s.flash := rfl
@[simp] theorem latch_ports (s : State) (f : Fld) (i : Nat) : (s.latch f i).ports = s.ports := rfl
@[simp] theorem latch_quads (s : State) (f : Fld) (i : Nat) : (s.latch f i).quads = s.quads := rfl
@[simp] theorem latch_weir (s : State) (f : Fld) (i : Nat) : (s.latch f i).weir = s.weir := rfl
@[simp] theorem latch_log (s : State) (f : Fld) (i : Nat) : (s.latch f i).log = s.log := rfl
@[simp] theorem latch_cnts (s : State) (f : Fld) (i : Nat) : (s.latch f i).cnts = s.cnts := rfl
@[simp] theorem latch_wdgs (s : State) (f : Fld) (i : Nat) : (s.latch f i).wdgs = s.wdgs := rfl
@[simp] theorem latch_host (s : State) (f : Fld) (i : Nat) : (s.latch f i).host = s.host := rfl
@[simp] theorem latch_prof (s : State) (f : Fld) (i : Nat) : (s.latch f i).prof = s.prof := rfl
@[simp] theorem latch_boot (s : State) (f : Fld) (i : Nat) : (s.latch f i).boot = s.boot := rfl
@[simp] theorem latch_eddy (s : State) (f : Fld) (i : Nat) : (s.latch f i).eddy = s.eddy := rfl
@[simp] theorem latch_engines (s : State) (f : Fld) (i : Nat) : (s.latch f i).engines = s.engines := rfl
@[simp] theorem latch_mbx (s : State) (f : Fld) (i : Nat) : (s.latch f i).mbx = s.mbx := rfl
@[simp] theorem latch_locks (s : State) (f : Fld) (i : Nat) : (s.latch f i).locks = s.locks := rfl
@[simp] theorem latch_lockEv (s : State) (f : Fld) (i : Nat) : (s.latch f i).lockEv = s.lockEv := rfl
@[simp] theorem latch_otp (s : State) (f : Fld) (i : Nat) : (s.latch f i).otp = s.otp := rfl
@[simp] theorem latch_pres (s : State) (f : Fld) (i : Nat) : (s.latch f i).pres = s.pres := rfl
@[simp] theorem latch_pair (s : State) (f : Fld) (i : Nat) : (s.latch f i).pair = s.pair := rfl
@[simp] theorem latch_jobs (s : State) (f : Fld) (i : Nat) : (s.latch f i).jobs = s.jobs := rfl
@[simp] theorem latch_cfgVals (s : State) (f : Fld) (i : Nat) : (s.latch f i).cfgVals = s.cfgVals := rfl
@[simp] theorem latch_cfg (s : State) (f : Fld) (i : Nat) : (s.latch f i).cfg = s.cfg := rfl
@[simp] theorem latch_cal (s : State) (f : Fld) (i : Nat) : (s.latch f i).cal = s.cal := rfl
@[simp] theorem latch_fw (s : State) (f : Fld) (i : Nat) : (s.latch f i).fw = s.fw := rfl
@[simp] theorem latch_pins (s : State) (f : Fld) (i : Nat) : (s.latch f i).pins = s.pins := rfl
@[simp] theorem latch_free (s : State) (f : Fld) (i : Nat) : (s.latch f i).free = s.free := rfl

/-! ### draw -/

@[simp] theorem draw_pending (s : State) (w : Nat) : (s.draw w).2.pending = s.pending := rfl
@[simp] theorem draw_regs (s : State) (w : Nat) : (s.draw w).2.regs = s.regs := rfl
@[simp] theorem draw_eff (s : State) (w : Nat) : (s.draw w).2.eff = s.eff := rfl
@[simp] theorem draw_mem (s : State) (w : Nat) : (s.draw w).2.mem = s.mem := rfl
@[simp] theorem draw_flash (s : State) (w : Nat) : (s.draw w).2.flash = s.flash := rfl
@[simp] theorem draw_ports (s : State) (w : Nat) : (s.draw w).2.ports = s.ports := rfl
@[simp] theorem draw_quads (s : State) (w : Nat) : (s.draw w).2.quads = s.quads := rfl
@[simp] theorem draw_weir (s : State) (w : Nat) : (s.draw w).2.weir = s.weir := rfl
@[simp] theorem draw_log (s : State) (w : Nat) : (s.draw w).2.log = s.log := rfl
@[simp] theorem draw_cnts (s : State) (w : Nat) : (s.draw w).2.cnts = s.cnts := rfl
@[simp] theorem draw_wdgs (s : State) (w : Nat) : (s.draw w).2.wdgs = s.wdgs := rfl
@[simp] theorem draw_host (s : State) (w : Nat) : (s.draw w).2.host = s.host := rfl
@[simp] theorem draw_prof (s : State) (w : Nat) : (s.draw w).2.prof = s.prof := rfl
@[simp] theorem draw_boot (s : State) (w : Nat) : (s.draw w).2.boot = s.boot := rfl
@[simp] theorem draw_eddy (s : State) (w : Nat) : (s.draw w).2.eddy = s.eddy := rfl
@[simp] theorem draw_engines (s : State) (w : Nat) : (s.draw w).2.engines = s.engines := rfl
@[simp] theorem draw_mbx (s : State) (w : Nat) : (s.draw w).2.mbx = s.mbx := rfl
@[simp] theorem draw_locks (s : State) (w : Nat) : (s.draw w).2.locks = s.locks := rfl
@[simp] theorem draw_lockEv (s : State) (w : Nat) : (s.draw w).2.lockEv = s.lockEv := rfl
@[simp] theorem draw_otp (s : State) (w : Nat) : (s.draw w).2.otp = s.otp := rfl
@[simp] theorem draw_pres (s : State) (w : Nat) : (s.draw w).2.pres = s.pres := rfl
@[simp] theorem draw_pair (s : State) (w : Nat) : (s.draw w).2.pair = s.pair := rfl
@[simp] theorem draw_jobs (s : State) (w : Nat) : (s.draw w).2.jobs = s.jobs := rfl
@[simp] theorem draw_cfgVals (s : State) (w : Nat) : (s.draw w).2.cfgVals = s.cfgVals := rfl
@[simp] theorem draw_cfg (s : State) (w : Nat) : (s.draw w).2.cfg = s.cfg := rfl
@[simp] theorem draw_cal (s : State) (w : Nat) : (s.draw w).2.cal = s.cal := rfl
@[simp] theorem draw_fw (s : State) (w : Nat) : (s.draw w).2.fw = s.fw := rfl
@[simp] theorem draw_pins (s : State) (w : Nat) : (s.draw w).2.pins = s.pins := rfl

/-! ### setPort -/

@[simp] theorem setPort_pending (s : State) (p : Nat) (h : PortHw) : (s.setPort p h).pending = s.pending := rfl
@[simp] theorem setPort_regs (s : State) (p : Nat) (h : PortHw) : (s.setPort p h).regs = s.regs := rfl
@[simp] theorem setPort_eff (s : State) (p : Nat) (h : PortHw) : (s.setPort p h).eff = s.eff := rfl
@[simp] theorem setPort_mem (s : State) (p : Nat) (h : PortHw) : (s.setPort p h).mem = s.mem := rfl
@[simp] theorem setPort_flash (s : State) (p : Nat) (h : PortHw) : (s.setPort p h).flash = s.flash := rfl
@[simp] theorem setPort_quads (s : State) (p : Nat) (h : PortHw) : (s.setPort p h).quads = s.quads := rfl
@[simp] theorem setPort_weir (s : State) (p : Nat) (h : PortHw) : (s.setPort p h).weir = s.weir := rfl
@[simp] theorem setPort_log (s : State) (p : Nat) (h : PortHw) : (s.setPort p h).log = s.log := rfl
@[simp] theorem setPort_cnts (s : State) (p : Nat) (h : PortHw) : (s.setPort p h).cnts = s.cnts := rfl
@[simp] theorem setPort_wdgs (s : State) (p : Nat) (h : PortHw) : (s.setPort p h).wdgs = s.wdgs := rfl
@[simp] theorem setPort_host (s : State) (p : Nat) (h : PortHw) : (s.setPort p h).host = s.host := rfl
@[simp] theorem setPort_prof (s : State) (p : Nat) (h : PortHw) : (s.setPort p h).prof = s.prof := rfl
@[simp] theorem setPort_boot (s : State) (p : Nat) (h : PortHw) : (s.setPort p h).boot = s.boot := rfl
@[simp] theorem setPort_eddy (s : State) (p : Nat) (h : PortHw) : (s.setPort p h).eddy = s.eddy := rfl
@[simp] theorem setPort_engines (s : State) (p : Nat) (h : PortHw) : (s.setPort p h).engines = s.engines := rfl
@[simp] theorem setPort_mbx (s : State) (p : Nat) (h : PortHw) : (s.setPort p h).mbx = s.mbx := rfl
@[simp] theorem setPort_locks (s : State) (p : Nat) (h : PortHw) : (s.setPort p h).locks = s.locks := rfl
@[simp] theorem setPort_lockEv (s : State) (p : Nat) (h : PortHw) : (s.setPort p h).lockEv = s.lockEv := rfl
@[simp] theorem setPort_otp (s : State) (p : Nat) (h : PortHw) : (s.setPort p h).otp = s.otp := rfl
@[simp] theorem setPort_pres (s : State) (p : Nat) (h : PortHw) : (s.setPort p h).pres = s.pres := rfl
@[simp] theorem setPort_pair (s : State) (p : Nat) (h : PortHw) : (s.setPort p h).pair = s.pair := rfl
@[simp] theorem setPort_jobs (s : State) (p : Nat) (h : PortHw) : (s.setPort p h).jobs = s.jobs := rfl
@[simp] theorem setPort_cfgVals (s : State) (p : Nat) (h : PortHw) : (s.setPort p h).cfgVals = s.cfgVals := rfl
@[simp] theorem setPort_cfg (s : State) (p : Nat) (h : PortHw) : (s.setPort p h).cfg = s.cfg := rfl
@[simp] theorem setPort_cal (s : State) (p : Nat) (h : PortHw) : (s.setPort p h).cal = s.cal := rfl
@[simp] theorem setPort_fw (s : State) (p : Nat) (h : PortHw) : (s.setPort p h).fw = s.fw := rfl
@[simp] theorem setPort_pins (s : State) (p : Nat) (h : PortHw) : (s.setPort p h).pins = s.pins := rfl
@[simp] theorem setPort_free (s : State) (p : Nat) (h : PortHw) : (s.setPort p h).free = s.free := rfl

/-! ### onQuad -/

@[simp] theorem onQuad_pending (s : State) (q : Nat) (g : QuadHw → QuadHw) : (s.onQuad q g).pending = s.pending := rfl
@[simp] theorem onQuad_regs (s : State) (q : Nat) (g : QuadHw → QuadHw) : (s.onQuad q g).regs = s.regs := rfl
@[simp] theorem onQuad_eff (s : State) (q : Nat) (g : QuadHw → QuadHw) : (s.onQuad q g).eff = s.eff := rfl
@[simp] theorem onQuad_mem (s : State) (q : Nat) (g : QuadHw → QuadHw) : (s.onQuad q g).mem = s.mem := rfl
@[simp] theorem onQuad_flash (s : State) (q : Nat) (g : QuadHw → QuadHw) : (s.onQuad q g).flash = s.flash := rfl
@[simp] theorem onQuad_ports (s : State) (q : Nat) (g : QuadHw → QuadHw) : (s.onQuad q g).ports = s.ports := rfl
@[simp] theorem onQuad_weir (s : State) (q : Nat) (g : QuadHw → QuadHw) : (s.onQuad q g).weir = s.weir := rfl
@[simp] theorem onQuad_log (s : State) (q : Nat) (g : QuadHw → QuadHw) : (s.onQuad q g).log = s.log := rfl
@[simp] theorem onQuad_cnts (s : State) (q : Nat) (g : QuadHw → QuadHw) : (s.onQuad q g).cnts = s.cnts := rfl
@[simp] theorem onQuad_wdgs (s : State) (q : Nat) (g : QuadHw → QuadHw) : (s.onQuad q g).wdgs = s.wdgs := rfl
@[simp] theorem onQuad_host (s : State) (q : Nat) (g : QuadHw → QuadHw) : (s.onQuad q g).host = s.host := rfl
@[simp] theorem onQuad_prof (s : State) (q : Nat) (g : QuadHw → QuadHw) : (s.onQuad q g).prof = s.prof := rfl
@[simp] theorem onQuad_boot (s : State) (q : Nat) (g : QuadHw → QuadHw) : (s.onQuad q g).boot = s.boot := rfl
@[simp] theorem onQuad_eddy (s : State) (q : Nat) (g : QuadHw → QuadHw) : (s.onQuad q g).eddy = s.eddy := rfl
@[simp] theorem onQuad_engines (s : State) (q : Nat) (g : QuadHw → QuadHw) : (s.onQuad q g).engines = s.engines := rfl
@[simp] theorem onQuad_mbx (s : State) (q : Nat) (g : QuadHw → QuadHw) : (s.onQuad q g).mbx = s.mbx := rfl
@[simp] theorem onQuad_locks (s : State) (q : Nat) (g : QuadHw → QuadHw) : (s.onQuad q g).locks = s.locks := rfl
@[simp] theorem onQuad_lockEv (s : State) (q : Nat) (g : QuadHw → QuadHw) : (s.onQuad q g).lockEv = s.lockEv := rfl
@[simp] theorem onQuad_otp (s : State) (q : Nat) (g : QuadHw → QuadHw) : (s.onQuad q g).otp = s.otp := rfl
@[simp] theorem onQuad_pres (s : State) (q : Nat) (g : QuadHw → QuadHw) : (s.onQuad q g).pres = s.pres := rfl
@[simp] theorem onQuad_pair (s : State) (q : Nat) (g : QuadHw → QuadHw) : (s.onQuad q g).pair = s.pair := rfl
@[simp] theorem onQuad_jobs (s : State) (q : Nat) (g : QuadHw → QuadHw) : (s.onQuad q g).jobs = s.jobs := rfl
@[simp] theorem onQuad_cfgVals (s : State) (q : Nat) (g : QuadHw → QuadHw) : (s.onQuad q g).cfgVals = s.cfgVals := rfl
@[simp] theorem onQuad_cfg (s : State) (q : Nat) (g : QuadHw → QuadHw) : (s.onQuad q g).cfg = s.cfg := rfl
@[simp] theorem onQuad_cal (s : State) (q : Nat) (g : QuadHw → QuadHw) : (s.onQuad q g).cal = s.cal := rfl
@[simp] theorem onQuad_fw (s : State) (q : Nat) (g : QuadHw → QuadHw) : (s.onQuad q g).fw = s.fw := rfl
@[simp] theorem onQuad_pins (s : State) (q : Nat) (g : QuadHw → QuadHw) : (s.onQuad q g).pins = s.pins := rfl
@[simp] theorem onQuad_free (s : State) (q : Nat) (g : QuadHw → QuadHw) : (s.onQuad q g).free = s.free := rfl

/-! ### memPut -/

@[simp] theorem memPut_pending (s : State) (m off : Nat) (b : Byte) : (s.memPut m off b).pending = s.pending := rfl
@[simp] theorem memPut_regs (s : State) (m off : Nat) (b : Byte) : (s.memPut m off b).regs = s.regs := rfl
@[simp] theorem memPut_eff (s : State) (m off : Nat) (b : Byte) : (s.memPut m off b).eff = s.eff := rfl
@[simp] theorem memPut_flash (s : State) (m off : Nat) (b : Byte) : (s.memPut m off b).flash = s.flash := rfl
@[simp] theorem memPut_ports (s : State) (m off : Nat) (b : Byte) : (s.memPut m off b).ports = s.ports := rfl
@[simp] theorem memPut_quads (s : State) (m off : Nat) (b : Byte) : (s.memPut m off b).quads = s.quads := rfl
@[simp] theorem memPut_weir (s : State) (m off : Nat) (b : Byte) : (s.memPut m off b).weir = s.weir := rfl
@[simp] theorem memPut_log (s : State) (m off : Nat) (b : Byte) : (s.memPut m off b).log = s.log := rfl
@[simp] theorem memPut_cnts (s : State) (m off : Nat) (b : Byte) : (s.memPut m off b).cnts = s.cnts := rfl
@[simp] theorem memPut_wdgs (s : State) (m off : Nat) (b : Byte) : (s.memPut m off b).wdgs = s.wdgs := rfl
@[simp] theorem memPut_host (s : State) (m off : Nat) (b : Byte) : (s.memPut m off b).host = s.host := rfl
@[simp] theorem memPut_prof (s : State) (m off : Nat) (b : Byte) : (s.memPut m off b).prof = s.prof := rfl
@[simp] theorem memPut_boot (s : State) (m off : Nat) (b : Byte) : (s.memPut m off b).boot = s.boot := rfl
@[simp] theorem memPut_eddy (s : State) (m off : Nat) (b : Byte) : (s.memPut m off b).eddy = s.eddy := rfl
@[simp] theorem memPut_engines (s : State) (m off : Nat) (b : Byte) : (s.memPut m off b).engines = s.engines := rfl
@[simp] theorem memPut_mbx (s : State) (m off : Nat) (b : Byte) : (s.memPut m off b).mbx = s.mbx := rfl
@[simp] theorem memPut_locks (s : State) (m off : Nat) (b : Byte) : (s.memPut m off b).locks = s.locks := rfl
@[simp] theorem memPut_lockEv (s : State) (m off : Nat) (b : Byte) : (s.memPut m off b).lockEv = s.lockEv := rfl
@[simp] theorem memPut_otp (s : State) (m off : Nat) (b : Byte) : (s.memPut m off b).otp = s.otp := rfl
@[simp] theorem memPut_pres (s : State) (m off : Nat) (b : Byte) : (s.memPut m off b).pres = s.pres := rfl
@[simp] theorem memPut_pair (s : State) (m off : Nat) (b : Byte) : (s.memPut m off b).pair = s.pair := rfl
@[simp] theorem memPut_jobs (s : State) (m off : Nat) (b : Byte) : (s.memPut m off b).jobs = s.jobs := rfl
@[simp] theorem memPut_cfgVals (s : State) (m off : Nat) (b : Byte) : (s.memPut m off b).cfgVals = s.cfgVals := rfl
@[simp] theorem memPut_cfg (s : State) (m off : Nat) (b : Byte) : (s.memPut m off b).cfg = s.cfg := rfl
@[simp] theorem memPut_cal (s : State) (m off : Nat) (b : Byte) : (s.memPut m off b).cal = s.cal := rfl
@[simp] theorem memPut_fw (s : State) (m off : Nat) (b : Byte) : (s.memPut m off b).fw = s.fw := rfl
@[simp] theorem memPut_pins (s : State) (m off : Nat) (b : Byte) : (s.memPut m off b).pins = s.pins := rfl
@[simp] theorem memPut_free (s : State) (m off : Nat) (b : Byte) : (s.memPut m off b).free = s.free := rfl

/-! ### memClear -/

@[simp] theorem memClear_pending (s : State) (m : Nat) : (s.memClear m).pending = s.pending := rfl
@[simp] theorem memClear_regs (s : State) (m : Nat) : (s.memClear m).regs = s.regs := rfl
@[simp] theorem memClear_eff (s : State) (m : Nat) : (s.memClear m).eff = s.eff := rfl
@[simp] theorem memClear_flash (s : State) (m : Nat) : (s.memClear m).flash = s.flash := rfl
@[simp] theorem memClear_ports (s : State) (m : Nat) : (s.memClear m).ports = s.ports := rfl
@[simp] theorem memClear_quads (s : State) (m : Nat) : (s.memClear m).quads = s.quads := rfl
@[simp] theorem memClear_weir (s : State) (m : Nat) : (s.memClear m).weir = s.weir := rfl
@[simp] theorem memClear_log (s : State) (m : Nat) : (s.memClear m).log = s.log := rfl
@[simp] theorem memClear_cnts (s : State) (m : Nat) : (s.memClear m).cnts = s.cnts := rfl
@[simp] theorem memClear_wdgs (s : State) (m : Nat) : (s.memClear m).wdgs = s.wdgs := rfl
@[simp] theorem memClear_host (s : State) (m : Nat) : (s.memClear m).host = s.host := rfl
@[simp] theorem memClear_prof (s : State) (m : Nat) : (s.memClear m).prof = s.prof := rfl
@[simp] theorem memClear_boot (s : State) (m : Nat) : (s.memClear m).boot = s.boot := rfl
@[simp] theorem memClear_eddy (s : State) (m : Nat) : (s.memClear m).eddy = s.eddy := rfl
@[simp] theorem memClear_engines (s : State) (m : Nat) : (s.memClear m).engines = s.engines := rfl
@[simp] theorem memClear_mbx (s : State) (m : Nat) : (s.memClear m).mbx = s.mbx := rfl
@[simp] theorem memClear_locks (s : State) (m : Nat) : (s.memClear m).locks = s.locks := rfl
@[simp] theorem memClear_lockEv (s : State) (m : Nat) : (s.memClear m).lockEv = s.lockEv := rfl
@[simp] theorem memClear_otp (s : State) (m : Nat) : (s.memClear m).otp = s.otp := rfl
@[simp] theorem memClear_pres (s : State) (m : Nat) : (s.memClear m).pres = s.pres := rfl
@[simp] theorem memClear_pair (s : State) (m : Nat) : (s.memClear m).pair = s.pair := rfl
@[simp] theorem memClear_jobs (s : State) (m : Nat) : (s.memClear m).jobs = s.jobs := rfl
@[simp] theorem memClear_cfgVals (s : State) (m : Nat) : (s.memClear m).cfgVals = s.cfgVals := rfl
@[simp] theorem memClear_cfg (s : State) (m : Nat) : (s.memClear m).cfg = s.cfg := rfl
@[simp] theorem memClear_cal (s : State) (m : Nat) : (s.memClear m).cal = s.cal := rfl
@[simp] theorem memClear_fw (s : State) (m : Nat) : (s.memClear m).fw = s.fw := rfl
@[simp] theorem memClear_pins (s : State) (m : Nat) : (s.memClear m).pins = s.pins := rfl
@[simp] theorem memClear_free (s : State) (m : Nat) : (s.memClear m).free = s.free := rfl

/-! ### flashPut -/

@[simp] theorem flashPut_pending (s : State) (a : Nat) (b : Byte) : (s.flashPut a b).pending = s.pending := rfl
@[simp] theorem flashPut_regs (s : State) (a : Nat) (b : Byte) : (s.flashPut a b).regs = s.regs := rfl
@[simp] theorem flashPut_eff (s : State) (a : Nat) (b : Byte) : (s.flashPut a b).eff = s.eff := rfl
@[simp] theorem flashPut_mem (s : State) (a : Nat) (b : Byte) : (s.flashPut a b).mem = s.mem := rfl
@[simp] theorem flashPut_ports (s : State) (a : Nat) (b : Byte) : (s.flashPut a b).ports = s.ports := rfl
@[simp] theorem flashPut_quads (s : State) (a : Nat) (b : Byte) : (s.flashPut a b).quads = s.quads := rfl
@[simp] theorem flashPut_weir (s : State) (a : Nat) (b : Byte) : (s.flashPut a b).weir = s.weir := rfl
@[simp] theorem flashPut_log (s : State) (a : Nat) (b : Byte) : (s.flashPut a b).log = s.log := rfl
@[simp] theorem flashPut_cnts (s : State) (a : Nat) (b : Byte) : (s.flashPut a b).cnts = s.cnts := rfl
@[simp] theorem flashPut_wdgs (s : State) (a : Nat) (b : Byte) : (s.flashPut a b).wdgs = s.wdgs := rfl
@[simp] theorem flashPut_host (s : State) (a : Nat) (b : Byte) : (s.flashPut a b).host = s.host := rfl
@[simp] theorem flashPut_prof (s : State) (a : Nat) (b : Byte) : (s.flashPut a b).prof = s.prof := rfl
@[simp] theorem flashPut_boot (s : State) (a : Nat) (b : Byte) : (s.flashPut a b).boot = s.boot := rfl
@[simp] theorem flashPut_eddy (s : State) (a : Nat) (b : Byte) : (s.flashPut a b).eddy = s.eddy := rfl
@[simp] theorem flashPut_engines (s : State) (a : Nat) (b : Byte) : (s.flashPut a b).engines = s.engines := rfl
@[simp] theorem flashPut_mbx (s : State) (a : Nat) (b : Byte) : (s.flashPut a b).mbx = s.mbx := rfl
@[simp] theorem flashPut_locks (s : State) (a : Nat) (b : Byte) : (s.flashPut a b).locks = s.locks := rfl
@[simp] theorem flashPut_lockEv (s : State) (a : Nat) (b : Byte) : (s.flashPut a b).lockEv = s.lockEv := rfl
@[simp] theorem flashPut_otp (s : State) (a : Nat) (b : Byte) : (s.flashPut a b).otp = s.otp := rfl
@[simp] theorem flashPut_pres (s : State) (a : Nat) (b : Byte) : (s.flashPut a b).pres = s.pres := rfl
@[simp] theorem flashPut_pair (s : State) (a : Nat) (b : Byte) : (s.flashPut a b).pair = s.pair := rfl
@[simp] theorem flashPut_jobs (s : State) (a : Nat) (b : Byte) : (s.flashPut a b).jobs = s.jobs := rfl
@[simp] theorem flashPut_cfgVals (s : State) (a : Nat) (b : Byte) : (s.flashPut a b).cfgVals = s.cfgVals := rfl
@[simp] theorem flashPut_cfg (s : State) (a : Nat) (b : Byte) : (s.flashPut a b).cfg = s.cfg := rfl
@[simp] theorem flashPut_cal (s : State) (a : Nat) (b : Byte) : (s.flashPut a b).cal = s.cal := rfl
@[simp] theorem flashPut_fw (s : State) (a : Nat) (b : Byte) : (s.flashPut a b).fw = s.fw := rfl
@[simp] theorem flashPut_pins (s : State) (a : Nat) (b : Byte) : (s.flashPut a b).pins = s.pins := rfl
@[simp] theorem flashPut_free (s : State) (a : Nat) (b : Byte) : (s.flashPut a b).free = s.free := rfl

/-! ### flashErase -/

@[simp] theorem flashErase_pending (s : State) (a n : Nat) : (s.flashErase a n).pending = s.pending := rfl
@[simp] theorem flashErase_regs (s : State) (a n : Nat) : (s.flashErase a n).regs = s.regs := rfl
@[simp] theorem flashErase_eff (s : State) (a n : Nat) : (s.flashErase a n).eff = s.eff := rfl
@[simp] theorem flashErase_mem (s : State) (a n : Nat) : (s.flashErase a n).mem = s.mem := rfl
@[simp] theorem flashErase_ports (s : State) (a n : Nat) : (s.flashErase a n).ports = s.ports := rfl
@[simp] theorem flashErase_quads (s : State) (a n : Nat) : (s.flashErase a n).quads = s.quads := rfl
@[simp] theorem flashErase_weir (s : State) (a n : Nat) : (s.flashErase a n).weir = s.weir := rfl
@[simp] theorem flashErase_log (s : State) (a n : Nat) : (s.flashErase a n).log = s.log := rfl
@[simp] theorem flashErase_cnts (s : State) (a n : Nat) : (s.flashErase a n).cnts = s.cnts := rfl
@[simp] theorem flashErase_wdgs (s : State) (a n : Nat) : (s.flashErase a n).wdgs = s.wdgs := rfl
@[simp] theorem flashErase_host (s : State) (a n : Nat) : (s.flashErase a n).host = s.host := rfl
@[simp] theorem flashErase_prof (s : State) (a n : Nat) : (s.flashErase a n).prof = s.prof := rfl
@[simp] theorem flashErase_boot (s : State) (a n : Nat) : (s.flashErase a n).boot = s.boot := rfl
@[simp] theorem flashErase_eddy (s : State) (a n : Nat) : (s.flashErase a n).eddy = s.eddy := rfl
@[simp] theorem flashErase_engines (s : State) (a n : Nat) : (s.flashErase a n).engines = s.engines := rfl
@[simp] theorem flashErase_mbx (s : State) (a n : Nat) : (s.flashErase a n).mbx = s.mbx := rfl
@[simp] theorem flashErase_locks (s : State) (a n : Nat) : (s.flashErase a n).locks = s.locks := rfl
@[simp] theorem flashErase_lockEv (s : State) (a n : Nat) : (s.flashErase a n).lockEv = s.lockEv := rfl
@[simp] theorem flashErase_otp (s : State) (a n : Nat) : (s.flashErase a n).otp = s.otp := rfl
@[simp] theorem flashErase_pres (s : State) (a n : Nat) : (s.flashErase a n).pres = s.pres := rfl
@[simp] theorem flashErase_pair (s : State) (a n : Nat) : (s.flashErase a n).pair = s.pair := rfl
@[simp] theorem flashErase_jobs (s : State) (a n : Nat) : (s.flashErase a n).jobs = s.jobs := rfl
@[simp] theorem flashErase_cfgVals (s : State) (a n : Nat) : (s.flashErase a n).cfgVals = s.cfgVals := rfl
@[simp] theorem flashErase_cfg (s : State) (a n : Nat) : (s.flashErase a n).cfg = s.cfg := rfl
@[simp] theorem flashErase_cal (s : State) (a n : Nat) : (s.flashErase a n).cal = s.cal := rfl
@[simp] theorem flashErase_fw (s : State) (a n : Nat) : (s.flashErase a n).fw = { s.fw with
    bad := s.fw.bad.filter fun w => !(decide (a ≤ 8 * w) && decide (8 * w < a + n)) } := rfl
@[simp] theorem flashErase_pins (s : State) (a n : Nat) : (s.flashErase a n).pins = s.pins := rfl
@[simp] theorem flashErase_free (s : State) (a n : Nat) : (s.flashErase a n).free = s.free := rfl

/-! ### queueEntry -/

@[simp] theorem queueEntry_pending (s : State) (e : Entry) : (s.queueEntry e).pending = s.pending := rfl
@[simp] theorem queueEntry_regs (s : State) (e : Entry) : (s.queueEntry e).regs = s.regs := rfl
@[simp] theorem queueEntry_eff (s : State) (e : Entry) : (s.queueEntry e).eff = s.eff := rfl
@[simp] theorem queueEntry_mem (s : State) (e : Entry) : (s.queueEntry e).mem = s.mem := rfl
@[simp] theorem queueEntry_flash (s : State) (e : Entry) : (s.queueEntry e).flash = s.flash := rfl
@[simp] theorem queueEntry_ports (s : State) (e : Entry) : (s.queueEntry e).ports = s.ports := rfl
@[simp] theorem queueEntry_quads (s : State) (e : Entry) : (s.queueEntry e).quads = s.quads := rfl
@[simp] theorem queueEntry_weir (s : State) (e : Entry) : (s.queueEntry e).weir = s.weir := rfl
@[simp] theorem queueEntry_log (s : State) (e : Entry) : (s.queueEntry e).log = s.log := rfl
@[simp] theorem queueEntry_cnts (s : State) (e : Entry) : (s.queueEntry e).cnts = s.cnts := rfl
@[simp] theorem queueEntry_wdgs (s : State) (e : Entry) : (s.queueEntry e).wdgs = s.wdgs := rfl
@[simp] theorem queueEntry_prof (s : State) (e : Entry) : (s.queueEntry e).prof = s.prof := rfl
@[simp] theorem queueEntry_boot (s : State) (e : Entry) : (s.queueEntry e).boot = s.boot := rfl
@[simp] theorem queueEntry_eddy (s : State) (e : Entry) : (s.queueEntry e).eddy = s.eddy := rfl
@[simp] theorem queueEntry_engines (s : State) (e : Entry) : (s.queueEntry e).engines = s.engines := rfl
@[simp] theorem queueEntry_mbx (s : State) (e : Entry) : (s.queueEntry e).mbx = s.mbx := rfl
@[simp] theorem queueEntry_locks (s : State) (e : Entry) : (s.queueEntry e).locks = s.locks := rfl
@[simp] theorem queueEntry_lockEv (s : State) (e : Entry) : (s.queueEntry e).lockEv = s.lockEv := rfl
@[simp] theorem queueEntry_otp (s : State) (e : Entry) : (s.queueEntry e).otp = s.otp := rfl
@[simp] theorem queueEntry_pres (s : State) (e : Entry) : (s.queueEntry e).pres = s.pres := rfl
@[simp] theorem queueEntry_pair (s : State) (e : Entry) : (s.queueEntry e).pair = s.pair := rfl
@[simp] theorem queueEntry_jobs (s : State) (e : Entry) : (s.queueEntry e).jobs = s.jobs := rfl
@[simp] theorem queueEntry_cfgVals (s : State) (e : Entry) : (s.queueEntry e).cfgVals = s.cfgVals := rfl
@[simp] theorem queueEntry_cfg (s : State) (e : Entry) : (s.queueEntry e).cfg = s.cfg := rfl
@[simp] theorem queueEntry_cal (s : State) (e : Entry) : (s.queueEntry e).cal = s.cal := rfl
@[simp] theorem queueEntry_fw (s : State) (e : Entry) : (s.queueEntry e).fw = s.fw := rfl
@[simp] theorem queueEntry_pins (s : State) (e : Entry) : (s.queueEntry e).pins = s.pins := rfl
@[simp] theorem queueEntry_free (s : State) (e : Entry) : (s.queueEntry e).free = s.free := rfl

/-! ### complete -/

@[simp] theorem complete_pending (s : State) (op tag st : Nat) (d : List Byte) : (s.complete op tag st d).pending = s.pending := rfl
@[simp] theorem complete_regs (s : State) (op tag st : Nat) (d : List Byte) : (s.complete op tag st d).regs = s.regs := rfl
@[simp] theorem complete_eff (s : State) (op tag st : Nat) (d : List Byte) : (s.complete op tag st d).eff = s.eff := rfl
@[simp] theorem complete_mem (s : State) (op tag st : Nat) (d : List Byte) : (s.complete op tag st d).mem = s.mem := rfl
@[simp] theorem complete_flash (s : State) (op tag st : Nat) (d : List Byte) : (s.complete op tag st d).flash = s.flash := rfl
@[simp] theorem complete_ports (s : State) (op tag st : Nat) (d : List Byte) : (s.complete op tag st d).ports = s.ports := rfl
@[simp] theorem complete_quads (s : State) (op tag st : Nat) (d : List Byte) : (s.complete op tag st d).quads = s.quads := rfl
@[simp] theorem complete_weir (s : State) (op tag st : Nat) (d : List Byte) : (s.complete op tag st d).weir = s.weir := rfl
@[simp] theorem complete_log (s : State) (op tag st : Nat) (d : List Byte) : (s.complete op tag st d).log = s.log := rfl
@[simp] theorem complete_cnts (s : State) (op tag st : Nat) (d : List Byte) : (s.complete op tag st d).cnts = s.cnts := rfl
@[simp] theorem complete_wdgs (s : State) (op tag st : Nat) (d : List Byte) : (s.complete op tag st d).wdgs = s.wdgs := rfl
@[simp] theorem complete_prof (s : State) (op tag st : Nat) (d : List Byte) : (s.complete op tag st d).prof = s.prof := rfl
@[simp] theorem complete_boot (s : State) (op tag st : Nat) (d : List Byte) : (s.complete op tag st d).boot = s.boot := rfl
@[simp] theorem complete_eddy (s : State) (op tag st : Nat) (d : List Byte) : (s.complete op tag st d).eddy = s.eddy := rfl
@[simp] theorem complete_engines (s : State) (op tag st : Nat) (d : List Byte) : (s.complete op tag st d).engines = s.engines := rfl
@[simp] theorem complete_mbx (s : State) (op tag st : Nat) (d : List Byte) : (s.complete op tag st d).mbx = s.mbx := rfl
@[simp] theorem complete_locks (s : State) (op tag st : Nat) (d : List Byte) : (s.complete op tag st d).locks = s.locks := rfl
@[simp] theorem complete_lockEv (s : State) (op tag st : Nat) (d : List Byte) : (s.complete op tag st d).lockEv = s.lockEv := rfl
@[simp] theorem complete_otp (s : State) (op tag st : Nat) (d : List Byte) : (s.complete op tag st d).otp = s.otp := rfl
@[simp] theorem complete_pres (s : State) (op tag st : Nat) (d : List Byte) : (s.complete op tag st d).pres = s.pres := rfl
@[simp] theorem complete_pair (s : State) (op tag st : Nat) (d : List Byte) : (s.complete op tag st d).pair = s.pair := rfl
@[simp] theorem complete_jobs (s : State) (op tag st : Nat) (d : List Byte) : (s.complete op tag st d).jobs = s.jobs := rfl
@[simp] theorem complete_cfgVals (s : State) (op tag st : Nat) (d : List Byte) : (s.complete op tag st d).cfgVals = s.cfgVals := rfl
@[simp] theorem complete_cfg (s : State) (op tag st : Nat) (d : List Byte) : (s.complete op tag st d).cfg = s.cfg := rfl
@[simp] theorem complete_cal (s : State) (op tag st : Nat) (d : List Byte) : (s.complete op tag st d).cal = s.cal := rfl
@[simp] theorem complete_fw (s : State) (op tag st : Nat) (d : List Byte) : (s.complete op tag st d).fw = s.fw := rfl
@[simp] theorem complete_pins (s : State) (op tag st : Nat) (d : List Byte) : (s.complete op tag st d).pins = s.pins := rfl
@[simp] theorem complete_free (s : State) (op tag st : Nat) (d : List Byte) : (s.complete op tag st d).free = s.free := rfl

/-! ### openCmd -/

@[simp] theorem openCmd_pending (s : State) (op : Nat) (t : Byte) (p : Nat) : (s.openCmd op t p).pending = s.pending := rfl
@[simp] theorem openCmd_regs (s : State) (op : Nat) (t : Byte) (p : Nat) : (s.openCmd op t p).regs = s.regs := rfl
@[simp] theorem openCmd_eff (s : State) (op : Nat) (t : Byte) (p : Nat) : (s.openCmd op t p).eff = s.eff := rfl
@[simp] theorem openCmd_mem (s : State) (op : Nat) (t : Byte) (p : Nat) : (s.openCmd op t p).mem = s.mem := rfl
@[simp] theorem openCmd_flash (s : State) (op : Nat) (t : Byte) (p : Nat) : (s.openCmd op t p).flash = s.flash := rfl
@[simp] theorem openCmd_ports (s : State) (op : Nat) (t : Byte) (p : Nat) : (s.openCmd op t p).ports = s.ports := rfl
@[simp] theorem openCmd_quads (s : State) (op : Nat) (t : Byte) (p : Nat) : (s.openCmd op t p).quads = s.quads := rfl
@[simp] theorem openCmd_weir (s : State) (op : Nat) (t : Byte) (p : Nat) : (s.openCmd op t p).weir = s.weir := rfl
@[simp] theorem openCmd_log (s : State) (op : Nat) (t : Byte) (p : Nat) : (s.openCmd op t p).log = s.log := rfl
@[simp] theorem openCmd_cnts (s : State) (op : Nat) (t : Byte) (p : Nat) : (s.openCmd op t p).cnts = s.cnts := rfl
@[simp] theorem openCmd_wdgs (s : State) (op : Nat) (t : Byte) (p : Nat) : (s.openCmd op t p).wdgs = s.wdgs := rfl
@[simp] theorem openCmd_prof (s : State) (op : Nat) (t : Byte) (p : Nat) : (s.openCmd op t p).prof = s.prof := rfl
@[simp] theorem openCmd_boot (s : State) (op : Nat) (t : Byte) (p : Nat) : (s.openCmd op t p).boot = s.boot := rfl
@[simp] theorem openCmd_eddy (s : State) (op : Nat) (t : Byte) (p : Nat) : (s.openCmd op t p).eddy = s.eddy := rfl
@[simp] theorem openCmd_engines (s : State) (op : Nat) (t : Byte) (p : Nat) : (s.openCmd op t p).engines = s.engines := rfl
@[simp] theorem openCmd_mbx (s : State) (op : Nat) (t : Byte) (p : Nat) : (s.openCmd op t p).mbx = s.mbx := rfl
@[simp] theorem openCmd_locks (s : State) (op : Nat) (t : Byte) (p : Nat) : (s.openCmd op t p).locks = s.locks := rfl
@[simp] theorem openCmd_lockEv (s : State) (op : Nat) (t : Byte) (p : Nat) : (s.openCmd op t p).lockEv = s.lockEv := rfl
@[simp] theorem openCmd_otp (s : State) (op : Nat) (t : Byte) (p : Nat) : (s.openCmd op t p).otp = s.otp := rfl
@[simp] theorem openCmd_pres (s : State) (op : Nat) (t : Byte) (p : Nat) : (s.openCmd op t p).pres = s.pres := rfl
@[simp] theorem openCmd_pair (s : State) (op : Nat) (t : Byte) (p : Nat) : (s.openCmd op t p).pair = s.pair := rfl
@[simp] theorem openCmd_jobs (s : State) (op : Nat) (t : Byte) (p : Nat) : (s.openCmd op t p).jobs = s.jobs := rfl
@[simp] theorem openCmd_cfgVals (s : State) (op : Nat) (t : Byte) (p : Nat) : (s.openCmd op t p).cfgVals = s.cfgVals := rfl
@[simp] theorem openCmd_cfg (s : State) (op : Nat) (t : Byte) (p : Nat) : (s.openCmd op t p).cfg = s.cfg := rfl
@[simp] theorem openCmd_cal (s : State) (op : Nat) (t : Byte) (p : Nat) : (s.openCmd op t p).cal = s.cal := rfl
@[simp] theorem openCmd_fw (s : State) (op : Nat) (t : Byte) (p : Nat) : (s.openCmd op t p).fw = s.fw := rfl
@[simp] theorem openCmd_pins (s : State) (op : Nat) (t : Byte) (p : Nat) : (s.openCmd op t p).pins = s.pins := rfl
@[simp] theorem openCmd_free (s : State) (op : Nat) (t : Byte) (p : Nat) : (s.openCmd op t p).free = s.free := rfl

/-! ### onEngine -/

@[simp] theorem onEngine_pending (s : State) (e : Nat) (g : Engine → Engine) : (s.onEngine e g).pending = s.pending := rfl
@[simp] theorem onEngine_regs (s : State) (e : Nat) (g : Engine → Engine) : (s.onEngine e g).regs = s.regs := rfl
@[simp] theorem onEngine_eff (s : State) (e : Nat) (g : Engine → Engine) : (s.onEngine e g).eff = s.eff := rfl
@[simp] theorem onEngine_mem (s : State) (e : Nat) (g : Engine → Engine) : (s.onEngine e g).mem = s.mem := rfl
@[simp] theorem onEngine_flash (s : State) (e : Nat) (g : Engine → Engine) : (s.onEngine e g).flash = s.flash := rfl
@[simp] theorem onEngine_ports (s : State) (e : Nat) (g : Engine → Engine) : (s.onEngine e g).ports = s.ports := rfl
@[simp] theorem onEngine_quads (s : State) (e : Nat) (g : Engine → Engine) : (s.onEngine e g).quads = s.quads := rfl
@[simp] theorem onEngine_weir (s : State) (e : Nat) (g : Engine → Engine) : (s.onEngine e g).weir = s.weir := rfl
@[simp] theorem onEngine_log (s : State) (e : Nat) (g : Engine → Engine) : (s.onEngine e g).log = s.log := rfl
@[simp] theorem onEngine_cnts (s : State) (e : Nat) (g : Engine → Engine) : (s.onEngine e g).cnts = s.cnts := rfl
@[simp] theorem onEngine_wdgs (s : State) (e : Nat) (g : Engine → Engine) : (s.onEngine e g).wdgs = s.wdgs := rfl
@[simp] theorem onEngine_host (s : State) (e : Nat) (g : Engine → Engine) : (s.onEngine e g).host = s.host := rfl
@[simp] theorem onEngine_prof (s : State) (e : Nat) (g : Engine → Engine) : (s.onEngine e g).prof = s.prof := rfl
@[simp] theorem onEngine_boot (s : State) (e : Nat) (g : Engine → Engine) : (s.onEngine e g).boot = s.boot := rfl
@[simp] theorem onEngine_eddy (s : State) (e : Nat) (g : Engine → Engine) : (s.onEngine e g).eddy = s.eddy := rfl
@[simp] theorem onEngine_mbx (s : State) (e : Nat) (g : Engine → Engine) : (s.onEngine e g).mbx = s.mbx := rfl
@[simp] theorem onEngine_locks (s : State) (e : Nat) (g : Engine → Engine) : (s.onEngine e g).locks = s.locks := rfl
@[simp] theorem onEngine_lockEv (s : State) (e : Nat) (g : Engine → Engine) : (s.onEngine e g).lockEv = s.lockEv := rfl
@[simp] theorem onEngine_otp (s : State) (e : Nat) (g : Engine → Engine) : (s.onEngine e g).otp = s.otp := rfl
@[simp] theorem onEngine_pres (s : State) (e : Nat) (g : Engine → Engine) : (s.onEngine e g).pres = s.pres := rfl
@[simp] theorem onEngine_pair (s : State) (e : Nat) (g : Engine → Engine) : (s.onEngine e g).pair = s.pair := rfl
@[simp] theorem onEngine_jobs (s : State) (e : Nat) (g : Engine → Engine) : (s.onEngine e g).jobs = s.jobs := rfl
@[simp] theorem onEngine_cfgVals (s : State) (e : Nat) (g : Engine → Engine) : (s.onEngine e g).cfgVals = s.cfgVals := rfl
@[simp] theorem onEngine_cfg (s : State) (e : Nat) (g : Engine → Engine) : (s.onEngine e g).cfg = s.cfg := rfl
@[simp] theorem onEngine_cal (s : State) (e : Nat) (g : Engine → Engine) : (s.onEngine e g).cal = s.cal := rfl
@[simp] theorem onEngine_fw (s : State) (e : Nat) (g : Engine → Engine) : (s.onEngine e g).fw = s.fw := rfl
@[simp] theorem onEngine_pins (s : State) (e : Nat) (g : Engine → Engine) : (s.onEngine e g).pins = s.pins := rfl
@[simp] theorem onEngine_free (s : State) (e : Nat) (g : Engine → Engine) : (s.onEngine e g).free = s.free := rfl

/-! ### onMbx -/

@[simp] theorem onMbx_pending (s : State) (id : Nat) (g : MbxEnd → MbxEnd) : (s.onMbx id g).pending = s.pending := rfl
@[simp] theorem onMbx_regs (s : State) (id : Nat) (g : MbxEnd → MbxEnd) : (s.onMbx id g).regs = s.regs := rfl
@[simp] theorem onMbx_eff (s : State) (id : Nat) (g : MbxEnd → MbxEnd) : (s.onMbx id g).eff = s.eff := rfl
@[simp] theorem onMbx_mem (s : State) (id : Nat) (g : MbxEnd → MbxEnd) : (s.onMbx id g).mem = s.mem := rfl
@[simp] theorem onMbx_flash (s : State) (id : Nat) (g : MbxEnd → MbxEnd) : (s.onMbx id g).flash = s.flash := rfl
@[simp] theorem onMbx_ports (s : State) (id : Nat) (g : MbxEnd → MbxEnd) : (s.onMbx id g).ports = s.ports := rfl
@[simp] theorem onMbx_quads (s : State) (id : Nat) (g : MbxEnd → MbxEnd) : (s.onMbx id g).quads = s.quads := rfl
@[simp] theorem onMbx_weir (s : State) (id : Nat) (g : MbxEnd → MbxEnd) : (s.onMbx id g).weir = s.weir := rfl
@[simp] theorem onMbx_log (s : State) (id : Nat) (g : MbxEnd → MbxEnd) : (s.onMbx id g).log = s.log := rfl
@[simp] theorem onMbx_cnts (s : State) (id : Nat) (g : MbxEnd → MbxEnd) : (s.onMbx id g).cnts = s.cnts := rfl
@[simp] theorem onMbx_wdgs (s : State) (id : Nat) (g : MbxEnd → MbxEnd) : (s.onMbx id g).wdgs = s.wdgs := rfl
@[simp] theorem onMbx_host (s : State) (id : Nat) (g : MbxEnd → MbxEnd) : (s.onMbx id g).host = s.host := rfl
@[simp] theorem onMbx_prof (s : State) (id : Nat) (g : MbxEnd → MbxEnd) : (s.onMbx id g).prof = s.prof := rfl
@[simp] theorem onMbx_boot (s : State) (id : Nat) (g : MbxEnd → MbxEnd) : (s.onMbx id g).boot = s.boot := rfl
@[simp] theorem onMbx_eddy (s : State) (id : Nat) (g : MbxEnd → MbxEnd) : (s.onMbx id g).eddy = s.eddy := rfl
@[simp] theorem onMbx_engines (s : State) (id : Nat) (g : MbxEnd → MbxEnd) : (s.onMbx id g).engines = s.engines := rfl
@[simp] theorem onMbx_locks (s : State) (id : Nat) (g : MbxEnd → MbxEnd) : (s.onMbx id g).locks = s.locks := rfl
@[simp] theorem onMbx_lockEv (s : State) (id : Nat) (g : MbxEnd → MbxEnd) : (s.onMbx id g).lockEv = s.lockEv := rfl
@[simp] theorem onMbx_otp (s : State) (id : Nat) (g : MbxEnd → MbxEnd) : (s.onMbx id g).otp = s.otp := rfl
@[simp] theorem onMbx_pres (s : State) (id : Nat) (g : MbxEnd → MbxEnd) : (s.onMbx id g).pres = s.pres := rfl
@[simp] theorem onMbx_pair (s : State) (id : Nat) (g : MbxEnd → MbxEnd) : (s.onMbx id g).pair = s.pair := rfl
@[simp] theorem onMbx_jobs (s : State) (id : Nat) (g : MbxEnd → MbxEnd) : (s.onMbx id g).jobs = s.jobs := rfl
@[simp] theorem onMbx_cfgVals (s : State) (id : Nat) (g : MbxEnd → MbxEnd) : (s.onMbx id g).cfgVals = s.cfgVals := rfl
@[simp] theorem onMbx_cfg (s : State) (id : Nat) (g : MbxEnd → MbxEnd) : (s.onMbx id g).cfg = s.cfg := rfl
@[simp] theorem onMbx_cal (s : State) (id : Nat) (g : MbxEnd → MbxEnd) : (s.onMbx id g).cal = s.cal := rfl
@[simp] theorem onMbx_fw (s : State) (id : Nat) (g : MbxEnd → MbxEnd) : (s.onMbx id g).fw = s.fw := rfl
@[simp] theorem onMbx_pins (s : State) (id : Nat) (g : MbxEnd → MbxEnd) : (s.onMbx id g).pins = s.pins := rfl
@[simp] theorem onMbx_free (s : State) (id : Nat) (g : MbxEnd → MbxEnd) : (s.onMbx id g).free = s.free := rfl

/-! ### Reads after writes -/

/-- A field just written reads as the value, cut to its width. -/
@[simp] theorem fget_fset_same (s : State) (f : Fld) (i v : Nat) : (s.fset f i v).fget f i = v % 2 ^ f.w :=
  Tab.get_put_same _ _ _ _

/-- Any other field keeps its value. -/
theorem fget_fset_ne (s : State) {f g : Fld} {i j : Nat} (h : g.key j ≠ f.key i) (v : Nat) :
    (s.fset f i v).fget g j = s.fget g j :=
  Tab.get_put_ne' _ _ h _ _

/-- A field just latched has its written value in force. -/
@[simp] theorem eget_latch_same (s : State) (f : Fld) (i : Nat) : (s.latch f i).eget f i = s.fget f i :=
  Tab.get_put_same _ _ _ _

theorem eget_latch_ne (s : State) {f g : Fld} {i j : Nat} (h : g.key j ≠ f.key i) :
    (s.latch f i).eget g j = s.eget g j :=
  Tab.get_put_ne' _ _ h _ _

@[simp] theorem port_setPort_same (s : State) (p : Nat) (h : PortHw) : (s.setPort p h).port p = h :=
  Tab.get_put_same _ _ _ _

theorem port_setPort_ne (s : State) {p q : Nat} (n : q ≠ p) (h : PortHw) :
    (s.setPort p h).port q = s.port q :=
  Tab.get_put_ne _ n _ _

@[simp] theorem quad_onQuad_same (s : State) (q : Nat) (g : QuadHw → QuadHw) :
    (s.onQuad q g).quad q = g (s.quad q) :=
  Tab.get_put_same _ _ _ _

theorem quad_onQuad_ne (s : State) {p q : Nat} (n : q ≠ p) (g : QuadHw → QuadHw) :
    (s.onQuad p g).quad q = s.quad q :=
  Tab.get_put_ne _ n _ _

@[simp] theorem engine_onEngine_same (s : State) (e : Nat) (g : Engine → Engine) :
    (s.onEngine e g).engine e = g (s.engine e) :=
  Tab.get_put_same _ _ _ _

theorem onEngine_onEngine (s : State) (e : Nat) (f g : Engine → Engine) :
    (s.onEngine e f).onEngine e g = s.onEngine e fun h => g (f h) := by
  simp only [onEngine, engine, Tab.get_put_same, Tab.put_put]

theorem engine_onEngine_ne (s : State) {d e : Nat} (n : d ≠ e) (g : Engine → Engine) :
    (s.onEngine e g).engine d = s.engine d :=
  Tab.get_put_ne' _ _ n _ _

@[simp] theorem mbxEnd_onMbx_same (s : State) (id : Nat) (g : MbxEnd → MbxEnd) :
    (s.onMbx id g).mbxEnd id = g (s.mbxEnd id) :=
  Tab.get_put_same _ _ _ _

theorem mbxEnd_onMbx_ne (s : State) {i j : Nat} (n : j ≠ i) (g : MbxEnd → MbxEnd) :
    (s.onMbx i g).mbxEnd j = s.mbxEnd j :=
  Tab.get_put_ne _ n _ _

/-! ### Memory -/

/-- A read of the byte just written gives it. -/
@[simp] theorem memGet_memPut_same (s : State) (m off : Nat) (b : Byte) :
    (s.memPut m off b).memGet m off = b :=
  Tab.get_put_same _ _ _ _

/-- A write leaves every other byte of every memory alone. -/
theorem memGet_memPut_ne (s : State) {m n off k : Nat} (h : memKey n k ≠ memKey m off) (b : Byte) :
    (s.memPut m off b).memGet n k = s.memGet n k :=
  Tab.get_put_ne _ h _ _

@[simp] theorem flashGet_flashPut_same (s : State) (a : Nat) (b : Byte) : (s.flashPut a b).flashGet a = b :=
  Tab.get_put_same _ _ _ _

theorem flashGet_flashPut_ne (s : State) {a c : Nat} (h : c ≠ a) (b : Byte) :
    (s.flashPut a b).flashGet c = s.flashGet c :=
  Tab.get_put_ne _ h _ _

/-- A byte outside a run of bytes written keeps its value. -/
theorem memGet_memWrite_out (s : State) {m n off k : Nat} (l : List Byte)
    (h : ∀ j, j < l.length → memKey n k ≠ memKey m (off + j)) :
    (s.memWrite m off l).memGet n k = s.memGet n k := by
  induction l generalizing s off with
  | nil => rfl
  | cons b t ih =>
    have h0 := h 0 (by simp)
    have ht : ∀ j, j < t.length → memKey n k ≠ memKey m (off + 1 + j) := fun j hj => by
      have := h (j + 1) (by simpa using hj)
      rwa [show off + (j + 1) = off + 1 + j by omega] at this
    exact (ih _ ht).trans (memGet_memPut_ne s (by simpa using h0) b)

end Sys2Proof.Machine.State
end

