-- ==== Sys2Proof/Laws/Host.lean ====
section
/-!
SUPPORT. What a served host command comes to: its own body on the state in which its packet has left the
queue, and how the list of checks is judged. A proof about a host row cites these and unfolds only the body.
-/
namespace Sys2Proof.Machine.State

/-- A served command is its body's effect. -/
theorem hostRow_served {op : Nat} {tag : Byte} {ps : List Byte} {s u : State} (h : Served op tag ps s u)
    (body : Byte → List Byte → State → State) : hostRow op body tag ps s = .next (body tag ps u) := by
  obtain ⟨hb, hw, hf, rfl, hl⟩ := h
  unfold packetOf at hw hf hl
  simp [hostRow, interpret, packetOf, hb, hw, hf, hl]

/-- A packet that waits and does not yet stand next waits on. -/
theorem hostRow_waits {op : Nat} {tag : Byte} {ps : List Byte} {s : State}
    (hw : s.waits (packetOf op tag ps) = true) (hf : s.upNext (packetOf op tag ps) = false)
    (body : Byte → List Byte → State → State) : hostRow op body tag ps s = .next s := by
  unfold packetOf at hw hf
  simp [hostRow, hw, hf]

/-- A packet that does not wait is received at the front end. -/
theorem hostRow_received {op : Nat} {tag : Byte} {ps : List Byte} {s : State} (hb : s.booted = true)
    (hw : s.waits (packetOf op tag ps) = false) (body : Byte → List Byte → State → State) :
    hostRow op body tag ps s = .next (s.frontEnd (packetOf op tag ps) 0) := by
  unfold packetOf at hw
  simp [hostRow, packetOf, hb, hw]

@[simp] theorem judge_nil (s : State) (op : Nat) (tag : Byte) (go : State → State) :
    s.judge op tag [] go = go s := rfl

theorem judge_cons (s : State) (op : Nat) (tag : Byte) (c : Bool) (st : Nat) (l : List (Bool × Nat))
    (go : State → State) :
    s.judge op tag ((c, st) :: l) go = if c then s.reply op tag st else s.judge op tag l go := by
  unfold judge
  cases c <;> rfl

/-- A check that holds refuses the command. -/
theorem judge_refused {c : Bool} (hc : c = true) (s : State) (op : Nat) (tag : Byte) (st : Nat)
    (l : List (Bool × Nat)) (go : State → State) :
    s.judge op tag ((c, st) :: l) go = s.reply op tag st := by
  rw [judge_cons, hc]; rfl

/-- A check that does not hold is passed. -/
theorem judge_passed {c : Bool} (hc : c = false) (s : State) (op : Nat) (tag : Byte) (st : Nat)
    (l : List (Bool × Nat)) (go : State → State) :
    s.judge op tag ((c, st) :: l) go = s.judge op tag l go := by
  rw [judge_cons, hc]; rfl

end Sys2Proof.Machine.State
end

