-- ==== Sys2Proof/Laws/Isa.lean ====
section
/-!
SUPPORT. What issuing a word comes to where the engine is ready for it: the word's own execution, then its
end. A proof about a Swesil-8 row cites these and unfolds only the word's execution.
-/
namespace Sys2Proof.Machine.State

variable {s : State} {e : Nat} {w : IWord}

theorem takeIrq_quiet (h : s.irqDue e = false) : s.takeIrq e = s := by
  simp [takeIrq, State.when, h]

/-- Issuing a word that the engine is ready for is its execution, settled. -/
theorem issue_ready (h : Ready s e w) : s.issue e w = s.settle e (s.engine e).pc (s.runWord e w) := by
  have hp : ¬ bankWords e ≤ (s.engine e).pc := Nat.not_le.2 h.inBank
  simp [issue, atIssue, takeIrq_quiet h.quiet, h.runs, hp]

/-- A long word that the engine is ready for. -/
theorem issue_long {l : Long} (h : Ready s e (.long l)) : s.issue e (.long l) =
    s.settle e (s.engine e).pc ((s.onEngine e (Engine.began (IWord.long l).loads)).longWord e (s.engine e) l) := by
  rw [issue_ready h]
  simp only [runWord, h.legal, Bool.not_true, Bool.false_eq_true, if_false]
  rfl

/-- A paired word that the engine is ready for. -/
theorem issue_pair {a b : Short} (h : Ready s e (.pair a b)) : s.issue e (.pair a b) =
    s.settle e (s.engine e).pc ((s.onEngine e (Engine.began (IWord.pair a b).loads)).pairWord e (s.engine e) a b
      (encodeWord (.pair a b) % 65536)) := by
  rw [issue_ready h]
  simp only [runWord, h.legal, Bool.not_true, Bool.false_eq_true, if_false]
  rfl

theorem land_run (g : Engine) (d : List (Nat × Nat × Bool)) : (g.land d).run = g.run := rfl

/-- The values of the word before land, and the cycles count. -/
theorem retire_running {t : State} (hr : (t.engine e).run = .running) (g : Engine) (n : Nat) :
    t.retire e n g.delay = t.onEngine e (Engine.ended n g) := by
  have h1 : (t.engine e).run ≠ .held := by rw [hr]; decide
  simp only [retire, State.when, decide_eq_true h1, if_true, spend, onEngine_onEngine]
  rfl

/-- The end of an executed word in a state whose engine still runs. -/
theorem settle_done {t : State} {n : Nat} (hr : (t.engine e).run = .running) (a : Nat) :
    s.settle e a (.done t false n) =
      t.onEngine e fun g => (Engine.ended n (s.engine e) g).finish a := by
  have h2 : ((t.onEngine e (Engine.ended n (s.engine e))).engine e).run = .running := by
    rw [engine_onEngine_same]; exact hr
  simp only [settle, retire_running hr, finishWord, State.when, h2, Bool.not_false, decide_true, Bool.and_true,
    if_true, onEngine_onEngine]

/-- The end of a word that has set the pc, in a state whose engine still runs. -/
theorem settle_taken {t : State} {n : Nat} (hr : (t.engine e).run = .running) (a : Nat) :
    s.settle e a (.done t true n) = t.onEngine e (Engine.ended n (s.engine e)) := by
  simp only [settle, retire_running hr, finishWord, State.when, Bool.not_true, Bool.false_and,
    Bool.false_eq_true, if_false]

/-- A word that changes only its engine, by `f`, and transfers no control. -/
theorem settle_ran {n : Nat} {ld : Bool} {f : Engine → Engine} (hr : (s.engine e).run = .running)
    (hf : ∀ g : Engine, (f g).run = g.run) :
    s.settle e (s.engine e).pc (.done ((s.onEngine e (Engine.began ld)).onEngine e f) false n) =
      s.onEngine e (Engine.ran ld n f) := by
  rw [settle_done (by simp [hf, Engine.began, hr]), onEngine_onEngine, onEngine_onEngine]
  simp only [onEngine]
  rfl

/-- A word that changes only its engine, by `f`, and goes to the word at `a`. -/
theorem settle_jumped {n a : Nat} {f : Engine → Engine} (hr : (s.engine e).run = .running)
    (hf : ∀ g : Engine, (f g).run = g.run) :
    s.settle e (s.engine e).pc (.done (((s.onEngine e (Engine.began false)).onEngine e f).onEngine e
      fun g => { g with pc := a % 65536 }) true n) = s.onEngine e (Engine.jumped n a f) := by
  rw [settle_taken (by simp [hf, Engine.began, hr]), onEngine_onEngine, onEngine_onEngine, onEngine_onEngine]
  simp only [onEngine]
  rfl

/-! ### Results of short and immediate operations -/

@[simp] theorem setReg_run (g : Engine) (r v : Nat) : (g.setReg r v).run = g.run := by
  unfold Engine.setReg
  cases g.fileKey r with
  | some k => rfl
  | none =>
    dsimp only
    split_ifs <;> first | rfl | (unfold Engine.onTop; split <;> rfl)

@[simp] theorem setFlags_run (g : Engine) (m v : Nat) : (g.setFlags m v).run = g.run := rfl

@[simp] theorem setPtr_run (g : Engine) (k v : Nat) : (g.setPtr k v).run = g.run := rfl

@[simp] theorem result_run (g : Engine) (d : Option (BitVec 5)) (o : AluOut) :
    (Engine.result d o g).run = g.run := by
  unfold Engine.result
  cases d <;> simp

theorem setFlags_zero (g : Engine) (v : Nat) : g.setFlags 0 v = g := by
  simp [Engine.setFlags]

/-- An operation's end where its destination is not FLG, or it sets no flags. -/
theorem writeOut_some {t : State} {d : BitVec 5} {o : AluOut} (h : d ≠ 25 ∨ o.mask = 0) :
    t.writeOut e (some d) o true = t.onEngine e (Engine.result (some d) o) := by
  unfold writeOut Engine.result
  by_cases hm : o.mask = 0
  · simp only [hm, setFlags_zero, Bool.not_true, Bool.false_eq_true, false_or, if_true]
  · have hd : some d ≠ some (25#5) := fun hc => h.elim (fun h => h (Option.some.inj hc)) hm
    simp only [hm, hd, Bool.not_true, Bool.false_eq_true, or_self, if_false, onEngine_onEngine]

/-- Flags alone. -/
theorem writeOut_none {t : State} {o : AluOut} (h : o.mask ≠ 0) :
    t.writeOut e none o true = t.onEngine e (Engine.result none o) := by
  unfold writeOut Engine.result
  simp only [h, Bool.not_true, Bool.false_eq_true, or_self, if_false, reduceCtorEq]

/-- A register written, no flags. -/
theorem writeOut_plain {t : State} (d : BitVec 5) (v : Nat) :
    t.writeOut e (some d) ⟨v, 0, 0⟩ true = t.onEngine e fun g => g.setReg d.toNat v := by
  simp only [writeOut, Bool.not_true, Bool.false_eq_true, false_or, if_true]

/-- A short operation beside a NOP that changes only its engine, by `f`. -/
theorem short_alone {a : Slot} {op : Short} {f : Engine → Engine} (ha : Alone a)
    (hr : Ready s e (slotWord a op)) (hf : ∀ g : Engine, (f g).run = g.run) (hb : op.onlyB = false)
    (hl : (IWord.pair op .nop).loads = false)
    (h : ∀ t : State, t.shortData e (s.engine e) true op = .ok (0, t.onEngine e f)) :
    s.issue e (slotWord a op) = s.ran e f := by
  obtain ⟨inA, other⟩ := a
  have hl' : (IWord.pair .nop op).loads = false := by
    cases op <;> first | rfl | cases hl
  unfold Alone at ha
  have hn : ∀ (t : State) (b : Bool), t.shortData e (s.engine e) b .nop = .ok (0, t) := fun _ _ => rfl
  cases inA
  · simp only [slotWord, ha, Bool.false_eq_true, if_false] at hr ⊢
    rw [issue_pair hr, hl']
    simp only [pairWord, hb, Bool.false_eq_true, if_false, hn, Res.of, h, seq]
    exact settle_ran hr.runs hf
  · simp only [slotWord, ha, if_true] at hr ⊢
    rw [issue_pair hr, hl]
    simp only [pairWord, Short.setsFlags, Bool.not_false, h, Res.of, seq, Short.onlyB, Bool.false_eq_true,
      if_false, hn]
    exact settle_ran hr.runs hf

/-- A long operation of `n + 1` cycles that changes only its engine, by `f`. -/
theorem long_ran {l : Long} {n : Nat} {f : Engine → Engine} (hr : Ready s e (.long l))
    (hf : ∀ g : Engine, (f g).run = g.run)
    (h : (s.onEngine e (Engine.began (IWord.long l).loads)).longWord e (s.engine e) l =
      .done ((s.onEngine e (Engine.began (IWord.long l).loads)).onEngine e f) false n) :
    s.issue e (.long l) = s.onEngine e (Engine.ran (IWord.long l).loads n f) := by
  rw [issue_long hr, h]
  exact settle_ran hr.runs hf

/-! ### Control -/

/-- An engine changed to equal engines. -/
theorem onEngine_congr {s : State} {e : Nat} {f g : Engine → Engine} (h : f (s.engine e) = g (s.engine e)) : s.onEngine e f = s.onEngine e g := by simp [onEngine, h]

/-- A branch or SYS operation beside a NOP. -/
theorem short_control {s : State} {e : Nat} {a : Slot} {op : Short} (ha : Alone a) (hb : op.onlyB = true)
    (hr : Ready s e (slotWord a op)) : s.issue e (slotWord a op) = s.settle e (s.engine e).pc
      ((s.onEngine e (Engine.began false)).shortControl e (s.engine e) (encodeWord (.pair .nop op) % 65536) 0 op) := by
  obtain ⟨inA, other⟩ := a
  unfold Alone at ha
  have hl : (IWord.pair .nop op).loads = false := by cases op <;> first | rfl | cases hb
  cases inA
  · simp only [slotWord, ha, Bool.false_eq_true, if_false] at hr ⊢
    rw [issue_pair hr, hl]
    simp only [pairWord, hb, if_true]
    rfl
  · have := hr.legal
    simp only [slotWord, ha, if_true, IWord.legal, pairLegal, hb, Bool.not_true, Bool.and_false, Bool.false_and] at this
    cases this

theorem began_id {ld : Bool} : s.onEngine e (Engine.began ld) = (s.onEngine e (Engine.began ld)).onEngine e id := by
  rw [onEngine_onEngine]; rfl
/-- A word without effect of its own. -/
theorem settle_id {s : State} {e n : Nat} (hr : (s.engine e).run = .running) : s.settle e (s.engine e).pc (.done (s.onEngine e (Engine.began false)) false n) = s.onEngine e (Engine.ran false n id) := by
  rw [began_id]; exact settle_ran hr (fun _ => rfl)
/-- A taken transfer. -/
theorem settle_goTo {s : State} {e n a : Nat} (hr : (s.engine e).run = .running) : s.settle e (s.engine e).pc (goTo (s.onEngine e (Engine.began false)) e a n) = s.onEngine e (Engine.jumped n a id) := by
  rw [began_id]; exact settle_jumped hr (fun _ => rfl)

/-- A slide up without spill. -/
theorem slideUp_free {t : State} {e : Nat} (h : (t.engine e).resg < 16) : t.slideUp e = .ok (false, t.onEngine e Engine.slidUp) := by
  unfold slideUp; simp only [h, if_true]
  refine congrArg (fun x => Except.ok (false, x)) (onEngine_congr rfl)
/-- A slide back without fill. -/
theorem slideDown_free {t : State} {e : Nat} (h : 2 < (t.engine e).resg) : t.slideDown e = .ok (false, t.onEngine e Engine.slidDown) := by
  unfold slideDown; simp only [h, if_true]
  refine congrArg (fun x => Except.ok (false, x)) (onEngine_congr rfl)

/-- A call where a group is free. -/
theorem call_free {s : State} {e t : Nat} (hr : (s.engine e).run = .running) (h : (s.engine e).resg < 16) :
  s.settle e (s.engine e).pc ((s.onEngine e (Engine.began false)).call e t) = s.onEngine e (Engine.jumped 2 t fun h => (h.slidUp.setReg 6 (((s.engine e).pc + 1) % 65536 % 256)).setReg 7 (((s.engine e).pc + 1) % 65536 / 256)) := by
  unfold State.call
  rw [slideUp_free (by simpa [Engine.began] using h)]
  simp only [Res.of, engine_onEngine_same, onEngine_onEngine (f := Engine.slidUp)]
  exact settle_jumped hr (fun g => by simp [Engine.slidUp])

/-- A write to bank 0x00 is a write to the engine's own memory. -/
theorem localWrite_mem {e : Nat} (l : List Byte) : ∀ (t : State) (off : Nat), off + l.length ≤ (if e = 16 then 0x10000 else 0x4000) →
   t.localWrite e off l = .ok (t.memWrite (if e = 16 then 16 else e) off l) := by
  induction l with
  | nil => intros; rfl
  | cons b l ih =>
    intro t off h
    simp only [List.length_cons] at h
    have h1 : off % 65536 = off := Nat.mod_eq_of_lt (by split at h <;> omega)
    unfold localWrite memWrite
    rw [h1]
    have : t.memPlace e 0 off = some (if e = 16 then 16 else e, off) := by
      unfold memPlace; rw [if_pos rfl]
      by_cases h16 : e = 16
      · simp [h16]
      · simp only [h16, if_false] at h ⊢
        rw [if_pos (by omega)]
    rw [this]
    exact ih _ _ (by omega)

theorem memWrite_onEngine (l : List Byte) : ∀ (t : State) (m off e : Nat) (f : Engine → Engine), (t.onEngine e f).memWrite m off l = (t.memWrite m off l).onEngine e f := by
  induction l with
  | nil => intros; rfl
  | cons b l ih => intro t m off e f; exact ih (t.memPut m off b) _ _ _ _
theorem memWrite_engine (l : List Byte) : ∀ (t : State) (m off e : Nat), (t.memWrite m off l).engine e = t.engine e := by
  induction l with
  | nil => intros; rfl
  | cons b l ih => intro t m off e; exact ih (t.memPut m off b) _ _ _

/-- A call that spills. -/
theorem call_spill {s : State} {e : Eng} {t : Nat} (hr : (s.engine e).run = .running) (h : (s.engine e).resg = 16) (hal : spillAligned (s.engine e) = true)
  (hl : (s.engine e).ssp + 8 ≤ (s.engine e).ssl) (hm : (s.engine e).ssp + 8 ≤ (if e.val = 16 then 0x10000 else 0x4000)) :
  s.settle e (s.engine e).pc ((s.onEngine e (Engine.began false)).call e t) = (s.memWrite (if e.val = 16 then 16 else e) (s.engine e).ssp (groupBytes (s.engine e) ((s.engine e).base + 2))).onEngine e (Engine.jumped 4 t fun h => (({h with base := (h.base+1)%16, depth := h.depth+1, ssp := ((s.engine e).ssp+8)%65536}).setReg 6 (((s.engine e).pc + 1) % 65536 % 256)).setReg 7 (((s.engine e).pc + 1) % 65536 / 256)) := by
  unfold State.call
  have : (s.onEngine e (Engine.began false)).slideUp e = .ok (true, ((s.memWrite (if e.val = 16 then 16 else e) (s.engine e).ssp (groupBytes (s.engine e) ((s.engine e).base + 2)))).onEngine e (fun g => {g.began false with base := (g.base+1)%16, resg := 16, ssp := ((s.engine e).ssp + 8)%65536, depth := g.depth + 1})) := by
    unfold slideUp
    have e1 : ((s.onEngine e (Engine.began false)).engine e) = (s.engine e).began false := engine_onEngine_same _ _ _
    simp only [e1]
    rw [if_neg (by show ¬ (s.engine e).resg < 16; omega), if_neg (by show ¬ (!spillAligned (s.engine e)) = true; simp [hal]), if_neg (by show ¬ _ < _ ; show ¬ (s.engine e).ssl < (s.engine e).ssp + 8; omega)]
    have : ∀ g : Engine, groupBytes (g.began false) = groupBytes g := fun _ => rfl
    rw [localWrite_mem _ _ _ (by exact hm)]
    simp only [Except.map, memWrite_onEngine, onEngine_onEngine]
    rfl
  rw [this]
  simp only [Res.of, engine_onEngine_same, onEngine_onEngine]
  unfold goTo
  rw [settle_taken (by simp [memWrite_engine, Engine.began, hr])]
  simp only [onEngine_onEngine]
  refine onEngine_congr ?_
  simp only [memWrite_engine]
  unfold Engine.jumped
  have : (s.engine e).resg = 16 := h
  congr 1
  cases hE : s.engine e
  rw [hE] at this
  simp only at this
  subst this
  rfl

theorem twiceDown {t : State} {e : Nat} (h : 3 < (t.engine e).resg) : twice (·.slideDown e) t = .ok (0, t.onEngine e fun g => g.slidDown.slidDown) := by
  unfold twice
  simp only [slideDown_free (show 2 < _ by omega : 2 < (t.engine e).resg), Except.bind]
  rw [slideDown_free (by rw [engine_onEngine_same]; show 2 < (t.engine e).resg - 1; omega)]
  simp only [Except.map, onEngine_onEngine]; rfl
theorem twiceUp {t : State} {e : Nat} (h : (t.engine e).resg < 15) : twice (·.slideUp e) t = .ok (0, t.onEngine e fun g => g.slidUp.slidUp) := by
  unfold twice
  simp only [slideUp_free (show _ < 16 by omega : (t.engine e).resg < 16), Except.bind]
  rw [slideUp_free (by rw [engine_onEngine_same]; show (t.engine e).resg + 1 < 16; omega)]
  simp only [Except.map, onEngine_onEngine]; rfl

end Sys2Proof.Machine.State
end

