-- ==== Sys2Proof/Laws/Keeps.lean ====
section
/-!
SUPPORT. What no operation of the machine does: it never touches the queue of waiting commands, and it
never takes the tables out of their canonical form. `Keeps s t` says so of a state `t` reached from `s`;
every operation has one lemma `<operation>_keeps` that carries it on.
-/
namespace Sys2Proof.Machine

/-- From `s` to `t` the queue is unchanged, and the tables stay canonical. -/
structure Keeps (s t : State) : Prop where
  queue : t.pending = s.pending
  inv : s.Inv → t.Inv

namespace Keeps

theorem refl (s : State) : Keeps s s := ⟨rfl, id⟩

theorem trans {a b c : State} (h : Keeps a b) (k : Keeps b c) : Keeps a c :=
  ⟨k.queue.trans h.queue, fun i => k.inv (h.inv i)⟩

/-- A state that differs only beyond the queue, memory, flash and the register tables. -/
theorem record {a s : State} (h : Keeps a s) {ports : Tab PortHw} {quads : Tab QuadHw} {weir : WeirHw}
    {log : LogHw} {cnts : Tab CntHw} {wdgs : Tab WdgHw} {host : HostHw} {prof : ProfHw} {boot : BootHw}
    {eddy : EddyHw} {engines : Tab Engine} {mbx : Tab MbxEnd} {locks lockEv : Tab Nat} {otp : OtpHw}
    {pres : PresHw} {pair : PairHw} {jobs : List FlashJob} {cfgVals : Tab Nat} {cfg cal : VerHw}
    {fw : FwHw} {pins : PinHw} {free : Nat} :
    Keeps a ⟨s.pending, s.regs, s.eff, s.mem, s.flash, ports, quads, weir, log, cnts, wdgs, host, prof,
      boot, eddy, engines, mbx, locks, lockEv, otp, pres, pair, jobs, cfgVals, cfg, cal, fw, pins, free⟩ :=
  h.trans ⟨rfl, id⟩

theorem ite {a x y : State} {c : Prop} {_ : Decidable c} (hx : Keeps a x) (hy : Keeps a y) :
    Keeps a (if c then x else y) := by
  split <;> assumption

theorem foldl {α : Type} {a : State} (l : List α) {g : State → α → State} {s : State}
    (h : Keeps a s) (hg : ∀ s x, Keeps a s → Keeps a (g s x)) : Keeps a (l.foldl g s) := by
  induction l generalizing s with
  | nil => exact h
  | cons x l ih => exact ih (hg s x h)

/-- What a partial operation answers, where it answers, is reached so. -/
def optOf {α : Type} (a : State) (f : α → State) (x : Option α) : Prop := ∀ r, x = some r → Keeps a (f r)

/-- A partial operation that answers a state. -/
abbrev opt (a : State) (x : Option State) : Prop := optOf a id x

theorem opt_none {α : Type} {a : State} {f : α → State} : optOf a f none := fun _ h => nomatch h

theorem opt_some {a t : State} (h : Keeps a t) : opt a (some t) := fun _ k => Option.some.inj k ▸ h

theorem optOf_some {α : Type} {a : State} {f : α → State} {r : α} (h : Keeps a (f r)) :
    optOf a f (some r) := fun _ k => Option.some.inj k ▸ h

theorem opt_ite {α : Type} {a : State} {f : α → State} {x y : Option α} {c : Prop} {_ : Decidable c}
    (hx : optOf a f x) (hy : optOf a f y) : optOf a f (if c then x else y) := by
  split <;> assumption

theorem opt_map {α β : Type} {a : State} {f : α → State} {g : β → State} {x : Option α} {k : α → β}
    (hx : optOf a f x) (hk : ∀ r, Keeps a (f r) → Keeps a (g (k r))) : optOf a g (x.map k) := by
  cases x with
  | none => exact opt_none
  | some r => exact optOf_some (hk r (hx r rfl))

theorem opt_bind {α β : Type} {a : State} {f : α → State} {g : β → State} {x : Option α} {k : α → Option β}
    (hx : optOf a f x) (hk : ∀ r, Keeps a (f r) → optOf a g (k r)) : optOf a g (x.bind k) := by
  cases x with
  | none => exact opt_none
  | some r => exact hk r (hx r rfl)

end Keeps

namespace State

variable {a s : State}

theorem fset_keeps (h : Keeps a s) {f : Fld} {i v : Nat} : Keeps a (s.fset f i v) :=
  h.trans ⟨rfl, fun k => ⟨k.1, Tab.rising_put _ _ _ k.2.1, k.2.2⟩⟩

theorem latch_keeps (h : Keeps a s) {f : Fld} {i : Nat} : Keeps a (s.latch f i) :=
  h.trans ⟨rfl, fun k => ⟨k.1, k.2.1, Tab.rising_put _ _ _ k.2.2⟩⟩

theorem when_keeps (h : Keeps a s) {c : Bool} {g : State → State} (hg : ∀ s, Keeps a s → Keeps a (g s)) :
    Keeps a (s.when c g) := by
  unfold State.when
  split
  · exact hg s h
  · exact h

theorem forEach_keeps (h : Keeps a s) {l : List Nat} {g : Nat → State → State}
    (hg : ∀ i s, Keeps a s → Keeps a (g i s)) : Keeps a (s.forEach l g) :=
  Keeps.foldl l h fun s i k => hg i s k

theorem forPorts_keeps (h : Keeps a s) {g : Nat → State → State}
    (hg : ∀ i s, Keeps a s → Keeps a (g i s)) : Keeps a (s.forPorts g) :=
  forEach_keeps h hg

theorem memPut_keeps (h : Keeps a s) {m off : Nat} {b : Byte} : Keeps a (s.memPut m off b) :=
  h.trans ⟨rfl, fun k => ⟨by
    have := k.1
    simp only [Memory.wf, Bool.and_eq_true] at this ⊢
    exact ⟨Tab.wf_put _ _ _ this.1, this.2⟩, k.2⟩⟩

theorem memFilter_keeps (h : Keeps a s) {p : Nat × Byte → Bool} :
    Keeps a { s with mem := s.mem.filter p } :=
  h.trans ⟨rfl, fun k => ⟨by
    have := k.1
    simp only [Memory.wf, Bool.and_eq_true] at this ⊢
    exact ⟨Tab.wf_filter _ p this.1, this.2⟩, k.2⟩⟩

theorem flashPut_keeps (h : Keeps a s) {n : Nat} {b : Byte} : Keeps a (s.flashPut n b) :=
  h.trans ⟨rfl, fun k => ⟨by
    have := k.1
    simp only [Memory.wf, Bool.and_eq_true] at this ⊢
    exact ⟨this.1, Tab.wf_put _ _ _ this.2⟩, k.2⟩⟩

theorem flashErase_keeps (h : Keeps a s) {n m : Nat} : Keeps a (s.flashErase n m) :=
  h.trans ⟨rfl, fun k => ⟨by
    have := k.1
    simp only [Memory.wf, Bool.and_eq_true] at this ⊢
    exact ⟨this.1, Tab.wf_filter _ _ this.2⟩, k.2⟩⟩

theorem memClear_keeps (h : Keeps a s) {m : Nat} : Keeps a (s.memClear m) := memFilter_keeps h

theorem memWrite_keeps (h : Keeps a s) {m : Nat} (l : List Byte) {off : Nat} :
    Keeps a (s.memWrite m off l) := by
  induction l generalizing s off with
  | nil => exact h
  | cons b l ih => exact ih (memPut_keeps h)

theorem flashProgram_keeps (h : Keeps a s) (l : List Byte) {n : Nat} : Keeps a (s.flashProgram n l) := by
  induction l generalizing s n with
  | nil => exact h
  | cons b l ih => exact ih (flashPut_keeps h)

end State
end Sys2Proof.Machine
end

