-- ==== Sys2Proof/Laws/KeepsPower.lean ====
section
/-!
SUPPORT. One lemma `<operation>_keeps` for each operation of the shared operations, the weir and the power path: it leaves the queue of waiting
commands as it was, and the tables in their canonical form.
-/
namespace Sys2Proof.Machine

open State

theorem State.queueEntry_keeps {a s : State} (h : Keeps a s) {v1} : Keeps a (State.queueEntry s v1) := by
  unfold State.queueEntry
  repeat' first
    | with_reducible assumption | with_reducible apply Keeps.ite | with_reducible apply Keeps.foldl
    | intro _ | split | with_reducible apply Keeps.record

theorem State.cntQual_keeps {a s : State} (h : Keeps a s) {v1 v2} : Keeps a (State.cntQual s v1 v2) := by
  unfold State.cntQual
  repeat' first
    | with_reducible assumption | with_reducible apply Keeps.ite | with_reducible apply Keeps.foldl
    | intro _ | split | with_reducible apply Keeps.record

theorem State.cntAdd_keeps {a s : State} (h : Keeps a s) {v1 v2} : Keeps a (State.cntAdd s v1 v2) := by
  unfold State.cntAdd
  repeat' first
    | with_reducible assumption | with_reducible apply fset_keeps

theorem State.cntEvent_keeps {a s : State} (h : Keeps a s) {v1 v2} : Keeps a (State.cntEvent s v1 v2) := by
  unfold State.cntEvent
  repeat' first
    | with_reducible assumption | with_reducible apply forEach_keeps
      | with_reducible apply when_keeps | with_reducible apply cntQual_keeps
      | with_reducible apply cntAdd_keeps | with_reducible apply Keeps.ite
      | with_reducible apply Keeps.foldl
    | intro _

theorem State.hostEvent_keeps {a s : State} (h : Keeps a s) {v1 v2} : Keeps a (State.hostEvent s v1 v2) := by
  unfold State.hostEvent
  repeat' first
    | with_reducible assumption | with_reducible apply queueEntry_keeps
      | with_reducible apply cntEvent_keeps | with_reducible apply Keeps.ite
      | with_reducible apply Keeps.foldl
    | intro _ | split | with_reducible apply Keeps.record

theorem State.portEvent_keeps {a s : State} (h :
    Keeps a s) {v1 v2 v3} : Keeps a (State.portEvent s v1 v2 v3) := by
  unfold State.portEvent
  repeat' first
    | with_reducible assumption | with_reducible apply when_keeps
      | with_reducible apply hostEvent_keeps | with_reducible apply Keeps.ite
      | with_reducible apply Keeps.foldl
    | intro _

theorem State.evMode_keeps {a s : State} (h : Keeps a s) {v1} : Keeps a (State.evMode s v1) := by
  unfold State.evMode
  repeat' first
    | with_reducible assumption | with_reducible apply portEvent_keeps

theorem State.evPair_keeps {a s : State} (h : Keeps a s) : Keeps a (State.evPair s) := by
  unfold State.evPair
  repeat' first
    | with_reducible assumption | with_reducible apply hostEvent_keeps

theorem State.onEngine_keeps {a s : State} (h : Keeps a s) {v1 v2} : Keeps a (State.onEngine s v1 v2) := by
  unfold State.onEngine
  repeat' first
    | with_reducible assumption | with_reducible apply Keeps.ite | with_reducible apply Keeps.foldl
    | intro _ | split | with_reducible apply Keeps.record

theorem State.setPort_keeps {a s : State} (h : Keeps a s) {v1 v2} : Keeps a (State.setPort s v1 v2) := by
  unfold State.setPort
  repeat' first
    | with_reducible assumption | with_reducible apply Keeps.ite | with_reducible apply Keeps.foldl
    | intro _ | split | with_reducible apply Keeps.record

theorem State.onPwr_keeps {a s : State} (h : Keeps a s) {v1 v2} : Keeps a (State.onPwr s v1 v2) := by
  unfold State.onPwr
  repeat' first
    | with_reducible assumption | with_reducible apply setPort_keeps

theorem State.evPower_keeps {a s : State} (h : Keeps a s) {v1} : Keeps a (State.evPower s v1) := by
  unfold State.evPower
  repeat' first
    | with_reducible assumption | with_reducible apply onPwr_keeps
      | with_reducible apply portEvent_keeps

theorem State.latchAll_keeps {a s : State} (h : Keeps a s) {v1 v2} : Keeps a (State.latchAll s v1 v2) := by
  unfold State.latchAll
  repeat' first
    | with_reducible assumption | with_reducible apply latch_keeps | with_reducible apply Keeps.ite
      | with_reducible apply Keeps.foldl
    | intro _

theorem State.evPdLink_keeps {a s : State} (h : Keeps a s) {v1} : Keeps a (State.evPdLink s v1) := by
  unfold State.evPdLink
  repeat' first
    | with_reducible assumption | with_reducible apply portEvent_keeps

theorem State.fbit_keeps {a s : State} (h :
    Keeps a s) {v1 v2 v3 v4} : Keeps a (State.fbit s v1 v2 v3 v4) := by
  unfold State.fbit
  repeat' first
    | with_reducible assumption | with_reducible apply fset_keeps

theorem State.onPd_keeps {a s : State} (h : Keeps a s) {v1 v2} : Keeps a (State.onPd s v1 v2) := by
  unfold State.onPd
  repeat' first
    | with_reducible assumption | with_reducible apply setPort_keeps

theorem State.complete_keeps {a s : State} (h :
    Keeps a s) {v1 v2 v3 v4} : Keeps a (State.complete s v1 v2 v3 v4) := by
  unfold State.complete
  repeat' first
    | with_reducible assumption | with_reducible apply queueEntry_keeps
      | with_reducible apply Keeps.ite | with_reducible apply Keeps.foldl
    | intro _ | split | with_reducible apply Keeps.record

theorem State.onMux_keeps {a s : State} (h : Keeps a s) {v1 v2} : Keeps a (State.onMux s v1 v2) := by
  unfold State.onMux
  repeat' first
    | with_reducible assumption | with_reducible apply setPort_keeps

theorem State.onAdc_keeps {a s : State} (h : Keeps a s) {v1 v2} : Keeps a (State.onAdc s v1 v2) := by
  unfold State.onAdc
  repeat' first
    | with_reducible assumption | with_reducible apply setPort_keeps

theorem State.pwrEv_keeps {a s : State} (h : Keeps a s) {v1 v2} : Keeps a (State.pwrEv s v1 v2) := by
  unfold State.pwrEv
  repeat' first
    | with_reducible assumption | with_reducible apply when_keeps | with_reducible apply fset_keeps
      | with_reducible apply onPwr_keeps | with_reducible apply Keeps.ite
      | with_reducible apply Keeps.foldl
    | intro _

theorem State.onAtt_keeps {a s : State} (h : Keeps a s) {v1 v2} : Keeps a (State.onAtt s v1 v2) := by
  unfold State.onAtt
  repeat' first
    | with_reducible assumption | with_reducible apply setPort_keeps

theorem State.attEv_keeps {a s : State} (h : Keeps a s) {v1 v2} : Keeps a (State.attEv s v1 v2) := by
  unfold State.attEv
  repeat' first
    | with_reducible assumption | with_reducible apply when_keeps | with_reducible apply fset_keeps
      | with_reducible apply onAtt_keeps | with_reducible apply Keeps.ite
      | with_reducible apply Keeps.foldl
    | intro _

theorem State.logFree_keeps {a s : State} (h : Keeps a s) : Keeps a (State.logFree s) := by
  unfold State.logFree
  repeat' first
    | with_reducible assumption | with_reducible apply fset_keeps

theorem State.completeAll_keeps {a s : State} (h :
    Keeps a s) {v1 v2 v3 v4} : Keeps a (State.completeAll s v1 v2 v3 v4) := by
  unfold State.completeAll
  repeat' first
    | with_reducible assumption | with_reducible apply complete_keeps
      | with_reducible apply Keeps.ite | with_reducible apply Keeps.foldl
    | intro _

theorem State.finc_keeps {a s : State} (h : Keeps a s) {v1 v2} : Keeps a (State.finc s v1 v2) := by
  unfold State.finc
  repeat' first
    | with_reducible assumption | with_reducible apply fset_keeps

theorem State.logPush_keeps {a s : State} (h : Keeps a s) {v1} : Keeps a (State.logPush s v1) := by
  unfold State.logPush
  repeat' first
    | with_reducible assumption | with_reducible apply cntEvent_keeps
      | with_reducible apply finc_keeps | with_reducible apply logFree_keeps
      | with_reducible apply Keeps.ite | with_reducible apply Keeps.foldl
    | intro _ | split | with_reducible apply Keeps.record

theorem State.logRec_keeps {a s : State} (h : Keeps a s) {v1 v2 v3} : Keeps a (State.logRec s v1 v2 v3) := by
  unfold State.logRec
  repeat' first
    | with_reducible assumption | with_reducible apply logPush_keeps

theorem State.reply_keeps {a s : State} (h :
    Keeps a s) {v1 v2 v3 v4 v5} : Keeps a (State.reply s v1 v2 v3 v4 v5) := by
  unfold State.reply
  repeat' first
    | with_reducible assumption | with_reducible apply queueEntry_keeps

theorem State.evAttach_keeps {a s : State} (h : Keeps a s) {v1} : Keeps a (State.evAttach s v1) := by
  unfold State.evAttach
  repeat' first
    | with_reducible assumption | with_reducible apply onAtt_keeps
      | with_reducible apply portEvent_keeps

theorem State.onSw_keeps {a s : State} (h : Keeps a s) {v1 v2} : Keeps a (State.onSw s v1 v2) := by
  unfold State.onSw
  repeat' first
    | with_reducible assumption | with_reducible apply setPort_keeps

theorem State.onQuad_keeps {a s : State} (h : Keeps a s) {v1 v2} : Keeps a (State.onQuad s v1 v2) := by
  unfold State.onQuad
  repeat' first
    | with_reducible assumption | with_reducible apply Keeps.ite | with_reducible apply Keeps.foldl
    | intro _ | split | with_reducible apply Keeps.record

theorem State.rput_keeps {a s : State} (h : Keeps a s) {v1 v2 v3} : Keeps a (State.rput s v1 v2 v3) := by
  unfold State.rput
  repeat' first
    | with_reducible assumption | with_reducible apply fset_keeps | with_reducible apply Keeps.ite
      | with_reducible apply Keeps.foldl
    | intro _

theorem State.onReg_keeps {a s : State} (h : Keeps a s) {v1 v2} : Keeps a (State.onReg s v1 v2) := by
  unfold State.onReg
  repeat' first
    | with_reducible assumption | with_reducible apply setPort_keeps

theorem State.evContract_keeps {a s : State} (h : Keeps a s) {v1} : Keeps a (State.evContract s v1) := by
  unfold State.evContract
  repeat' first
    | with_reducible assumption | with_reducible apply portEvent_keeps

theorem State.draw_keeps {a s : State} (h : Keeps a s) {v1} : Keeps a (State.draw s v1).2 := by
  unfold State.draw
  repeat' first
    | with_reducible assumption | with_reducible apply Keeps.ite | with_reducible apply Keeps.foldl
    | intro _ | split | with_reducible apply Keeps.record

theorem State.evQuad_keeps {a s : State} (h : Keeps a s) {v1} : Keeps a (State.evQuad s v1) := by
  unfold State.evQuad
  repeat' first
    | with_reducible assumption | with_reducible apply hostEvent_keeps

theorem State.openCmd_keeps {a s : State} (h :
    Keeps a s) {v1 v2 v3} : Keeps a (State.openCmd s v1 v2 v3) := by
  unfold State.openCmd
  repeat' first
    | with_reducible assumption | with_reducible apply Keeps.ite | with_reducible apply Keeps.foldl
    | intro _ | split | with_reducible apply Keeps.record

theorem State.refreshFault_keeps {a s : State} (h : Keeps a s) : Keeps a (State.refreshFault s) := by
  unfold State.refreshFault
  repeat' first
    | with_reducible assumption | with_reducible apply fset_keeps | with_reducible apply Keeps.ite

theorem State.faultAssert_keeps {a s : State} (h : Keeps a s) {v1} : Keeps a (State.faultAssert s v1) := by
  unfold State.faultAssert
  repeat' first
    | with_reducible assumption | with_reducible apply refreshFault_keeps
      | with_reducible apply fset_keeps | with_reducible apply Keeps.ite
      | with_reducible apply Keeps.foldl
    | intro _ | split | with_reducible apply Keeps.record

theorem State.profileAt_keeps {a s : State} (h : Keeps a s) {v1 v2} : Keeps a (State.profileAt s v1 v2) := by
  unfold State.profileAt
  repeat' first
    | with_reducible assumption | with_reducible apply Keeps.ite | with_reducible apply Keeps.foldl
    | intro _ | split | with_reducible apply Keeps.record

theorem State.wakeToFlood_keeps {a s : State} (h : Keeps a s) : Keeps a (State.wakeToFlood s) := by
  unfold State.wakeToFlood
  repeat' first
    | with_reducible assumption | with_reducible apply when_keeps
      | with_reducible apply profileAt_keeps | with_reducible apply Keeps.ite
      | with_reducible apply Keeps.foldl
    | intro _ | split | with_reducible apply Keeps.record

theorem State.openVconn_keeps {a s : State} (h : Keeps a s) {v1} : Keeps a (State.openVconn s v1) := by
  unfold State.openVconn
  repeat' first
    | with_reducible assumption | with_reducible apply fset_keeps

theorem State.clearPg_keeps {a s : State} (h : Keeps a s) {v1} : Keeps a (State.clearPg s v1) := by
  unfold State.clearPg
  repeat' first
    | with_reducible assumption | with_reducible apply fset_keeps | with_reducible apply when_keeps
      | with_reducible apply pwrEv_keeps | with_reducible apply Keeps.ite
      | with_reducible apply Keeps.foldl
    | intro _

theorem State.setDis_keeps {a s : State} (h : Keeps a s) {v1} : Keeps a (State.setDis s v1) := by
  unfold State.setDis
  repeat' first
    | with_reducible assumption | with_reducible apply fset_keeps

theorem State.setPwr_keeps {a s : State} (h : Keeps a s) {v1 v2} : Keeps a (State.setPwr s v1 v2) := by
  unfold State.setPwr
  repeat' first
    | with_reducible assumption | with_reducible apply when_keeps | with_reducible apply pwrEv_keeps
      | with_reducible apply clearPg_keeps | with_reducible apply onPwr_keeps
      | with_reducible apply fset_keeps | with_reducible apply setDis_keeps
      | with_reducible apply Keeps.ite | with_reducible apply Keeps.foldl
    | intro _

theorem State.toShadow_keeps {a s : State} (h : Keeps a s) {v1} : Keeps a (State.toShadow s v1) := by
  unfold State.toShadow
  repeat' first
    | with_reducible assumption | with_reducible apply fset_keeps
      | with_reducible apply openVconn_keeps | with_reducible apply setPwr_keeps
      | with_reducible apply setPort_keeps

theorem State.setReact_keeps {a s : State} (h : Keeps a s) {v1 v2} : Keeps a (State.setReact s v1 v2) := by
  unfold State.setReact
  repeat' first
    | with_reducible assumption | with_reducible apply Keeps.ite | with_reducible apply Keeps.foldl
    | intro _ | split | with_reducible apply Keeps.record

theorem State.dropUrgent_keeps {a s : State} (h :
    Keeps a s) {v1 v2} : Keeps a (State.dropUrgent s v1 v2) := by
  unfold State.dropUrgent
  repeat' first
    | with_reducible assumption | with_reducible apply reply_keeps | with_reducible apply Keeps.ite
      | with_reducible apply Keeps.foldl
    | intro _ | split | with_reducible apply Keeps.record

theorem State.closeCommands_keeps {a s : State} (h :
    Keeps a s) {v1} : Keeps a (State.closeCommands s v1) := by
  unfold State.closeCommands
  repeat' first
    | with_reducible assumption | with_reducible apply dropUrgent_keeps
      | with_reducible apply when_keeps | with_reducible apply complete_keeps
      | with_reducible apply reply_keeps | with_reducible apply Keeps.ite
      | with_reducible apply Keeps.foldl
    | intro _ | split | with_reducible apply Keeps.record

theorem State.dropPorts_keeps {a s : State} (h : Keeps a s) {v1} : Keeps a (State.dropPorts s v1) := by
  unfold State.dropPorts
  repeat' first
    | with_reducible assumption | with_reducible apply forPorts_keeps
      | with_reducible apply when_keeps | with_reducible apply toShadow_keeps
      | with_reducible apply closeCommands_keeps | with_reducible apply Keeps.ite
      | with_reducible apply Keeps.foldl
    | intro _

theorem State.releaseNow_keeps {a s : State} (h : Keeps a s) : Keeps a (State.releaseNow s) := by
  unfold State.releaseNow
  repeat' first
    | with_reducible assumption | with_reducible apply dropPorts_keeps
      | with_reducible apply Keeps.ite | with_reducible apply Keeps.foldl
    | intro _ | split | with_reducible apply Keeps.record

theorem State.endDefer_keeps {a s : State} (h : Keeps a s) {v1 v2} : Keeps a (State.endDefer s v1 v2) := by
  unfold State.endDefer
  repeat' first
    | with_reducible assumption | with_reducible apply complete_keeps
      | with_reducible apply onPwr_keeps | with_reducible apply fset_keeps
      | with_reducible apply Keeps.ite | with_reducible apply Keeps.foldl
    | intro _ | split

theorem State.enterTripped_keeps {a s : State} (h :
    Keeps a s) {v1 v2} : Keeps a (State.enterTripped s v1 v2) := by
  unfold State.enterTripped
  repeat' first
    | with_reducible assumption | with_reducible apply when_keeps | with_reducible apply fset_keeps
      | with_reducible apply pwrEv_keeps | with_reducible apply setPwr_keeps
      | with_reducible apply onPwr_keeps | with_reducible apply setDis_keeps
      | with_reducible apply logRec_keeps | with_reducible apply endDefer_keeps
      | with_reducible apply Keeps.ite | with_reducible apply Keeps.foldl
    | intro _

theorem State.portSafe_keeps {a s : State} (h : Keeps a s) {v1} : Keeps a (State.portSafe s v1) := by
  unfold State.portSafe
  repeat' first
    | with_reducible assumption | with_reducible apply fset_keeps | with_reducible apply when_keeps
      | with_reducible apply openVconn_keeps | with_reducible apply enterTripped_keeps
      | with_reducible apply Keeps.ite | with_reducible apply Keeps.foldl
    | intro _

theorem State.releaseOrSafe_keeps {a s : State} (h : Keeps a s) : Keeps a (State.releaseOrSafe s) := by
  unfold State.releaseOrSafe
  repeat' first
    | with_reducible assumption | with_reducible apply releaseNow_keeps
      | with_reducible apply forPorts_keeps | with_reducible apply when_keeps
      | with_reducible apply portSafe_keeps | with_reducible apply Keeps.ite
      | with_reducible apply Keeps.foldl
    | intro _

theorem State.reactUnit3_keeps {a s : State} (h : Keeps a s) : Keeps a (State.reactUnit3 s) := by
  unfold State.reactUnit3
  repeat' first
    | with_reducible assumption | with_reducible apply setReact_keeps
      | with_reducible apply fset_keeps | with_reducible apply forPorts_keeps
      | with_reducible apply when_keeps | with_reducible apply refreshFault_keeps
      | with_reducible apply releaseOrSafe_keeps | with_reducible apply Keeps.ite
      | with_reducible apply Keeps.foldl
    | intro _ | split | with_reducible apply Keeps.record

theorem State.setOwn_keeps {a s : State} (h : Keeps a s) {v1 v2 v3} : Keeps a (State.setOwn s v1 v2 v3) := by
  unfold State.setOwn
  repeat' first
    | with_reducible assumption | with_reducible apply logRec_keeps
      | with_reducible apply fset_keeps | with_reducible apply Keeps.ite
      | with_reducible apply Keeps.foldl
    | intro _ | split | with_reducible apply Keeps.record

theorem State.releasePorts_keeps {a s : State} (h :
    Keeps a s) {v1 v2 v3} : Keeps a (State.releasePorts s v1 v2 v3) := by
  unfold State.releasePorts
  repeat' first
    | with_reducible assumption | with_reducible apply setOwn_keeps
      | with_reducible apply dropPorts_keeps

theorem State.reactPort_keeps {a s : State} (h : Keeps a s) {v1} : Keeps a (State.reactPort s v1) := by
  unfold State.reactPort
  repeat' first
    | with_reducible assumption | with_reducible apply setReact_keeps
      | with_reducible apply portSafe_keeps | with_reducible apply Keeps.ite

theorem State.reactUnit2_keeps {a s : State} (h : Keeps a s) : Keeps a (State.reactUnit2 s) := by
  unfold State.reactUnit2
  repeat' first
    | with_reducible assumption | with_reducible apply setReact_keeps
      | with_reducible apply fset_keeps | with_reducible apply forPorts_keeps
      | with_reducible apply releaseOrSafe_keeps | with_reducible apply Keeps.ite
      | with_reducible apply Keeps.foldl
    | intro _ | split

theorem State.reactTo_keeps {a s : State} (h :
    Keeps a s) {v1 v2 v3} : Keeps a (State.reactTo s v1 v2 v3) := by
  unfold State.reactTo
  repeat' first
    | with_reducible assumption | with_reducible apply when_keeps
      | with_reducible apply forEach_keeps | with_reducible apply reactPort_keeps
      | with_reducible apply reactUnit2_keeps | with_reducible apply reactUnit3_keeps
      | with_reducible apply wakeToFlood_keeps | with_reducible apply Keeps.ite
      | with_reducible apply Keeps.foldl
    | intro _ | split | with_reducible apply Keeps.record

theorem State.severe_keeps {a s : State} (h : Keeps a s) {v1 v2 v3} : Keeps a (State.severe s v1 v2 v3) := by
  unfold State.severe
  repeat' first
    | with_reducible assumption | with_reducible apply fbit_keeps
      | with_reducible apply cntEvent_keeps | with_reducible apply when_keeps
      | with_reducible apply logRec_keeps | with_reducible apply reactTo_keeps
      | with_reducible apply hostEvent_keeps | with_reducible apply faultAssert_keeps
      | with_reducible apply Keeps.ite | with_reducible apply Keeps.foldl
    | intro _

theorem State.onIdx_keeps {a s : State} (h : Keeps a s) {v1 v2 v3} : Keeps a (State.onIdx s v1 v2 v3) := by
  unfold State.onIdx
  repeat' first
    | with_reducible assumption | with_reducible apply Keeps.ite | with_reducible apply Keeps.foldl
    | intro _ | split | with_reducible apply Keeps.record

theorem State.weirEvent_keeps {a s : State} (h : Keeps a s) {v1 v2} : Keeps a (State.weirEvent s v1 v2) := by
  unfold State.weirEvent
  repeat' first
    | with_reducible assumption | with_reducible apply fbit_keeps
      | with_reducible apply cntEvent_keeps | with_reducible apply severe_keeps
      | with_reducible apply onIdx_keeps | with_reducible apply Keeps.ite

theorem State.unitSource_keeps {a s : State} (h : Keeps a s) {v1} : Keeps a (State.unitSource s v1) := by
  unfold State.unitSource
  repeat' first
    | with_reducible assumption | with_reducible apply weirEvent_keeps

theorem State.eccUncorrectable_keeps {a s : State} (h :
    Keeps a s) {v1 v2} : Keeps a (State.eccUncorrectable s v1 v2) := by
  unfold State.eccUncorrectable
  repeat' first
    | with_reducible assumption | with_reducible apply fset_keeps
      | with_reducible apply unitSource_keeps

theorem State.flashReader_keeps {a s : State} (h : Keeps a s) {x n : Nat} {bad ok : State → State}
    (hb : ∀ s, Keeps a s → Keeps a (bad s)) (ho : ∀ s, Keeps a s → Keeps a (ok s)) :
    Keeps a (State.flashReader s x n bad ok) := by
  unfold State.flashReader
  split
  · exact hb _ (State.eccUncorrectable_keeps h)
  · exact ho _ h

theorem State.dropGone_keeps {a s : State} (h : Keeps a s) : Keeps a (State.dropGone s) := by
  unfold State.dropGone
  repeat' first
    | with_reducible assumption | with_reducible apply setOwn_keeps | with_reducible apply Keeps.ite
      | with_reducible apply Keeps.foldl
    | intro _ | split | with_reducible apply Keeps.record

theorem State.portSource_keeps {a s : State} (h :
    Keeps a s) {v1 v2} : Keeps a (State.portSource s v1 v2) := by
  unfold State.portSource
  repeat' first
    | with_reducible assumption | with_reducible apply weirEvent_keeps

theorem State.eccCorrected_keeps {a s : State} (h :
    Keeps a s) {v1 v2} : Keeps a (State.eccCorrected s v1 v2) := by
  unfold State.eccCorrected
  repeat' first
    | with_reducible assumption | with_reducible apply fset_keeps
      | with_reducible apply unitSource_keeps | with_reducible apply cntEvent_keeps
      | with_reducible apply Keeps.ite

theorem State.weirCond_keeps {a s : State} (h :
    Keeps a s) {v1 v2 v3} : Keeps a (State.weirCond s v1 v2 v3) := by
  unfold State.weirCond
  repeat' first
    | with_reducible assumption | with_reducible apply onIdx_keeps | with_reducible apply when_keeps
      | with_reducible apply weirEvent_keeps | with_reducible apply Keeps.ite
      | with_reducible apply Keeps.foldl
    | intro _

theorem State.tripService_keeps {a s : State} (h : Keeps a s) {v1} : Keeps a (State.tripService s v1) := by
  unfold State.tripService
  repeat' first
    | with_reducible assumption | with_reducible apply when_keeps | with_reducible apply fset_keeps
      | with_reducible apply evPower_keeps | with_reducible apply onAtt_keeps
      | with_reducible apply onPwr_keeps | with_reducible apply Keeps.ite
      | with_reducible apply Keeps.foldl
    | intro _

theorem State.enableOff_keeps {a s : State} (h : Keeps a s) {v1} : Keeps a (State.enableOff s v1) := by
  unfold State.enableOff
  repeat' first
    | with_reducible assumption | with_reducible apply when_keeps | with_reducible apply onPwr_keeps
      | with_reducible apply fset_keeps | with_reducible apply Keeps.ite
      | with_reducible apply Keeps.foldl
    | intro _

theorem State.leaveTripped_keeps {a s : State} (h : Keeps a s) {v1} : Keeps a (State.leaveTripped s v1) := by
  unfold State.leaveTripped
  repeat' first
    | with_reducible assumption | with_reducible apply setPwr_keeps
      | with_reducible apply fset_keeps | with_reducible apply Keeps.ite

theorem State.regPost_keeps {a s : State} (h : Keeps a s) {v1 v2} : Keeps a (State.regPost s v1 v2) := by
  unfold State.regPost
  repeat' first
    | with_reducible assumption | with_reducible apply when_keeps | with_reducible apply onReg_keeps
      | with_reducible apply Keeps.ite | with_reducible apply Keeps.foldl
    | intro _

theorem State.pmWrite_keeps {a s : State} (h : Keeps a s) {v1 v2} : Keeps a (State.pmWrite s v1 v2) := by
  unfold State.pmWrite
  repeat' first
    | with_reducible assumption | with_reducible apply when_keeps
      | with_reducible apply regPost_keeps | with_reducible apply onReg_keeps
      | with_reducible apply Keeps.ite | with_reducible apply Keeps.foldl
    | intro _

theorem State.operation_keeps {a s : State} (h : Keeps a s) {v1 v2} : Keeps a (State.operation s v1 v2) := by
  unfold State.operation
  repeat' first
    | with_reducible assumption | with_reducible apply pmWrite_keeps

theorem State.trip_keeps {a s : State} (h :
    Keeps a s) {v1 v2 v3 v4} : Keeps a (State.trip s v1 v2 v3 v4) := by
  unfold State.trip
  repeat' first
    | with_reducible assumption | with_reducible apply cntEvent_keeps
      | with_reducible apply portSource_keeps | with_reducible apply enterTripped_keeps

theorem State.hardTrip_keeps {a s : State} (h : Keeps a s) {v1} : Keeps a (State.hardTrip s v1) := by
  unfold State.hardTrip
  repeat' first
    | with_reducible assumption | with_reducible apply portSource_keeps
      | with_reducible apply trip_keeps | with_reducible apply Keeps.ite

theorem State.limitEntry_keeps {a s : State} (h : Keeps a s) {v1} : Keeps a (State.limitEntry s v1) := by
  unfold State.limitEntry
  repeat' first
    | with_reducible assumption | with_reducible apply clearPg_keeps
      | with_reducible apply pwrEv_keeps | with_reducible apply fset_keeps
      | with_reducible apply onPwr_keeps | with_reducible apply cntEvent_keeps
      | with_reducible apply Keeps.ite

theorem State.reverseBlock_keeps {a s : State} (h : Keeps a s) {v1} : Keeps a (State.reverseBlock s v1) := by
  unfold State.reverseBlock
  repeat' first
    | with_reducible assumption | with_reducible apply onPwr_keeps
      | with_reducible apply pwrEv_keeps | with_reducible apply setPwr_keeps
      | with_reducible apply fset_keeps | with_reducible apply evPower_keeps
      | with_reducible apply cntEvent_keeps | with_reducible apply portSource_keeps
      | with_reducible apply Keeps.ite

theorem State.overvoltage_keeps {a s : State} (h : Keeps a s) {v1} : Keeps a (State.overvoltage s v1) := by
  unfold State.overvoltage
  repeat' first
    | with_reducible assumption | with_reducible apply trip_keeps | with_reducible apply Keeps.ite

theorem State.cmpOut_keeps {a s : State} (h : Keeps a s) {v1 v2 v3} : Keeps a (State.cmpOut s v1 v2 v3) := by
  unfold State.cmpOut
  repeat' first
    | with_reducible assumption | with_reducible apply cntEvent_keeps
      | with_reducible apply onAdc_keeps | with_reducible apply fbit_keeps
      | with_reducible apply hardTrip_keeps | with_reducible apply limitEntry_keeps
      | with_reducible apply fset_keeps | with_reducible apply reverseBlock_keeps
      | with_reducible apply overvoltage_keeps | with_reducible apply Keeps.ite
      | with_reducible apply Keeps.foldl
    | intro _ | split

theorem State.segGrant_keeps {a s : State} (h : Keeps a s) {v1 v2} : Keeps a (State.segGrant s v1 v2) := by
  unfold State.segGrant
  repeat' first
    | with_reducible assumption | with_reducible apply onReg_keeps | with_reducible apply Keeps.ite
      | with_reducible apply Keeps.foldl
    | intro _ | split

theorem State.closeMean_keeps {a s : State} (h : Keeps a s) {v1} : Keeps a (State.closeMean s v1) := by
  unfold State.closeMean
  repeat' first
    | with_reducible assumption | with_reducible apply onAdc_keeps | with_reducible apply fset_keeps

theorem State.gateWontRise_keeps {a s : State} (h : Keeps a s) {v1} : Keeps a (State.gateWontRise s v1) := by
  unfold State.gateWontRise
  repeat' first
    | with_reducible assumption | with_reducible apply portSource_keeps
      | with_reducible apply enterTripped_keeps | with_reducible apply pwrEv_keeps

theorem State.polesStep_keeps {a s : State} (h : Keeps a s) {v1 v2} : Keeps a (State.polesStep s v1 v2) := by
  unfold State.polesStep
  repeat' first
    | with_reducible assumption | with_reducible apply onPwr_keeps

theorem State.energyStep_keeps {a s : State} (h : Keeps a s) {v1} : Keeps a (State.energyStep s v1) := by
  unfold State.energyStep
  repeat' first
    | with_reducible assumption | with_reducible apply onPwr_keeps
      | with_reducible apply polesStep_keeps | with_reducible apply fset_keeps

theorem State.powerGood_keeps {a s : State} (h : Keeps a s) {v1} : Keeps a (State.powerGood s v1) := by
  unfold State.powerGood
  repeat' first
    | with_reducible assumption | with_reducible apply fset_keeps | with_reducible apply when_keeps
      | with_reducible apply cntEvent_keeps | with_reducible apply pwrEv_keeps
      | with_reducible apply clearPg_keeps | with_reducible apply Keeps.ite
      | with_reducible apply Keeps.foldl
    | intro _

theorem State.regWarn_keeps {a s : State} (h : Keeps a s) {v1 v2} : Keeps a (State.regWarn s v1 v2) := by
  unfold State.regWarn
  repeat' first
    | with_reducible assumption | with_reducible apply when_keeps
      | with_reducible apply evPower_keeps | with_reducible apply pwrEv_keeps
      | with_reducible apply Keeps.ite | with_reducible apply Keeps.foldl
    | intro _

theorem State.writeLim_keeps {a s : State} (h : Keeps a s) {v1 v2} : Keeps a (State.writeLim s v1 v2) := by
  unfold State.writeLim
  repeat' first
    | with_reducible assumption | with_reducible apply fset_keeps | with_reducible apply when_keeps
      | with_reducible apply Keeps.ite | with_reducible apply Keeps.foldl
    | intro _

theorem State.regFault_keeps {a s : State} (h : Keeps a s) {v1} : Keeps a (State.regFault s v1) := by
  unfold State.regFault
  repeat' first
    | with_reducible assumption | with_reducible apply operation_keeps
      | with_reducible apply portSource_keeps | with_reducible apply enterTripped_keeps
      | with_reducible apply pwrEv_keeps

theorem State.closeEnergy_keeps {a s : State} (h : Keeps a s) {v1} : Keeps a (State.closeEnergy s v1) := by
  unfold State.closeEnergy
  repeat' first
    | with_reducible assumption | with_reducible apply onPwr_keeps | with_reducible apply fset_keeps

theorem State.judgeEnergy_keeps {a s : State} (h : Keeps a s) {v1} : Keeps a (State.judgeEnergy s v1) := by
  unfold State.judgeEnergy
  repeat' first
    | with_reducible assumption | with_reducible apply when_keeps
      | with_reducible apply portSource_keeps | with_reducible apply pwrEv_keeps
      | with_reducible apply trip_keeps | with_reducible apply Keeps.ite
      | with_reducible apply Keeps.foldl
    | intro _

theorem State.statusWord_keeps {a s : State} (h :
    Keeps a s) {v1 v2} : Keeps a (State.statusWord s v1 v2) := by
  unfold State.statusWord
  repeat' first
    | with_reducible assumption | with_reducible apply onReg_keeps | with_reducible apply fset_keeps
      | with_reducible apply regWarn_keeps | with_reducible apply when_keeps
      | with_reducible apply regFault_keeps | with_reducible apply Keeps.ite
      | with_reducible apply Keeps.foldl
    | intro _

theorem State.regRetry_keeps {a s : State} (h : Keeps a s) {v1} : Keeps a (State.regRetry s v1) := by
  unfold State.regRetry
  repeat' first
    | with_reducible assumption | with_reducible apply onReg_keeps

theorem State.energyTake_keeps {a s : State} (h :
    Keeps a s) {v1 v2 v3 v4} : Keeps a (State.energyTake s v1 v2 v3 v4) := by
  unfold State.energyTake
  repeat' first
    | with_reducible assumption | with_reducible apply onPwr_keeps
      | with_reducible apply polesStep_keeps | with_reducible apply fset_keeps
      | with_reducible apply Keeps.ite | with_reducible apply Keeps.foldl
    | intro _

theorem State.statusByte_keeps {a s : State} (h :
    Keeps a s) {v1 v2 v3 v4} : Keeps a (State.statusByte s v1 v2 v3 v4) := by
  unfold State.statusByte
  repeat' first
    | with_reducible assumption | with_reducible apply regFault_keeps
      | with_reducible apply regWarn_keeps | with_reducible apply Keeps.ite

theorem State.regDone_keeps {a s : State} (h :
    Keeps a s) {v1 v2 v3} : Keeps a (State.regDone s v1 v2 v3) := by
  unfold State.regDone
  repeat' first
    | with_reducible assumption | with_reducible apply onReg_keeps | with_reducible apply fset_keeps
      | with_reducible apply when_keeps | with_reducible apply regPost_keeps
      | with_reducible apply pmWrite_keeps | with_reducible apply portSource_keeps
      | with_reducible apply pwrEv_keeps | with_reducible apply onPwr_keeps
      | with_reducible apply statusWord_keeps | with_reducible apply statusByte_keeps
      | with_reducible apply Keeps.ite | with_reducible apply Keeps.foldl
    | intro _ | split

theorem State.voutCommand_keeps {a s : State} (h :
    Keeps a s) {v1 v2} : Keeps a (State.voutCommand s v1 v2) := by
  unfold State.voutCommand
  repeat' first
    | with_reducible assumption | with_reducible apply pmWrite_keeps

theorem State.regStart_keeps {a s : State} (h : Keeps a s) {v1} : Keeps a (State.regStart s v1) := by
  unfold State.regStart
  repeat' first
    | with_reducible assumption | with_reducible apply onPwr_keeps
      | with_reducible apply operation_keeps | with_reducible apply voutCommand_keeps
      | with_reducible apply Keeps.ite

theorem State.setWindow_keeps {a s : State} (h :
    Keeps a s) {v1 v2 v3 v4} : Keeps a (State.setWindow s v1 v2 v3 v4) := by
  unfold State.setWindow
  repeat' first
    | with_reducible assumption | with_reducible apply fset_keeps

theorem State.requestOff_keeps {a s : State} (h : Keeps a s) {v1} : Keeps a (State.requestOff s v1) := by
  unfold State.requestOff
  repeat' first
    | with_reducible assumption | with_reducible apply cntEvent_keeps
      | with_reducible apply setPwr_keeps | with_reducible apply Keeps.ite

theorem State.sinkRetry_keeps {a s : State} (h : Keeps a s) {v1} : Keeps a (State.sinkRetry s v1) := by
  unfold State.sinkRetry
  repeat' first
    | with_reducible assumption | with_reducible apply when_keeps | with_reducible apply onPwr_keeps
      | with_reducible apply fset_keeps | with_reducible apply Keeps.ite
      | with_reducible apply Keeps.foldl
    | intro _

theorem State.powerCount_keeps {a s : State} (h :
    Keeps a s) {v1 v2 v3} : Keeps a (State.powerCount s v1 v2 v3) := by
  unfold State.powerCount
  repeat' first
    | with_reducible assumption | with_reducible apply fset_keeps | with_reducible apply onPwr_keeps

theorem State.enterRamp_keeps {a s : State} (h : Keeps a s) {v1} : Keeps a (State.enterRamp s v1) := by
  unfold State.enterRamp
  repeat' first
    | with_reducible assumption | with_reducible apply when_keeps | with_reducible apply fset_keeps
      | with_reducible apply latchAll_keeps | with_reducible apply cntEvent_keeps
      | with_reducible apply setPwr_keeps | with_reducible apply Keeps.ite
      | with_reducible apply Keeps.foldl
    | intro _

theorem State.powerTransition_keeps {a s : State} (h :
    Keeps a s) {v1} : Keeps a (State.powerTransition s v1) := by
  unfold State.powerTransition
  repeat' first
    | with_reducible assumption | with_reducible apply gateWontRise_keeps
      | with_reducible apply requestOff_keeps | with_reducible apply setPwr_keeps
      | with_reducible apply enterRamp_keeps | with_reducible apply leaveTripped_keeps
      | with_reducible apply Keeps.ite

theorem State.startClean_keeps {a s : State} (h : Keeps a s) {v1} : Keeps a (State.startClean s v1) := by
  unfold State.startClean
  repeat' first
    | with_reducible assumption | with_reducible apply onPwr_keeps

end Sys2Proof.Machine
end

