-- ==== Sys2Proof/Laws/KeepsPd.lean ====
section
/-!
SUPPORT. One lemma `<operation>_keeps` for each operation of the PD link, its messages and its swaps: it leaves the queue of waiting
commands as it was, and the tables in their canonical form.
-/
namespace Sys2Proof.Machine

open State

theorem State.finish_keeps {a s : State} (h : Keeps a s) {v1 v2} : Keeps a (State.finish s v1 v2) := by
  unfold State.finish
  repeat' first
    | with_reducible assumption | with_reducible apply complete_keeps
      | with_reducible apply Keeps.ite | with_reducible apply Keeps.foldl
    | intro _ | split

theorem State.linkEvent_keeps {a s : State} (h : Keeps a s) {v1 v2} : Keeps a (State.linkEvent s v1 v2) := by
  unfold State.linkEvent
  repeat' first
    | with_reducible assumption | with_reducible apply evPdLink_keeps
      | with_reducible apply fset_keeps

theorem State.setTimer_keeps {a s : State} (h :
    Keeps a s) {v1 v2 v3 v4} : Keeps a (State.setTimer s v1 v2 v3 v4) := by
  unfold State.setTimer
  repeat' first
    | with_reducible assumption | with_reducible apply fset_keeps | with_reducible apply onPd_keeps

theorem State.timStop_keeps {a s : State} (h : Keeps a s) {v1 v2} : Keeps a (State.timStop s v1 v2) := by
  unfold State.timStop
  repeat' first
    | with_reducible assumption | with_reducible apply onPd_keeps | with_reducible apply when_keeps
      | with_reducible apply setTimer_keeps | with_reducible apply Keeps.ite
      | with_reducible apply Keeps.foldl
    | intro _

theorem State.swapEnd_keeps {a s : State} (h : Keeps a s) {v1} : Keeps a (State.swapEnd s v1) := by
  unfold State.swapEnd
  repeat' first
    | with_reducible assumption | with_reducible apply when_keeps | with_reducible apply onSw_keeps
      | with_reducible apply onPd_keeps | with_reducible apply fset_keeps
      | with_reducible apply Keeps.ite | with_reducible apply Keeps.foldl
    | intro _

theorem State.setMux_keeps {a s : State} (h : Keeps a s) {v1 v2} : Keeps a (State.setMux s v1 v2) := by
  unfold State.setMux
  repeat' first
    | with_reducible assumption | with_reducible apply fset_keeps

theorem State.entryOff_keeps {a s : State} (h : Keeps a s) {v1} : Keeps a (State.entryOff s v1) := by
  unfold State.entryOff
  repeat' first
    | with_reducible assumption | with_reducible apply setMux_keeps
      | with_reducible apply onMux_keeps

theorem State.modeLeft_keeps {a s : State} (h : Keeps a s) {v1} : Keeps a (State.modeLeft s v1) := by
  unfold State.modeLeft
  repeat' first
    | with_reducible assumption | with_reducible apply evMode_keeps
      | with_reducible apply fset_keeps

theorem State.raiseSuperseded_keeps {a s : State} (h :
    Keeps a s) {v1} : Keeps a (State.raiseSuperseded s v1) := by
  unfold State.raiseSuperseded
  repeat' first
    | with_reducible assumption | with_reducible apply when_keeps
      | with_reducible apply linkEvent_keeps | with_reducible apply timStop_keeps
      | with_reducible apply onPd_keeps | with_reducible apply onSw_keeps
      | with_reducible apply swapEnd_keeps | with_reducible apply entryOff_keeps
      | with_reducible apply modeLeft_keeps | with_reducible apply fset_keeps
      | with_reducible apply onMux_keeps | with_reducible apply Keeps.ite
      | with_reducible apply Keeps.foldl
    | intro _

theorem State.flushCommands_keeps {a s : State} (h :
    Keeps a s) {v1 v2} : Keeps a (State.flushCommands s v1 v2) := by
  unfold State.flushCommands
  repeat' first
    | with_reducible assumption | with_reducible apply finish_keeps | with_reducible apply Keeps.ite
      | with_reducible apply Keeps.foldl
    | intro _

theorem State.idReset_keeps {a s : State} (h : Keeps a s) {v1 v2} : Keeps a (State.idReset s v1 v2) := by
  unfold State.idReset
  repeat' first
    | with_reducible assumption | with_reducible apply fbit_keeps | with_reducible apply fset_keeps

theorem State.flushLink_keeps {a s : State} (h : Keeps a s) {v1} : Keeps a (State.flushLink s v1) := by
  unfold State.flushLink
  repeat' first
    | with_reducible assumption | with_reducible apply timStop_keeps
      | with_reducible apply onPd_keeps | with_reducible apply idReset_keeps
      | with_reducible apply fset_keeps | with_reducible apply Keeps.ite
      | with_reducible apply Keeps.foldl
    | intro _

theorem State.clearTable_keeps {a s : State} (h : Keeps a s) {v1} : Keeps a (State.clearTable s v1) := by
  unfold State.clearTable
  repeat' first
    | with_reducible assumption | with_reducible apply rput_keeps | with_reducible apply Keeps.ite
      | with_reducible apply Keeps.foldl
    | intro _ | split | with_reducible apply Keeps.record

theorem State.swEvent_keeps {a s : State} (h : Keeps a s) {v1 v2} : Keeps a (State.swEvent s v1 v2) := by
  unfold State.swEvent
  repeat' first
    | with_reducible assumption | with_reducible apply fset_keeps | with_reducible apply when_keeps
      | with_reducible apply logRec_keeps | with_reducible apply evContract_keeps
      | with_reducible apply Keeps.ite | with_reducible apply Keeps.foldl
    | intro _

theorem State.eprEnd_keeps {a s : State} (h : Keeps a s) {v1} : Keeps a (State.eprEnd s v1) := by
  unfold State.eprEnd
  repeat' first
    | with_reducible assumption | with_reducible apply timStop_keeps
      | with_reducible apply fset_keeps | with_reducible apply when_keeps
      | with_reducible apply swEvent_keeps | with_reducible apply Keeps.ite
      | with_reducible apply Keeps.foldl
    | intro _

theorem State.setContract_keeps {a s : State} (h :
    Keeps a s) {v1 v2} : Keeps a (State.setContract s v1 v2) := by
  unfold State.setContract
  repeat' first
    | with_reducible assumption | with_reducible apply fset_keeps | with_reducible apply onSw_keeps
      | with_reducible apply when_keeps | with_reducible apply cntEvent_keeps
      | with_reducible apply evContract_keeps | with_reducible apply Keeps.ite
      | with_reducible apply Keeps.foldl
    | intro _

theorem State.clearContract_keeps {a s : State} (h :
    Keeps a s) {v1} : Keeps a (State.clearContract s v1) := by
  unfold State.clearContract
  repeat' first
    | with_reducible assumption | with_reducible apply setContract_keeps

theorem State.noneWindow_keeps {a s : State} (h :
    Keeps a s) {v1 v2} : Keeps a (State.noneWindow s v1 v2) := by
  unfold State.noneWindow
  repeat' first
    | with_reducible assumption | with_reducible apply setWindow_keeps

theorem State.clearCable_keeps {a s : State} (h : Keeps a s) {v1} : Keeps a (State.clearCable s v1) := by
  unfold State.clearCable
  repeat' first
    | with_reducible assumption | with_reducible apply rput_keeps

theorem State.modeLost_keeps {a s : State} (h : Keeps a s) {v1 v2} : Keeps a (State.modeLost s v1 v2) := by
  unfold State.modeLost
  repeat' first
    | with_reducible assumption | with_reducible apply fset_keeps | with_reducible apply onMux_keeps
      | with_reducible apply setMux_keeps | with_reducible apply when_keeps
      | with_reducible apply evMode_keeps | with_reducible apply Keeps.ite
      | with_reducible apply Keeps.foldl
    | intro _

theorem State.detachLink_keeps {a s : State} (h : Keeps a s) {v1} : Keeps a (State.detachLink s v1) := by
  unfold State.detachLink
  repeat' first
    | with_reducible assumption | with_reducible apply finish_keeps
      | with_reducible apply raiseSuperseded_keeps | with_reducible apply flushCommands_keeps
      | with_reducible apply timStop_keeps | with_reducible apply flushLink_keeps
      | with_reducible apply when_keeps | with_reducible apply operation_keeps
      | with_reducible apply onPd_keeps | with_reducible apply clearTable_keeps
      | with_reducible apply eprEnd_keeps | with_reducible apply clearContract_keeps
      | with_reducible apply swapEnd_keeps | with_reducible apply noneWindow_keeps
      | with_reducible apply onSw_keeps | with_reducible apply clearCable_keeps
      | with_reducible apply fset_keeps | with_reducible apply setDis_keeps
      | with_reducible apply modeLost_keeps | with_reducible apply Keeps.ite
      | with_reducible apply Keeps.foldl
    | intro _

theorem State.swapFail_keeps {a s : State} (h : Keeps a s) {v1 v2} : Keeps a (State.swapFail s v1 v2) := by
  unfold State.swapFail
  repeat' first
    | with_reducible assumption | with_reducible apply swEvent_keeps
      | with_reducible apply finish_keeps | with_reducible apply swapEnd_keeps

theorem State.extWrite_keeps {a s : State} (h :
    Keeps a s) {v1 v2 v3} : Keeps a (State.extWrite s v1 v2 v3) := by
  unfold State.extWrite
  repeat' first
    | with_reducible assumption | with_reducible apply memWrite_keeps

theorem State.setCaps_keeps {a s : State} (h :
    Keeps a s) {v1 v2 v3} : Keeps a (State.setCaps s v1 v2 v3) := by
  unfold State.setCaps
  repeat' first
    | with_reducible assumption | with_reducible apply extWrite_keeps

theorem State.timCount_keeps {a s : State} (h : Keeps a s) {v1} : Keeps a (State.timCount s v1) := by
  unfold State.timCount
  repeat' first
    | with_reducible assumption | with_reducible apply onPd_keeps

theorem State.cableReset_keeps {a s : State} (h :
    Keeps a s) {v1 v2} : Keeps a (State.cableReset s v1 v2) := by
  unfold State.cableReset
  repeat' first
    | with_reducible assumption | with_reducible apply onPd_keeps

theorem State.sendReply_keeps {a s : State} (h :
    Keeps a s) {v1 v2 v3} : Keeps a (State.sendReply s v1 v2 v3) := by
  unfold State.sendReply
  repeat' first
    | with_reducible assumption | with_reducible apply onPd_keeps

theorem State.sendNo_keeps {a s : State} (h : Keeps a s) {v1 v2} : Keeps a (State.sendNo s v1 v2) := by
  unfold State.sendNo
  repeat' first
    | with_reducible assumption | with_reducible apply sendReply_keeps

theorem State.sendFirst_keeps {a s : State} (h :
    Keeps a s) {v1 v2 v3 v4} : Keeps a (State.sendFirst s v1 v2 v3 v4) := by
  unfold State.sendFirst
  repeat' first
    | with_reducible assumption | with_reducible apply onPd_keeps

theorem State.sendEngine_keeps {a s : State} (h :
    Keeps a s) {v1 v2 v3 v4} : Keeps a (State.sendEngine s v1 v2 v3 v4) := by
  unfold State.sendEngine
  repeat' first
    | with_reducible assumption | with_reducible apply onPd_keeps

theorem State.writeQueue_keeps {a s : State} (h : Keeps a s) {v1} : Keeps a (State.writeQueue s v1) := by
  unfold State.writeQueue
  repeat' first
    | with_reducible assumption | with_reducible apply extWrite_keeps
      | with_reducible apply Keeps.ite | with_reducible apply Keeps.foldl
    | intro _

theorem State.timStart_keeps {a s : State} (h : Keeps a s) {v1 v2} : Keeps a (State.timStart s v1 v2) := by
  unfold State.timStart
  repeat' first
    | with_reducible assumption | with_reducible apply when_keeps | with_reducible apply onPd_keeps
      | with_reducible apply setTimer_keeps | with_reducible apply Keeps.ite
      | with_reducible apply Keeps.foldl
    | intro _

theorem State.setSoppEn_keeps {a s : State} (h : Keeps a s) {v1} : Keeps a (State.setSoppEn s v1) := by
  unfold State.setSoppEn
  repeat' first
    | with_reducible assumption | with_reducible apply fset_keeps

theorem State.defaultRoles_keeps {a s : State} (h :
    Keeps a s) {v1 v2} : Keeps a (State.defaultRoles s v1 v2) := by
  unfold State.defaultRoles
  repeat' first
    | with_reducible assumption | with_reducible apply setSoppEn_keeps
      | with_reducible apply fset_keeps

theorem State.roleReverse_keeps {a s : State} (h : Keeps a s) {v1} : Keeps a (State.roleReverse s v1) := by
  unfold State.roleReverse
  repeat' first
    | with_reducible assumption | with_reducible apply onAtt_keeps

theorem State.swapCancel_keeps {a s : State} (h : Keeps a s) {v1} : Keeps a (State.swapCancel s v1) := by
  unfold State.swapCancel
  repeat' first
    | with_reducible assumption | with_reducible apply when_keeps | with_reducible apply onAtt_keeps
      | with_reducible apply onSw_keeps | with_reducible apply onPd_keeps
      | with_reducible apply defaultRoles_keeps | with_reducible apply swapEnd_keeps
      | with_reducible apply setDis_keeps | with_reducible apply fset_keeps
      | with_reducible apply roleReverse_keeps | with_reducible apply operation_keeps
      | with_reducible apply onPwr_keeps | with_reducible apply finish_keeps
      | with_reducible apply Keeps.ite | with_reducible apply Keeps.foldl
    | intro _

theorem State.startHardSeq_keeps {a s : State} (h : Keeps a s) {v1} : Keeps a (State.startHardSeq s v1) := by
  unfold State.startHardSeq
  repeat' first
    | with_reducible assumption | with_reducible apply when_keeps | with_reducible apply fset_keeps
      | with_reducible apply operation_keeps | with_reducible apply onSw_keeps
      | with_reducible apply Keeps.ite | with_reducible apply Keeps.foldl
    | intro _

theorem State.hardResetDone_keeps {a s : State} (h :
    Keeps a s) {v1 v2} : Keeps a (State.hardResetDone s v1 v2) := by
  unfold State.hardResetDone
  repeat' first
    | with_reducible assumption | with_reducible apply raiseSuperseded_keeps
      | with_reducible apply flushCommands_keeps | with_reducible apply onPd_keeps
      | with_reducible apply flushLink_keeps | with_reducible apply finish_keeps
      | with_reducible apply when_keeps | with_reducible apply fset_keeps
      | with_reducible apply timStart_keeps | with_reducible apply eprEnd_keeps
      | with_reducible apply clearContract_keeps | with_reducible apply swapCancel_keeps
      | with_reducible apply noneWindow_keeps | with_reducible apply swEvent_keeps
      | with_reducible apply clearCable_keeps | with_reducible apply clearTable_keeps
      | with_reducible apply onMux_keeps | with_reducible apply modeLost_keeps
      | with_reducible apply startHardSeq_keeps | with_reducible apply linkEvent_keeps
      | with_reducible apply cntEvent_keeps | with_reducible apply Keeps.ite
      | with_reducible apply Keeps.foldl
    | intro _ | split

theorem State.swapDone_keeps {a s : State} (h : Keeps a s) {v1} : Keeps a (State.swapDone s v1) := by
  unfold State.swapDone
  repeat' first
    | with_reducible assumption | with_reducible apply cntEvent_keeps
      | with_reducible apply swEvent_keeps | with_reducible apply finish_keeps
      | with_reducible apply swapEnd_keeps

theorem State.writeMaps_keeps {a s : State} (h : Keeps a s) {v1} : Keeps a (State.writeMaps s v1) := by
  unfold State.writeMaps
  repeat' first
    | with_reducible assumption | with_reducible apply extWrite_keeps

theorem State.softReset_keeps {a s : State} (h :
    Keeps a s) {v1 v2 v3} : Keeps a (State.softReset s v1 v2 v3) := by
  unfold State.softReset
  repeat' first
    | with_reducible assumption | with_reducible apply when_keeps | with_reducible apply fset_keeps
      | with_reducible apply sendFirst_keeps | with_reducible apply linkEvent_keeps
      | with_reducible apply cntEvent_keeps | with_reducible apply Keeps.ite
      | with_reducible apply Keeps.foldl
    | intro _

theorem State.timExpire_keeps {a s : State} (h : Keeps a s) {v1 v2} : Keeps a (State.timExpire s v1 v2) := by
  unfold State.timExpire
  repeat' first
    | with_reducible assumption | with_reducible apply onPd_keeps
      | with_reducible apply setTimer_keeps | with_reducible apply Keeps.ite

theorem State.hostPop_keeps {a s : State} (h : Keeps a s) {v1} : Keeps a (State.hostPop s v1) := by
  unfold State.hostPop
  repeat' first
    | with_reducible assumption | with_reducible apply onPd_keeps

theorem State.hardReset_keeps {a s : State} (h : Keeps a s) {v1 v2} : Keeps a (State.hardReset s v1 v2) := by
  unfold State.hardReset
  repeat' first
    | with_reducible assumption | with_reducible apply timStart_keeps
      | with_reducible apply onPd_keeps

theorem State.swapAccepted_keeps {a s : State} (h :
    Keeps a s) {v1 v2} : Keeps a (State.swapAccepted s v1 v2) := by
  unfold State.swapAccepted
  repeat' first
    | with_reducible assumption | with_reducible apply swapDone_keeps
      | with_reducible apply fset_keeps | with_reducible apply onSw_keeps
      | with_reducible apply Keeps.ite

theorem State.frsReady_keeps {a s : State} (h : Keeps a s) {v1} : Keeps a (State.frsReady s v1) := by
  unfold State.frsReady
  repeat' first
    | with_reducible assumption | with_reducible apply onPd_keeps
      | with_reducible apply swapDone_keeps | with_reducible apply fset_keeps
      | with_reducible apply Keeps.ite

theorem State.disonFor_keeps {a s : State} (h : Keeps a s) {v1 v2} : Keeps a (State.disonFor s v1 v2) := by
  unfold State.disonFor
  repeat' first
    | with_reducible assumption | with_reducible apply setDis_keeps
      | with_reducible apply fset_keeps

theorem State.roleSwap_keeps {a s : State} (h : Keeps a s) {v1} : Keeps a (State.roleSwap s v1) := by
  unfold State.roleSwap
  repeat' first
    | with_reducible assumption | with_reducible apply onSw_keeps | with_reducible apply onAtt_keeps

theorem State.prSwapStep_keeps {a s : State} (h : Keeps a s) {v1} : Keeps a (State.prSwapStep s v1) := by
  unfold State.prSwapStep
  repeat' first
    | with_reducible assumption | with_reducible apply onSw_keeps | with_reducible apply fset_keeps
      | with_reducible apply sendReply_keeps | with_reducible apply roleSwap_keeps
      | with_reducible apply swapDone_keeps | with_reducible apply regStart_keeps
      | with_reducible apply Keeps.ite | with_reducible apply Keeps.foldl
    | intro _ | split

theorem State.muxRelease_keeps {a s : State} (h : Keeps a s) {v1} : Keeps a (State.muxRelease s v1) := by
  unfold State.muxRelease
  repeat' first
    | with_reducible assumption | with_reducible apply fset_keeps | with_reducible apply onMux_keeps
      | with_reducible apply onPd_keeps | with_reducible apply setMux_keeps
      | with_reducible apply Keeps.ite | with_reducible apply Keeps.foldl
    | intro _ | split

theorem State.setUv_keeps {a s : State} (h : Keeps a s) {v1 v2} : Keeps a (State.setUv s v1 v2) := by
  unfold State.setUv
  repeat' first
    | with_reducible assumption | with_reducible apply fset_keeps

theorem State.setVwin_keeps {a s : State} (h :
    Keeps a s) {v1 v2 v3} : Keeps a (State.setVwin s v1 v2 v3) := by
  unfold State.setVwin
  repeat' first
    | with_reducible assumption | with_reducible apply fset_keeps

theorem State.setOv_keeps {a s : State} (h : Keeps a s) {v1 v2} : Keeps a (State.setOv s v1 v2) := by
  unfold State.setOv
  repeat' first
    | with_reducible assumption | with_reducible apply fset_keeps

theorem State.setLimFor_keeps {a s : State} (h : Keeps a s) {v1 v2} : Keeps a (State.setLimFor s v1 v2) := by
  unfold State.setLimFor
  repeat' first
    | with_reducible assumption | with_reducible apply writeLim_keeps

theorem State.sinkStep_keeps {a s : State} (h : Keeps a s) {v1} : Keeps a (State.sinkStep s v1) := by
  unfold State.sinkStep
  repeat' first
    | with_reducible assumption | with_reducible apply fset_keeps | with_reducible apply setUv_keeps
      | with_reducible apply setVwin_keeps | with_reducible apply setOv_keeps
      | with_reducible apply when_keeps | with_reducible apply setLimFor_keeps
      | with_reducible apply onSw_keeps | with_reducible apply onPd_keeps
      | with_reducible apply swapEnd_keeps | with_reducible apply Keeps.ite
      | with_reducible apply Keeps.foldl
    | intro _ | split | with_reducible apply Keeps.record

theorem State.srcStep2_keeps {a s : State} (h :
    Keeps a s) {v1 v2 v3} : Keeps a (State.srcStep2 s v1 v2 v3) := by
  unfold State.srcStep2
  repeat' first
    | with_reducible assumption | with_reducible apply onSw_keeps | with_reducible apply fset_keeps

theorem State.endWait_keeps {a s : State} (h : Keeps a s) {v1} : Keeps a (State.endWait s v1) := by
  unfold State.endWait
  repeat' first
    | with_reducible assumption | with_reducible apply timStop_keeps
      | with_reducible apply fset_keeps | with_reducible apply onPd_keeps

theorem State.withdrawSwap_keeps {a s : State} (h : Keeps a s) {v1} : Keeps a (State.withdrawSwap s v1) := by
  unfold State.withdrawSwap
  repeat' first
    | with_reducible assumption | with_reducible apply swEvent_keeps
      | with_reducible apply finish_keeps | with_reducible apply swapEnd_keeps
      | with_reducible apply endWait_keeps

theorem State.srcStep1_keeps {a s : State} (h :
    Keeps a s) {v1 v2 v3} : Keeps a (State.srcStep1 s v1 v2 v3) := by
  unfold State.srcStep1
  repeat' first
    | with_reducible assumption | with_reducible apply fset_keeps | with_reducible apply when_keeps
      | with_reducible apply setLimFor_keeps | with_reducible apply setOv_keeps
      | with_reducible apply onSw_keeps | with_reducible apply setVwin_keeps
      | with_reducible apply Keeps.ite | with_reducible apply Keeps.foldl
    | intro _

theorem State.srcStep3_keeps {a s : State} (h :
    Keeps a s) {v1 v2 v3} : Keeps a (State.srcStep3 s v1 v2 v3) := by
  unfold State.srcStep3
  repeat' first
    | with_reducible assumption | with_reducible apply fset_keeps | with_reducible apply when_keeps
      | with_reducible apply disonFor_keeps | with_reducible apply setUv_keeps
      | with_reducible apply onSw_keeps | with_reducible apply voutCommand_keeps
      | with_reducible apply Keeps.ite | with_reducible apply Keeps.foldl
    | intro _

theorem State.srcStep5_keeps {a s : State} (h :
    Keeps a s) {v1 v2 v3} : Keeps a (State.srcStep5 s v1 v2 v3) := by
  unfold State.srcStep5
  repeat' first
    | with_reducible assumption | with_reducible apply setUv_keeps
      | with_reducible apply setOv_keeps | with_reducible apply setDis_keeps
      | with_reducible apply fset_keeps | with_reducible apply setVwin_keeps
      | with_reducible apply sendReply_keeps | with_reducible apply onSw_keeps
      | with_reducible apply Keeps.ite

theorem State.contractStep_keeps {a s : State} (h : Keeps a s) {v1} : Keeps a (State.contractStep s v1) := by
  unfold State.contractStep
  repeat' first
    | with_reducible assumption | with_reducible apply srcStep1_keeps
      | with_reducible apply srcStep2_keeps | with_reducible apply srcStep3_keeps
      | with_reducible apply onSw_keeps | with_reducible apply fset_keeps
      | with_reducible apply srcStep5_keeps | with_reducible apply Keeps.ite
      | with_reducible apply Keeps.foldl
    | intro _ | split | with_reducible apply Keeps.record

theorem State.prSwapReady_keeps {a s : State} (h : Keeps a s) {v1} : Keeps a (State.prSwapReady s v1) := by
  unfold State.prSwapReady
  repeat' first
    | with_reducible assumption | with_reducible apply onSw_keeps | with_reducible apply fset_keeps
      | with_reducible apply swapDone_keeps | with_reducible apply Keeps.ite

theorem State.swapBegin_keeps {a s : State} (h :
    Keeps a s) {v1 v2 v3} : Keeps a (State.swapBegin s v1 v2 v3) := by
  unfold State.swapBegin
  repeat' first
    | with_reducible assumption | with_reducible apply fset_keeps | with_reducible apply onSw_keeps

theorem State.frsStep_keeps {a s : State} (h : Keeps a s) {v1} : Keeps a (State.frsStep s v1) := by
  unfold State.frsStep
  repeat' first
    | with_reducible assumption | with_reducible apply onPd_keeps
      | with_reducible apply sendFirst_keeps | with_reducible apply swapBegin_keeps
      | with_reducible apply swapEnd_keeps | with_reducible apply onSw_keeps
      | with_reducible apply fset_keeps | with_reducible apply sendReply_keeps
      | with_reducible apply roleSwap_keeps | with_reducible apply operation_keeps
      | with_reducible apply swapDone_keeps | with_reducible apply Keeps.ite
      | with_reducible apply Keeps.foldl
    | intro _ | split

theorem State.hardSeqEnd_keeps {a s : State} (h : Keeps a s) {v1} : Keeps a (State.hardSeqEnd s v1) := by
  unfold State.hardSeqEnd
  repeat' first
    | with_reducible assumption | with_reducible apply onSw_keeps | with_reducible apply fset_keeps
      | with_reducible apply when_keeps | with_reducible apply onMux_keeps
      | with_reducible apply setMux_keeps | with_reducible apply Keeps.ite
      | with_reducible apply Keeps.foldl
    | intro _

theorem State.hardSeqStep_keeps {a s : State} (h : Keeps a s) {v1} : Keeps a (State.hardSeqStep s v1) := by
  unfold State.hardSeqStep
  repeat' first
    | with_reducible assumption | with_reducible apply onSw_keeps
      | with_reducible apply hardSeqEnd_keeps | with_reducible apply timStart_keeps
      | with_reducible apply Keeps.ite | with_reducible apply Keeps.foldl
    | intro _ | split | with_reducible apply Keeps.record

theorem State.contractReady_keeps {a s : State} (h :
    Keeps a s) {v1} : Keeps a (State.contractReady s v1) := by
  unfold State.contractReady
  repeat' first
    | with_reducible assumption | with_reducible apply onSw_keeps | with_reducible apply fset_keeps
      | with_reducible apply swapEnd_keeps | with_reducible apply when_keeps
      | with_reducible apply setContract_keeps | with_reducible apply timStop_keeps
      | with_reducible apply Keeps.ite | with_reducible apply Keeps.foldl
    | intro _ | split

theorem State.vconnReady_keeps {a s : State} (h : Keeps a s) {v1} : Keeps a (State.vconnReady s v1) := by
  unfold State.vconnReady
  repeat' first
    | with_reducible assumption | with_reducible apply swapDone_keeps
      | with_reducible apply setSoppEn_keeps | with_reducible apply fset_keeps

theorem State.vconnSwapStep_keeps {a s : State} (h :
    Keeps a s) {v1} : Keeps a (State.vconnSwapStep s v1) := by
  unfold State.vconnSwapStep
  repeat' first
    | with_reducible assumption | with_reducible apply onSw_keeps | with_reducible apply fset_keeps
      | with_reducible apply hardReset_keeps | with_reducible apply swapFail_keeps
      | with_reducible apply swapDone_keeps | with_reducible apply setSoppEn_keeps
      | with_reducible apply Keeps.ite | with_reducible apply Keeps.foldl
    | intro _ | split

theorem State.muxHold_keeps {a s : State} (h :
    Keeps a s) {v1 v2 v3} : Keeps a (State.muxHold s v1 v2 v3) := by
  unfold State.muxHold
  repeat' first
    | with_reducible assumption | with_reducible apply fset_keeps | with_reducible apply onMux_keeps

theorem State.keepCaps_keeps {a s : State} (h : Keeps a s) {v1 v2} : Keeps a (State.keepCaps s v1 v2) := by
  unfold State.keepCaps
  repeat' first
    | with_reducible assumption | with_reducible apply onPd_keeps
      | with_reducible apply extWrite_keeps | with_reducible apply timStop_keeps

theorem State.negotiate_keeps {a s : State} (h : Keeps a s) {v1 v2} : Keeps a (State.negotiate s v1 v2) := by
  unfold State.negotiate
  repeat' first
    | with_reducible assumption | with_reducible apply when_keeps | with_reducible apply fset_keeps
      | with_reducible apply Keeps.ite | with_reducible apply Keeps.foldl
    | intro _

theorem State.wakeToEbb_keeps {a s : State} (h : Keeps a s) {v1} : Keeps a (State.wakeToEbb s v1) := by
  unfold State.wakeToEbb
  repeat' first
    | with_reducible assumption | with_reducible apply when_keeps
      | with_reducible apply profileAt_keeps | with_reducible apply Keeps.ite
      | with_reducible apply Keeps.foldl
    | intro _ | split | with_reducible apply Keeps.record

theorem State.ccActivity_keeps {a s : State} (h : Keeps a s) {v1} : Keeps a (State.ccActivity s v1) := by
  unfold State.ccActivity
  repeat' first
    | with_reducible assumption | with_reducible apply when_keeps
      | with_reducible apply onEngine_keeps | with_reducible apply onPd_keeps
      | with_reducible apply wakeToEbb_keeps | with_reducible apply Keeps.ite
      | with_reducible apply Keeps.foldl
    | intro _

theorem State.loadEffect_keeps {a s : State} (h :
    Keeps a s) {v1 v2} : Keeps a (State.loadEffect s v1 v2) := by
  unfold State.loadEffect
  repeat' first
    | with_reducible assumption | with_reducible apply idReset_keeps
      | with_reducible apply onPd_keeps | with_reducible apply onSw_keeps
      | with_reducible apply Keeps.ite

theorem State.recordCable_keeps {a s : State} (h :
    Keeps a s) {v1 v2} : Keeps a (State.recordCable s v1 v2) := by
  unfold State.recordCable
  repeat' first
    | with_reducible assumption | with_reducible apply timStart_keeps
      | with_reducible apply fset_keeps | with_reducible apply when_keeps
      | with_reducible apply linkEvent_keeps | with_reducible apply Keeps.ite
      | with_reducible apply Keeps.foldl
    | intro _

theorem State.evMessage_keeps {a s : State} (h :
    Keeps a s) {v1 v2 v3} : Keeps a (State.evMessage s v1 v2 v3) := by
  unfold State.evMessage
  repeat' first
    | with_reducible assumption | with_reducible apply when_keeps
      | with_reducible apply hostEvent_keeps | with_reducible apply Keeps.ite
      | with_reducible apply Keeps.foldl
    | intro _

theorem State.unexpected_keeps {a s : State} (h :
    Keeps a s) {v1 v2} : Keeps a (State.unexpected s v1 v2) := by
  unfold State.unexpected
  repeat' first
    | with_reducible assumption | with_reducible apply softReset_keeps
      | with_reducible apply evMessage_keeps

theorem State.modeResponse_keeps {a s : State} (h :
    Keeps a s) {v1 v2 v3} : Keeps a (State.modeResponse s v1 v2 v3) := by
  unfold State.modeResponse
  repeat' first
    | with_reducible assumption | with_reducible apply evMode_keeps
      | with_reducible apply fset_keeps | with_reducible apply onMux_keeps
      | with_reducible apply setMux_keeps | with_reducible apply entryOff_keeps
      | with_reducible apply muxHold_keeps | with_reducible apply modeLeft_keeps
      | with_reducible apply Keeps.ite

theorem State.modeUnanswered_keeps {a s : State} (h :
    Keeps a s) {v1} : Keeps a (State.modeUnanswered s v1) := by
  unfold State.modeUnanswered
  repeat' first
    | with_reducible assumption | with_reducible apply modeResponse_keeps
      | with_reducible apply Keeps.ite

theorem State.softResetReceived_keeps {a s : State} (h :
    Keeps a s) {v1 v2} : Keeps a (State.softResetReceived s v1 v2) := by
  unfold State.softResetReceived
  repeat' first
    | with_reducible assumption | with_reducible apply endWait_keeps
      | with_reducible apply idReset_keeps | with_reducible apply when_keeps
      | with_reducible apply onSw_keeps | with_reducible apply modeUnanswered_keeps
      | with_reducible apply complete_keeps | with_reducible apply sendReply_keeps
      | with_reducible apply linkEvent_keeps | with_reducible apply cntEvent_keeps
      | with_reducible apply Keeps.ite | with_reducible apply Keeps.foldl
    | intro _ | split

theorem State.acceptTaken_keeps {a s : State} (h :
    Keeps a s) {v1 v2} : Keeps a (State.acceptTaken s v1 v2) := by
  unfold State.acceptTaken
  repeat' first
    | with_reducible assumption | with_reducible apply onSw_keeps
      | with_reducible apply timStart_keeps | with_reducible apply swapAccepted_keeps
      | with_reducible apply Keeps.ite

theorem State.acceptGot_keeps {a s : State} (h : Keeps a s) {v1 v2} : Keeps a (State.acceptGot s v1 v2) := by
  unfold State.acceptGot
  repeat' first
    | with_reducible assumption | with_reducible apply onSw_keeps
      | with_reducible apply acceptTaken_keeps | with_reducible apply Keeps.ite

theorem State.sendSourceCaps_keeps {a s : State} (h :
    Keeps a s) {v1} : Keeps a (State.sendSourceCaps s v1) := by
  unfold State.sendSourceCaps
  repeat' first
    | with_reducible assumption | with_reducible apply sendEngine_keeps
      | with_reducible apply Keeps.ite

theorem State.response_keeps {a s : State} (h :
    Keeps a s) {v1 v2 v3} : Keeps a (State.response s v1 v2 v3) := by
  unfold State.response
  extract_lets c s1 tag decided s2 s3
  have h1 : Keeps a s1 := State.fset_keeps (State.endWait_keeps h)
  have h2 : Keeps a s2 := State.when_keeps h1 fun s k => State.evMessage_keeps k
  have h3 : Keeps a s3 := State.finish_keeps h2
  clear_value s3 s2 s1 tag decided c
  repeat' first
    | with_reducible apply Keeps.ite
    | with_reducible assumption
    | with_reducible apply State.fset_keeps
    | with_reducible apply State.endWait_keeps
    | with_reducible apply State.when_keeps
    | with_reducible apply State.evMessage_keeps
    | with_reducible apply State.acceptGot_keeps
    | with_reducible apply State.onSw_keeps
    | with_reducible apply State.swapFail_keeps
    | with_reducible apply State.finish_keeps
    | with_reducible apply State.sendSourceCaps_keeps
    | with_reducible apply State.modeLost_keeps
    | with_reducible apply State.timStop_keeps
    | with_reducible apply State.recordCable_keeps
    | with_reducible apply State.modeResponse_keeps
    | with_reducible apply Keeps.foldl
    | intro _

theorem State.bistMsg_keeps {a s : State} (h : Keeps a s) {v1 v2} : Keeps a (State.bistMsg s v1 v2) := by
  unfold State.bistMsg
  repeat' first
    | with_reducible assumption | with_reducible apply when_keeps | with_reducible apply fset_keeps
      | with_reducible apply timStart_keeps | with_reducible apply onPd_keeps
      | with_reducible apply linkEvent_keeps | with_reducible apply sendNo_keeps
      | with_reducible apply Keeps.ite | with_reducible apply Keeps.foldl
    | intro _ | split

theorem State.eprModeReceived_keeps {a s : State} (h :
    Keeps a s) {v1 v2} : Keeps a (State.eprModeReceived s v1 v2) := by
  unfold State.eprModeReceived
  repeat' first
    | with_reducible assumption | with_reducible apply softReset_keeps
      | with_reducible apply swEvent_keeps | with_reducible apply completeAll_keeps
      | with_reducible apply timStart_keeps | with_reducible apply fset_keeps
      | with_reducible apply timStop_keeps | with_reducible apply hardReset_keeps
      | with_reducible apply eprEnd_keeps | with_reducible apply when_keeps
      | with_reducible apply sendSourceCaps_keeps | with_reducible apply Keeps.ite
      | with_reducible apply Keeps.foldl
    | intro _ | split

theorem State.sendRequest_keeps {a s : State} (h :
    Keeps a s) {v1 v2 v3 v4} : Keeps a (State.sendRequest s v1 v2 v3 v4) := by
  unfold State.sendRequest
  repeat' first
    | with_reducible assumption | with_reducible apply sendReply_keeps

theorem State.sendMismatch_keeps {a s : State} (h : Keeps a s) {v1} : Keeps a (State.sendMismatch s v1) := by
  unfold State.sendMismatch
  repeat' first
    | with_reducible assumption | with_reducible apply sendRequest_keeps

theorem State.replyNegative_keeps {a s : State} (h :
    Keeps a s) {v1 v2 v3 v4} : Keeps a (State.replyNegative s v1 v2 v3 v4) := by
  unfold State.replyNegative
  repeat' first
    | with_reducible assumption | with_reducible apply sendReply_keeps
      | with_reducible apply sendMismatch_keeps | with_reducible apply Keeps.ite

theorem State.dropQueuedSwaps_keeps {a s : State} (h :
    Keeps a s) {v1} : Keeps a (State.dropQueuedSwaps s v1) := by
  unfold State.dropQueuedSwaps
  repeat' first
    | with_reducible assumption | with_reducible apply writeQueue_keeps
      | with_reducible apply onPd_keeps | with_reducible apply finish_keeps
      | with_reducible apply Keeps.ite | with_reducible apply Keeps.foldl
    | intro _

theorem State.replyPositive_keeps {a s : State} (h :
    Keeps a s) {v1 v2 v3 v4 v5} : Keeps a (State.replyPositive s v1 v2 v3 v4 v5) := by
  unfold State.replyPositive
  repeat' first
    | with_reducible assumption | with_reducible apply when_keeps
      | with_reducible apply timStart_keeps | with_reducible apply sendReply_keeps
      | with_reducible apply onSw_keeps | with_reducible apply swapBegin_keeps
      | with_reducible apply dropQueuedSwaps_keeps | with_reducible apply sendEngine_keeps
      | with_reducible apply muxHold_keeps | with_reducible apply onMux_keeps
      | with_reducible apply setMux_keeps | with_reducible apply sendRequest_keeps
      | with_reducible apply Keeps.ite | with_reducible apply Keeps.foldl
    | intro _

theorem State.raiseMsg_keeps {a s : State} (h :
    Keeps a s) {v1 v2 v3} : Keeps a (State.raiseMsg s v1 v2 v3) := by
  unfold State.raiseMsg
  repeat' first
    | with_reducible assumption | with_reducible apply onPd_keeps | with_reducible apply when_keeps
      | with_reducible apply timStart_keeps | with_reducible apply cntEvent_keeps
      | with_reducible apply fset_keeps | with_reducible apply hostEvent_keeps
      | with_reducible apply Keeps.ite | with_reducible apply Keeps.foldl
    | intro _

theorem State.applyReply_keeps {a s : State} (h :
    Keeps a s) {v1 v2 v3 v4 v5 v6} : Keeps a (State.applyReply s v1 v2 v3 v4 v5 v6) := by
  unfold State.applyReply
  repeat' first
    | with_reducible assumption | with_reducible apply replyPositive_keeps
      | with_reducible apply replyNegative_keeps | with_reducible apply sendReply_keeps
      | with_reducible apply sendNo_keeps | with_reducible apply sendRequest_keeps
      | with_reducible apply raiseMsg_keeps | with_reducible apply Keeps.ite
      | with_reducible apply Keeps.foldl
    | intro _ | split

theorem State.invalidT_keeps {a s : State} (h : Keeps a s) {p : Nat} {m : Msg} {k : Nat} :
    Keeps.opt a (State.invalidT s p m k) := by
  unfold State.invalidT
  repeat' first
    | with_reducible apply Keeps.opt_ite
    | with_reducible apply Keeps.opt_some
    | with_reducible apply Keeps.opt_none
    | with_reducible apply State.sendReply_keeps
    | with_reducible apply State.replyNegative_keeps
    | with_reducible assumption

theorem State.decideT_keeps {a s : State} (h : Keeps a s) {p : Nat} {m : Msg} {k : Nat} :
    Keeps a (State.decideT s p m k) := by
  unfold State.decideT
  extract_lets own s1
  have h1 : Keeps a s1 := State.when_keeps h fun _ k => State.when_keeps (State.onPd_keeps k) fun _ k =>
    State.timStart_keeps k
  clear_value own s1
  have hi := State.invalidT_keeps h1 (p := p) (m := m) (k := k)
  generalize State.invalidT s1 p m k = x at hi
  cases x with
  | some t => exact hi t rfl
  | none =>
    repeat' first
      | with_reducible apply Keeps.ite
      | with_reducible assumption
      | with_reducible apply State.when_keeps
      | with_reducible apply State.onPd_keeps
      | with_reducible apply State.timStart_keeps
      | with_reducible apply State.cntEvent_keeps
      | with_reducible apply State.swEvent_keeps
      | with_reducible apply State.sendReply_keeps
      | with_reducible apply State.hardReset_keeps
      | with_reducible apply State.applyReply_keeps
      | with_reducible apply State.raiseMsg_keeps
      | with_reducible apply Keeps.foldl
      | intro _
      | split

theorem State.answerBlock_keeps {a s : State} (h :
    Keeps a s) {v1 v2 v3} : Keeps a (State.answerBlock s v1 v2 v3) := by
  unfold State.answerBlock
  repeat' first
    | with_reducible assumption | with_reducible apply sendNo_keeps
      | with_reducible apply sendReply_keeps | with_reducible apply Keeps.ite

theorem State.drawBytes_keeps {a s : State} (h : Keeps a s) {n : Nat} : Keeps a (State.drawBytes s n).2 := by
  induction n generalizing s with
  | zero => exact h
  | succ n ih => exact ih (State.draw_keeps h (v1 := 8))

theorem State.answerDiscover_keeps {a s : State} (h :
    Keeps a s) {v1 v2} : Keeps a (State.answerDiscover s v1 v2) := by
  unfold State.answerDiscover
  repeat' first
    | with_reducible assumption | with_reducible apply sendReply_keeps
      | with_reducible apply Keeps.ite | with_reducible apply Keeps.foldl
    | intro _ | split

theorem State.statusMsg_keeps {a s : State} (h : Keeps a s) {p : Nat} : Keeps a (State.statusMsg s p).2 := by
  unfold State.statusMsg
  exact State.drawBytes_keeps (State.drawBytes_keeps h)

theorem State.autoAnswer_keeps {a s : State} (h : Keeps a s) {p : Nat} {m : Msg} :
    Keeps.opt a (State.autoAnswer s p m) := by
  unfold State.autoAnswer
  have hs : Keeps a (s.statusMsg p).2 := State.statusMsg_keeps h
  generalize s.statusMsg p = x at hs
  obtain ⟨d, t⟩ := x
  replace hs : Keeps a t := hs
  have hw : Keeps a (s.when (s.fon PRT_PDST.EPR p) fun s => s.timStart p 17) :=
    State.when_keeps h fun _ k => State.timStart_keeps k
  repeat' first
    | with_reducible assumption
    | with_reducible apply Keeps.opt_ite
    | with_reducible apply Keeps.opt_some
    | with_reducible apply Keeps.opt_none
    | with_reducible apply Keeps.ite
    | with_reducible apply State.sendReply_keeps
    | with_reducible apply State.sendNo_keeps
    | with_reducible apply State.answerBlock_keeps
    | with_reducible apply State.when_keeps
    | with_reducible apply State.timStart_keeps
    | with_reducible apply State.answerDiscover_keeps

theorem State.handleMsg_keeps {a s : State} (h : Keeps a s) {p : Nat} {m : Msg} :
    Keeps a (State.handleMsg s p m) := by
  unfold State.handleMsg
  have hi := State.autoAnswer_keeps h (p := p) (m := m)
  generalize State.autoAnswer s p m = x at hi ⊢
  extract_lets c k
  clear_value c k
  cases x with
  | some t =>
    have ht : Keeps a t := hi t rfl
    dsimp only
    repeat' first
      | with_reducible apply Keeps.ite
      | with_reducible assumption
      | with_reducible apply State.bistMsg_keeps
      | with_reducible apply State.unexpected_keeps
      | with_reducible apply State.eprModeReceived_keeps
      | with_reducible apply State.setMux_keeps
      | with_reducible apply State.decideT_keeps
      | with_reducible apply State.when_keeps
      | with_reducible apply State.keepCaps_keeps
      | with_reducible apply State.raiseMsg_keeps
      | with_reducible apply State.evMessage_keeps
      | with_reducible apply State.sendNo_keeps
      | with_reducible apply Keeps.foldl
      | intro _
  | none =>
    dsimp only
    repeat' first
      | with_reducible apply Keeps.ite
      | with_reducible assumption
      | with_reducible apply State.bistMsg_keeps
      | with_reducible apply State.unexpected_keeps
      | with_reducible apply State.eprModeReceived_keeps
      | with_reducible apply State.setMux_keeps
      | with_reducible apply State.decideT_keeps
      | with_reducible apply State.when_keeps
      | with_reducible apply State.keepCaps_keeps
      | with_reducible apply State.raiseMsg_keeps
      | with_reducible apply State.evMessage_keeps
      | with_reducible apply State.sendNo_keeps
      | with_reducible apply Keeps.foldl
      | intro _

theorem State.takeRdy_keeps {a s : State} (h : Keeps a s) {v1} : Keeps a (State.takeRdy s v1) := by
  unfold State.takeRdy
  repeat' first
    | with_reducible assumption | with_reducible apply evMessage_keeps
      | with_reducible apply onSw_keeps | with_reducible apply timStop_keeps
      | with_reducible apply setContract_keeps | with_reducible apply when_keeps
      | with_reducible apply timStart_keeps | with_reducible apply Keeps.ite
      | with_reducible apply Keeps.foldl
    | intro _ | split | with_reducible apply Keeps.record

theorem State.takePlain_keeps {a s : State} (h : Keeps a s) {v1 v2} : Keeps a (State.takePlain s v1 v2) := by
  unfold State.takePlain
  repeat' first
    | with_reducible assumption | with_reducible apply takeRdy_keeps
      | with_reducible apply handleMsg_keeps | with_reducible apply Keeps.ite

theorem State.takeMsg_keeps {a s : State} (h : Keeps a s) {v1 v2} : Keeps a (State.takeMsg s v1 v2) := by
  unfold State.takeMsg
  repeat' first
    | with_reducible assumption | with_reducible apply when_keeps | with_reducible apply onPd_keeps
      | with_reducible apply softResetReceived_keeps | with_reducible apply withdrawSwap_keeps
      | with_reducible apply response_keeps | with_reducible apply handleMsg_keeps
      | with_reducible apply takePlain_keeps | with_reducible apply Keeps.ite
      | with_reducible apply Keeps.foldl
    | intro _ | split | with_reducible apply Keeps.record

theorem State.asmDrop_keeps {a s : State} (h : Keeps a s) {v1} : Keeps a (State.asmDrop s v1) := by
  unfold State.asmDrop
  repeat' first
    | with_reducible assumption | with_reducible apply when_keeps
      | with_reducible apply evPdLink_keeps | with_reducible apply timStop_keeps
      | with_reducible apply onPd_keeps | with_reducible apply Keeps.ite
      | with_reducible apply Keeps.foldl
    | intro _

theorem State.chunkAsked_keeps {a s : State} (h :
    Keeps a s) {v1 v2 v3} : Keeps a (State.chunkAsked s v1 v2 v3) := by
  unfold State.chunkAsked
  repeat' first
    | with_reducible assumption | with_reducible apply onPd_keeps
      | with_reducible apply timStop_keeps | with_reducible apply softReset_keeps
      | with_reducible apply Keeps.ite | with_reducible apply Keeps.foldl
    | intro _ | split

theorem State.askChunk_keeps {a s : State} (h :
    Keeps a s) {v1 v2 v3} : Keeps a (State.askChunk s v1 v2 v3) := by
  unfold State.askChunk
  repeat' first
    | with_reducible assumption | with_reducible apply timStart_keeps
      | with_reducible apply sendReply_keeps

theorem State.firstChunk_keeps {a s : State} (h :
    Keeps a s) {v1 v2 v3 v4} : Keeps a (State.firstChunk s v1 v2 v3 v4) := by
  unfold State.firstChunk
  repeat' first
    | with_reducible assumption | with_reducible apply sendNo_keeps
      | with_reducible apply takeMsg_keeps | with_reducible apply askChunk_keeps
      | with_reducible apply onPd_keeps | with_reducible apply Keeps.ite

theorem State.takeChunk_keeps {a s : State} (h :
    Keeps a s) {v1 v2 v3 v4} : Keeps a (State.takeChunk s v1 v2 v3 v4) := by
  unfold State.takeChunk
  repeat' first
    | with_reducible assumption | with_reducible apply timStop_keeps
      | with_reducible apply takeMsg_keeps | with_reducible apply onPd_keeps
      | with_reducible apply askChunk_keeps | with_reducible apply firstChunk_keeps
      | with_reducible apply asmDrop_keeps | with_reducible apply Keeps.ite
      | with_reducible apply Keeps.foldl
    | intro _ | split

theorem State.parseMsg_keeps {a s : State} (h : Keeps a s) {v1 v2} : Keeps a (State.parseMsg s v1 v2) := by
  unfold State.parseMsg
  repeat' first
    | with_reducible assumption | with_reducible apply negotiate_keeps
      | with_reducible apply takeMsg_keeps | with_reducible apply asmDrop_keeps
      | with_reducible apply sendNo_keeps | with_reducible apply chunkAsked_keeps
      | with_reducible apply takeChunk_keeps | with_reducible apply Keeps.ite

theorem State.txEnd_keeps {a s : State} (h : Keeps a s) {v1} : Keeps a (State.txEnd s v1) := by
  unfold State.txEnd
  repeat' first
    | with_reducible assumption | with_reducible apply onPd_keeps
      | with_reducible apply timStart_keeps | with_reducible apply fset_keeps
      | with_reducible apply hardResetDone_keeps | with_reducible apply finish_keeps
      | with_reducible apply clearCable_keeps | with_reducible apply idReset_keeps
      | with_reducible apply acceptTaken_keeps | with_reducible apply Keeps.ite
      | with_reducible apply Keeps.foldl
    | intro _ | split | with_reducible apply Keeps.record

theorem State.fallback_keeps {a s : State} (h : Keeps a s) {v1 v2} : Keeps a (State.fallback s v1 v2) := by
  unfold State.fallback
  repeat' first
    | with_reducible assumption | with_reducible apply replyNegative_keeps
      | with_reducible apply sendReply_keeps | with_reducible apply sendNo_keeps
      | with_reducible apply sendMismatch_keeps | with_reducible apply Keeps.ite

theorem State.holdHead_keeps {a s : State} (h : Keeps a s) {v1} : Keeps a (State.holdHead s v1) := by
  unfold State.holdHead
  repeat' first
    | with_reducible assumption | with_reducible apply linkEvent_keeps
      | with_reducible apply onPd_keeps | with_reducible apply fset_keeps
      | with_reducible apply Keeps.ite

theorem State.loadTx_keeps {a s : State} (h : Keeps a s) {v1 v2} : Keeps a (State.loadTx s v1 v2) := by
  unfold State.loadTx
  repeat' first
    | with_reducible assumption | with_reducible apply loadEffect_keeps
      | with_reducible apply onPd_keeps

theorem State.txOwn_keeps {a s : State} (h : Keeps a s) {v1} : Keeps a (State.txOwn s v1) := by
  unfold State.txOwn
  repeat' first
    | with_reducible assumption | with_reducible apply holdHead_keeps
      | with_reducible apply loadTx_keeps | with_reducible apply onPd_keeps
      | with_reducible apply hostPop_keeps | with_reducible apply Keeps.ite
      | with_reducible apply Keeps.foldl
    | intro _ | split | with_reducible apply Keeps.record

theorem State.goodSop_keeps {a s : State} (h : Keeps a s) {v1 v2} : Keeps a (State.goodSop s v1 v2) := by
  unfold State.goodSop
  repeat' first
    | with_reducible assumption | with_reducible apply when_keeps | with_reducible apply onPd_keeps
      | with_reducible apply timStop_keeps | with_reducible apply fset_keeps
      | with_reducible apply Keeps.ite | with_reducible apply Keeps.foldl
    | intro _

theorem State.acceptPacket_keeps {a s : State} (h :
    Keeps a s) {v1 v2} : Keeps a (State.acceptPacket s v1 v2) := by
  unfold State.acceptPacket
  repeat' first
    | with_reducible assumption | with_reducible apply goodSop_keeps
      | with_reducible apply cntEvent_keeps | with_reducible apply onPd_keeps
      | with_reducible apply linkEvent_keeps | with_reducible apply when_keeps
      | with_reducible apply fset_keeps | with_reducible apply fbit_keeps
      | with_reducible apply raiseSuperseded_keeps | with_reducible apply Keeps.ite
      | with_reducible apply Keeps.foldl
    | intro _

theorem State.heardCount_keeps {a s : State} (h :
    Keeps a s) {v1 v2} : Keeps a (State.heardCount s v1 v2) := by
  unfold State.heardCount
  repeat' first
    | with_reducible assumption | with_reducible apply when_keeps | with_reducible apply finc_keeps
      | with_reducible apply fset_keeps | with_reducible apply Keeps.ite
      | with_reducible apply Keeps.foldl
    | intro _

theorem State.overhear_keeps {a s : State} (h :
    Keeps a s) {v1 v2 v3} : Keeps a (State.overhear s v1 v2 v3) := by
  unfold State.overhear
  repeat' first
    | with_reducible assumption | with_reducible apply onPd_keeps
      | with_reducible apply heardCount_keeps | with_reducible apply Keeps.ite

theorem State.beginWait_keeps {a s : State} (h : Keeps a s) {v1 v2} : Keeps a (State.beginWait s v1 v2) := by
  unfold State.beginWait
  repeat' first
    | with_reducible assumption | with_reducible apply fset_keeps | with_reducible apply onPd_keeps
      | with_reducible apply when_keeps | with_reducible apply timStart_keeps
      | with_reducible apply Keeps.ite | with_reducible apply Keeps.foldl
    | intro _

theorem State.sendAcked_keeps {a s : State} (h : Keeps a s) {v1} : Keeps a (State.sendAcked s v1) := by
  unfold State.sendAcked
  repeat' first
    | with_reducible assumption | with_reducible apply complete_keeps
      | with_reducible apply Keeps.ite | with_reducible apply Keeps.foldl
    | intro _ | split | with_reducible apply Keeps.record

theorem State.acked_keeps {a s : State} (h : Keeps a s) {v1 v2} : Keeps a (State.acked s v1 v2) := by
  unfold State.acked
  repeat' first
    | with_reducible assumption | with_reducible apply onSw_keeps
      | with_reducible apply swapAccepted_keeps | with_reducible apply contractReady_keeps
      | with_reducible apply prSwapReady_keeps | with_reducible apply vconnReady_keeps
      | with_reducible apply frsReady_keeps | with_reducible apply swEvent_keeps
      | with_reducible apply timStart_keeps | with_reducible apply fset_keeps
      | with_reducible apply sendSourceCaps_keeps | with_reducible apply eprEnd_keeps
      | with_reducible apply when_keeps | with_reducible apply timStop_keeps
      | with_reducible apply onPd_keeps | with_reducible apply evMode_keeps
      | with_reducible apply onMux_keeps | with_reducible apply modeLeft_keeps
      | with_reducible apply finc_keeps | with_reducible apply setMux_keeps
      | with_reducible apply modeLost_keeps | with_reducible apply sendEngine_keeps
      | with_reducible apply Keeps.ite | with_reducible apply Keeps.foldl
    | intro _ | split

theorem State.sentWhole_keeps {a s : State} (h : Keeps a s) {v1 v2} : Keeps a (State.sentWhole s v1 v2) := by
  unfold State.sentWhole
  repeat' first
    | with_reducible assumption | with_reducible apply when_keeps
      | with_reducible apply swapBegin_keeps | with_reducible apply beginWait_keeps
      | with_reducible apply sendAcked_keeps | with_reducible apply complete_keeps
      | with_reducible apply acked_keeps | with_reducible apply Keeps.ite
      | with_reducible apply Keeps.foldl
    | intro _ | split

theorem State.goodCrc_keeps {a s : State} (h :
    Keeps a s) {v1 v2 v3} : Keeps a (State.goodCrc s v1 v2 v3) := by
  unfold State.goodCrc
  repeat' first
    | with_reducible assumption | with_reducible apply fset_keeps
      | with_reducible apply timStop_keeps | with_reducible apply cntEvent_keeps
      | with_reducible apply onPd_keeps | with_reducible apply timStart_keeps
      | with_reducible apply sentWhole_keeps | with_reducible apply Keeps.ite
      | with_reducible apply Keeps.foldl
    | intro _ | split

theorem State.discoverCable_keeps {a s : State} (h :
    Keeps a s) {v1} : Keeps a (State.discoverCable s v1) := by
  unfold State.discoverCable
  repeat' first
    | with_reducible assumption | with_reducible apply sendEngine_keeps

theorem State.txNext_keeps {a s : State} (h : Keeps a s) {v1} : Keeps a (State.txNext s v1) := by
  unfold State.txNext
  repeat' first
    | with_reducible assumption | with_reducible apply onPd_keeps | with_reducible apply when_keeps
      | with_reducible apply loadTx_keeps | with_reducible apply txOwn_keeps
      | with_reducible apply Keeps.ite | with_reducible apply Keeps.foldl
    | intro _ | split

theorem State.answering_keeps {a s : State} (h : Keeps a s) {p : Nat} {f : State → State}
    (hf : ∀ s, Keeps a s → Keeps a (f s)) : Keeps a (State.answering s p f) := by
  unfold State.answering
  exact State.onMux_keeps (State.onPd_keeps (hf s h))

theorem State.txFail_keeps {a s : State} (h : Keeps a s) {v1 v2} : Keeps a (State.txFail s v1 v2) := by
  unfold State.txFail
  repeat' first
    | with_reducible assumption | with_reducible apply linkEvent_keeps
      | with_reducible apply cntEvent_keeps | with_reducible apply fset_keeps
      | with_reducible apply onPd_keeps | with_reducible apply finish_keeps
      | with_reducible apply when_keeps | with_reducible apply softReset_keeps
      | with_reducible apply timStart_keeps | with_reducible apply finc_keeps
      | with_reducible apply entryOff_keeps | with_reducible apply modeLeft_keeps
      | with_reducible apply modeUnanswered_keeps | with_reducible apply hardReset_keeps
      | with_reducible apply cableReset_keeps | with_reducible apply Keeps.ite
      | with_reducible apply Keeps.foldl
    | intro _ | split

end Sys2Proof.Machine
end

