-- ==== Sys2Proof/Laws/KeepsPort.lean ====
section
/-!
SUPPORT. One lemma `<operation>_keeps` for each operation of attachment and the measuring hardware: it leaves the queue of waiting
commands as it was, and the tables in their canonical form.
-/
namespace Sys2Proof.Machine

open State

theorem State.shadowCheck_keeps {a s : State} (h :
    Keeps a s) {v1 v2 v3} : Keeps a (State.shadowCheck s v1 v2 v3) := by
  unfold State.shadowCheck
  repeat' first
    | with_reducible assumption | with_reducible apply onAtt_keeps | with_reducible apply when_keeps
      | with_reducible apply portSource_keeps | with_reducible apply attEv_keeps
      | with_reducible apply Keeps.ite | with_reducible apply Keeps.foldl
    | intro _

theorem State.attTimers_keeps {a s : State} (h : Keeps a s) {v1 v2} : Keeps a (State.attTimers s v1 v2) := by
  unfold State.attTimers
  repeat' first
    | with_reducible assumption | with_reducible apply onAtt_keeps

theorem State.setAtt_keeps {a s : State} (h : Keeps a s) {v1 v2} : Keeps a (State.setAtt s v1 v2) := by
  unfold State.setAtt
  repeat' first
    | with_reducible assumption | with_reducible apply when_keeps | with_reducible apply fset_keeps
      | with_reducible apply attEv_keeps | with_reducible apply onAtt_keeps
      | with_reducible apply attTimers_keeps | with_reducible apply Keeps.ite
      | with_reducible apply Keeps.foldl
    | intro _

theorem State.vconnEdge_keeps {a s : State} (h : Keeps a s) {v1} : Keeps a (State.vconnEdge s v1) := by
  unfold State.vconnEdge
  repeat' first
    | with_reducible assumption | with_reducible apply when_keeps
      | with_reducible apply cntEvent_keeps | with_reducible apply onAtt_keeps
      | with_reducible apply fset_keeps | with_reducible apply Keeps.ite
      | with_reducible apply Keeps.foldl
    | intro _

theorem State.attEvidence_keeps {a s : State} (h :
    Keeps a s) {v1 v2} : Keeps a (State.attEvidence s v1 v2) := by
  unfold State.attEvidence
  repeat' first
    | with_reducible assumption | with_reducible apply cntEvent_keeps
      | with_reducible apply when_keeps | with_reducible apply logRec_keeps
      | with_reducible apply Keeps.ite | with_reducible apply Keeps.foldl
    | intro _

theorem State.attOn_keeps {a s : State} (h : Keeps a s) {v1 v2} : Keeps a (State.attOn s v1 v2) := by
  unfold State.attOn
  repeat' first
    | with_reducible assumption | with_reducible apply fset_keeps
      | with_reducible apply setAtt_keeps | with_reducible apply latchAll_keeps
      | with_reducible apply when_keeps | with_reducible apply setMux_keeps
      | with_reducible apply defaultRoles_keeps | with_reducible apply noneWindow_keeps
      | with_reducible apply attEv_keeps | with_reducible apply onSw_keeps
      | with_reducible apply setLimFor_keeps | with_reducible apply timStart_keeps
      | with_reducible apply regStart_keeps | with_reducible apply vconnEdge_keeps
      | with_reducible apply wakeToEbb_keeps | with_reducible apply evAttach_keeps
      | with_reducible apply attEvidence_keeps | with_reducible apply Keeps.ite
      | with_reducible apply Keeps.foldl
    | intro _

theorem State.reportAcc_keeps {a s : State} (h : Keeps a s) {v1 v2} : Keeps a (State.reportAcc s v1 v2) := by
  unfold State.reportAcc
  repeat' first
    | with_reducible assumption | with_reducible apply when_keeps | with_reducible apply onAtt_keeps
      | with_reducible apply fset_keeps | with_reducible apply attEv_keeps
      | with_reducible apply Keeps.ite | with_reducible apply Keeps.foldl
    | intro _

theorem State.latchCccfg_keeps {a s : State} (h : Keeps a s) {v1} : Keeps a (State.latchCccfg s v1) := by
  unfold State.latchCccfg
  repeat' first
    | with_reducible assumption | with_reducible apply latchAll_keeps

theorem State.detachOff_keeps {a s : State} (h : Keeps a s) {v1} : Keeps a (State.detachOff s v1) := by
  unfold State.detachOff
  repeat' first
    | with_reducible assumption | with_reducible apply when_keeps
      | with_reducible apply operation_keeps | with_reducible apply openVconn_keeps
      | with_reducible apply fset_keeps | with_reducible apply onPwr_keeps
      | with_reducible apply detachLink_keeps | with_reducible apply Keeps.ite
      | with_reducible apply Keeps.foldl
    | intro _

theorem State.presetLatches_keeps {a s : State} (h :
    Keeps a s) {v1} : Keeps a (State.presetLatches s v1) := by
  unfold State.presetLatches
  repeat' first
    | with_reducible assumption | with_reducible apply onAtt_keeps | with_reducible apply fbit_keeps
      | with_reducible apply onAdc_keeps

theorem State.attOff_keeps {a s : State} (h : Keeps a s) {v1 v2} : Keeps a (State.attOff s v1 v2) := by
  unfold State.attOff
  repeat' first
    | with_reducible assumption | with_reducible apply latchCccfg_keeps
      | with_reducible apply detachOff_keeps | with_reducible apply when_keeps
      | with_reducible apply presetLatches_keeps | with_reducible apply fset_keeps
      | with_reducible apply setAtt_keeps | with_reducible apply wakeToEbb_keeps
      | with_reducible apply evAttach_keeps | with_reducible apply attEvidence_keeps
      | with_reducible apply Keeps.ite | with_reducible apply Keeps.foldl
    | intro _

theorem State.toUnattached_keeps {a s : State} (h : Keeps a s) {v1} : Keeps a (State.toUnattached s v1) := by
  unfold State.toUnattached
  repeat' first
    | with_reducible assumption | with_reducible apply attOff_keeps

theorem State.ccDebounced_keeps {a s : State} (h : Keeps a s) {v1} : Keeps a (State.ccDebounced s v1) := by
  unfold State.ccDebounced
  repeat' first
    | with_reducible assumption | with_reducible apply when_keeps
      | with_reducible apply setAtt_keeps | with_reducible apply attOn_keeps
      | with_reducible apply reportAcc_keeps | with_reducible apply toUnattached_keeps
      | with_reducible apply Keeps.ite | with_reducible apply Keeps.foldl
    | intro _ | split

theorem State.forceDone_keeps {a s : State} (h : Keeps a s) {v1} : Keeps a (State.forceDone s v1) := by
  unfold State.forceDone
  repeat' first
    | with_reducible assumption | with_reducible apply onAtt_keeps
      | with_reducible apply attEv_keeps | with_reducible apply complete_keeps
      | with_reducible apply reply_keeps | with_reducible apply Keeps.ite
      | with_reducible apply Keeps.foldl
    | intro _ | split | with_reducible apply Keeps.record

theorem State.pdDebounced_keeps {a s : State} (h : Keeps a s) {v1} : Keeps a (State.pdDebounced s v1) := by
  unfold State.pdDebounced
  repeat' first
    | with_reducible assumption | with_reducible apply when_keeps
      | with_reducible apply attOff_keeps | with_reducible apply Keeps.ite
      | with_reducible apply Keeps.foldl
    | intro _

theorem State.applyForce_keeps {a s : State} (h : Keeps a s) {v1} : Keeps a (State.applyForce s v1) := by
  unfold State.applyForce
  repeat' first
    | with_reducible assumption | with_reducible apply attOff_keeps
      | with_reducible apply endDefer_keeps | with_reducible apply when_keeps
      | with_reducible apply toUnattached_keeps | with_reducible apply forceDone_keeps
      | with_reducible apply Keeps.ite | with_reducible apply Keeps.foldl
    | intro _ | split

theorem State.scanBegin_keeps {a s : State} (h : Keeps a s) {v1} : Keeps a (State.scanBegin s v1) := by
  unfold State.scanBegin
  repeat' first
    | with_reducible assumption | with_reducible apply when_keeps | with_reducible apply onAtt_keeps
      | with_reducible apply Keeps.ite | with_reducible apply Keeps.foldl
    | intro _

theorem State.errRecovered_keeps {a s : State} (h : Keeps a s) {v1} : Keeps a (State.errRecovered s v1) := by
  unfold State.errRecovered
  repeat' first
    | with_reducible assumption | with_reducible apply when_keeps
      | with_reducible apply toUnattached_keeps | with_reducible apply Keeps.ite
      | with_reducible apply Keeps.foldl
    | intro _

theorem State.scanExits_keeps {a s : State} (h : Keeps a s) {v1} : Keeps a (State.scanExits s v1) := by
  unfold State.scanExits
  repeat' first
    | with_reducible assumption | with_reducible apply when_keeps
      | with_reducible apply setAtt_keeps | with_reducible apply attOff_keeps
      | with_reducible apply reportAcc_keeps | with_reducible apply toUnattached_keeps
      | with_reducible apply Keeps.ite | with_reducible apply Keeps.foldl
    | intro _ | split

theorem State.tryDebounced_keeps {a s : State} (h : Keeps a s) {v1} : Keeps a (State.tryDebounced s v1) := by
  unfold State.tryDebounced
  repeat' first
    | with_reducible assumption | with_reducible apply when_keeps | with_reducible apply attOn_keeps
      | with_reducible apply Keeps.ite | with_reducible apply Keeps.foldl
    | intro _ | split

theorem State.rpEdge_keeps {a s : State} (h : Keeps a s) {v1} : Keeps a (State.rpEdge s v1) := by
  unfold State.rpEdge
  repeat' first
    | with_reducible assumption | with_reducible apply onAtt_keeps

theorem State.forgetKind_keeps {a s : State} (h : Keeps a s) {v1} : Keeps a (State.forgetKind s v1) := by
  unfold State.forgetKind
  repeat' first
    | with_reducible assumption | with_reducible apply when_keeps | with_reducible apply fset_keeps
      | with_reducible apply Keeps.ite | with_reducible apply Keeps.foldl
    | intro _

theorem State.ccInUse_keeps {a s : State} (h : Keeps a s) {v1 v2} : Keeps a (State.ccInUse s v1 v2) := by
  unfold State.ccInUse
  repeat' first
    | with_reducible assumption | with_reducible apply fset_keeps

theorem State.compareCc_keeps {a s : State} (h :
    Keeps a s) {v1 v2 v3 v4} : Keeps a (State.compareCc s v1 v2 v3 v4) := by
  unfold State.compareCc
  repeat' first
    | with_reducible assumption | with_reducible apply onAtt_keeps

theorem State.scanEnd_keeps {a s : State} (h : Keeps a s) {v1} : Keeps a (State.scanEnd s v1) := by
  unfold State.scanEnd
  repeat' first
    | with_reducible assumption | with_reducible apply onAtt_keeps

theorem State.scanStep_keeps {a s : State} (h :
    Keeps a s) {v1 v2 v3 v4 v5} : Keeps a (State.scanStep s v1 v2 v3 v4 v5) := by
  unfold State.scanStep
  repeat' first
    | with_reducible assumption | with_reducible apply scanBegin_keeps
      | with_reducible apply ccInUse_keeps | with_reducible apply when_keeps
      | with_reducible apply compareCc_keeps | with_reducible apply onAtt_keeps
      | with_reducible apply scanEnd_keeps | with_reducible apply Keeps.ite
      | with_reducible apply Keeps.foldl
    | intro _

theorem State.applyRoleSw_keeps {a s : State} (h : Keeps a s) {v1} : Keeps a (State.applyRoleSw s v1) := by
  unfold State.applyRoleSw
  repeat' first
    | with_reducible assumption | with_reducible apply onAtt_keeps
      | with_reducible apply forceDone_keeps | with_reducible apply fset_keeps
      | with_reducible apply setAtt_keeps | with_reducible apply Keeps.ite

theorem State.openCount_keeps {a s : State} (h : Keeps a s) {v1} : Keeps a (State.openCount s v1) := by
  unfold State.openCount
  repeat' first
    | with_reducible assumption | with_reducible apply when_keeps | with_reducible apply onAtt_keeps
      | with_reducible apply Keeps.ite | with_reducible apply Keeps.foldl
    | intro _

theorem State.stability_keeps {a s : State} (h : Keeps a s) {v1} : Keeps a (State.stability s v1) := by
  unfold State.stability
  repeat' first
    | with_reducible assumption | with_reducible apply when_keeps
      | with_reducible apply forgetKind_keeps | with_reducible apply onAtt_keeps
      | with_reducible apply Keeps.ite | with_reducible apply Keeps.foldl
    | intro _

theorem State.accLeave_keeps {a s : State} (h : Keeps a s) {v1} : Keeps a (State.accLeave s v1) := by
  unfold State.accLeave
  repeat' first
    | with_reducible assumption | with_reducible apply attOff_keeps
      | with_reducible apply toUnattached_keeps | with_reducible apply Keeps.ite
      | with_reducible apply Keeps.foldl
    | intro _ | split

theorem State.attachEdge_keeps {a s : State} (h :
    Keeps a s) {v1 v2} : Keeps a (State.attachEdge s v1 v2) := by
  unfold State.attachEdge
  repeat' first
    | with_reducible assumption | with_reducible apply attOff_keeps
      | with_reducible apply onAtt_keeps | with_reducible apply applyForce_keeps
      | with_reducible apply applyRoleSw_keeps | with_reducible apply when_keeps
      | with_reducible apply openCount_keeps | with_reducible apply stability_keeps
      | with_reducible apply accLeave_keeps | with_reducible apply scanExits_keeps
      | with_reducible apply errRecovered_keeps | with_reducible apply ccDebounced_keeps
      | with_reducible apply tryDebounced_keeps | with_reducible apply Keeps.ite
      | with_reducible apply Keeps.foldl
    | intro _

theorem State.attShow_keeps {a s : State} (h : Keeps a s) {v1} : Keeps a (State.attShow s v1) := by
  unfold State.attShow
  repeat' first
    | with_reducible assumption | with_reducible apply fset_keeps | with_reducible apply when_keeps
      | with_reducible apply Keeps.ite | with_reducible apply Keeps.foldl
    | intro _

theorem State.attCount_keeps {a s : State} (h : Keeps a s) {v1} : Keeps a (State.attCount s v1) := by
  unfold State.attCount
  repeat' first
    | with_reducible assumption | with_reducible apply onAtt_keeps

theorem State.copyScan_keeps {a s : State} (h : Keeps a s) {v1} : Keeps a (State.copyScan s v1).1 := by
  unfold State.copyScan
  repeat' first
    | with_reducible assumption | with_reducible apply onAtt_keeps | with_reducible apply fset_keeps
      | with_reducible apply when_keeps | with_reducible apply cntEvent_keeps
      | with_reducible apply attEv_keeps | with_reducible apply Keeps.ite
      | with_reducible apply Keeps.foldl
    | intro _ | split

theorem State.calStart_keeps {a s : State} (h : Keeps a s) {v1} : Keeps a (State.calStart s v1) := by
  unfold State.calStart
  repeat' first
    | with_reducible assumption | with_reducible apply fset_keeps | with_reducible apply Keeps.ite
      | with_reducible apply Keeps.foldl
    | intro _ | split | with_reducible apply Keeps.record

theorem State.adjustTrims_keeps {a s : State} (h :
    Keeps a s) {v1 v2} : Keeps a (State.adjustTrims s v1 v2) := by
  unfold State.adjustTrims
  repeat' first
    | with_reducible assumption | with_reducible apply latch_keeps | with_reducible apply fset_keeps
      | with_reducible apply Keeps.ite | with_reducible apply Keeps.foldl
    | intro _

theorem State.calEnd_keeps {a s : State} (h : Keeps a s) {v1 v2} : Keeps a (State.calEnd s v1 v2) := by
  unfold State.calEnd
  repeat' first
    | with_reducible assumption | with_reducible apply fset_keeps
      | with_reducible apply hostEvent_keeps | with_reducible apply cntEvent_keeps
      | with_reducible apply completeAll_keeps | with_reducible apply Keeps.ite
      | with_reducible apply Keeps.foldl
    | intro _ | split | with_reducible apply Keeps.record

theorem State.calJudge_keeps {a s : State} (h : Keeps a s) {v1 v2} : Keeps a (State.calJudge s v1 v2) := by
  unfold State.calJudge
  repeat' first
    | with_reducible assumption | with_reducible apply fset_keeps
      | with_reducible apply adjustTrims_keeps | with_reducible apply portSource_keeps
      | with_reducible apply calEnd_keeps | with_reducible apply Keeps.ite

theorem State.setResult_keeps {a s : State} (h :
    Keeps a s) {v1 v2 v3 v4 v5} : Keeps a (State.setResult s v1 v2 v3 v4 v5) := by
  unfold State.setResult
  repeat' first
    | with_reducible assumption | with_reducible apply fset_keeps | with_reducible apply when_keeps
      | with_reducible apply cntEvent_keeps | with_reducible apply Keeps.ite
      | with_reducible apply Keeps.foldl
    | intro _

theorem State.dieResult_keeps {a s : State} (h : Keeps a s) {v1 v2} : Keeps a (State.dieResult s v1 v2) := by
  unfold State.dieResult
  repeat' first
    | with_reducible assumption | with_reducible apply onAdc_keeps | with_reducible apply when_keeps
      | with_reducible apply weirCond_keeps | with_reducible apply Keeps.ite
      | with_reducible apply Keeps.foldl
    | intro _

theorem State.railResult_keeps {a s : State} (h :
    Keeps a s) {v1 v2} : Keeps a (State.railResult s v1 v2) := by
  unfold State.railResult
  repeat' first
    | with_reducible assumption | with_reducible apply setResult_keeps
      | with_reducible apply onPwr_keeps | with_reducible apply onAdc_keeps

theorem State.isnsResult_keeps {a s : State} (h :
    Keeps a s) {v1 v2 v3} : Keeps a (State.isnsResult s v1 v2 v3) := by
  unfold State.isnsResult
  repeat' first
    | with_reducible assumption | with_reducible apply setResult_keeps
      | with_reducible apply fset_keeps | with_reducible apply onPwr_keeps
      | with_reducible apply onAdc_keeps

theorem State.vbusResult_keeps {a s : State} (h :
    Keeps a s) {v1 v2 v3} : Keeps a (State.vbusResult s v1 v2 v3) := by
  unfold State.vbusResult
  repeat' first
    | with_reducible assumption | with_reducible apply setResult_keeps
      | with_reducible apply onAdc_keeps | with_reducible apply onPwr_keeps

theorem State.ntcResult_keeps {a s : State} (h : Keeps a s) {v1 v2} : Keeps a (State.ntcResult s v1 v2) := by
  unfold State.ntcResult
  repeat' first
    | with_reducible assumption | with_reducible apply onAdc_keeps
      | with_reducible apply weirCond_keeps | with_reducible apply when_keeps
      | with_reducible apply pwrEv_keeps | with_reducible apply enterTripped_keeps
      | with_reducible apply Keeps.ite | with_reducible apply Keeps.foldl
    | intro _

theorem State.copyCmp_keeps {a s : State} (h : Keeps a s) {v1} : Keeps a (State.copyCmp s v1) := by
  unfold State.copyCmp
  repeat' first
    | with_reducible assumption | with_reducible apply fset_keeps | with_reducible apply onAdc_keeps

theorem State.checkResult_keeps {a s : State} (h :
    Keeps a s) {v1 v2} : Keeps a (State.checkResult s v1 v2) := by
  unfold State.checkResult
  repeat' first
    | with_reducible assumption | with_reducible apply onAdc_keeps
      | with_reducible apply weirCond_keeps

theorem State.auxResult_keeps {a s : State} (h :
    Keeps a s) {v1 v2 v3} : Keeps a (State.auxResult s v1 v2 v3) := by
  unfold State.auxResult
  repeat' first
    | with_reducible assumption | with_reducible apply setResult_keeps
      | with_reducible apply when_keeps | with_reducible apply ntcResult_keeps
      | with_reducible apply dieResult_keeps | with_reducible apply checkResult_keeps
      | with_reducible apply Keeps.ite | with_reducible apply Keeps.foldl
    | intro _

theorem State.calAbandon_keeps {a s : State} (h : Keeps a s) : Keeps a (State.calAbandon s) := by
  unfold State.calAbandon
  repeat' first
    | with_reducible assumption | with_reducible apply when_keeps
      | with_reducible apply calEnd_keeps | with_reducible apply fset_keeps
      | with_reducible apply Keeps.ite | with_reducible apply Keeps.foldl
    | intro _

end Sys2Proof.Machine
end

