-- ==== Sys2Proof/Laws/KeepsUnit.lean ====
section
/-!
SUPPORT. One lemma `<operation>_keeps` for each operation of the runtime, evidence, OTP, presence and the register file: it leaves the queue of waiting
commands as it was, and the tables in their canonical form.
-/
namespace Sys2Proof.Machine

open State

theorem State.onMbx_keeps {a s : State} (h : Keeps a s) {v1 v2} : Keeps a (State.onMbx s v1 v2) := by
  unfold State.onMbx
  repeat' first
    | with_reducible assumption | with_reducible apply Keeps.ite | with_reducible apply Keeps.foldl
    | intro _ | split | with_reducible apply Keeps.record

theorem State.mbxEv_keeps {a s : State} (h : Keeps a s) {v1 v2} : Keeps a (State.mbxEv s v1 v2) := by
  unfold State.mbxEv
  repeat' first
    | with_reducible assumption | with_reducible apply onMbx_keeps

theorem State.wake_keeps {a s : State} (h : Keeps a s) {v1} : Keeps a (State.wake s v1) := by
  unfold State.wake
  repeat' first
    | with_reducible assumption | with_reducible apply onEngine_keeps

theorem State.mbxPush_keeps {a s : State} (h : Keeps a s) {v1} : Keeps a (State.mbxPush s v1) := by
  unfold State.mbxPush
  repeat' first
    | with_reducible assumption | with_reducible apply mbxEv_keeps | with_reducible apply when_keeps
      | with_reducible apply cntEvent_keeps | with_reducible apply onMbx_keeps
      | with_reducible apply wake_keeps | with_reducible apply Keeps.ite
      | with_reducible apply Keeps.foldl
    | intro _ | split | with_reducible apply Keeps.record

theorem State.mbxAckTo_keeps {a s : State} (h : Keeps a s) {v1 v2} : Keeps a (State.mbxAckTo s v1 v2) := by
  unfold State.mbxAckTo
  repeat' first
    | with_reducible assumption | with_reducible apply onMbx_keeps

theorem State.mbxFail_keeps {a s : State} (h : Keeps a s) {id n : Nat} : Keeps a (State.mbxFail s id n) := by
  induction n generalizing s with
  | zero => exact h
  | succ n ih => exact ih (State.mbxAckTo_keeps h)

theorem State.mbxReset_keeps {a s : State} (h : Keeps a s) {v1} : Keeps a (State.mbxReset s v1) := by
  unfold State.mbxReset
  repeat' first
    | with_reducible assumption | with_reducible apply mbxEv_keeps
      | with_reducible apply mbxFail_keeps | with_reducible apply onMbx_keeps

theorem State.engineReset_keeps {a s : State} (h : Keeps a s) {v1} : Keeps a (State.engineReset s v1) := by
  unfold State.engineReset
  repeat' first
    | with_reducible assumption | with_reducible apply onEngine_keeps

theorem State.setLock_keeps {a s : State} (h : Keeps a s) {v1 v2} : Keeps a (State.setLock s v1 v2) := by
  unfold State.setLock
  repeat' first
    | with_reducible assumption | with_reducible apply Keeps.ite | with_reducible apply Keeps.foldl
    | intro _ | split | with_reducible apply Keeps.record

theorem State.rillReset_keeps {a s : State} (h : Keeps a s) {v1} : Keeps a (State.rillReset s v1) := by
  unfold State.rillReset
  repeat' first
    | with_reducible assumption | with_reducible apply mbxReset_keeps
      | with_reducible apply dropUrgent_keeps | with_reducible apply engineReset_keeps
      | with_reducible apply onMbx_keeps | with_reducible apply forEach_keeps
      | with_reducible apply when_keeps | with_reducible apply setLock_keeps
      | with_reducible apply Keeps.ite | with_reducible apply Keeps.foldl
    | intro _

theorem State.lockRelease_keeps {a s : State} (h :
    Keeps a s) {v1 v2 v3} : Keeps a (State.lockRelease s v1 v2 v3) := by
  unfold State.lockRelease
  repeat' first
    | with_reducible assumption | with_reducible apply setLock_keeps
      | with_reducible apply Keeps.ite | with_reducible apply Keeps.foldl
    | intro _ | split | with_reducible apply Keeps.record

theorem State.otpCut_keeps {a s : State} (h : Keeps a s) : Keeps a (State.otpCut s) := by
  unfold State.otpCut
  repeat' first
    | with_reducible assumption | with_reducible apply draw_keeps | with_reducible apply Keeps.ite
      | with_reducible apply Keeps.foldl
    | intro _ | split | with_reducible apply Keeps.record

theorem State.keepStraps_keeps {a s n : State} (h : Keeps a n) : Keeps a (State.keepStraps s n) :=
  State.fset_keeps (State.fset_keeps (State.fset_keeps (State.rput_keeps h)))

theorem State.lockTake_keeps {a s : State} (h : Keeps a s) {v1 v2} : Keeps a (State.lockTake s v1 v2).2 := by
  unfold State.lockTake
  repeat' first
    | with_reducible assumption | with_reducible apply setLock_keeps
      | with_reducible apply Keeps.ite | with_reducible apply Keeps.foldl
    | intro _ | split

theorem State.mbxAckIn_keeps {a s : State} (h : Keeps a s) {v1} : Keeps a (State.mbxAckIn s v1) := by
  unfold State.mbxAckIn
  repeat' first
    | with_reducible assumption | with_reducible apply onMbx_keeps

theorem State.stallSource_keeps {a s : State} (h : Keeps a s) {v1} : Keeps a (State.stallSource s v1) := by
  unfold State.stallSource
  repeat' first
    | with_reducible assumption | with_reducible apply unitSource_keeps
      | with_reducible apply portSource_keeps | with_reducible apply Keeps.ite
      | with_reducible apply Keeps.foldl
    | intro _ | split

theorem State.mbxPop_keeps {a s : State} (h : Keeps a s) {v1} : Keeps a (State.mbxPop s v1) := by
  unfold State.mbxPop
  repeat' first
    | with_reducible assumption | with_reducible apply mbxEv_keeps
      | with_reducible apply onMbx_keeps | with_reducible apply Keeps.ite
      | with_reducible apply Keeps.foldl
    | intro _ | split

theorem State.holdReset_keeps {a s : State} (h : Keeps a s) : Keeps a (State.holdReset s) := by
  unfold State.holdReset
  repeat' first
    | with_reducible assumption | with_reducible apply fset_keeps | with_reducible apply Keeps.ite
      | with_reducible apply Keeps.foldl
    | intro _ | split | with_reducible apply Keeps.record

theorem State.mbxAges_keeps {a s : State} (h : Keeps a s) : Keeps a (State.mbxAges s) := by
  unfold State.mbxAges
  repeat' first
    | with_reducible assumption | with_reducible apply forEach_keeps
      | with_reducible apply when_keeps | with_reducible apply onMbx_keeps
      | with_reducible apply Keeps.ite | with_reducible apply Keeps.foldl
    | intro _ | split | with_reducible apply Keeps.record

theorem State.flashCut_keeps {a s : State} (h : Keeps a s) : Keeps a (State.flashCut s) := by
  unfold State.flashCut
  split
  · exact h
  · extract_lets front
    have hf : ∀ t x b, Keeps a t → Keeps a (front t x b) := fun _ _ _ k =>
      State.flashProgram_keeps (State.draw_keeps k) _
    clear_value front
    split
    · refine Keeps.foldl _ h fun t e k => Keeps.ite (State.flashPut_keeps (State.draw_keeps k)) k
    · exact hf _ _ _ h
    · exact hf _ _ _ (State.flashErase_keeps h)

theorem State.unitReset_keeps {a s : State} (h : Keeps a s) {cause : Nat} :
    Keeps a (State.unitReset s cause) := by
  unfold State.unitReset
  extract_lets t ur keep o pins n n1
  have ht : Keeps a t := State.flashCut_keeps (State.otpCut_keeps h)
  have hn : Keeps t n := by
    refine ⟨rfl, fun k => ⟨?_, Tab.rising_filter _ k.2.1, rfl⟩⟩
    have := k.1
    simp only [Memory.wf, Bool.and_eq_true] at this ⊢
    exact ⟨Tab.wf_filter _ _ this.1, this.2⟩
  exact State.fset_keeps (State.fset_keeps (State.when_keeps (ht.trans hn) fun _ k => State.keepStraps_keeps k))

theorem State.mbxAck_keeps {a s : State} (h : Keeps a s) {v1 v2} : Keeps a (State.mbxAck s v1 v2) := by
  unfold State.mbxAck
  repeat' first
    | with_reducible assumption | with_reducible apply mbxEv_keeps
      | with_reducible apply mbxAckTo_keeps | with_reducible apply onMbx_keeps
      | with_reducible apply Keeps.ite

theorem State.setRelWin_keeps {a s : State} (h : Keeps a s) {v1 v2} : Keeps a (State.setRelWin s v1 v2) := by
  unfold State.setRelWin
  repeat' first
    | with_reducible assumption | with_reducible apply fset_keeps | with_reducible apply Keeps.ite
      | with_reducible apply Keeps.foldl
    | intro _ | split | with_reducible apply Keeps.record

theorem State.leftRecord_keeps {a s : State} (h :
    Keeps a s) {v1 v2 v3} : Keeps a (State.leftRecord s v1 v2 v3) := by
  unfold State.leftRecord
  repeat' first
    | with_reducible assumption | with_reducible apply when_keeps
      | with_reducible apply logRec_keeps | with_reducible apply Keeps.ite
      | with_reducible apply Keeps.foldl
    | intro _

theorem State.wdgCount_keeps {a s : State} (h : Keeps a s) {v1 v2} : Keeps a (State.wdgCount s v1 v2) := by
  unfold State.wdgCount
  repeat' first
    | with_reducible assumption | with_reducible apply fset_keeps | with_reducible apply finc_keeps

theorem State.onWdg_keeps {a s : State} (h : Keeps a s) {v1 v2} : Keeps a (State.onWdg s v1 v2) := by
  unfold State.onWdg
  repeat' first
    | with_reducible assumption | with_reducible apply Keeps.ite | with_reducible apply Keeps.foldl
    | intro _ | split | with_reducible apply Keeps.record

theorem State.wdgReset_keeps {a s : State} (h : Keeps a s) {v1 v2} : Keeps a (State.wdgReset s v1 v2) := by
  unfold State.wdgReset
  repeat' first
    | with_reducible assumption | with_reducible apply wdgCount_keeps
      | with_reducible apply unitReset_keeps | with_reducible apply fset_keeps
      | with_reducible apply rillReset_keeps | with_reducible apply onWdg_keeps
      | with_reducible apply unitSource_keeps | with_reducible apply hostEvent_keeps
      | with_reducible apply logRec_keeps | with_reducible apply Keeps.ite
      | with_reducible apply Keeps.foldl
    | intro _ | split | with_reducible apply Keeps.record

theorem State.faultRelease_keeps {a s : State} (h : Keeps a s) : Keeps a (State.faultRelease s) := by
  unfold State.faultRelease
  repeat' first
    | with_reducible assumption | with_reducible apply refreshFault_keeps
      | with_reducible apply fset_keeps

theorem State.wdgCheckIn_keeps {a s : State} (h :
    Keeps a s) {v1 v2} : Keeps a (State.wdgCheckIn s v1 v2) := by
  unfold State.wdgCheckIn
  repeat' first
    | with_reducible assumption | with_reducible apply when_keeps
      | with_reducible apply cntEvent_keeps | with_reducible apply fset_keeps
      | with_reducible apply Keeps.ite | with_reducible apply Keeps.foldl
    | intro _

theorem State.leavePort_keeps {a s : State} (h : Keeps a s) {v1} : Keeps a (State.leavePort s v1) := by
  unfold State.leavePort
  repeat' first
    | with_reducible assumption | with_reducible apply finc_keeps | with_reducible apply fset_keeps
      | with_reducible apply setReact_keeps

theorem State.leaveReaction_keeps {a s : State} (h :
    Keeps a s) {v1 v2} : Keeps a (State.leaveReaction s v1 v2) := by
  unfold State.leaveReaction
  repeat' first
    | with_reducible assumption | with_reducible apply leftRecord_keeps
      | with_reducible apply cntEvent_keeps | with_reducible apply leavePort_keeps
      | with_reducible apply finc_keeps | with_reducible apply unitReset_keeps
      | with_reducible apply fset_keeps | with_reducible apply setReact_keeps
      | with_reducible apply forPorts_keeps | with_reducible apply when_keeps
      | with_reducible apply Keeps.ite | with_reducible apply Keeps.foldl
    | intro _

theorem State.wdgWindow_keeps {a s : State} (h : Keeps a s) {v1 v2} : Keeps a (State.wdgWindow s v1 v2) := by
  unfold State.wdgWindow
  repeat' first
    | with_reducible assumption | with_reducible apply fset_keeps | with_reducible apply onWdg_keeps

theorem State.wdgService_keeps {a s : State} (h :
    Keeps a s) {v1 v2} : Keeps a (State.wdgService s v1 v2) := by
  unfold State.wdgService
  repeat' first
    | with_reducible assumption | with_reducible apply fset_keeps | with_reducible apply onWdg_keeps
      | with_reducible apply cntEvent_keeps | with_reducible apply wdgWindow_keeps
      | with_reducible apply Keeps.ite

theorem State.wdgEdge_keeps {a s : State} (h : Keeps a s) {v1 v2} : Keeps a (State.wdgEdge s v1 v2) := by
  unfold State.wdgEdge
  repeat' first
    | with_reducible assumption | with_reducible apply onWdg_keeps
      | with_reducible apply wdgReset_keeps | with_reducible apply fset_keeps
      | with_reducible apply when_keeps | with_reducible apply wdgWindow_keeps
      | with_reducible apply Keeps.ite | with_reducible apply Keeps.foldl
    | intro _

theorem State.quietEdge_keeps {a s : State} (h : Keeps a s) {v1} : Keeps a (State.quietEdge s v1) := by
  unfold State.quietEdge
  repeat' first
    | with_reducible assumption | with_reducible apply setReact_keeps
      | with_reducible apply Keeps.ite

theorem State.weirEdge_keeps {a s : State} (h : Keeps a s) : Keeps a (State.weirEdge s) := by
  unfold State.weirEdge
  repeat' first
    | with_reducible assumption | with_reducible apply forEach_keeps
      | with_reducible apply quietEdge_keeps | with_reducible apply Keeps.ite
      | with_reducible apply Keeps.foldl
    | intro _ | split | with_reducible apply Keeps.record

theorem State.faultReleaseWrite_keeps {a s : State} (h :
    Keeps a s) : Keeps a (State.faultReleaseWrite s) := by
  unfold State.faultReleaseWrite
  repeat' first
    | with_reducible assumption | with_reducible apply faultRelease_keeps
      | with_reducible apply Keeps.ite | with_reducible apply Keeps.foldl
    | intro _ | split | with_reducible apply Keeps.record

theorem State.quietOver_keeps {a s : State} (h : Keeps a s) {v1} : Keeps a (State.quietOver s v1) := by
  unfold State.quietOver
  repeat' first
    | with_reducible assumption | with_reducible apply setReact_keeps
      | with_reducible apply unitSource_keeps | with_reducible apply leftRecord_keeps
      | with_reducible apply fset_keeps | with_reducible apply leaveReaction_keeps
      | with_reducible apply setRelWin_keeps | with_reducible apply Keeps.ite

theorem State.wdgResume_keeps {a s : State} (h : Keeps a s) {v1} : Keeps a (State.wdgResume s v1) := by
  unfold State.wdgResume
  repeat' first
    | with_reducible assumption | with_reducible apply onWdg_keeps | with_reducible apply fset_keeps
      | with_reducible apply Keeps.ite | with_reducible apply Keeps.foldl
    | intro _ | split | with_reducible apply Keeps.record

theorem State.setMarginal_keeps {a s : State} (h :
    Keeps a s) {v1 v2} : Keeps a (State.setMarginal s v1 v2) := by
  unfold State.setMarginal
  repeat' first
    | with_reducible assumption | with_reducible apply fbit_keeps

theorem State.otpStart_keeps {a s : State} (h : Keeps a s) {v1} : Keeps a (State.otpStart s v1) := by
  unfold State.otpStart
  repeat' first
    | with_reducible assumption | with_reducible apply fset_keeps | with_reducible apply Keeps.ite
      | with_reducible apply Keeps.foldl
    | intro _ | split | with_reducible apply Keeps.record

theorem State.otpCtl_keeps {a s : State} (h : Keeps a s) {v1 v2} : Keeps a (State.otpCtl s v1 v2) := by
  unfold State.otpCtl
  repeat' first
    | with_reducible assumption | with_reducible apply fset_keeps
      | with_reducible apply otpStart_keeps | with_reducible apply Keeps.ite
      | with_reducible apply Keeps.foldl
    | intro _ | split | with_reducible apply Keeps.record

theorem State.otpReply_keeps {a s : State} (h : Keeps a s) {v1 v2} : Keeps a (State.otpReply s v1 v2) := by
  unfold State.otpReply
  repeat' first
    | with_reducible assumption | with_reducible apply reply_keeps
      | with_reducible apply logRec_keeps | with_reducible apply Keeps.ite
      | with_reducible apply Keeps.foldl
    | intro _ | split

theorem State.otpDone_keeps {a s : State} (h : Keeps a s) {v1 v2} : Keeps a (State.otpDone s v1 v2) := by
  unfold State.otpDone
  repeat' first
    | with_reducible assumption | with_reducible apply otpReply_keeps
      | with_reducible apply fset_keeps | with_reducible apply Keeps.ite
      | with_reducible apply Keeps.foldl
    | intro _ | split | with_reducible apply Keeps.record

theorem State.showControl_keeps {a s : State} (h : Keeps a s) : Keeps a (State.showControl s) := by
  unfold State.showControl
  repeat' first
    | with_reducible assumption | with_reducible apply fset_keeps

theorem State.blowControl_keeps {a s : State} (h :
    Keeps a s) {v1 v2 v3} : Keeps a (State.blowControl s v1 v2 v3) := by
  unfold State.blowControl
  repeat' first
    | with_reducible assumption | with_reducible apply showControl_keeps
      | with_reducible apply Keeps.ite | with_reducible apply Keeps.foldl
    | intro _ | split | with_reducible apply Keeps.record

theorem State.blowWord_keeps {a s : State} (h :
    Keeps a s) {v1 v2 v3 v4} : Keeps a (State.blowWord s v1 v2 v3 v4) := by
  unfold State.blowWord
  repeat' first
    | with_reducible assumption | with_reducible apply fset_keeps
      | with_reducible apply setMarginal_keeps | with_reducible apply Keeps.ite
      | with_reducible apply Keeps.foldl
    | intro _ | split | with_reducible apply Keeps.record

theorem State.showLife_keeps {a s : State} (h : Keeps a s) : Keeps a (State.showLife s) := by
  unfold State.showLife
  repeat' first
    | with_reducible assumption | with_reducible apply fset_keeps

theorem State.otpEnd_keeps {a s : State} (h : Keeps a s) {v1 v2 v3} : Keeps a (State.otpEnd s v1 v2 v3) := by
  unfold State.otpEnd
  repeat' first
    | with_reducible assumption | with_reducible apply when_keeps
      | with_reducible apply cntEvent_keeps | with_reducible apply otpDone_keeps
      | with_reducible apply fset_keeps | with_reducible apply blowControl_keeps
      | with_reducible apply blowWord_keeps | with_reducible apply showLife_keeps
      | with_reducible apply Keeps.ite | with_reducible apply Keeps.foldl
    | intro _ | split

theorem State.defaultRegion_keeps {a s : State} (h :
    Keeps a s) {v1} : Keeps a (State.defaultRegion s v1) := by
  unfold State.defaultRegion
  repeat' first
    | with_reducible assumption | with_reducible apply unitSource_keeps
      | with_reducible apply fbit_keeps | with_reducible apply Keeps.ite
      | with_reducible apply Keeps.foldl
    | intro _ | split | with_reducible apply Keeps.record

theorem State.judgeRegion_keeps {a s : State} (h : Keeps a s) {v1} : Keeps a (State.judgeRegion s v1) := by
  unfold State.judgeRegion
  repeat' first
    | with_reducible assumption | with_reducible apply holdReset_keeps
      | with_reducible apply unitSource_keeps | with_reducible apply defaultRegion_keeps
      | with_reducible apply fbit_keeps | with_reducible apply Keeps.ite

theorem State.otpBoot_keeps {a s : State} (h : Keeps a s) {v1 v2} : Keeps a (State.otpBoot s v1 v2) := by
  unfold State.otpBoot
  repeat' first
    | with_reducible assumption | with_reducible apply showLife_keeps
      | with_reducible apply showControl_keeps | with_reducible apply forEach_keeps
      | with_reducible apply cntEvent_keeps | with_reducible apply setMarginal_keeps
      | with_reducible apply when_keeps | with_reducible apply unitSource_keeps
      | with_reducible apply judgeRegion_keeps | with_reducible apply fset_keeps
      | with_reducible apply Keeps.ite | with_reducible apply Keeps.foldl
    | intro _ | split | with_reducible apply Keeps.record

theorem State.presRecord_keeps {a s : State} (h : Keeps a s) {v1} : Keeps a (State.presRecord s v1) := by
  unfold State.presRecord
  repeat' first
    | with_reducible assumption | with_reducible apply logRec_keeps

theorem State.presLeft_keeps {a s : State} (h : Keeps a s) : Keeps a (State.presLeft s) := by
  unfold State.presLeft
  repeat' first
    | with_reducible assumption | with_reducible apply fset_keeps

theorem State.presGrant_keeps {a s : State} (h : Keeps a s) {v1} : Keeps a (State.presGrant s v1) := by
  unfold State.presGrant
  repeat' first
    | with_reducible assumption | with_reducible apply presLeft_keeps
      | with_reducible apply fset_keeps | with_reducible apply hostEvent_keeps
      | with_reducible apply presRecord_keeps | with_reducible apply Keeps.ite
      | with_reducible apply Keeps.foldl
    | intro _ | split | with_reducible apply Keeps.record

theorem State.presLow_keeps {a s : State} (h : Keeps a s) : Keeps a (State.presLow s) := by
  unfold State.presLow
  repeat' first
    | with_reducible assumption | with_reducible apply presGrant_keeps
      | with_reducible apply presRecord_keeps | with_reducible apply fset_keeps
      | with_reducible apply Keeps.ite | with_reducible apply Keeps.foldl
    | intro _ | split | with_reducible apply Keeps.record

theorem State.presHigh_keeps {a s : State} (h : Keeps a s) : Keeps a (State.presHigh s) := by
  unfold State.presHigh
  repeat' first
    | with_reducible assumption | with_reducible apply presGrant_keeps
      | with_reducible apply Keeps.ite | with_reducible apply Keeps.foldl
    | intro _ | split | with_reducible apply Keeps.record

theorem State.presEnd_keeps {a s : State} (h : Keeps a s) : Keeps a (State.presEnd s) := by
  unfold State.presEnd
  repeat' first
    | with_reducible assumption | with_reducible apply presLeft_keeps
      | with_reducible apply fset_keeps | with_reducible apply hostEvent_keeps
      | with_reducible apply presRecord_keeps | with_reducible apply Keeps.ite
      | with_reducible apply Keeps.foldl
    | intro _ | split | with_reducible apply Keeps.record

theorem State.presEdge_keeps {a s : State} (h : Keeps a s) {v1} : Keeps a (State.presEdge s v1) := by
  unfold State.presEdge
  repeat' first
    | with_reducible assumption | with_reducible apply when_keeps
      | with_reducible apply presRecord_keeps | with_reducible apply fset_keeps
      | with_reducible apply presEnd_keeps | with_reducible apply presLeft_keeps
      | with_reducible apply Keeps.ite | with_reducible apply Keeps.foldl
    | intro _ | split | with_reducible apply Keeps.record

theorem State.closeWindow_keeps {a s : State} (h : Keeps a s) {v1} : Keeps a (State.closeWindow s v1) := by
  unfold State.closeWindow
  repeat' first
    | with_reducible assumption | with_reducible apply onIdx_keeps | with_reducible apply Keeps.ite

theorem mem_mergeTabs {n : Nat} {a b : Tab Nat} {e : Nat × Nat} (h : e ∈ State.mergeTabs n a b) :
    e ∈ a ∨ e ∈ b := by
  induction n generalizing a b with
  | zero => simpa [State.mergeTabs] using h
  | succ n ih =>
    cases a with
    | nil => exact .inr (by simpa [State.mergeTabs] using h)
    | cons x a =>
      cases b with
      | nil => exact .inl (by simpa [State.mergeTabs] using h)
      | cons y b =>
        simp only [State.mergeTabs] at h
        split at h
        · rcases List.mem_cons.1 h with rfl | h
          · simp
          · rcases ih h with h | h
            · exact .inl (List.mem_cons_of_mem _ h)
            · exact .inr h
        · rcases List.mem_cons.1 h with rfl | h
          · simp
          · rcases ih h with h | h
            · exact .inl h
            · exact .inr (List.mem_cons_of_mem _ h)

theorem rising_mergeTabs {n : Nat} {a b : Tab Nat} (hn : a.length + b.length ≤ n)
    (hd : ∀ x ∈ a, ∀ y ∈ b, x.1 ≠ y.1) (ha : Tab.rising a = true) (hb : Tab.rising b = true) :
    Tab.rising (State.mergeTabs n a b) = true := by
  induction n generalizing a b with
  | zero =>
    obtain rfl : a = [] := List.length_eq_zero_iff.1 (by omega)
    simpa [State.mergeTabs] using hb
  | succ n ih =>
    cases a with
    | nil => simpa [State.mergeTabs] using hb
    | cons x a =>
      cases b with
      | nil => simpa [State.mergeTabs] using ha
      | cons y b =>
        have ha' := (Tab.rising_cons _ _ _).1 ha
        have hb' := (Tab.rising_cons _ _ _).1 hb
        simp only [List.length_cons] at hn
        simp only [State.mergeTabs]
        split
        · rename_i hlt
          refine (Tab.rising_cons _ _ _).2 ⟨fun e he => ?_, ih (by simp only [List.length_cons]; omega)
            (fun e he => hd e (List.mem_cons_of_mem _ he)) ha'.2 hb⟩
          rcases mem_mergeTabs he with he | he
          · exact ha'.1 e he
          · rcases List.mem_cons.1 he with rfl | he
            · exact hlt
            · exact hlt.trans (hb'.1 e he)
        · rename_i hge
          have hne := hd x (by simp) y (by simp)
          refine (Tab.rising_cons _ _ _).2 ⟨fun e he => ?_, ih (by simp only [List.length_cons]; omega)
            (fun e he z hz => hd e he z (List.mem_cons_of_mem _ hz)) ha hb'.2⟩
          rcases mem_mergeTabs he with he | he
          · rcases List.mem_cons.1 he with rfl | he
            · omega
            · have := ha'.1 e he
              omega
          · exact hb'.1 e he

theorem State.latchEdge_keeps {a s : State} (h : Keeps a s) : Keeps a (State.latchEdge s) := by
  unfold State.latchEdge
  refine Keeps.foldl _ (h.trans ⟨rfl, fun k => ⟨k.1, k.2.1, ?_⟩⟩) fun _ _ k => State.closeWindow_keeps k
  refine rising_mergeTabs (Nat.le_refl _) (fun x hx y hy e => ?_) (Tab.rising_filter _ k.2.2)
    (Tab.rising_filter _ k.2.1)
  have h1 := (List.mem_filter.1 hx).2
  have h2 := (List.mem_filter.1 hy).2
  rw [e] at h1
  simp [h2] at h1

theorem State.cfgPort_keeps {a s : State} (h : Keeps a s) {p : Nat} : Keeps a (State.cfgPort s p) :=
  Keeps.foldl _ h fun _ _ k => Keeps.foldl _ k fun _ _ k => Keeps.ite (State.fset_keeps k) k

theorem State.regCleared_keeps {a s : State} (h : Keeps a s) {r : Reg} {i m : Nat} :
    Keeps a (State.regCleared s r i m) :=
  Keeps.foldl _ h fun _ _ k => Keeps.ite (State.fset_keeps k) k

theorem State.fieldWrite_keeps {a s : State} (h :
    Keeps a s) {v1 v2 v3 v4 v5 v6} : Keeps a (State.fieldWrite s v1 v2 v3 v4 v5 v6) := by
  unfold State.fieldWrite
  repeat' first
    | with_reducible assumption | with_reducible apply fset_keeps | with_reducible apply Keeps.ite
      | with_reducible apply Keeps.foldl
    | intro _ | split

theorem State.regStore_keeps {a s : State} (h :
    Keeps a s) {v1 v2 v3 v4 v5} : Keeps a (State.regStore s v1 v2 v3 v4 v5) := by
  unfold State.regStore
  repeat' first
    | with_reducible assumption | with_reducible apply fieldWrite_keeps
      | with_reducible apply Keeps.ite | with_reducible apply Keeps.foldl
    | intro _

end Sys2Proof.Machine
end

