-- ==== Sys2Proof/Laws/KeepsPair.lean ====
section
/-!
SUPPORT. One lemma `<operation>_keeps` for each operation of the mirror, the pair link, handovers, flash and the banks: it leaves the queue of waiting
commands as it was, and the tables in their canonical form.
-/
namespace Sys2Proof.Machine

open State

theorem State.shadowThresholds_keeps {a s : State} (h :
    Keeps a s) {v1} : Keeps a (State.shadowThresholds s v1) := by
  unfold State.shadowThresholds
  repeat' first
    | with_reducible assumption | with_reducible apply fset_keeps

theorem State.loadWords_keeps {a s : State} (h : Keeps a s) {v1} : Keeps a (State.loadWords s v1) := by
  unfold State.loadWords
  repeat' first
    | with_reducible assumption | with_reducible apply fset_keeps | with_reducible apply rput_keeps
      | with_reducible apply latchAll_keeps | with_reducible apply setSoppEn_keeps
      | with_reducible apply shadowThresholds_keeps | with_reducible apply onMux_keeps
      | with_reducible apply onAtt_keeps | with_reducible apply onSw_keeps
      | with_reducible apply Keeps.ite | with_reducible apply Keeps.foldl
    | intro _

theorem State.firstReads_keeps {a s : State} (h : Keeps a s) {v1} : Keeps a (State.firstReads s v1) := by
  unfold State.firstReads
  repeat' first
    | with_reducible assumption | with_reducible apply when_keeps | with_reducible apply onReg_keeps
      | with_reducible apply Keeps.ite | with_reducible apply Keeps.foldl
    | intro _

theorem State.mirrorCopy_keeps {a s : State} (h : Keeps a s) {x y n : Nat} :
    Keeps a (State.mirrorCopy s x y n) := by
  unfold State.mirrorCopy
  refine Keeps.foldl _ (State.memFilter_keeps h) fun t e k => k.trans ⟨rfl, fun k => ⟨?_, k.2⟩⟩
  have := k.1
  simp only [Memory.wf, Bool.and_eq_true] at this ⊢
  exact ⟨Tab.wf_put _ _ _ this.1, this.2⟩

theorem State.extLists_keeps {a s : State} (h : Keeps a s) {v1} : Keeps a (State.extLists s v1) := by
  unfold State.extLists
  repeat' first
    | with_reducible assumption | with_reducible apply onPd_keeps

theorem State.loadPower_keeps {a s : State} (h : Keeps a s) {v1} : Keeps a (State.loadPower s v1) := by
  unfold State.loadPower
  repeat' first
    | with_reducible assumption | with_reducible apply setPwr_keeps
      | with_reducible apply fset_keeps | with_reducible apply onPwr_keeps

theorem State.loadGoal_keeps {a s : State} (h : Keeps a s) {v1 v2} : Keeps a (State.loadGoal s v1 v2) := by
  unfold State.loadGoal
  repeat' first
    | with_reducible assumption | with_reducible apply onSw_keeps | with_reducible apply when_keeps
      | with_reducible apply disonFor_keeps | with_reducible apply setVwin_keeps
      | with_reducible apply Keeps.ite | with_reducible apply Keeps.foldl
    | intro _

theorem State.loadQueue_keeps {a s : State} (h : Keeps a s) {v1} : Keeps a (State.loadQueue s v1) := by
  unfold State.loadQueue
  repeat' first
    | with_reducible assumption | with_reducible apply onPd_keeps | with_reducible apply Keeps.ite
      | with_reducible apply Keeps.foldl
    | intro _ | split | with_reducible apply Keeps.record

theorem State.loadTable_keeps {a s : State} (h : Keeps a s) {v1} : Keeps a (State.loadTable s v1) := by
  unfold State.loadTable
  repeat' first
    | with_reducible assumption | with_reducible apply forEach_keeps
      | with_reducible apply rput_keeps | with_reducible apply fset_keeps
      | with_reducible apply Keeps.ite | with_reducible apply Keeps.foldl
    | intro _

theorem State.loadWait_keeps {a s : State} (h : Keeps a s) {v1 v2} : Keeps a (State.loadWait s v1 v2) := by
  unfold State.loadWait
  repeat' first
    | with_reducible assumption | with_reducible apply when_keeps | with_reducible apply onPd_keeps
      | with_reducible apply Keeps.ite | with_reducible apply Keeps.foldl
    | intro _

theorem State.loadTimer_keeps {a s : State} (h :
    Keeps a s) {v0 v1 v3} : Keeps a (State.loadTimer v0 v1 s v3) := by
  unfold State.loadTimer
  repeat' first
    | with_reducible assumption | with_reducible apply setTimer_keeps
      | with_reducible apply onSw_keeps | with_reducible apply onAtt_keeps
      | with_reducible apply Keeps.ite

theorem State.attRestart_keeps {a s : State} (h :
    Keeps a s) {v1 v2} : Keeps a (State.attRestart s v1 v2) := by
  unfold State.attRestart
  repeat' first
    | with_reducible assumption | with_reducible apply attTimers_keeps
      | with_reducible apply when_keeps | with_reducible apply onAtt_keeps
      | with_reducible apply Keeps.ite | with_reducible apply Keeps.foldl
    | intro _

theorem State.loadHardSeq_keeps {a s : State} (h : Keeps a s) {v1} : Keeps a (State.loadHardSeq s v1) := by
  unfold State.loadHardSeq
  repeat' first
    | with_reducible assumption | with_reducible apply onSw_keeps | with_reducible apply when_keeps
      | with_reducible apply regStart_keeps | with_reducible apply Keeps.ite
      | with_reducible apply Keeps.foldl
    | intro _

theorem State.lostTimers_keeps {a s : State} (h :
    Keeps a s) {v1 v2} : Keeps a (State.lostTimers s v1 v2) := by
  unfold State.lostTimers
  repeat' first
    | with_reducible assumption | with_reducible apply when_keeps
      | with_reducible apply timStart_keeps | with_reducible apply Keeps.ite
      | with_reducible apply Keeps.foldl
    | intro _

theorem State.loadRaise_keeps {a s : State} (h : Keeps a s) {v1 v2} : Keeps a (State.loadRaise s v1 v2) := by
  unfold State.loadRaise
  repeat' first
    | with_reducible assumption | with_reducible apply when_keeps | with_reducible apply fset_keeps
      | with_reducible apply onPd_keeps | with_reducible apply hostEvent_keeps
      | with_reducible apply Keeps.ite | with_reducible apply Keeps.foldl
    | intro _

theorem State.resendPacket_keeps {a s : State} (h :
    Keeps a s) {v1 v2 v3} : Keeps a (State.resendPacket s v1 v2 v3) := by
  unfold State.resendPacket
  repeat' first
    | with_reducible assumption | with_reducible apply onPd_keeps

theorem State.reconcile_keeps {a s : State} (h : Keeps a s) {v0 v2} : Keeps a (State.reconcile v0 s v2) := by
  unfold State.reconcile
  repeat' first
    | with_reducible assumption | with_reducible apply when_keeps | with_reducible apply fset_keeps
      | with_reducible apply hostPop_keeps | with_reducible apply sentWhole_keeps
      | with_reducible apply resendPacket_keeps | with_reducible apply onPd_keeps
      | with_reducible apply fbit_keeps | with_reducible apply Keeps.ite
      | with_reducible apply Keeps.foldl
    | intro _

theorem State.resendOwed_keeps {a s : State} (h : Keeps a s) {v1} : Keeps a (State.resendOwed s v1) := by
  unfold State.resendOwed
  repeat' first
    | with_reducible assumption | with_reducible apply onSw_keeps
      | with_reducible apply resendPacket_keeps | with_reducible apply sendReply_keeps
      | with_reducible apply fset_keeps | with_reducible apply Keeps.ite
      | with_reducible apply Keeps.foldl
    | intro _ | split

theorem State.loadRecord_keeps {a s : State} (h : Keeps a s) {p gone : Nat} :
    Keeps a (State.loadRecord s p gone) := by
  unfold State.loadRecord
  extract_lets heard s1 poles s2 s3 s4 s5 s6 s7 timers s8 s9 s10
  have h1 : Keeps a s1 := State.mirrorCopy_keeps h
  have h2 : Keeps a s2 := State.memWrite_keeps (State.memWrite_keeps h1 _) _
  have h3 : Keeps a s3 := State.onAtt_keeps (State.onPd_keeps h2)
  have h4 : Keeps a s4 := State.latchAll_keeps (State.latchCccfg_keeps h3)
  have h5 : Keeps a s5 := State.extLists_keeps (State.loadPower_keeps (State.loadWords_keeps h4))
  have h6 : Keeps a s6 := State.loadGoal_keeps (State.loadQueue_keeps (State.loadTable_keeps h5))
  have h7 : Keeps a s7 := State.loadWait_keeps h6
  have h8 : Keeps a s8 := Keeps.foldl _ (State.attRestart_keeps h7) fun _ _ k => State.loadTimer_keeps k
  have h9 : Keeps a s9 := State.loadHardSeq_keeps (State.lostTimers_keeps (State.loadRaise_keeps h8))
  have h10 : Keeps a s10 := Keeps.foldl _ h9 fun _ _ k => State.reconcile_keeps k
  exact State.vconnEdge_keeps (State.resendOwed_keeps h10)

theorem State.takePorts_keeps {a s : State} (h :
    Keeps a s) {v1 v2 v3 v4} : Keeps a (State.takePorts s v1 v2 v3 v4) := by
  unfold State.takePorts
  repeat' first
    | with_reducible assumption | with_reducible apply setOwn_keeps
      | with_reducible apply forPorts_keeps | with_reducible apply when_keeps
      | with_reducible apply firstReads_keeps | with_reducible apply loadRecord_keeps
      | with_reducible apply cfgPort_keeps | with_reducible apply energyTake_keeps
      | with_reducible apply hardReset_keeps | with_reducible apply portSafe_keeps
      | with_reducible apply Keeps.ite | with_reducible apply Keeps.foldl
    | intro _

theorem State.freeze_keeps {a s : State} (h : Keeps a s) {v1} : Keeps a (State.freeze s v1) := by
  unfold State.freeze
  repeat' first
    | with_reducible assumption | with_reducible apply fset_keeps | with_reducible apply Keeps.ite
      | with_reducible apply Keeps.foldl
    | intro _ | split | with_reducible apply Keeps.record

theorem State.freshen_keeps {a s : State} (h : Keeps a s) {v1 v2} : Keeps a (State.freshen s v1 v2) := by
  unfold State.freshen
  repeat' first
    | with_reducible assumption | with_reducible apply fbit_keeps | with_reducible apply Keeps.ite
      | with_reducible apply Keeps.foldl
    | intro _ | split | with_reducible apply Keeps.record

theorem State.mirrorReceive_keeps {a s : State} (h :
    Keeps a s) {v1 v2 v3} : Keeps a (State.mirrorReceive s v1 v2 v3) := by
  unfold State.mirrorReceive
  repeat' first
    | with_reducible assumption | with_reducible apply freshen_keeps
      | with_reducible apply when_keeps | with_reducible apply memWrite_keeps
      | with_reducible apply fset_keeps | with_reducible apply shadowThresholds_keeps
      | with_reducible apply Keeps.ite | with_reducible apply Keeps.foldl
    | intro _

theorem State.mirrorExchange_keeps {a s : State} (h :
    Keeps a s) {v1} : Keeps a (State.mirrorExchange s v1) := by
  unfold State.mirrorExchange
  repeat' first
    | with_reducible assumption | with_reducible apply fset_keeps | with_reducible apply Keeps.ite
      | with_reducible apply Keeps.foldl
    | intro _ | split | with_reducible apply Keeps.record

theorem State.mirrorCommit_keeps {a s : State} (h : Keeps a s) {v1} : Keeps a (State.mirrorCommit s v1) := by
  unfold State.mirrorCommit
  repeat' first
    | with_reducible assumption | with_reducible apply mirrorExchange_keeps
      | with_reducible apply memWrite_keeps | with_reducible apply when_keeps
      | with_reducible apply portSource_keeps | with_reducible apply Keeps.ite
      | with_reducible apply Keeps.foldl
    | intro _

theorem State.extEnd_keeps {a s : State} (h : Keeps a s) {v1} : Keeps a (State.extEnd s v1) := by
  unfold State.extEnd
  repeat' first
    | with_reducible assumption | with_reducible apply when_keeps
      | with_reducible apply complete_keeps | with_reducible apply rput_keeps
      | with_reducible apply onPd_keeps | with_reducible apply reply_keeps
      | with_reducible apply Keeps.ite | with_reducible apply Keeps.foldl
    | intro _

theorem State.onPair_keeps {a s : State} (h : Keeps a s) {v1} : Keeps a (State.onPair s v1) := by
  unfold State.onPair
  repeat' first
    | with_reducible assumption | with_reducible apply Keeps.ite | with_reducible apply Keeps.foldl
    | intro _ | split | with_reducible apply Keeps.record

theorem State.pairEv_keeps {a s : State} (h : Keeps a s) {v1} : Keeps a (State.pairEv s v1) := by
  unfold State.pairEv
  repeat' first
    | with_reducible assumption | with_reducible apply evPair_keeps
      | with_reducible apply fset_keeps

theorem State.setLink_keeps {a s : State} (h : Keeps a s) {v1 v2} : Keeps a (State.setLink s v1 v2) := by
  unfold State.setLink
  repeat' first
    | with_reducible assumption | with_reducible apply fset_keeps | with_reducible apply when_keeps
      | with_reducible apply onPair_keeps | with_reducible apply pairEv_keeps
      | with_reducible apply Keeps.ite | with_reducible apply Keeps.foldl
    | intro _

theorem State.bulkAck_keeps {a s : State} (h : Keeps a s) {v1 v2} : Keeps a (State.bulkAck s v1 v2) := by
  unfold State.bulkAck
  repeat' first
    | with_reducible assumption | with_reducible apply fset_keeps | with_reducible apply when_keeps
      | with_reducible apply onPair_keeps | with_reducible apply Keeps.ite
      | with_reducible apply Keeps.foldl
    | intro _

theorem State.extSeal_keeps {a s : State} (h : Keeps a s) {v1} : Keeps a (State.extSeal s v1) := by
  unfold State.extSeal
  repeat' first
    | with_reducible assumption | with_reducible apply extWrite_keeps

theorem State.bulkQueue_keeps {a s : State} (h :
    Keeps a s) {v1 v2 v3} : Keeps a (State.bulkQueue s v1 v2 v3) := by
  unfold State.bulkQueue
  repeat' first
    | with_reducible assumption | with_reducible apply onPair_keeps

theorem State.extSend_keeps {a s : State} (h : Keeps a s) {v1} : Keeps a (State.extSend s v1) := by
  unfold State.extSend
  repeat' first
    | with_reducible assumption | with_reducible apply extSeal_keeps
      | with_reducible apply onPair_keeps | with_reducible apply forEach_keeps
      | with_reducible apply bulkQueue_keeps | with_reducible apply Keeps.ite
      | with_reducible apply Keeps.foldl
    | intro _

theorem State.extUnsync_keeps {a s : State} (h : Keeps a s) {v1} : Keeps a (State.extUnsync s v1) := by
  unfold State.extUnsync
  repeat' first
    | with_reducible assumption | with_reducible apply portSource_keeps
      | with_reducible apply fbit_keeps

theorem State.extGiveUp_keeps {a s : State} (h : Keeps a s) : Keeps a (State.extGiveUp s) := by
  unfold State.extGiveUp
  repeat' first
    | with_reducible assumption | with_reducible apply onPair_keeps
      | with_reducible apply extEnd_keeps | with_reducible apply extUnsync_keeps
      | with_reducible apply Keeps.ite | with_reducible apply Keeps.foldl
    | intro _

theorem State.setTx_keeps {a s : State} (h : Keeps a s) {v1} : Keeps a (State.setTx s v1) := by
  unfold State.setTx
  repeat' first
    | with_reducible assumption | with_reducible apply onPair_keeps
      | with_reducible apply forPorts_keeps | with_reducible apply when_keeps
      | with_reducible apply extSend_keeps | with_reducible apply extGiveUp_keeps
      | with_reducible apply Keeps.ite | with_reducible apply Keeps.foldl
    | intro _

theorem State.retrain_keeps {a s : State} (h : Keeps a s) : Keeps a (State.retrain s) := by
  unfold State.retrain
  repeat' first
    | with_reducible assumption | with_reducible apply setLink_keeps
      | with_reducible apply setTx_keeps | with_reducible apply Keeps.ite

theorem State.wakeHeard_keeps {a s : State} (h : Keeps a s) {v1} : Keeps a (State.wakeHeard s v1) := by
  unfold State.wakeHeard
  repeat' first
    | with_reducible assumption | with_reducible apply profileAt_keeps
      | with_reducible apply draw_keeps | with_reducible apply when_keeps
      | with_reducible apply Keeps.ite | with_reducible apply Keeps.foldl
    | intro _

theorem State.extChanged_keeps {a s : State} (h : Keeps a s) {v1} : Keeps a (State.extChanged s v1) := by
  unfold State.extChanged
  repeat' first
    | with_reducible assumption | with_reducible apply extEnd_keeps
      | with_reducible apply extSend_keeps | with_reducible apply onPair_keeps
      | with_reducible apply extUnsync_keeps | with_reducible apply Keeps.ite

theorem State.linkTrained_keeps {a s : State} (h : Keeps a s) {v1} : Keeps a (State.linkTrained s v1) := by
  unfold State.linkTrained
  repeat' first
    | with_reducible assumption | with_reducible apply weirCond_keeps
      | with_reducible apply onPair_keeps | with_reducible apply setLink_keeps
      | with_reducible apply Keeps.ite

theorem State.becomeMaster_keeps {a s : State} (h : Keeps a s) {v1} : Keeps a (State.becomeMaster s v1) := by
  unfold State.becomeMaster
  repeat' first
    | with_reducible assumption | with_reducible apply fset_keeps | with_reducible apply when_keeps
      | with_reducible apply onPair_keeps | with_reducible apply Keeps.ite
      | with_reducible apply Keeps.foldl
    | intro _

theorem State.linkDown_keeps {a s : State} (h : Keeps a s) : Keeps a (State.linkDown s) := by
  unfold State.linkDown
  repeat' first
    | with_reducible assumption | with_reducible apply weirCond_keeps
      | with_reducible apply setLink_keeps

theorem State.trailer_keeps {a s : State} (h : Keeps a s) {v1 v2} : Keeps a (State.trailer s v1 v2) := by
  unfold State.trailer
  repeat' first
    | with_reducible assumption | with_reducible apply onPair_keeps
      | with_reducible apply when_keeps | with_reducible apply finc_keeps
      | with_reducible apply linkTrained_keeps | with_reducible apply linkDown_keeps
      | with_reducible apply Keeps.ite | with_reducible apply Keeps.foldl
    | intro _

theorem State.clash_keeps {a s : State} (h : Keeps a s) : Keeps a (State.clash s) := by
  unfold State.clash
  repeat' first
    | with_reducible assumption | with_reducible apply holdReset_keeps
      | with_reducible apply unitSource_keeps | with_reducible apply when_keeps
      | with_reducible apply onPair_keeps | with_reducible apply Keeps.ite
      | with_reducible apply Keeps.foldl
    | intro _

theorem State.extAcked_keeps {a s : State} (h : Keeps a s) {v1} : Keeps a (State.extAcked s v1) := by
  unfold State.extAcked
  repeat' first
    | with_reducible assumption | with_reducible apply onPair_keeps
      | with_reducible apply when_keeps | with_reducible apply fbit_keeps
      | with_reducible apply extEnd_keeps | with_reducible apply Keeps.ite
      | with_reducible apply Keeps.foldl
    | intro _

theorem State.bulkReceive_keeps {a s : State} (h :
    Keeps a s) {v1 v2 v3 v4 v5} : Keeps a (State.bulkReceive s v1 v2 v3 v4 v5) := by
  unfold State.bulkReceive
  repeat' first
    | with_reducible assumption | with_reducible apply memWrite_keeps
      | with_reducible apply extAcked_keeps | with_reducible apply when_keeps
      | with_reducible apply bulkQueue_keeps | with_reducible apply Keeps.ite
      | with_reducible apply Keeps.foldl
    | intro _ | split

theorem State.bulkEdge_keeps {a s : State} (h : Keeps a s) : Keeps a (State.bulkEdge s) := by
  unfold State.bulkEdge
  repeat' first
    | with_reducible assumption | with_reducible apply onPair_keeps
      | with_reducible apply cntEvent_keeps | with_reducible apply pairEv_keeps
      | with_reducible apply finc_keeps | with_reducible apply fset_keeps
      | with_reducible apply Keeps.ite

theorem State.linkErrors_keeps {a s : State} (h :
    Keeps a s) {v1 v2} : Keeps a (State.linkErrors s v1 v2) := by
  unfold State.linkErrors
  repeat' first
    | with_reducible assumption | with_reducible apply onPair_keeps
      | with_reducible apply fset_keeps | with_reducible apply forEach_keeps
      | with_reducible apply cntEvent_keeps | with_reducible apply when_keeps
      | with_reducible apply unitSource_keeps | with_reducible apply pairEv_keeps
      | with_reducible apply Keeps.ite | with_reducible apply Keeps.foldl
    | intro _

theorem State.hearWord_keeps {a s : State} (h : Keeps a s) {v1} : Keeps a (State.hearWord s v1) := by
  unfold State.hearWord
  repeat' first
    | with_reducible assumption | with_reducible apply onPair_keeps
      | with_reducible apply fset_keeps | with_reducible apply when_keeps
      | with_reducible apply pairEv_keeps | with_reducible apply wakeHeard_keeps
      | with_reducible apply clash_keeps | with_reducible apply Keeps.ite
      | with_reducible apply Keeps.foldl
    | intro _

theorem State.setProfile_keeps {a s : State} (h : Keeps a s) {v1} : Keeps a (State.setProfile s v1) := by
  unfold State.setProfile
  repeat' first
    | with_reducible assumption | with_reducible apply logRec_keeps
      | with_reducible apply forPorts_keeps | with_reducible apply fset_keeps
      | with_reducible apply when_keeps | with_reducible apply calAbandon_keeps
      | with_reducible apply onPd_keeps | with_reducible apply weirCond_keeps
      | with_reducible apply setLink_keeps | with_reducible apply setTx_keeps
      | with_reducible apply Keeps.ite | with_reducible apply Keeps.foldl
    | intro _ | split | with_reducible apply Keeps.record

theorem State.hoShow_keeps {a s : State} (h : Keeps a s) {v1 v2 v3} : Keeps a (State.hoShow s v1 v2 v3) := by
  unfold State.hoShow
  repeat' first
    | with_reducible assumption | with_reducible apply fset_keeps
      | with_reducible apply onPair_keeps

theorem State.hoOpen_keeps {a s : State} (h : Keeps a s) {v1 v2} : Keeps a (State.hoOpen s v1 v2) := by
  unfold State.hoOpen
  repeat' first
    | with_reducible assumption | with_reducible apply onPair_keeps
      | with_reducible apply fset_keeps | with_reducible apply hoShow_keeps

theorem State.propose_keeps {a s : State} (h : Keeps a s) {take : Bool} {mask : Nat}
    {cmd : Option (Nat × Nat)} {w r : Bool} : Keeps a (State.propose s take mask cmd w r).2 := by
  unfold State.propose
  extract_lets owned reason ho
  split
  · exact h
  · split
    · exact h
    · exact State.hoOpen_keeps h

theorem State.formProfile_keeps {a s : State} (h : Keeps a s) : Keeps a (State.formProfile s) := by
  unfold State.formProfile
  repeat' first
    | with_reducible assumption | with_reducible apply when_keeps
      | with_reducible apply profileAt_keeps | with_reducible apply Keeps.ite
      | with_reducible apply Keeps.foldl
    | intro _

theorem State.formWith_keeps {a s : State} (h : Keeps a s) {v1 v2} : Keeps a (State.formWith s v1 v2) := by
  unfold State.formWith
  repeat' first
    | with_reducible assumption | with_reducible apply setOwn_keeps
      | with_reducible apply fset_keeps | with_reducible apply forPorts_keeps
      | with_reducible apply when_keeps | with_reducible apply onPwr_keeps
      | with_reducible apply setPwr_keeps | with_reducible apply onAtt_keeps
      | with_reducible apply portSafe_keeps | with_reducible apply Keeps.ite
      | with_reducible apply Keeps.foldl
    | intro _ | split | with_reducible apply Keeps.record

theorem State.joinProfile_keeps {a s : State} (h : Keeps a s) : Keeps a (State.joinProfile s) := by
  unfold State.joinProfile
  repeat' first
    | with_reducible assumption | with_reducible apply when_keeps
      | with_reducible apply onPair_keeps | with_reducible apply profileAt_keeps
      | with_reducible apply Keeps.ite | with_reducible apply Keeps.foldl
    | intro _

theorem State.formation_keeps {a s : State} (h : Keeps a s) : Keeps a (State.formation s) := by
  unfold State.formation
  repeat' first
    | with_reducible assumption | with_reducible apply formProfile_keeps
      | with_reducible apply formWith_keeps | with_reducible apply joinProfile_keeps
      | with_reducible apply onPair_keeps | with_reducible apply when_keeps
      | with_reducible apply profileAt_keeps | with_reducible apply Keeps.ite
      | with_reducible apply Keeps.foldl
    | intro _ | split | with_reducible apply Keeps.record

theorem State.hoClose_keeps {a s : State} (h : Keeps a s) : Keeps a (State.hoClose s) := by
  unfold State.hoClose
  repeat' first
    | with_reducible assumption | with_reducible apply onPair_keeps
      | with_reducible apply fset_keeps

theorem State.hoDone_keeps {a s : State} (h : Keeps a s) {v1} : Keeps a (State.hoDone s v1) := by
  unfold State.hoDone
  repeat' first
    | with_reducible assumption | with_reducible apply hoClose_keeps
      | with_reducible apply hoShow_keeps | with_reducible apply cntEvent_keeps
      | with_reducible apply pairEv_keeps | with_reducible apply when_keeps
      | with_reducible apply onPair_keeps | with_reducible apply fset_keeps
      | with_reducible apply finish_keeps | with_reducible apply Keeps.ite
      | with_reducible apply Keeps.foldl
    | intro _ | split | with_reducible apply Keeps.record

theorem State.hoSwitch_keeps {a s : State} (h : Keeps a s) {v1} : Keeps a (State.hoSwitch s v1) := by
  unfold State.hoSwitch
  repeat' first
    | with_reducible assumption | with_reducible apply onPair_keeps
      | with_reducible apply takePorts_keeps | with_reducible apply hoDone_keeps
      | with_reducible apply releasePorts_keeps | with_reducible apply when_keeps
      | with_reducible apply pairEv_keeps | with_reducible apply Keeps.ite
      | with_reducible apply Keeps.foldl
    | intro _

theorem State.applyHear_keeps {a s : State} (h : Keeps a s) {v1} : Keeps a (State.applyHear s v1) := by
  unfold State.applyHear
  repeat' first
    | with_reducible assumption | with_reducible apply Keeps.ite | with_reducible apply Keeps.foldl
    | intro _ | split | with_reducible apply Keeps.record

theorem State.collided_keeps {a s : State} (h : Keeps a s) {v1} : Keeps a (State.collided s v1) := by
  unfold State.collided
  repeat' first
    | with_reducible assumption | with_reducible apply onPair_keeps
      | with_reducible apply reply_keeps | with_reducible apply Keeps.ite
      | with_reducible apply Keeps.foldl
    | intro _

theorem State.assume_keeps {a s : State} (h : Keeps a s) {v1 v2} : Keeps a (State.assume s v1 v2) := by
  unfold State.assume
  repeat' first
    | with_reducible assumption | with_reducible apply when_keeps
      | with_reducible apply onPair_keeps | with_reducible apply Keeps.ite
      | with_reducible apply Keeps.foldl
    | intro _

theorem State.withdraw_keeps {a s : State} (h : Keeps a s) {cmd : Option (Nat × Nat)} :
    Keeps a (State.withdraw s cmd).2 := by
  unfold State.withdraw
  split
  · exact State.finish_keeps (State.fset_keeps (State.fset_keeps h))
  · exact State.propose_keeps h

theorem State.hoFail_keeps {a s : State} (h : Keeps a s) {v1 v2 v3} : Keeps a (State.hoFail s v1 v2 v3) := by
  unfold State.hoFail
  repeat' first
    | with_reducible assumption | with_reducible apply pairEv_keeps
      | with_reducible apply unitSource_keeps | with_reducible apply hoClose_keeps
      | with_reducible apply hoShow_keeps | with_reducible apply when_keeps
      | with_reducible apply finish_keeps | with_reducible apply Keeps.ite
      | with_reducible apply Keeps.foldl
    | intro _

theorem State.twinLost_keeps {a s : State} (h : Keeps a s) : Keeps a (State.twinLost s) := by
  unfold State.twinLost
  repeat' first
    | with_reducible assumption | with_reducible apply fset_keeps
      | with_reducible apply onPair_keeps | with_reducible apply when_keeps
      | with_reducible apply becomeMaster_keeps | with_reducible apply hoFail_keeps
      | with_reducible apply unitSource_keeps | with_reducible apply forPorts_keeps
      | with_reducible apply profileAt_keeps | with_reducible apply onEngine_keeps
      | with_reducible apply assume_keeps | with_reducible apply Keeps.ite
      | with_reducible apply Keeps.foldl
    | intro _ | split

theorem State.bindHear_keeps {a s : State} (h : Keeps a s) {v1} : Keeps a (State.bindHear s v1) := by
  unfold State.bindHear
  repeat' first
    | with_reducible assumption | with_reducible apply onPair_keeps
      | with_reducible apply when_keeps | with_reducible apply collided_keeps
      | with_reducible apply Keeps.ite | with_reducible apply Keeps.foldl
    | intro _

theorem State.answer_keeps {a s : State} (h :
    Keeps a s) {v1 v2 v3 v4} : Keeps a (State.answer s v1 v2 v3 v4) := by
  unfold State.answer
  repeat' first
    | with_reducible assumption | with_reducible apply hoOpen_keeps
      | with_reducible apply hoShow_keeps | with_reducible apply when_keeps
      | with_reducible apply onPair_keeps | with_reducible apply Keeps.ite
      | with_reducible apply Keeps.foldl
    | intro _

theorem State.hoHear_keeps {a s : State} (h : Keeps a s) {v1 v2} : Keeps a (State.hoHear s v1 v2) := by
  unfold State.hoHear
  repeat' first
    | with_reducible assumption | with_reducible apply answer_keeps
      | with_reducible apply hoFail_keeps | with_reducible apply onPair_keeps
      | with_reducible apply Keeps.ite | with_reducible apply Keeps.foldl
    | intro _ | split

theorem State.profileHear_keeps {a s : State} (h : Keeps a s) {v1} : Keeps a (State.profileHear s v1) := by
  unfold State.profileHear
  repeat' first
    | with_reducible assumption | with_reducible apply joinProfile_keeps
      | with_reducible apply profileAt_keeps | with_reducible apply when_keeps
      | with_reducible apply collided_keeps | with_reducible apply Keeps.ite
      | with_reducible apply Keeps.foldl
    | intro _ | split | with_reducible apply Keeps.record

theorem State.harbourHear_keeps {a s : State} (h : Keeps a s) {v1} : Keeps a (State.harbourHear s v1) := by
  unfold State.harbourHear
  repeat' first
    | with_reducible assumption | with_reducible apply onPair_keeps
      | with_reducible apply when_keeps | with_reducible apply forEach_keeps
      | with_reducible apply fset_keeps | with_reducible apply clash_keeps
      | with_reducible apply unitSource_keeps | with_reducible apply bindHear_keeps
      | with_reducible apply hoHear_keeps | with_reducible apply applyHear_keeps
      | with_reducible apply profileHear_keeps | with_reducible apply Keeps.ite
      | with_reducible apply Keeps.foldl
    | intro _ | split | with_reducible apply Keeps.record

theorem State.orphans_keeps {a s : State} (h : Keeps a s) {v1} : Keeps a (State.orphans s v1) := by
  unfold State.orphans
  repeat' first
    | with_reducible assumption | with_reducible apply onPair_keeps

theorem State.answerLater_keeps {a s : State} (h :
    Keeps a s) {v1 v2} : Keeps a (State.answerLater s v1 v2) := by
  unfold State.answerLater
  repeat' first
    | with_reducible assumption | with_reducible apply onPair_keeps
      | with_reducible apply reply_keeps | with_reducible apply Keeps.ite

theorem State.answered_keeps {a s : State} (h : Keeps a s) : Keeps a (State.answered s) := by
  unfold State.answered
  repeat' first
    | with_reducible assumption | with_reducible apply onPair_keeps
      | with_reducible apply reply_keeps | with_reducible apply Keeps.ite
      | with_reducible apply Keeps.foldl
    | intro _

theorem State.rebalance_keeps {a s : State} (h : Keeps a s) {cmd : Option (Nat × Nat)} :
    Keeps a (State.rebalance s cmd).2 := by
  unfold State.rebalance
  extract_lets own give take
  split
  · exact State.propose_keeps h
  · split
    · exact State.propose_keeps h
    · exact State.finish_keeps h

theorem State.judgeBeat_keeps {a s : State} (h : Keeps a s) : Keeps a (State.judgeBeat s) := by
  unfold State.judgeBeat
  repeat' first
    | with_reducible assumption | with_reducible apply weirCond_keeps
      | with_reducible apply onPair_keeps | with_reducible apply fset_keeps
      | with_reducible apply orphans_keeps | with_reducible apply pairEv_keeps
      | with_reducible apply unitSource_keeps | with_reducible apply releasePorts_keeps
      | with_reducible apply when_keeps | with_reducible apply cntEvent_keeps
      | with_reducible apply Keeps.ite | with_reducible apply Keeps.foldl
    | intro _

theorem State.flashJob_keeps {a s : State} (h : Keeps a s) {v1 v2} : Keeps a (State.flashJob s v1 v2) := by
  unfold State.flashJob
  repeat' first
    | with_reducible assumption | with_reducible apply Keeps.ite | with_reducible apply Keeps.foldl
    | intro _ | split | with_reducible apply Keeps.record

theorem State.logMove_keeps {a s : State} (h : Keeps a s) : Keeps a (State.logMove s) := by
  unfold State.logMove
  repeat' first
    | with_reducible assumption | with_reducible apply fset_keeps
      | with_reducible apply flashJob_keeps | with_reducible apply Keeps.ite
      | with_reducible apply Keeps.foldl
    | intro _ | split | with_reducible apply Keeps.record

theorem State.logWrite_keeps {a s : State} (h : Keeps a s) : Keeps a (State.logWrite s) := by
  unfold State.logWrite
  repeat' first
    | with_reducible assumption | with_reducible apply flashJob_keeps
      | with_reducible apply logFree_keeps | with_reducible apply Keeps.ite
      | with_reducible apply Keeps.foldl
    | intro _ | split | with_reducible apply Keeps.record

theorem State.selectorJob_keeps {a s : State} (h :
    Keeps a s) {v1 v2} : Keeps a (State.selectorJob s v1 v2) := by
  unfold State.selectorJob
  repeat' first
    | with_reducible assumption | with_reducible apply flashJob_keeps

theorem State.logLocate_keeps {a s : State} (h : Keeps a s) : Keeps a (State.logLocate s) := by
  unfold State.logLocate
  repeat' first
    | with_reducible assumption | with_reducible apply fset_keeps
      | with_reducible apply flashJob_keeps | with_reducible apply Keeps.ite
      | with_reducible apply Keeps.foldl
    | intro _ | split | with_reducible apply Keeps.record

theorem State.flashDo_keeps {a s : State} (h : Keeps a s) {v1} : Keeps a (State.flashDo s v1) := by
  unfold State.flashDo
  repeat' first
    | with_reducible assumption | with_reducible apply flashErase_keeps
      | with_reducible apply flashProgram_keeps | with_reducible apply Keeps.ite
      | with_reducible apply Keeps.foldl
    | intro _ | split

theorem State.flashAfter_keeps {a s : State} (h : Keeps a s) : Keeps a (State.flashAfter s) := by
  unfold State.flashAfter
  repeat' first
    | with_reducible assumption | with_reducible apply flashDo_keeps
      | with_reducible apply Keeps.ite | with_reducible apply Keeps.foldl
    | intro _

theorem State.swapNext_keeps {a s : State} (h : Keeps a s) : Keeps a (State.swapNext s) := by
  unfold State.swapNext
  repeat' first
    | with_reducible assumption | with_reducible apply fset_keeps
      | with_reducible apply forEach_keeps | with_reducible apply onEngine_keeps
      | with_reducible apply Keeps.ite | with_reducible apply Keeps.foldl
    | intro _ | split

theorem State.swapHold_keeps {a s : State} (h : Keeps a s) {v1} : Keeps a (State.swapHold s v1) := by
  unfold State.swapHold
  repeat' first
    | with_reducible assumption | with_reducible apply fset_keeps
      | with_reducible apply onEngine_keeps

theorem State.exchangeOver_keeps {a s : State} (h :
    Keeps a s) {v1 v2} : Keeps a (State.exchangeOver s v1 v2) := by
  unfold State.exchangeOver
  repeat' first
    | with_reducible assumption | with_reducible apply fbit_keeps
      | with_reducible apply swapNext_keeps | with_reducible apply onEngine_keeps

theorem State.swapStart_keeps {a s : State} (h : Keeps a s) {v1} : Keeps a (State.swapStart s v1) := by
  unfold State.swapStart
  repeat' first
    | with_reducible assumption | with_reducible apply engineReset_keeps
      | with_reducible apply onEngine_keeps | with_reducible apply wdgWindow_keeps
      | with_reducible apply fset_keeps

theorem State.swapRequest_keeps {a s : State} (h : Keeps a s) {v1} : Keeps a (State.swapRequest s v1) := by
  unfold State.swapRequest
  repeat' first
    | with_reducible assumption | with_reducible apply fset_keeps
      | with_reducible apply swapNext_keeps | with_reducible apply Keeps.ite

theorem State.regLoad_keeps {a s : State} (h :
    Keeps a s) {v1 v2 v3 v4 v5} : Keeps a (State.regLoad s v1 v2 v3 v4 v5).2 := by
  unfold State.regLoad
  repeat' first
    | with_reducible assumption | with_reducible apply draw_keeps
      | with_reducible apply onEngine_keeps | with_reducible apply regCleared_keeps
      | with_reducible apply Keeps.ite | with_reducible apply Keeps.foldl
    | intro _ | split

theorem State.pairCtlWrite_keeps {a s : State} (h :
    Keeps a s) {v1 v2} : Keeps a (State.pairCtlWrite s v1 v2) := by
  unfold State.pairCtlWrite
  repeat' first
    | with_reducible assumption | with_reducible apply when_keeps | with_reducible apply fset_keeps
      | with_reducible apply pairEv_keeps | with_reducible apply propose_keeps
      | with_reducible apply retrain_keeps | with_reducible apply withdraw_keeps
      | with_reducible apply rebalance_keeps | with_reducible apply Keeps.ite
      | with_reducible apply Keeps.foldl
    | intro _ | split

theorem State.unitAction_keeps {a s : State} (h :
    Keeps a s) {v1 v2 v3} : Keeps a (State.unitAction s v1 v2 v3) := by
  unfold State.unitAction
  repeat' first
    | with_reducible assumption | with_reducible apply when_keeps
      | with_reducible apply calStart_keeps | with_reducible apply swapRequest_keeps
      | with_reducible apply otpCtl_keeps | with_reducible apply pairCtlWrite_keeps
      | with_reducible apply fset_keeps | with_reducible apply Keeps.ite
      | with_reducible apply Keeps.foldl
    | intro _

theorem State.statusOf_keeps {a s : State} (h : Keeps a s) {v1 v2} : Keeps a (State.statusOf s v1 v2).2 := by
  unfold State.statusOf
  repeat' first
    | with_reducible assumption | with_reducible apply draw_keeps | with_reducible apply Keeps.ite
      | with_reducible apply Keeps.foldl
    | intro _ | split

theorem State.flWinWrite_keeps {a s : State} (h : Keeps a s) {v1} : Keeps a (State.flWinWrite s v1) := by
  unfold State.flWinWrite
  repeat' first
    | with_reducible assumption | with_reducible apply fset_keeps | with_reducible apply Keeps.ite

theorem State.forceWrite_keeps {a s : State} (h :
    Keeps a s) {v1 v2 v3} : Keeps a (State.forceWrite s v1 v2 v3) := by
  unfold State.forceWrite
  repeat' first
    | with_reducible assumption | with_reducible apply complete_keeps
      | with_reducible apply reply_keeps | with_reducible apply onAtt_keeps
      | with_reducible apply Keeps.ite | with_reducible apply Keeps.foldl
    | intro _ | split

theorem State.ccctlWrite_keeps {a s : State} (h :
    Keeps a s) {v1 v2 v3} : Keeps a (State.ccctlWrite s v1 v2 v3) := by
  unfold State.ccctlWrite
  repeat' first
    | with_reducible assumption | with_reducible apply when_keeps
      | with_reducible apply forceWrite_keeps | with_reducible apply onAtt_keeps
      | with_reducible apply Keeps.ite | with_reducible apply Keeps.foldl
    | intro _

theorem State.portAction_keeps {a s : State} (h :
    Keeps a s) {v1 v2 v3 v4} : Keeps a (State.portAction s v1 v2 v3 v4) := by
  unfold State.portAction
  repeat' first
    | with_reducible assumption | with_reducible apply ccctlWrite_keeps
      | with_reducible apply when_keeps | with_reducible apply writeLim_keeps
      | with_reducible apply mirrorExchange_keeps | with_reducible apply onPwr_keeps
      | with_reducible apply setDis_keeps | with_reducible apply setMux_keeps
      | with_reducible apply Keeps.ite | with_reducible apply Keeps.foldl
    | intro _

theorem State.forceEvents_keeps {a s : State} (h :
    Keeps a s) {v1 v2} : Keeps a (State.forceEvents s v1 v2) := by
  unfold State.forceEvents
  repeat' first
    | with_reducible assumption | with_reducible apply forEach_keeps
      | with_reducible apply when_keeps | with_reducible apply weirEvent_keeps
      | with_reducible apply Keeps.ite | with_reducible apply Keeps.foldl
    | intro _

theorem State.weirAction_keeps {a s : State} (h :
    Keeps a s) {v1 v2 v3 v4 v5} : Keeps a (State.weirAction s v1 v2 v3 v4 v5) := by
  unfold State.weirAction
  repeat' first
    | with_reducible assumption | with_reducible apply when_keeps
      | with_reducible apply wdgCheckIn_keeps | with_reducible apply wdgService_keeps
      | with_reducible apply rput_keeps | with_reducible apply portSource_keeps
      | with_reducible apply unitSource_keeps | with_reducible apply forceEvents_keeps
      | with_reducible apply faultReleaseWrite_keeps | with_reducible apply refreshFault_keeps
      | with_reducible apply Keeps.ite | with_reducible apply Keeps.foldl
    | intro _

theorem State.cntAction_keeps {a s : State} (h : Keeps a s) {v1} : Keeps a (State.cntAction s v1) := by
  unfold State.cntAction
  repeat' first
    | with_reducible assumption | with_reducible apply Keeps.ite | with_reducible apply Keeps.foldl
    | intro _ | split | with_reducible apply Keeps.record

theorem State.regWrite_keeps {a s : State} (h :
    Keeps a s) {v1 v2 v3 v4 v5} : Keeps a (State.regWrite s v1 v2 v3 v4 v5) := by
  unfold State.regWrite
  repeat' first
    | with_reducible assumption | with_reducible apply fieldWrite_keeps
      | with_reducible apply when_keeps | with_reducible apply flWinWrite_keeps
      | with_reducible apply unitAction_keeps | with_reducible apply regStore_keeps
      | with_reducible apply portAction_keeps | with_reducible apply weirAction_keeps
      | with_reducible apply cntAction_keeps | with_reducible apply Keeps.ite
      | with_reducible apply Keeps.foldl
    | intro _

theorem State.postWord_keeps {a s : State} (h : Keeps a s) {v1 v2} : Keeps a (State.postWord s v1 v2) := by
  unfold State.postWord
  repeat' first
    | with_reducible assumption | with_reducible apply mbxPush_keeps
      | with_reducible apply onMbx_keeps

theorem State.hostFeed_keeps {a s : State} (h : Keeps a s) : Keeps a (State.hostFeed s) := by
  unfold State.hostFeed
  repeat' first
    | with_reducible assumption | with_reducible apply postWord_keeps
      | with_reducible apply Keeps.ite | with_reducible apply Keeps.foldl
    | intro _ | split | with_reducible apply Keeps.record

theorem State.frontTake_keeps {a s : State} (h : Keeps a s) : Keeps a (State.frontTake s) := by
  unfold State.frontTake
  repeat' first
    | with_reducible assumption | with_reducible apply onMbx_keeps
      | with_reducible apply hostEvent_keeps | with_reducible apply statusOf_keeps
      | with_reducible apply complete_keeps | with_reducible apply mbxAckTo_keeps
      | with_reducible apply Keeps.ite | with_reducible apply Keeps.foldl
    | intro _ | split

theorem State.mbxPushBy_keeps {a s : State} (h : Keeps a s) {v1} : Keeps a (State.mbxPushBy s v1) := by
  unfold State.mbxPushBy
  repeat' first
    | with_reducible assumption | with_reducible apply mbxPush_keeps
      | with_reducible apply when_keeps | with_reducible apply frontTake_keeps

theorem State.dropPacket_keeps {a s : State} (h : Keeps a s) {v1} : Keeps a (State.dropPacket s v1) := by
  unfold State.dropPacket
  repeat' first
    | with_reducible assumption | with_reducible apply hostFeed_keeps
      | with_reducible apply Keeps.ite | with_reducible apply Keeps.foldl
    | intro _ | split | with_reducible apply Keeps.record

theorem State.hostAck_keeps {a s : State} (h :
    Keeps a s) {v1 v2 v3} : Keeps a (State.hostAck s v1 v2 v3) := by
  unfold State.hostAck
  repeat' first
    | with_reducible assumption | with_reducible apply statusOf_keeps
      | with_reducible apply reply_keeps | with_reducible apply dropPacket_keeps
      | with_reducible apply when_keeps | with_reducible apply openCmd_keeps
      | with_reducible apply Keeps.ite | with_reducible apply Keeps.foldl
    | intro _

theorem State.mbxAckBy_keeps {a s : State} (h : Keeps a s) {v1 v2} : Keeps a (State.mbxAckBy s v1 v2) := by
  unfold State.mbxAckBy
  repeat' first
    | with_reducible assumption | with_reducible apply mbxAck_keeps
      | with_reducible apply hostAck_keeps | with_reducible apply Keeps.ite
      | with_reducible apply Keeps.foldl
    | intro _ | split | with_reducible apply Keeps.record

end Sys2Proof.Machine
end

