-- ==== Sys2Proof/Laws/KeepsBoot.lean ====
section
/-!
SUPPORT. One lemma `<operation>_keeps` for each operation of stored versions, firmware and boot: it leaves the queue of waiting
commands as it was, and the tables in their canonical form.
-/
namespace Sys2Proof.Machine

open State

theorem State.setVerState_keeps {a s : State} (h :
    Keeps a s) {v1 v2 v3} : Keeps a (State.setVerState s v1 v2 v3) := by
  unfold State.setVerState
  repeat' first
    | with_reducible assumption | with_reducible apply flashJob_keeps
      | with_reducible apply Keeps.ite | with_reducible apply Keeps.foldl
    | intro _ | split

theorem State.clearPlace_keeps {a s : State} (h :
    Keeps a s) {v1 v2} : Keeps a (State.clearPlace s v1 v2) := by
  unfold State.clearPlace
  repeat' first
    | with_reducible assumption | with_reducible apply flashAfter_keeps
      | with_reducible apply flashJob_keeps | with_reducible apply Keeps.ite

theorem State.storeAt_keeps {a s : State} (h :
    Keeps a s) {v1 v2 v3 v4 v5 v6} : Keeps a (State.storeAt s v1 v2 v3 v4 v5 v6) := by
  unfold State.storeAt
  repeat' first
    | with_reducible assumption | with_reducible apply clearPlace_keeps
      | with_reducible apply flashJob_keeps | with_reducible apply flashAfter_keeps
      | with_reducible apply Keeps.ite | with_reducible apply Keeps.foldl
    | intro _ | split | with_reducible apply Keeps.record

theorem State.confirmed_keeps {a s : State} (h : Keeps a s) {v1 v2} : Keeps a (State.confirmed s v1 v2) := by
  unfold State.confirmed
  repeat' first
    | with_reducible assumption | with_reducible apply flashJob_keeps
      | with_reducible apply setVerState_keeps | with_reducible apply flashAfter_keeps
      | with_reducible apply storeAt_keeps | with_reducible apply Keeps.ite
      | with_reducible apply Keeps.foldl
    | intro _ | split

theorem State.cfgEnergy_keeps {a s : State} (h : Keeps a s) {v1} : Keeps a (State.cfgEnergy s v1) := by
  unfold State.cfgEnergy
  repeat' first
    | with_reducible assumption | with_reducible apply setPort_keeps
      | with_reducible apply Keeps.ite | with_reducible apply Keeps.foldl
    | intro _

theorem State.cfgUnit_keeps {a s : State} (h : Keeps a s) {boot : Bool} : Keeps a (State.cfgUnit s boot) :=
  Keeps.foldl _ h fun _ _ k => Keeps.foldl _ k fun _ _ k => Keeps.ite (State.fset_keeps k) k

theorem State.applyCfg_keeps {a s : State} (h : Keeps a s) {v1 v2} : Keeps a (State.applyCfg s v1 v2) := by
  unfold State.applyCfg
  repeat' first
    | with_reducible assumption | with_reducible apply cfgEnergy_keeps
      | with_reducible apply extWrite_keeps | with_reducible apply cfgUnit_keeps
      | with_reducible apply forPorts_keeps | with_reducible apply when_keeps
      | with_reducible apply cfgPort_keeps | with_reducible apply refreshFault_keeps
      | with_reducible apply latchEdge_keeps | with_reducible apply Keeps.ite
      | with_reducible apply Keeps.foldl
    | intro _ | split | with_reducible apply Keeps.record

theorem State.onVer_keeps {a s : State} (h : Keeps a s) {v1 v2} : Keeps a (State.onVer s v1 v2) := by
  unfold State.onVer
  repeat' first
    | with_reducible assumption | with_reducible apply Keeps.ite | with_reducible apply Keeps.foldl
    | intro _ | split | with_reducible apply Keeps.record

theorem State.endTrial_keeps {a s : State} (h : Keeps a s) {v1 v2} : Keeps a (State.endTrial s v1 v2) := by
  unfold State.endTrial
  repeat' first
    | with_reducible assumption | with_reducible apply when_keeps
      | with_reducible apply setVerState_keeps | with_reducible apply fset_keeps
      | with_reducible apply onVer_keeps | with_reducible apply Keeps.ite
      | with_reducible apply Keeps.foldl
    | intro _

theorem State.versionEvent_keeps {a s : State} (h :
    Keeps a s) {v1 v2 v3} : Keeps a (State.versionEvent s v1 v2 v3) := by
  unfold State.versionEvent
  repeat' first
    | with_reducible assumption | with_reducible apply logRec_keeps
      | with_reducible apply hostEvent_keeps

theorem State.applyCal_keeps {a s : State} (h : Keeps a s) {v1} : Keeps a (State.applyCal s v1) := by
  unfold State.applyCal
  repeat' first
    | with_reducible assumption | with_reducible apply forPorts_keeps
      | with_reducible apply forEach_keeps | with_reducible apply rput_keeps
      | with_reducible apply fset_keeps | with_reducible apply Keeps.ite
      | with_reducible apply Keeps.foldl
    | intro _ | split

theorem State.applyVer_keeps {a s : State} (h : Keeps a s) {v1 v2} : Keeps a (State.applyVer s v1 v2) := by
  unfold State.applyVer
  repeat' first
    | with_reducible assumption | with_reducible apply applyCfg_keeps
      | with_reducible apply applyCal_keeps | with_reducible apply Keeps.ite

theorem State.trialExpires_keeps {a s : State} (h : Keeps a s) {v1} : Keeps a (State.trialExpires s v1) := by
  unfold State.trialExpires
  repeat' first
    | with_reducible assumption | with_reducible apply endTrial_keeps
      | with_reducible apply fset_keeps | with_reducible apply versionEvent_keeps
      | with_reducible apply applyVer_keeps

theorem State.applyNow_keeps {a s : State} (h : Keeps a s) {v1 v2} : Keeps a (State.applyNow s v1 v2) := by
  unfold State.applyNow
  repeat' first
    | with_reducible assumption | with_reducible apply onVer_keeps
      | with_reducible apply endTrial_keeps | with_reducible apply fset_keeps
      | with_reducible apply when_keeps | with_reducible apply setVerState_keeps
      | with_reducible apply versionEvent_keeps | with_reducible apply finish_keeps
      | with_reducible apply applyCfg_keeps | with_reducible apply confirmed_keeps
      | with_reducible apply applyVer_keeps | with_reducible apply Keeps.ite
      | with_reducible apply Keeps.foldl
    | intro _ | split

theorem State.bootVersions_keeps {a s : State} (h : Keeps a s) : Keeps a (State.bootVersions s) := by
  unfold State.bootVersions
  repeat' first
    | with_reducible assumption | with_reducible apply applyCfg_keeps
      | with_reducible apply fset_keeps | with_reducible apply applyCal_keeps

theorem State.verReader_keeps {a s : State} (h : Keeps a s) {x v : Nat} {bad ok : State → State}
    (hb : ∀ s, Keeps a s → Keeps a (bad s)) (ho : ∀ s, Keeps a s → Keeps a (ok s)) :
    Keeps a (State.verReader s x v bad ok) := by
  unfold State.verReader
  split
  · exact State.flashReader_keeps h hb ho
  · exact ho _ h

theorem State.bootReturned_keeps {a s : State} (h : Keeps a s) : Keeps a (State.bootReturned s) := by
  unfold State.bootReturned
  repeat' first
    | with_reducible assumption | with_reducible apply forEach_keeps
      | with_reducible apply versionEvent_keeps | with_reducible apply setVerState_keeps
      | with_reducible apply Keeps.ite | with_reducible apply Keeps.foldl
    | intro _

theorem State.fwRecord_keeps {a s : State} (h :
    Keeps a s) {v1 v2 v3 v4} : Keeps a (State.fwRecord s v1 v2 v3 v4) := by
  unfold State.fwRecord
  repeat' first
    | with_reducible assumption | with_reducible apply logRec_keeps

theorem State.activated_keeps {a s : State} (h :
    Keeps a s) {v1 v2 v3} : Keeps a (State.activated s v1 v2 v3) := by
  unfold State.activated
  repeat' first
    | with_reducible assumption | with_reducible apply fset_keeps
      | with_reducible apply fwRecord_keeps | with_reducible apply complete_keeps
      | with_reducible apply Keeps.ite | with_reducible apply Keeps.foldl
    | intro _ | split | with_reducible apply Keeps.record

theorem State.selectorDone_keeps {a s : State} (h :
    Keeps a s) {v1 v2} : Keeps a (State.selectorDone s v1 v2) := by
  unfold State.selectorDone
  repeat' first
    | with_reducible assumption | with_reducible apply fset_keeps
      | with_reducible apply activated_keeps | with_reducible apply fwRecord_keeps
      | with_reducible apply complete_keeps | with_reducible apply Keeps.ite
      | with_reducible apply Keeps.foldl
    | intro _ | split | with_reducible apply Keeps.record

theorem State.xferFlag_keeps {a s : State} (h : Keeps a s) {v1 v2} : Keeps a (State.xferFlag s v1 v2) := by
  unfold State.xferFlag
  repeat' first
    | with_reducible assumption | with_reducible apply fset_keeps | with_reducible apply Keeps.ite

theorem State.xferSend_keeps {a s : State} (h :
    Keeps a s) {v1 v2 v3 v4 v5} : Keeps a (State.xferSend s v1 v2 v3 v4 v5) := by
  unfold State.xferSend
  repeat' first
    | with_reducible assumption | with_reducible apply bulkQueue_keeps

theorem State.xferData_keeps {a s : State} (h : Keeps a s) {object version n off : Nat} {b : List Byte} :
    Keeps a (State.xferData s object version n off b) := by
  induction n generalizing s off b with
  | zero => exact h
  | succ n ih => exact Keeps.ite h (ih (State.xferSend_keeps h))

theorem State.xferStart_keeps {a s : State} (h :
    Keeps a s) {v1 v2 v3} : Keeps a (State.xferStart s v1 v2 v3) := by
  unfold State.xferStart
  repeat' first
    | with_reducible assumption | with_reducible apply xferFlag_keeps
      | with_reducible apply xferSend_keeps | with_reducible apply xferData_keeps
      | with_reducible apply Keeps.ite | with_reducible apply Keeps.foldl
    | intro _ | split | with_reducible apply Keeps.record

theorem State.cfgSend_keeps {a s : State} (h :
    Keeps a s) {v1 v2 v3 v4} : Keeps a (State.cfgSend s v1 v2 v3 v4) := by
  unfold State.cfgSend
  repeat' first
    | with_reducible assumption | with_reducible apply verReader_keeps
      | with_reducible apply complete_keeps | with_reducible apply xferStart_keeps
      | with_reducible apply Keeps.ite | with_reducible apply Keeps.foldl
    | intro _ | split

theorem State.bothApply_keeps {a s : State} (h : Keeps a s) {v1} : Keeps a (State.bothApply s v1) := by
  unfold State.bothApply
  repeat' first
    | with_reducible assumption | with_reducible apply onVer_keeps | with_reducible apply when_keeps
      | with_reducible apply fset_keeps | with_reducible apply Keeps.ite
      | with_reducible apply Keeps.foldl
    | intro _

theorem State.versionStored_keeps {a s : State} (h :
    Keeps a s) {v1 v2 v3 v4} : Keeps a (State.versionStored s v1 v2 v3 v4) := by
  unfold State.versionStored
  repeat' first
    | with_reducible assumption | with_reducible apply setVerState_keeps
      | with_reducible apply complete_keeps | with_reducible apply cfgSend_keeps
      | with_reducible apply bothApply_keeps | with_reducible apply Keeps.ite

theorem State.xferClear_keeps {a s : State} (h : Keeps a s) {v1} : Keeps a (State.xferClear s v1) := by
  unfold State.xferClear
  repeat' first
    | with_reducible assumption | with_reducible apply xferFlag_keeps
      | with_reducible apply Keeps.ite | with_reducible apply Keeps.foldl
    | intro _ | split | with_reducible apply Keeps.record

theorem State.xferResult_keeps {a s : State} (h : Keeps a s) {v1} : Keeps a (State.xferResult s v1) := by
  unfold State.xferResult
  repeat' first
    | with_reducible assumption | with_reducible apply xferClear_keeps
      | with_reducible apply xferSend_keeps | with_reducible apply Keeps.ite
      | with_reducible apply Keeps.foldl
    | intro _ | split

theorem State.flashEnded_keeps {a s : State} (h : Keeps a s) {v1} : Keeps a (State.flashEnded s v1) := by
  unfold State.flashEnded
  repeat' first
    | with_reducible assumption | with_reducible apply cntEvent_keeps
      | with_reducible apply fset_keeps | with_reducible apply complete_keeps
      | with_reducible apply reply_keeps | with_reducible apply when_keeps
      | with_reducible apply fwRecord_keeps | with_reducible apply selectorDone_keeps
      | with_reducible apply versionStored_keeps | with_reducible apply onVer_keeps
      | with_reducible apply xferResult_keeps | with_reducible apply Keeps.ite
      | with_reducible apply Keeps.foldl
    | intro _ | split | with_reducible apply Keeps.record

theorem State.flashComplete_keeps {a s : State} (h : Keeps a s) : Keeps a (State.flashComplete s) := by
  unfold State.flashComplete
  repeat' first
    | with_reducible assumption | with_reducible apply flashEnded_keeps
      | with_reducible apply cntEvent_keeps | with_reducible apply flashDo_keeps
      | with_reducible apply Keeps.ite | with_reducible apply Keeps.foldl
    | intro _ | split | with_reducible apply Keeps.record

theorem State.loadBanks_keeps {a s : State} (h : Keeps a s) {v1 v2} : Keeps a (State.loadBanks s v1 v2) := by
  unfold State.loadBanks
  repeat' first
    | with_reducible assumption | with_reducible apply forEach_keeps
      | with_reducible apply memWrite_keeps | with_reducible apply Keeps.ite
      | with_reducible apply Keeps.foldl
    | intro _

theorem State.descJob_keeps {a s : State} (h :
    Keeps a s) {v1 v2 v3 v4 v5 v6} : Keeps a (State.descJob s v1 v2 v3 v4 v5 v6) := by
  unfold State.descJob
  repeat' first
    | with_reducible assumption | with_reducible apply flashJob_keeps

theorem State.xferClose_keeps {a s : State} (h : Keeps a s) {v1 v2} : Keeps a (State.xferClose s v1 v2) := by
  unfold State.xferClose
  repeat' first
    | with_reducible assumption | with_reducible apply flashAfter_keeps
      | with_reducible apply descJob_keeps | with_reducible apply flashJob_keeps
      | with_reducible apply xferResult_keeps | with_reducible apply Keeps.ite
      | with_reducible apply Keeps.foldl
    | intro _ | split

theorem State.xferVoid_keeps {a s : State} (h : Keeps a s) {v1} : Keeps a (State.xferVoid s v1) := by
  unfold State.xferVoid
  repeat' first
    | with_reducible assumption | with_reducible apply descJob_keeps
      | with_reducible apply setVerState_keeps | with_reducible apply Keeps.ite

theorem State.xferAbandon_keeps {a s : State} (h :
    Keeps a s) {v1 v2} : Keeps a (State.xferAbandon s v1 v2) := by
  unfold State.xferAbandon
  repeat' first
    | with_reducible assumption | with_reducible apply finish_keeps
      | with_reducible apply xferClear_keeps | with_reducible apply when_keeps
      | with_reducible apply setVerState_keeps | with_reducible apply xferVoid_keeps
      | with_reducible apply Keeps.ite | with_reducible apply Keeps.foldl
    | intro _

theorem State.slotErase_keeps {a s : State} (h :
    Keeps a s) {v1 v2 v3} : Keeps a (State.slotErase s v1 v2 v3) := by
  unfold State.slotErase
  repeat' first
    | with_reducible assumption | with_reducible apply when_keeps
      | with_reducible apply flashJob_keeps | with_reducible apply Keeps.ite
      | with_reducible apply Keeps.foldl
    | intro _

theorem State.xferOpen_keeps {a s : State} (h :
    Keeps a s) {v1 v2 v3 v4} : Keeps a (State.xferOpen s v1 v2 v3 v4) := by
  unfold State.xferOpen
  repeat' first
    | with_reducible assumption | with_reducible apply when_keeps | with_reducible apply onVer_keeps
      | with_reducible apply xferSend_keeps | with_reducible apply xferAbandon_keeps
      | with_reducible apply flashAfter_keeps | with_reducible apply xferFlag_keeps
      | with_reducible apply clearPlace_keeps | with_reducible apply slotErase_keeps
      | with_reducible apply Keeps.ite | with_reducible apply Keeps.foldl
    | intro _ | split | with_reducible apply Keeps.record

theorem State.xferEnd_keeps {a s : State} (h : Keeps a s) {v1 v2} : Keeps a (State.xferEnd s v1 v2) := by
  unfold State.xferEnd
  repeat' first
    | with_reducible assumption | with_reducible apply bothApply_keeps
      | with_reducible apply xferClear_keeps | with_reducible apply finish_keeps
      | with_reducible apply xferAbandon_keeps | with_reducible apply Keeps.ite
      | with_reducible apply Keeps.foldl
    | intro _ | split

theorem State.restoreFrom_keeps {a s : State} (h :
    Keeps a s) {v1 v2} : Keeps a (State.restoreFrom s v1 v2) := by
  unfold State.restoreFrom
  repeat' first
    | with_reducible assumption | with_reducible apply fset_keeps
      | with_reducible apply forEach_keeps | with_reducible apply onEngine_keeps
      | with_reducible apply activated_keeps | with_reducible apply swapNext_keeps
      | with_reducible apply swapRequest_keeps | with_reducible apply Keeps.ite
      | with_reducible apply Keeps.foldl
    | intro _ | split | with_reducible apply Keeps.record

theorem State.exchangeAgain_keeps {a s : State} (h :
    Keeps a s) {v1 v2 v3} : Keeps a (State.exchangeAgain s v1 v2 v3) := by
  unfold State.exchangeAgain
  repeat' first
    | with_reducible assumption | with_reducible apply swapRequest_keeps
      | with_reducible apply fset_keeps | with_reducible apply restoreFrom_keeps
      | with_reducible apply Keeps.ite | with_reducible apply Keeps.foldl
    | intro _ | split | with_reducible apply Keeps.record

theorem State.xferTake_keeps {a s : State} (h :
    Keeps a s) {v1 v2 v3} : Keeps a (State.xferTake s v1 v2 v3) := by
  unfold State.xferTake
  repeat' first
    | with_reducible assumption | with_reducible apply flashJob_keeps
      | with_reducible apply Keeps.ite | with_reducible apply Keeps.foldl
    | intro _ | split | with_reducible apply Keeps.record

theorem State.actStep_keeps {a s : State} (h : Keeps a s) : Keeps a (State.actStep s) := by
  unfold State.actStep
  repeat' first
    | with_reducible assumption | with_reducible apply activated_keeps
      | with_reducible apply restoreFrom_keeps | with_reducible apply exchangeAgain_keeps
      | with_reducible apply selectorJob_keeps | with_reducible apply Keeps.ite
      | with_reducible apply Keeps.foldl
    | intro _ | split | with_reducible apply Keeps.record

theorem State.xferEdge_keeps {a s : State} (h : Keeps a s) : Keeps a (State.xferEdge s) := by
  unfold State.xferEdge
  repeat' first
    | with_reducible assumption | with_reducible apply xferAbandon_keeps
      | with_reducible apply Keeps.ite | with_reducible apply Keeps.foldl
    | intro _ | split | with_reducible apply Keeps.record

theorem State.activate_keeps {a s : State} (h : Keeps a s) {v1 v2} : Keeps a (State.activate s v1 v2) := by
  unfold State.activate
  repeat' first
    | with_reducible assumption | with_reducible apply flashReader_keeps
      | with_reducible apply complete_keeps | with_reducible apply fset_keeps
      | with_reducible apply loadBanks_keeps | with_reducible apply swapRequest_keeps
      | with_reducible apply Keeps.ite | with_reducible apply Keeps.foldl
    | intro _ | split | with_reducible apply Keeps.record

theorem State.slotSend_keeps {a s : State} (h : Keeps a s) {v1 v2} : Keeps a (State.slotSend s v1 v2) := by
  unfold State.slotSend
  repeat' first
    | with_reducible assumption | with_reducible apply flashReader_keeps
      | with_reducible apply complete_keeps | with_reducible apply xferStart_keeps
      | with_reducible apply Keeps.ite | with_reducible apply Keeps.foldl
    | intro _

theorem State.wiring_keeps {a s : State} (h : Keeps a s) {v1 v2} : Keeps a (State.wiring s v1 v2) := by
  unfold State.wiring
  repeat' first
    | with_reducible assumption | with_reducible apply fset_keeps | with_reducible apply draw_keeps
      | with_reducible apply unitSource_keeps | with_reducible apply Keeps.ite

theorem State.strapTake_keeps {a s : State} (h :
    Keeps a s) {v1 v2 v3} : Keeps a (State.strapTake s v1 v2 v3) := by
  unfold State.strapTake
  repeat' first
    | with_reducible assumption | with_reducible apply wiring_keeps
      | with_reducible apply fset_keeps | with_reducible apply holdReset_keeps
      | with_reducible apply unitSource_keeps | with_reducible apply Keeps.ite
      | with_reducible apply Keeps.foldl
    | intro _ | split | with_reducible apply Keeps.record

theorem State.strapSample_keeps {a s : State} (h : Keeps a s) {v1} : Keeps a (State.strapSample s v1) := by
  unfold State.strapSample
  repeat' first
    | with_reducible assumption | with_reducible apply strapTake_keeps
      | with_reducible apply when_keeps | with_reducible apply holdReset_keeps
      | with_reducible apply unitSource_keeps | with_reducible apply Keeps.ite
      | with_reducible apply Keeps.foldl
    | intro _ | split | with_reducible apply Keeps.record

theorem State.bootFault_keeps {a s : State} (h : Keeps a s) : Keeps a (State.bootFault s) := by
  unfold State.bootFault
  repeat' first
    | with_reducible assumption | with_reducible apply when_keeps | with_reducible apply fset_keeps
      | with_reducible apply setReact_keeps | with_reducible apply refreshFault_keeps
      | with_reducible apply Keeps.ite | with_reducible apply Keeps.foldl
    | intro _

theorem State.bootOn_keeps {a s : State} (h : Keeps a s) : Keeps a (State.bootOn s) := by
  unfold State.bootOn
  repeat' first
    | with_reducible assumption | with_reducible apply bootFault_keeps
      | with_reducible apply fset_keeps | with_reducible apply bootVersions_keeps
      | with_reducible apply forPorts_keeps | with_reducible apply formation_keeps
      | with_reducible apply when_keeps | with_reducible apply bootReturned_keeps
      | with_reducible apply hostEvent_keeps | with_reducible apply pairEv_keeps
      | with_reducible apply Keeps.ite | with_reducible apply Keeps.foldl
    | intro _ | split | with_reducible apply Keeps.record

theorem State.bootRecords_keeps {a s : State} (h : Keeps a s) : Keeps a (State.bootRecords s) := by
  unfold State.bootRecords
  repeat' first
    | with_reducible assumption | with_reducible apply logRec_keeps
      | with_reducible apply when_keeps | with_reducible apply Keeps.ite
      | with_reducible apply Keeps.foldl
    | intro _ | split | with_reducible apply Keeps.record

theorem State.bootFlash_keeps {a s : State} (h : Keeps a s) : Keeps a (State.bootFlash s) := by
  unfold State.bootFlash
  repeat' first
    | with_reducible assumption | with_reducible apply fset_keeps
      | with_reducible apply loadBanks_keeps | with_reducible apply bootOn_keeps
      | with_reducible apply bootRecords_keeps | with_reducible apply logLocate_keeps
      | with_reducible apply holdReset_keeps | with_reducible apply Keeps.ite
      | with_reducible apply Keeps.foldl
    | intro _ | split | with_reducible apply Keeps.record

theorem State.supplyLost_keeps {a s : State} (h : Keeps a s) {v1} : Keeps a (State.supplyLost s v1) := by
  unfold State.supplyLost
  repeat' first
    | with_reducible assumption | with_reducible apply unitReset_keeps
      | with_reducible apply Keeps.ite | with_reducible apply Keeps.foldl
    | intro _ | split | with_reducible apply Keeps.record

theorem State.pllLock_keeps {a s : State} (h : Keeps a s) : Keeps a (State.pllLock s) := by
  unfold State.pllLock
  repeat' first
    | with_reducible assumption | with_reducible apply draw_keeps | with_reducible apply fset_keeps
      | with_reducible apply onPair_keeps | with_reducible apply Keeps.ite
      | with_reducible apply Keeps.foldl
    | intro _ | split | with_reducible apply Keeps.record

theorem State.powerOn_keeps {a s : State} (h : Keeps a s) : Keeps a (State.powerOn s) := by
  unfold State.powerOn
  refine (State.flashCut_keeps (State.otpCut_keeps h)).trans ⟨rfl, fun k => ⟨?_, rfl, rfl⟩⟩
  have := k.1
  simp only [Memory.wf, Bool.and_eq_true] at this ⊢
  exact ⟨rfl, this.2⟩

theorem State.bootLoader_keeps {a s : State} (h : Keeps a s) : Keeps a (State.bootLoader s) := by
  unfold State.bootLoader
  repeat' first
    | with_reducible assumption | with_reducible apply fset_keeps
      | with_reducible apply bootFault_keeps | with_reducible apply bootRecords_keeps
      | with_reducible apply logLocate_keeps | with_reducible apply hostEvent_keeps
      | with_reducible apply Keeps.ite | with_reducible apply Keeps.foldl
    | intro _ | split | with_reducible apply Keeps.record

theorem State.bootEnd_keeps {a s : State} (h : Keeps a s) : Keeps a (State.bootEnd s) := by
  unfold State.bootEnd
  repeat' first
    | with_reducible assumption | with_reducible apply bootLoader_keeps
      | with_reducible apply bootFlash_keeps | with_reducible apply Keeps.ite

theorem State.muxDrive_keeps {a s : State} (h : Keeps a s) {v1} : Keeps a (State.muxDrive s v1) := by
  unfold State.muxDrive
  repeat' first
    | with_reducible assumption | with_reducible apply Keeps.ite | with_reducible apply Keeps.foldl
    | intro _ | split | with_reducible apply Keeps.record

theorem State.tapEdge_keeps {a s : State} (h :
    Keeps a s) {v1 v2 v3 v4} : Keeps a (State.tapEdge s v1 v2 v3 v4) := by
  unfold State.tapEdge
  repeat' first
    | with_reducible assumption | with_reducible apply draw_keeps | with_reducible apply Keeps.ite
      | with_reducible apply Keeps.foldl
    | intro _ | split | with_reducible apply Keeps.record

end Sys2Proof.Machine
end

