-- ==== Sys2Proof/Laws/KeepsHost.lean ====
section
/-!
SUPPORT. One lemma `<operation>_keeps` for each operation of the host protocol: it leaves the queue of waiting
commands as it was, and the tables in their canonical form.
-/
namespace Sys2Proof.Machine

open State

theorem State.mailTake_keeps {a s : State} (h : Keeps a s) {v1 v2} : Keeps a (State.mailTake s v1 v2) := by
  unfold State.mailTake
  repeat' first
    | with_reducible assumption | with_reducible apply onMbx_keeps | with_reducible apply Keeps.ite

theorem State.takeUp_keeps {a s : State} (h : Keeps a s) {v1} : Keeps a (State.takeUp s v1) := by
  unfold State.takeUp
  repeat' first
    | with_reducible assumption | with_reducible apply dropPacket_keeps
      | with_reducible apply mailTake_keeps | with_reducible apply Keeps.ite
      | with_reducible apply Keeps.foldl
    | intro _ | split | with_reducible apply Keeps.record

theorem State.hostEdge_keeps {a s : State} (h : Keeps a s) : Keeps a (State.hostEdge s) := by
  unfold State.hostEdge
  repeat' first
    | with_reducible assumption | with_reducible apply Keeps.ite | with_reducible apply Keeps.foldl
    | intro _ | split | with_reducible apply Keeps.record

theorem State.refuse_keeps {a s : State} (h : Keeps a s) {v1 v2 v3} : Keeps a (State.refuse s v1 v2 v3) := by
  unfold State.refuse
  repeat' first
    | with_reducible assumption | with_reducible apply cntEvent_keeps
      | with_reducible apply queueEntry_keeps | with_reducible apply Keeps.ite

theorem State.wakeFor_keeps {a s : State} (h : Keeps a s) {v1} : Keeps a (State.wakeFor s v1) := by
  unfold State.wakeFor
  repeat' first
    | with_reducible assumption | with_reducible apply when_keeps | with_reducible apply wake_keeps
      | with_reducible apply Keeps.ite | with_reducible apply Keeps.foldl
    | intro _

theorem State.takeTag_keeps {a s : State} (h : Keeps a s) {v1} : Keeps a (State.takeTag s v1) := by
  unfold State.takeTag
  repeat' first
    | with_reducible assumption | with_reducible apply cntEvent_keeps
      | with_reducible apply memWrite_keeps | with_reducible apply Keeps.ite
      | with_reducible apply Keeps.foldl
    | intro _ | split | with_reducible apply Keeps.record

theorem State.enqueue_keeps {a s : State} (h : Keeps a s) {v1} : Keeps a (State.enqueue s v1) := by
  unfold State.enqueue
  repeat' first
    | with_reducible assumption | with_reducible apply wakeFor_keeps
      | with_reducible apply takeTag_keeps | with_reducible apply postWord_keeps
      | with_reducible apply reply_keeps | with_reducible apply hostFeed_keeps
      | with_reducible apply Keeps.ite | with_reducible apply Keeps.foldl
    | intro _ | split | with_reducible apply Keeps.record

theorem State.frontEnd_keeps {a s : State} (h : Keeps a s) {v1 v2} : Keeps a (State.frontEnd s v1 v2) := by
  unfold State.frontEnd
  repeat' first
    | with_reducible assumption | with_reducible apply refuse_keeps
      | with_reducible apply enqueue_keeps | with_reducible apply Keeps.ite
      | with_reducible apply Keeps.foldl
    | intro _ | split

theorem State.packetIn_keeps {a s : State} (h : Keeps a s) {v1} : Keeps a (State.packetIn s v1) := by
  unfold State.packetIn
  repeat' first
    | with_reducible assumption | with_reducible apply cntEvent_keeps
      | with_reducible apply refuse_keeps | with_reducible apply frontEnd_keeps
      | with_reducible apply Keeps.ite

theorem State.interpret_keeps {a s : State} (h : Keeps a s) {op : Nat}
    {body : Byte → List Byte → State → State} {tag : Byte} {ps : List Byte}
    (hb : ∀ s, Keeps a s → Keeps a (body tag ps s)) : Keeps a (State.interpret op body tag ps s) :=
  Keeps.ite (hb s h) (State.reply_keeps h)

theorem State.judge_keeps {a s : State} (h : Keeps a s) {op : Nat} {tag : Byte}
    {checks : List (Bool × Nat)} {go : State → State} (hg : ∀ s, Keeps a s → Keeps a (go s)) :
    Keeps a (State.judge s op tag checks go) := by
  unfold State.judge
  split
  · exact State.reply_keeps h
  · exact hg s h

theorem State.entryRead_keeps {a s : State} (h : Keeps a s) {v1} : Keeps a (State.entryRead s v1) := by
  unfold State.entryRead
  repeat' first
    | with_reducible assumption | with_reducible apply Keeps.ite | with_reducible apply Keeps.foldl
    | intro _ | split | with_reducible apply Keeps.record

theorem State.readOut_keeps {a s : State} (h : Keeps a s) {k n : Nat} :
    Keeps a (State.readOut s k n).2 := by
  induction k generalizing s n with
  | zero => exact h
  | succ k ih =>
    unfold State.readOut
    split
    · exact h
    · extract_lets b r
      split
      · exact h
      · exact ih (State.entryRead_keeps h)

theorem State.doQuadSet_keeps {a s : State} (h : Keeps a s) {v0 v1} : Keeps a (State.doQuadSet v0 v1 s) := by
  unfold State.doQuadSet
  repeat' first
    | with_reducible assumption | with_reducible apply judge_keeps
      | with_reducible apply reply_keeps | with_reducible apply regWrite_keeps
      | with_reducible apply Keeps.ite | with_reducible apply Keeps.foldl
    | intro _

theorem State.doPairCfgSet_keeps {a s : State} (h :
    Keeps a s) {v0 v1} : Keeps a (State.doPairCfgSet v0 v1 s) := by
  unfold State.doPairCfgSet
  repeat' first
    | with_reducible assumption | with_reducible apply judge_keeps
      | with_reducible apply reply_keeps | with_reducible apply fset_keeps
      | with_reducible apply Keeps.ite | with_reducible apply Keeps.foldl
    | intro _

theorem State.doTimeRead_keeps {a s : State} (h :
    Keeps a s) {v0 v1} : Keeps a (State.doTimeRead v0 v1 s) := by
  unfold State.doTimeRead
  repeat' first
    | with_reducible assumption | with_reducible apply draw_keeps | with_reducible apply reply_keeps

theorem State.pairRun_keeps {a s : State} (h : Keeps a s) {op : Nat} {tag : Byte}
    {run : Option (Nat × Nat) → State → Nat × State} (hr : ∀ c s, Keeps a s → Keeps a (run c s).2) :
    Keeps a (State.pairRun s op tag run) := by
  unfold State.pairRun
  extract_lets r
  exact Keeps.ite (hr _ _ (State.openCmd_keeps (State.reply_keeps h))) (State.reply_keeps h)

theorem State.doPairHandover_keeps {a s : State} (h :
    Keeps a s) {v0 v1} : Keeps a (State.doPairHandover v0 v1 s) := by
  unfold State.doPairHandover
  repeat' first
    | with_reducible assumption | with_reducible apply judge_keeps
      | with_reducible apply pairRun_keeps | with_reducible apply propose_keeps
      | with_reducible apply Keeps.ite | with_reducible apply Keeps.foldl
    | intro _

theorem State.doPairWithdraw_keeps {a s : State} (h :
    Keeps a s) {v0 v1} : Keeps a (State.doPairWithdraw v0 v1 s) := by
  unfold State.doPairWithdraw
  repeat' first
    | with_reducible assumption | with_reducible apply judge_keeps
      | with_reducible apply pairRun_keeps | with_reducible apply withdraw_keeps
      | with_reducible apply Keeps.ite | with_reducible apply Keeps.foldl
    | intro _

theorem State.doPairRetrain_keeps {a s : State} (h :
    Keeps a s) {v0 v1} : Keeps a (State.doPairRetrain v0 v1 s) := by
  unfold State.doPairRetrain
  repeat' first
    | with_reducible assumption | with_reducible apply judge_keeps
      | with_reducible apply reply_keeps | with_reducible apply retrain_keeps
      | with_reducible apply Keeps.ite | with_reducible apply Keeps.foldl
    | intro _

theorem State.doHostLinkSet_keeps {a s : State} (h :
    Keeps a s) {v0 v1} : Keeps a (State.doHostLinkSet v0 v1 s) := by
  unfold State.doHostLinkSet
  repeat' first
    | with_reducible assumption | with_reducible apply judge_keeps
      | with_reducible apply reply_keeps | with_reducible apply Keeps.ite
      | with_reducible apply Keeps.foldl
    | intro _ | split | with_reducible apply Keeps.record

theorem State.doQuadStatus_keeps {a s : State} (h :
    Keeps a s) {v0 v1} : Keeps a (State.doQuadStatus v0 v1 s) := by
  unfold State.doQuadStatus
  repeat' first
    | with_reducible assumption | with_reducible apply judge_keeps
      | with_reducible apply reply_keeps | with_reducible apply Keeps.ite
      | with_reducible apply Keeps.foldl
    | intro _

theorem State.askProfile_keeps {a s : State} (h :
    Keeps a s) {v1 v2} : Keeps a (State.askProfile s v1 v2) := by
  unfold State.askProfile
  repeat' first
    | with_reducible assumption | with_reducible apply complete_keeps
      | with_reducible apply openCmd_keeps | with_reducible apply reply_keeps
      | with_reducible apply answerLater_keeps | with_reducible apply profileAt_keeps
      | with_reducible apply Keeps.ite | with_reducible apply Keeps.foldl
    | intro _ | split | with_reducible apply Keeps.record

theorem State.resetWhenRead_keeps {a s : State} (h :
    Keeps a s) {v1} : Keeps a (State.resetWhenRead s v1) := by
  unfold State.resetWhenRead
  repeat' first
    | with_reducible assumption | with_reducible apply Keeps.ite | with_reducible apply Keeps.foldl
    | intro _ | split | with_reducible apply Keeps.record

theorem State.doUnitReset_keeps {a s : State} (h :
    Keeps a s) {v0 v1} : Keeps a (State.doUnitReset v0 v1 s) := by
  unfold State.doUnitReset
  repeat' first
    | with_reducible assumption | with_reducible apply judge_keeps
      | with_reducible apply pairRun_keeps | with_reducible apply propose_keeps
      | with_reducible apply resetWhenRead_keeps | with_reducible apply reply_keeps
      | with_reducible apply Keeps.ite | with_reducible apply Keeps.foldl
    | intro _

theorem State.doPresenceEnd_keeps {a s : State} (h :
    Keeps a s) {v0 v1} : Keeps a (State.doPresenceEnd v0 v1 s) := by
  unfold State.doPresenceEnd
  repeat' first
    | with_reducible assumption | with_reducible apply reply_keeps | with_reducible apply when_keeps
      | with_reducible apply presEnd_keeps

theorem State.doTimeBind_keeps {a s : State} (h :
    Keeps a s) {v0 v1} : Keeps a (State.doTimeBind v0 v1 s) := by
  unfold State.doTimeBind
  repeat' first
    | with_reducible assumption | with_reducible apply judge_keeps
      | with_reducible apply answerLater_keeps | with_reducible apply onPair_keeps
      | with_reducible apply Keeps.ite | with_reducible apply Keeps.foldl
    | intro _

theorem State.doUnitProfile_keeps {a s : State} (h :
    Keeps a s) {v0 v1} : Keeps a (State.doUnitProfile v0 v1 s) := by
  unfold State.doUnitProfile
  repeat' first
    | with_reducible assumption | with_reducible apply judge_keeps
      | with_reducible apply askProfile_keeps | with_reducible apply Keeps.ite
      | with_reducible apply Keeps.foldl
    | intro _

theorem State.doIndicatorSet_keeps {a s : State} (h :
    Keeps a s) {v0 v1} : Keeps a (State.doIndicatorSet v0 v1 s) := by
  unfold State.doIndicatorSet
  repeat' first
    | with_reducible assumption | with_reducible apply judge_keeps
      | with_reducible apply reply_keeps | with_reducible apply fset_keeps
      | with_reducible apply Keeps.ite | with_reducible apply Keeps.foldl
    | intro _

theorem State.doPairRebalance_keeps {a s : State} (h :
    Keeps a s) {v0 v1} : Keeps a (State.doPairRebalance v0 v1 s) := by
  unfold State.doPairRebalance
  repeat' first
    | with_reducible assumption | with_reducible apply judge_keeps
      | with_reducible apply pairRun_keeps | with_reducible apply rebalance_keeps
      | with_reducible apply Keeps.ite | with_reducible apply Keeps.foldl
    | intro _

theorem State.deferredProfile_keeps {a s : State} (h : Keeps a s) : Keeps a (State.deferredProfile s) := by
  unfold State.deferredProfile
  repeat' first
    | with_reducible assumption | with_reducible apply complete_keeps
      | with_reducible apply profileAt_keeps | with_reducible apply when_keeps
      | with_reducible apply Keeps.ite | with_reducible apply Keeps.foldl
    | intro _ | split | with_reducible apply Keeps.record

theorem State.doCntConfig_keeps {a s : State} (h :
    Keeps a s) {v0 v1} : Keeps a (State.doCntConfig v0 v1 s) := by
  unfold State.doCntConfig
  repeat' first
    | with_reducible assumption | with_reducible apply judge_keeps
      | with_reducible apply reply_keeps | with_reducible apply regWrite_keeps
      | with_reducible apply Keeps.ite | with_reducible apply Keeps.foldl
    | intro _

theorem State.doLogRead_keeps {a s : State} (h : Keeps a s) {tag : Byte} {ps : List Byte} :
    Keeps a (State.doLogRead tag ps s) := by
  unfold State.doLogRead
  exact State.judge_keeps h fun _ k => State.reply_keeps
    (Keeps.foldl _ k fun _ _ k => State.flashReader_keeps k (fun _ k => k) fun _ k => k)

theorem State.weirSet_keeps {a s : State} (h :
    Keeps a s) {v1 v2 v3 v4} : Keeps a (State.weirSet s v1 v2 v3 v4) := by
  unfold State.weirSet
  repeat' first
    | with_reducible assumption | with_reducible apply fset_keeps | with_reducible apply Keeps.ite

theorem State.doWeirClassSet_keeps {a s : State} (h :
    Keeps a s) {v0 v1} : Keeps a (State.doWeirClassSet v0 v1 s) := by
  unfold State.doWeirClassSet
  repeat' first
    | with_reducible assumption | with_reducible apply judge_keeps
      | with_reducible apply reply_keeps | with_reducible apply weirSet_keeps
      | with_reducible apply Keeps.ite | with_reducible apply Keeps.foldl
    | intro _

theorem State.weirClear_keeps {a s : State} (h : Keeps a s) {v1} : Keeps a (State.weirClear s v1) := by
  unfold State.weirClear
  repeat' first
    | with_reducible assumption | with_reducible apply fbit_keeps
      | with_reducible apply refreshFault_keeps | with_reducible apply forEach_keeps
      | with_reducible apply setRelWin_keeps | with_reducible apply setReact_keeps
      | with_reducible apply Keeps.ite | with_reducible apply Keeps.foldl
    | intro _

theorem State.doWeirClear_keeps {a s : State} (h :
    Keeps a s) {v0 v1} : Keeps a (State.doWeirClear v0 v1 s) := by
  unfold State.doWeirClear
  repeat' first
    | with_reducible assumption | with_reducible apply judge_keeps | with_reducible apply when_keeps
      | with_reducible apply weirClear_keeps | with_reducible apply reply_keeps
      | with_reducible apply faultReleaseWrite_keeps | with_reducible apply Keeps.ite
      | with_reducible apply Keeps.foldl
    | intro _

theorem State.doLogMark_keeps {a s : State} (h : Keeps a s) {v0 v1} : Keeps a (State.doLogMark v0 v1 s) := by
  unfold State.doLogMark
  repeat' first
    | with_reducible assumption | with_reducible apply judge_keeps
      | with_reducible apply logRec_keeps | with_reducible apply reply_keeps
      | with_reducible apply when_keeps | with_reducible apply Keeps.ite
      | with_reducible apply Keeps.foldl
    | intro _

theorem State.doCntClear_keeps {a s : State} (h :
    Keeps a s) {v0 v1} : Keeps a (State.doCntClear v0 v1 s) := by
  unfold State.doCntClear
  repeat' first
    | with_reducible assumption | with_reducible apply reply_keeps | with_reducible apply fset_keeps

theorem State.doWeirForce_keeps {a s : State} (h :
    Keeps a s) {v0 v1} : Keeps a (State.doWeirForce v0 v1 s) := by
  unfold State.doWeirForce
  repeat' first
    | with_reducible assumption | with_reducible apply judge_keeps | with_reducible apply fbit_keeps
      | with_reducible apply reply_keeps | with_reducible apply when_keeps
      | with_reducible apply weirEvent_keeps | with_reducible apply Keeps.ite
      | with_reducible apply Keeps.foldl
    | intro _ | split

theorem State.doPortDisable_keeps {a s : State} (h :
    Keeps a s) {v0 v1} : Keeps a (State.doPortDisable v0 v1 s) := by
  unfold State.doPortDisable
  repeat' first
    | with_reducible assumption | with_reducible apply forceWrite_keeps
      | with_reducible apply endDefer_keeps

theorem State.doPortRecover_keeps {a s : State} (h :
    Keeps a s) {v0 v1} : Keeps a (State.doPortRecover v0 v1 s) := by
  unfold State.doPortRecover
  repeat' first
    | with_reducible assumption | with_reducible apply judge_keeps
      | with_reducible apply forceWrite_keeps | with_reducible apply Keeps.ite
      | with_reducible apply Keeps.foldl
    | intro _

theorem State.doPortMeasure_keeps {a s : State} (h :
    Keeps a s) {v0 v1} : Keeps a (State.doPortMeasure v0 v1 s) := by
  unfold State.doPortMeasure
  repeat' first
    | with_reducible assumption | with_reducible apply judge_keeps
      | with_reducible apply reply_keeps | with_reducible apply Keeps.ite
      | with_reducible apply Keeps.foldl
    | intro _

theorem State.doPortEnable_keeps {a s : State} (h :
    Keeps a s) {v0 v1} : Keeps a (State.doPortEnable v0 v1 s) := by
  unfold State.doPortEnable
  repeat' first
    | with_reducible assumption | with_reducible apply judge_keeps
      | with_reducible apply endDefer_keeps | with_reducible apply reply_keeps
      | with_reducible apply onPwr_keeps | with_reducible apply fset_keeps
      | with_reducible apply cntEvent_keeps | with_reducible apply openCmd_keeps
      | with_reducible apply forceWrite_keeps | with_reducible apply enableOff_keeps
      | with_reducible apply Keeps.ite | with_reducible apply Keeps.foldl
    | intro _

theorem State.doPortGet_keeps {a s : State} (h : Keeps a s) {v0 v1} : Keeps a (State.doPortGet v0 v1 s) := by
  unfold State.doPortGet
  repeat' first
    | with_reducible assumption | with_reducible apply judge_keeps
      | with_reducible apply reply_keeps | with_reducible apply Keeps.ite
      | with_reducible apply Keeps.foldl
    | intro _

theorem State.doMuxSet_keeps {a s : State} (h : Keeps a s) {v0 v1} : Keeps a (State.doMuxSet v0 v1 s) := by
  unfold State.doMuxSet
  repeat' first
    | with_reducible assumption | with_reducible apply judge_keeps
      | with_reducible apply reply_keeps | with_reducible apply setMux_keeps
      | with_reducible apply Keeps.ite | with_reducible apply Keeps.foldl
    | intro _

theorem State.setEntry_keeps {a s : State} (h : Keeps a s) {v1 v2} : Keeps a (State.setEntry s v1 v2) := by
  unfold State.setEntry
  repeat' first
    | with_reducible assumption | with_reducible apply regWrite_keeps
      | with_reducible apply Keeps.ite | with_reducible apply Keeps.foldl
    | intro _ | split

theorem State.doPortSet_keeps {a s : State} (h : Keeps a s) {v0 v1} : Keeps a (State.doPortSet v0 v1 s) := by
  unfold State.doPortSet
  repeat' first
    | with_reducible assumption | with_reducible apply judge_keeps
      | with_reducible apply reply_keeps | with_reducible apply setEntry_keeps
      | with_reducible apply Keeps.ite | with_reducible apply Keeps.foldl
    | intro _

theorem State.doModeMapSet_keeps {a s : State} (h :
    Keeps a s) {v0 v1} : Keeps a (State.doModeMapSet v0 v1 s) := by
  unfold State.doModeMapSet
  repeat' first
    | with_reducible assumption | with_reducible apply judge_keeps | with_reducible apply fset_keeps
      | with_reducible apply extChanged_keeps | with_reducible apply writeMaps_keeps
      | with_reducible apply Keeps.ite | with_reducible apply Keeps.foldl
    | intro _

theorem State.doPortStatus_keeps {a s : State} (h :
    Keeps a s) {v0 v1} : Keeps a (State.doPortStatus v0 v1 s) := by
  unfold State.doPortStatus
  repeat' first
    | with_reducible assumption | with_reducible apply judge_keeps
      | with_reducible apply reply_keeps | with_reducible apply Keeps.ite
      | with_reducible apply Keeps.foldl
    | intro _

theorem State.doMuxStatus_keeps {a s : State} (h :
    Keeps a s) {v0 v1} : Keeps a (State.doMuxStatus v0 v1 s) := by
  unfold State.doMuxStatus
  repeat' first
    | with_reducible assumption | with_reducible apply judge_keeps
      | with_reducible apply reply_keeps | with_reducible apply Keeps.ite
      | with_reducible apply Keeps.foldl
    | intro _

theorem State.hostPost_keeps {a s : State} (h :
    Keeps a s) {v1 v2 v3 v4 v5 v6} : Keeps a (State.hostPost s v1 v2 v3 v4 v5 v6) := by
  unfold State.hostPost
  repeat' first
    | with_reducible assumption | with_reducible apply openCmd_keeps
      | with_reducible apply reply_keeps | with_reducible apply onPd_keeps
      | with_reducible apply extChanged_keeps | with_reducible apply writeQueue_keeps

theorem State.doPdHardReset_keeps {a s : State} (h :
    Keeps a s) {v0 v1} : Keeps a (State.doPdHardReset v0 v1 s) := by
  unfold State.doPdHardReset
  repeat' first
    | with_reducible assumption | with_reducible apply reply_keeps | with_reducible apply when_keeps
      | with_reducible apply fset_keeps | with_reducible apply onPd_keeps
      | with_reducible apply hardReset_keeps | with_reducible apply openCmd_keeps
      | with_reducible apply Keeps.ite | with_reducible apply Keeps.foldl
    | intro _

theorem State.doPdSwap_keeps {a s : State} (h : Keeps a s) {v0 v1} : Keeps a (State.doPdSwap v0 v1 s) := by
  unfold State.doPdSwap
  repeat' first
    | with_reducible assumption | with_reducible apply judge_keeps
      | with_reducible apply hostPost_keeps | with_reducible apply Keeps.ite
      | with_reducible apply Keeps.foldl
    | intro _

theorem State.doPdStatus_keeps {a s : State} (h :
    Keeps a s) {v0 v1} : Keeps a (State.doPdStatus v0 v1 s) := by
  unfold State.doPdStatus
  repeat' first
    | with_reducible assumption | with_reducible apply judge_keeps
      | with_reducible apply reply_keeps | with_reducible apply Keeps.ite
      | with_reducible apply Keeps.foldl
    | intro _

theorem State.doPdEpr_keeps {a s : State} (h : Keeps a s) {v0 v1} : Keeps a (State.doPdEpr v0 v1 s) := by
  unfold State.doPdEpr
  repeat' first
    | with_reducible assumption | with_reducible apply judge_keeps
      | with_reducible apply hostPost_keeps | with_reducible apply Keeps.ite
      | with_reducible apply Keeps.foldl
    | intro _

theorem State.answerPositive_keeps {a s : State} (h : Keeps a s) {p : Nat} {m : Msg} {k : Nat} :
    Keeps a (State.answerPositive s p m k) := by
  unfold State.answerPositive
  have hi := State.invalidT_keeps h (p := p) (m := m) (k := k)
  generalize State.invalidT s p m k = x at hi
  cases x with
  | some t => exact hi t rfl
  | none => exact State.replyPositive_keeps h

theorem State.answerT_keeps {a s : State} (h :
    Keeps a s) {v1 v2 v3 v4 v5} : Keeps a (State.answerT s v1 v2 v3 v4 v5) := by
  unfold State.answerT
  repeat' first
    | with_reducible assumption | with_reducible apply answerPositive_keeps
      | with_reducible apply sendReply_keeps | with_reducible apply applyReply_keeps
      | with_reducible apply Keeps.ite | with_reducible apply Keeps.foldl
    | intro _ | split

theorem State.doPdSend_keeps {a s : State} (h : Keeps a s) {v0 v1} : Keeps a (State.doPdSend v0 v1 s) := by
  unfold State.doPdSend
  repeat' first
    | with_reducible assumption | with_reducible apply judge_keeps
      | with_reducible apply hostPost_keeps | with_reducible apply Keeps.ite
      | with_reducible apply Keeps.foldl
    | intro _

theorem State.doPdReplySet_keeps {a s : State} (h :
    Keeps a s) {v0 v1} : Keeps a (State.doPdReplySet v0 v1 s) := by
  unfold State.doPdReplySet
  repeat' first
    | with_reducible assumption | with_reducible apply judge_keeps
      | with_reducible apply extChanged_keeps | with_reducible apply extWrite_keeps
      | with_reducible apply Keeps.ite | with_reducible apply Keeps.foldl
    | intro _

theorem State.doPdCableReset_keeps {a s : State} (h :
    Keeps a s) {v0 v1} : Keeps a (State.doPdCableReset v0 v1 s) := by
  unfold State.doPdCableReset
  repeat' first
    | with_reducible assumption | with_reducible apply judge_keeps
      | with_reducible apply cableReset_keeps | with_reducible apply openCmd_keeps
      | with_reducible apply reply_keeps | with_reducible apply Keeps.ite
      | with_reducible apply Keeps.foldl
    | intro _

theorem State.answerOther_keeps {a s : State} (h :
    Keeps a s) {v1 v2 v3 v4} : Keeps a (State.answerOther s v1 v2 v3 v4) := by
  unfold State.answerOther
  repeat' first
    | with_reducible assumption | with_reducible apply sendReply_keeps
      | with_reducible apply sendNo_keeps | with_reducible apply Keeps.ite
      | with_reducible apply Keeps.foldl
    | intro _ | split

theorem State.doPdAnswer_keeps {a s : State} (h :
    Keeps a s) {v0 v1} : Keeps a (State.doPdAnswer v0 v1 s) := by
  unfold State.doPdAnswer
  repeat' first
    | with_reducible assumption | with_reducible apply reply_keeps
      | with_reducible apply timStop_keeps | with_reducible apply onPd_keeps
      | with_reducible apply answering_keeps | with_reducible apply answerT_keeps
      | with_reducible apply answerOther_keeps | with_reducible apply Keeps.ite
      | with_reducible apply Keeps.foldl
    | intro _ | split

theorem State.doPdCapsSet_keeps {a s : State} (h :
    Keeps a s) {v0 v1} : Keeps a (State.doPdCapsSet v0 v1 s) := by
  unfold State.doPdCapsSet
  repeat' first
    | with_reducible assumption | with_reducible apply judge_keeps
      | with_reducible apply extChanged_keeps | with_reducible apply setCaps_keeps
      | with_reducible apply Keeps.ite | with_reducible apply Keeps.foldl
    | intro _

theorem State.doPdBist_keeps {a s : State} (h : Keeps a s) {v0 v1} : Keeps a (State.doPdBist v0 v1 s) := by
  unfold State.doPdBist
  repeat' first
    | with_reducible assumption | with_reducible apply judge_keeps
      | with_reducible apply openCmd_keeps | with_reducible apply reply_keeps
      | with_reducible apply complete_keeps | with_reducible apply fset_keeps
      | with_reducible apply timStart_keeps | with_reducible apply onPd_keeps
      | with_reducible apply sendEngine_keeps | with_reducible apply Keeps.ite
      | with_reducible apply Keeps.foldl
    | intro _

theorem State.doPdReplyGet_keeps {a s : State} (h :
    Keeps a s) {v0 v1} : Keeps a (State.doPdReplyGet v0 v1 s) := by
  unfold State.doPdReplyGet
  repeat' first
    | with_reducible assumption | with_reducible apply judge_keeps
      | with_reducible apply reply_keeps | with_reducible apply Keeps.ite
      | with_reducible apply Keeps.foldl
    | intro _

theorem State.doPdSoftReset_keeps {a s : State} (h :
    Keeps a s) {v0 v1} : Keeps a (State.doPdSoftReset v0 v1 s) := by
  unfold State.doPdSoftReset
  repeat' first
    | with_reducible assumption | with_reducible apply judge_keeps
      | with_reducible apply softReset_keeps | with_reducible apply openCmd_keeps
      | with_reducible apply reply_keeps | with_reducible apply Keeps.ite
      | with_reducible apply Keeps.foldl
    | intro _

theorem State.doCfgRead_keeps {a s : State} (h : Keeps a s) {v0 v1} : Keeps a (State.doCfgRead v0 v1 s) := by
  unfold State.doCfgRead
  repeat' first
    | with_reducible assumption | with_reducible apply reply_keeps
      | with_reducible apply flashReader_keeps | with_reducible apply Keeps.ite
      | with_reducible apply Keeps.foldl
    | intro _ | split

theorem State.doCalRevert_keeps {a s : State} (h :
    Keeps a s) {v0 v1} : Keeps a (State.doCalRevert v0 v1 s) := by
  unfold State.doCalRevert
  repeat' first
    | with_reducible assumption | with_reducible apply judge_keeps
      | with_reducible apply verReader_keeps | with_reducible apply reply_keeps
      | with_reducible apply onVer_keeps | with_reducible apply openCmd_keeps
      | with_reducible apply Keeps.ite | with_reducible apply Keeps.foldl
    | intro _

theorem State.onFw_keeps {a s : State} (h : Keeps a s) {v1} : Keeps a (State.onFw s v1) := by
  unfold State.onFw
  repeat' first
    | with_reducible assumption | with_reducible apply Keeps.ite | with_reducible apply Keeps.foldl
    | intro _ | split | with_reducible apply Keeps.record

theorem State.doFwStageData_keeps {a s : State} (h :
    Keeps a s) {v0 v1} : Keeps a (State.doFwStageData v0 v1 s) := by
  unfold State.doFwStageData
  repeat' first
    | with_reducible assumption | with_reducible apply reply_keeps
      | with_reducible apply judge_keeps | with_reducible apply onFw_keeps
      | with_reducible apply memWrite_keeps | with_reducible apply flashJob_keeps
      | with_reducible apply Keeps.ite | with_reducible apply Keeps.foldl
    | intro _ | split

theorem State.doCfgWrite_keeps {a s : State} (h :
    Keeps a s) {v0 v1} : Keeps a (State.doCfgWrite v0 v1 s) := by
  unfold State.doCfgWrite
  repeat' first
    | with_reducible assumption | with_reducible apply judge_keeps
      | with_reducible apply reply_keeps | with_reducible apply memWrite_keeps
      | with_reducible apply Keeps.ite | with_reducible apply Keeps.foldl
    | intro _

theorem State.doCalSave_keeps {a s : State} (h : Keeps a s) {v0 v1} : Keeps a (State.doCalSave v0 v1 s) := by
  unfold State.doCalSave
  repeat' first
    | with_reducible assumption | with_reducible apply judge_keeps
      | with_reducible apply flashAfter_keeps | with_reducible apply storeAt_keeps
      | with_reducible apply openCmd_keeps | with_reducible apply reply_keeps
      | with_reducible apply Keeps.ite | with_reducible apply Keeps.foldl
    | intro _

theorem State.doCalConfirm_keeps {a s : State} (h :
    Keeps a s) {v0 v1} : Keeps a (State.doCalConfirm v0 v1 s) := by
  unfold State.doCalConfirm
  repeat' first
    | with_reducible assumption | with_reducible apply judge_keeps
      | with_reducible apply reply_keeps | with_reducible apply onVer_keeps
      | with_reducible apply Keeps.ite | with_reducible apply Keeps.foldl
    | intro _

theorem State.doCfgStatus_keeps {a s : State} (h :
    Keeps a s) {v0 v1} : Keeps a (State.doCfgStatus v0 v1 s) := by
  unfold State.doCfgStatus
  repeat' first
    | with_reducible assumption | with_reducible apply reply_keeps

theorem State.doCfgConfirm_keeps {a s : State} (h :
    Keeps a s) {v0 v1} : Keeps a (State.doCfgConfirm v0 v1 s) := by
  unfold State.doCfgConfirm
  repeat' first
    | with_reducible assumption | with_reducible apply judge_keeps
      | with_reducible apply reply_keeps | with_reducible apply bothApply_keeps
      | with_reducible apply Keeps.ite | with_reducible apply Keeps.foldl
    | intro _

theorem State.activatePool_keeps {a s : State} (h : Keeps a s) {v1} : Keeps a (State.activatePool s v1) := by
  unfold State.activatePool
  repeat' first
    | with_reducible assumption | with_reducible apply loadBanks_keeps
      | with_reducible apply complete_keeps | with_reducible apply bootOn_keeps
      | with_reducible apply onFw_keeps | with_reducible apply Keeps.ite

theorem State.doCalStatus_keeps {a s : State} (h :
    Keeps a s) {v0 v1} : Keeps a (State.doCalStatus v0 v1 s) := by
  unfold State.doCalStatus
  repeat' first
    | with_reducible assumption | with_reducible apply reply_keeps

theorem State.doCfgCommit_keeps {a s : State} (h :
    Keeps a s) {v0 v1} : Keeps a (State.doCfgCommit v0 v1 s) := by
  unfold State.doCfgCommit
  repeat' first
    | with_reducible assumption | with_reducible apply judge_keeps
      | with_reducible apply flashAfter_keeps | with_reducible apply storeAt_keeps
      | with_reducible apply openCmd_keeps | with_reducible apply reply_keeps
      | with_reducible apply Keeps.ite | with_reducible apply Keeps.foldl
    | intro _

theorem State.doFwStageBegin_keeps {a s : State} (h :
    Keeps a s) {v0 v1} : Keeps a (State.doFwStageBegin v0 v1 s) := by
  unfold State.doFwStageBegin
  repeat' first
    | with_reducible assumption | with_reducible apply judge_keeps
      | with_reducible apply openCmd_keeps | with_reducible apply reply_keeps
      | with_reducible apply complete_keeps | with_reducible apply onFw_keeps
      | with_reducible apply slotErase_keeps | with_reducible apply Keeps.ite
      | with_reducible apply Keeps.foldl
    | intro _

theorem State.doCfgPairSync_keeps {a s : State} (h :
    Keeps a s) {v0 v1} : Keeps a (State.doCfgPairSync v0 v1 s) := by
  unfold State.doCfgPairSync
  repeat' first
    | with_reducible assumption | with_reducible apply judge_keeps
      | with_reducible apply cfgSend_keeps | with_reducible apply openCmd_keeps
      | with_reducible apply reply_keeps | with_reducible apply Keeps.ite
      | with_reducible apply Keeps.foldl
    | intro _

theorem State.doCalRun_keeps {a s : State} (h : Keeps a s) {v0 v1} : Keeps a (State.doCalRun v0 v1 s) := by
  unfold State.doCalRun
  repeat' first
    | with_reducible assumption | with_reducible apply judge_keeps
      | with_reducible apply openCmd_keeps | with_reducible apply reply_keeps
      | with_reducible apply calStart_keeps | with_reducible apply fset_keeps
      | with_reducible apply Keeps.ite | with_reducible apply Keeps.foldl
    | intro _

theorem State.doFwActivate_keeps {a s : State} (h :
    Keeps a s) {v0 v1} : Keeps a (State.doFwActivate v0 v1 s) := by
  unfold State.doFwActivate
  repeat' first
    | with_reducible assumption | with_reducible apply judge_keeps
      | with_reducible apply openCmd_keeps | with_reducible apply reply_keeps
      | with_reducible apply activatePool_keeps | with_reducible apply selectorJob_keeps
      | with_reducible apply activate_keeps | with_reducible apply Keeps.ite
      | with_reducible apply Keeps.foldl
    | intro _

theorem State.doFwPairSync_keeps {a s : State} (h :
    Keeps a s) {v0 v1} : Keeps a (State.doFwPairSync v0 v1 s) := by
  unfold State.doFwPairSync
  repeat' first
    | with_reducible assumption | with_reducible apply judge_keeps
      | with_reducible apply slotSend_keeps | with_reducible apply openCmd_keeps
      | with_reducible apply reply_keeps | with_reducible apply Keeps.ite
      | with_reducible apply Keeps.foldl
    | intro _

theorem State.doFwStageEnd_keeps {a s : State} (h : Keeps a s) {tag : Byte} {ps : List Byte} :
    Keeps a (State.doFwStageEnd tag ps s) := by
  unfold State.doFwStageEnd
  split
  · exact State.reply_keeps h
  · refine Keeps.ite (State.reply_keeps h) ?_
    extract_lets ok bad done st s1 s2
    have h1 : Keeps a s1 := State.openCmd_keeps (State.reply_keeps h)
    have h2 : Keeps a s2 := State.when_keeps h1 fun _ k =>
      State.flashReader_keeps k (fun _ k => k) fun _ k => k
    clear_value s2
    exact Keeps.ite (State.complete_keeps (State.onFw_keeps h2)) (State.descJob_keeps h2)

theorem State.doFwStatus_keeps {a s : State} (h :
    Keeps a s) {v0 v1} : Keeps a (State.doFwStatus v0 v1 s) := by
  unfold State.doFwStatus
  repeat' first
    | with_reducible assumption | with_reducible apply reply_keeps

theorem State.doCfgRevert_keeps {a s : State} (h :
    Keeps a s) {v0 v1} : Keeps a (State.doCfgRevert v0 v1 s) := by
  unfold State.doCfgRevert
  repeat' first
    | with_reducible assumption | with_reducible apply judge_keeps
      | with_reducible apply verReader_keeps | with_reducible apply reply_keeps
      | with_reducible apply bothApply_keeps | with_reducible apply openCmd_keeps
      | with_reducible apply Keeps.ite | with_reducible apply Keeps.foldl
    | intro _

theorem State.doMemRead_keeps {a s : State} (h : Keeps a s) {v0 v1} : Keeps a (State.doMemRead v0 v1 s) := by
  unfold State.doMemRead
  repeat' first
    | with_reducible assumption | with_reducible apply reply_keeps
      | with_reducible apply judge_keeps | with_reducible apply Keeps.ite
      | with_reducible apply Keeps.foldl
    | intro _ | split

theorem State.otpAsk_keeps {a s : State} (h :
    Keeps a s) {v1 v2 v3 v4} : Keeps a (State.otpAsk s v1 v2 v3 v4) := by
  unfold State.otpAsk
  repeat' first
    | with_reducible assumption | with_reducible apply judge_keeps
      | with_reducible apply otpStart_keeps | with_reducible apply Keeps.ite
      | with_reducible apply Keeps.foldl
    | intro _

theorem State.doOtpLock_keeps {a s : State} (h : Keeps a s) {v0 v1} : Keeps a (State.doOtpLock v0 v1 s) := by
  unfold State.doOtpLock
  repeat' first
    | with_reducible assumption | with_reducible apply otpAsk_keeps

theorem State.doLcAdvance_keeps {a s : State} (h :
    Keeps a s) {v0 v1} : Keeps a (State.doLcAdvance v0 v1 s) := by
  unfold State.doLcAdvance
  repeat' first
    | with_reducible assumption | with_reducible apply otpAsk_keeps

theorem State.doEngineStatus_keeps {a s : State} (h :
    Keeps a s) {v0 v1} : Keeps a (State.doEngineStatus v0 v1 s) := by
  unfold State.doEngineStatus
  repeat' first
    | with_reducible assumption | with_reducible apply reply_keeps

theorem State.doOtpRead_keeps {a s : State} (h : Keeps a s) {v0 v1} : Keeps a (State.doOtpRead v0 v1 s) := by
  unfold State.doOtpRead
  repeat' first
    | with_reducible assumption | with_reducible apply judge_keeps
      | with_reducible apply reply_keeps | with_reducible apply Keeps.ite
      | with_reducible apply Keeps.foldl
    | intro _

theorem State.debugRead_keeps {a s : State} (h : Keeps a s) {k x n : Nat} :
    Keeps a (State.debugRead s k x n).2 := by
  induction k generalizing s x n with
  | zero => exact h
  | succ k ih =>
    unfold State.debugRead
    split
    · exact h
    · split
      · exact ih (State.regLoad_keeps h)
      · exact ih h

theorem State.doRegRead_keeps {a s : State} (h : Keeps a s) {tag : Byte} {ps : List Byte} :
    Keeps a (State.doRegRead tag ps s) := by
  unfold State.doRegRead
  split
  · exact State.reply_keeps h
  · exact Keeps.ite (State.reply_keeps h) (State.reply_keeps (State.debugRead_keeps h))

theorem State.doOtpProgram_keeps {a s : State} (h :
    Keeps a s) {v0 v1} : Keeps a (State.doOtpProgram v0 v1 s) := by
  unfold State.doOtpProgram
  repeat' first
    | with_reducible assumption | with_reducible apply otpAsk_keeps

theorem State.doMemWrite_keeps {a s : State} (h : Keeps a s) {tag : Byte} {ps : List Byte} :
    Keeps a (State.doMemWrite tag ps s) := by
  unfold State.doMemWrite
  refine Keeps.ite (State.reply_keeps h) ?_
  split
  · exact State.reply_keeps h
  · exact State.judge_keeps h fun t k => State.reply_keeps
      (Keeps.foldl _ k fun _ _ k => Keeps.ite (State.memPut_keeps k) k)

theorem State.doRegWrite_keeps {a s : State} (h :
    Keeps a s) {v0 v1} : Keeps a (State.doRegWrite v0 v1 s) := by
  unfold State.doRegWrite
  repeat' first
    | with_reducible assumption | with_reducible apply reply_keeps
      | with_reducible apply judge_keeps | with_reducible apply regWrite_keeps
      | with_reducible apply Keeps.ite | with_reducible apply Keeps.foldl
    | intro _ | split

theorem State.doOtpStatus_keeps {a s : State} (h :
    Keeps a s) {v0 v1} : Keeps a (State.doOtpStatus v0 v1 s) := by
  unfold State.doOtpStatus
  repeat' first
    | with_reducible assumption | with_reducible apply reply_keeps

end Sys2Proof.Machine
end

