-- ==== Sys2Proof/Laws/KeepsIsa.lean ====
section
/-!
SUPPORT. One lemma `<operation>_keeps` for each operation of the engines and their words: it leaves the queue of waiting
commands as it was, and the tables in their canonical form.
-/
namespace Sys2Proof.Machine

open State

theorem State.mbxWrite_keeps {a s : State} (h : Keeps a s) {e id o b : Nat} :
    Keeps.opt a (State.mbxWrite s e id o b) := by
  unfold State.mbxWrite
  extract_lets held deny put s1
  have hd : Keeps.opt a deny := Keeps.opt_some (State.mbxEv_keeps h)
  have h1 : Keeps a s1 := State.onMbx_keeps h
  clear_value held deny put s1
  repeat' first
    | with_reducible apply Keeps.opt_ite
    | with_reducible apply Keeps.opt_some
    | with_reducible apply Keeps.optOf_some
    | with_reducible apply Keeps.opt_none
    | with_reducible apply Keeps.ite
    | with_reducible assumption
    | with_reducible apply State.mbxEv_keeps
    | with_reducible apply State.onMbx_keeps
    | with_reducible apply State.mbxPushBy_keeps
    | with_reducible apply State.mbxAckBy_keeps
    | with_reducible apply State.lockRelease_keeps

theorem State.boxWrite_keeps {a s : State} (h : Keeps a s) {e off b : Nat} :
    Keeps.opt a (State.boxWrite s e off b) := by
  unfold State.boxWrite
  split
  · exact Keeps.opt_none
  · exact State.mbxWrite_keeps h
  · exact Keeps.opt_some h.record
  · exact Keeps.opt_some (Keeps.ite (State.lockRelease_keeps h) h)
  · exact Keeps.opt_some h
  · exact Keeps.opt_some h.record
  · refine Keeps.opt_some ?_
    split
    · exact State.when_keeps h fun _ k => State.memPut_keeps k
    · exact h
  · exact Keeps.opt_some (State.memPut_keeps h)

theorem State.store8_keeps {a s : State} (h : Keeps a s) {e bank off b : Nat} :
    Keeps.opt a (State.store8 s e bank off b) := by
  unfold State.store8
  refine Keeps.opt_ite (State.boxWrite_keeps h) (Keeps.opt_ite Keeps.opt_none ?_)
  split
  · exact Keeps.opt_ite (Keeps.opt_some h) (Keeps.opt_some (State.regWrite_keeps h))
  · intro t ht
    obtain ⟨m, -, rfl⟩ := Option.map_eq_some_iff.1 ht
    exact State.when_keeps h fun _ k => State.memPut_keeps k

theorem State.store16_keeps {a s : State} (h : Keeps a s) {e bank off v : Nat} :
    Keeps.opt a (State.store16 s e bank off v) := by
  unfold State.store16
  have h2 : Keeps.opt a ((s.store8 e bank off (v % 256)).bind fun s =>
      s.store8 e bank (off + 1) (v / 256 % 256)) :=
    Keeps.opt_bind (State.store8_keeps h) fun t k => State.store8_keeps k
  split
  · exact Keeps.opt_ite (Keeps.opt_ite (Keeps.opt_some h) (Keeps.opt_some (State.regWrite_keeps h))) h2
  · exact h2

theorem State.mbxRead_keeps {a s : State} (h : Keeps a s) {e id o : Nat} :
    Keeps.optOf a Prod.snd (State.mbxRead s e id o) := by
  unfold State.mbxRead
  extract_lets m held head s1
  have h1 : Keeps a s1 := State.mbxAckIn_keeps h
  clear_value m held head s1
  repeat' first
    | with_reducible apply Keeps.opt_ite
    | with_reducible apply Keeps.opt_some
    | with_reducible apply Keeps.optOf_some
    | with_reducible apply Keeps.opt_none
    | with_reducible apply Keeps.ite
    | with_reducible assumption
    | with_reducible apply State.mbxEv_keeps
    | with_reducible apply State.mbxPop_keeps
    | with_reducible apply State.mbxAckIn_keeps
    | with_reducible apply State.lockTake_keeps

theorem State.boxRead_keeps {a s : State} (h : Keeps a s) {e off : Nat} :
    Keeps.optOf a Prod.snd (State.boxRead s e off) := by
  unfold State.boxRead
  split
  · exact Keeps.opt_none
  · exact State.mbxRead_keeps h
  · exact Keeps.optOf_some h
  · exact Keeps.opt_ite (Keeps.optOf_some (State.lockTake_keeps h)) (Keeps.optOf_some h)
  all_goals exact Keeps.optOf_some h

theorem State.load8_keeps {a s : State} (h : Keeps a s) {e bank off : Nat} :
    Keeps.optOf a Prod.snd (State.load8 s e bank off) := by
  unfold State.load8
  refine Keeps.opt_ite (State.boxRead_keeps h) (Keeps.opt_ite
    (Keeps.opt_ite Keeps.opt_none (Keeps.optOf_some h)) ?_)
  split
  · exact Keeps.optOf_some (State.regLoad_keeps h)
  · intro t ht
    obtain ⟨m, -, rfl⟩ := Option.map_eq_some_iff.1 ht
    exact h

theorem State.load16_keeps {a s : State} (h : Keeps a s) {e bank off : Nat} :
    Keeps.optOf a Prod.snd (State.load16 s e bank off) := by
  unfold State.load16
  have h2 : Keeps.optOf a Prod.snd ((s.load8 e bank off).bind fun x => (x.2.load8 e bank (off + 1)).map fun y =>
      (x.1 + 256 * y.1, y.2)) :=
    Keeps.opt_bind (f := Prod.snd) (State.load8_keeps h) fun x k =>
      Keeps.opt_map (f := Prod.snd) (State.load8_keeps k) fun _ k => k
  split
  · exact Keeps.opt_ite (Keeps.optOf_some (State.regLoad_keeps h)) h2
  · exact h2

/-- What a part of a word answers, where it does not trap, is reached so. -/
def Keeps.ex {α : Type} (a : State) (f : α → State) (x : Except Trap α) : Prop :=
  ∀ r, x = .ok r → Keeps a (f r)

theorem Keeps.ex_ok {α : Type} {a : State} {f : α → State} {r : α} (h : Keeps a (f r)) :
    Keeps.ex a f (.ok r) := fun _ k => Except.ok.inj k ▸ h

theorem Keeps.ex_pair {α : Type} {a t : State} {r : α} (h : Keeps a t) : Keeps.ex a Prod.snd (.ok (r, t)) :=
  Keeps.ex_ok h

theorem Keeps.ex_error {α : Type} {a : State} {f : α → State} {t : Trap} : Keeps.ex a f (.error t) :=
  fun _ k => nomatch k

theorem Keeps.ex_ite {α : Type} {a : State} {f : α → State} {x y : Except Trap α} {c : Prop}
    {_ : Decidable c} (hx : Keeps.ex a f x) (hy : Keeps.ex a f y) :
    Keeps.ex a f (if c then x else y) := by
  split <;> assumption

theorem Keeps.ex_map {α β : Type} {a : State} {f : α → State} {g : β → State} {x : Except Trap α}
    {k : α → β} (hx : Keeps.ex a f x) (hk : ∀ r, Keeps a (f r) → Keeps a (g (k r))) :
    Keeps.ex a g (x.map k) := by
  cases x with
  | error t => exact Keeps.ex_error
  | ok r => exact Keeps.ex_ok (hk r (hx r rfl))

theorem Keeps.ex_bind {α β : Type} {a : State} {f : α → State} {g : β → State} {x : Except Trap α}
    {k : α → Except Trap β} (hx : Keeps.ex a f x) (hk : ∀ r, Keeps a (f r) → Keeps.ex a g (k r)) :
    Keeps.ex a g (x.bind k) := by
  cases x with
  | error t => exact Keeps.ex_error
  | ok r => exact hk r (hx r rfl)

theorem State.engineSource_keeps {a s : State} (h :
    Keeps a s) {v1 v2 v3} : Keeps a (State.engineSource s v1 v2 v3) := by
  unfold State.engineSource
  repeat' first
    | with_reducible assumption | with_reducible apply unitSource_keeps
      | with_reducible apply portSource_keeps | with_reducible apply Keeps.ite

theorem State.doubleTrap_keeps {a s : State} (h : Keeps a s) {v1} : Keeps a (State.doubleTrap s v1) := by
  unfold State.doubleTrap
  repeat' first
    | with_reducible assumption | with_reducible apply engineSource_keeps
      | with_reducible apply onEngine_keeps

theorem State.spend_keeps {a s : State} (h : Keeps a s) {v1 v2} : Keeps a (State.spend s v1 v2) := by
  unfold State.spend
  repeat' first
    | with_reducible assumption | with_reducible apply onEngine_keeps

theorem State.localWrite_keeps {a s : State} (h : Keeps a s) {e off : Nat} {l : List Byte} :
    Keeps.ex a (fun t => t) (State.localWrite s e off l) := by
  induction l generalizing s off with
  | nil => exact Keeps.ex_ok h
  | cons b t ih =>
    unfold State.localWrite
    split
    · exact Keeps.ex_error
    · exact ih (State.memPut_keeps h)

theorem State.slideUp_keeps {a s : State} (h : Keeps a s) {e : Nat} :
    Keeps.ex a Prod.snd (State.slideUp s e) := by
  unfold State.slideUp
  extract_lets g up
  have hu : ∀ t x y, Keeps a t → Keeps a (up t x y) := fun _ _ _ k => State.onEngine_keeps k
  clear_value g up
  refine Keeps.ex_ite (Keeps.ex_ok (hu _ _ _ h)) (Keeps.ex_ite Keeps.ex_error (Keeps.ex_ite Keeps.ex_error ?_))
  exact Keeps.ex_map (State.localWrite_keeps h) fun t k => hu _ _ _ k

theorem State.slideDown_keeps {a s : State} (h : Keeps a s) {e : Nat} :
    Keeps.ex a Prod.snd (State.slideDown s e) := by
  unfold State.slideDown
  extract_lets g down ssp
  have hu : ∀ t x y, Keeps a t → Keeps a (down t x y) := fun _ _ _ k => State.onEngine_keeps k
  clear_value g down
  refine Keeps.ex_ite (Keeps.ex_ok (hu _ _ _ h)) (Keeps.ex_ite Keeps.ex_error (Keeps.ex_ite Keeps.ex_error ?_))
  exact Keeps.ex_map (f := fun _ => s) (fun _ _ => h) fun t k => hu _ _ _ (State.onEngine_keeps k)

theorem State.twice_keeps {a s : State} (h : Keeps a s) {f : State → Ex (Bool × State)}
    (hf : ∀ t, Keeps a t → Keeps.ex a Prod.snd (f t)) : Keeps.ex a Prod.snd (State.twice f s) :=
  Keeps.ex_bind (hf s h) fun r k => Keeps.ex_map (hf r.2 k) fun _ k => k

theorem State.takeTrap_keeps {a s : State} (h : Keeps a s) {e x : Nat} {t : Trap} :
    Keeps a (State.takeTrap s e x t) := by
  unfold State.takeTrap
  extract_lets g
  clear_value g
  refine Keeps.ite (State.doubleTrap_keeps h) ?_
  have ht := State.twice_keeps h (f := fun t => t.slideUp e) fun t k => State.slideUp_keeps k
  split
  · exact State.doubleTrap_keeps h
  · rename_i n t' hx
    exact State.engineSource_keeps (State.when_keeps (State.spend_keeps (State.onEngine_keeps (ht _ hx)))
      fun _ k => State.cntEvent_keeps k)

theorem State.enterIrq_keeps {a s : State} (h : Keeps a s) {e : Nat} : Keeps a (State.enterIrq s e) := by
  unfold State.enterIrq
  extract_lets g run
  clear_value g run
  have ht := State.twice_keeps h (f := fun t => t.slideUp e) fun t k => State.slideUp_keeps k
  split
  · exact State.takeTrap_keeps (State.onEngine_keeps h)
  · rename_i n t' hx
    exact State.spend_keeps (State.onEngine_keeps (ht _ hx))

theorem State.releaseWait_keeps {a s : State} (h : Keeps a s) {v1} : Keeps a (State.releaseWait s v1) := by
  unfold State.releaseWait
  repeat' first
    | with_reducible assumption | with_reducible apply onEngine_keeps

theorem State.drawWait_keeps {a s : State} (h : Keeps a s) {v1} : Keeps a (State.drawWait s v1).2 := by
  unfold State.drawWait
  repeat' first
    | with_reducible assumption | with_reducible apply draw_keeps

theorem State.accessCost_keeps {a s : State} (h :
    Keeps a s) {v1 v2 v3} : Keeps a (State.accessCost s v1 v2 v3).2 := by
  unfold State.accessCost
  repeat' first
    | with_reducible assumption | with_reducible apply drawWait_keeps
      | with_reducible apply onEngine_keeps | with_reducible apply Keeps.ite
      | with_reducible apply Keeps.foldl
    | intro _ | split

theorem State.takeIrq_keeps {a s : State} (h : Keeps a s) {v1} : Keeps a (State.takeIrq s v1) := by
  unfold State.takeIrq
  repeat' first
    | with_reducible assumption | with_reducible apply when_keeps
      | with_reducible apply enterIrq_keeps | with_reducible apply Keeps.ite
      | with_reducible apply Keeps.foldl
    | intro _

theorem State.dataLoad_keeps {a s : State} (h : Keeps a s) {e bank off : Nat} {wide : Bool}
    {last : Option Nat} : Keeps.ex a (fun r => r.2.2) (State.dataLoad s e bank off wide last) := by
  unfold State.dataLoad
  refine Keeps.ex_ite Keeps.ex_error ?_
  have hl : Keeps.optOf a Prod.snd (if wide = true then s.load16 e bank off else s.load8 e bank off) :=
    Keeps.opt_ite (State.load16_keeps h) (State.load8_keeps h)
  split
  · exact Keeps.ex_error
  · rename_i r hr
    have hc : Keeps a (r.2.accessCost e bank last).2 := State.accessCost_keeps (hl r hr)
    exact Keeps.ex_ite Keeps.ex_error (Keeps.ex_ok hc)

theorem State.dataStore_keeps {a s : State} (h : Keeps a s) {e bank off v : Nat} {wide : Bool}
    {last : Option Nat} : Keeps.ex a Prod.snd (State.dataStore s e bank off v wide last) := by
  unfold State.dataStore
  refine Keeps.ex_ite Keeps.ex_error ?_
  have hl : Keeps.opt a (if wide = true then s.store16 e bank off v else s.store8 e bank off v) :=
    Keeps.opt_ite (State.store16_keeps h) (State.store8_keeps h)
  split
  · exact Keeps.ex_error
  · rename_i r hr
    have hc : Keeps a (r.accessCost e bank last).2 := State.accessCost_keeps (hl r hr)
    exact Keeps.ex_ok hc

theorem State.loadInto_keeps {a s : State} (h :
    Keeps a s) {v1 v2 v3 v4} : Keeps a (State.loadInto s v1 v2 v3 v4) := by
  unfold State.loadInto
  repeat' first
    | with_reducible assumption | with_reducible apply onEngine_keeps
      | with_reducible apply Keeps.ite | with_reducible apply Keeps.foldl
    | intro _ | split

theorem State.finishWord_keeps {a s : State} (h :
    Keeps a s) {v1 v2 v3} : Keeps a (State.finishWord s v1 v2 v3) := by
  unfold State.finishWord
  repeat' first
    | with_reducible assumption | with_reducible apply when_keeps
      | with_reducible apply onEngine_keeps | with_reducible apply Keeps.ite
      | with_reducible apply Keeps.foldl
    | intro _

theorem State.updatePtr_keeps {a s : State} (h :
    Keeps a s) {v1 v2 v3} : Keeps a (State.updatePtr s v1 v2 v3) := by
  unfold State.updatePtr
  repeat' first
    | with_reducible assumption | with_reducible apply onEngine_keeps

theorem State.trapWord_keeps {a s : State} (h :
    Keeps a s) {v1 v2 v3} : Keeps a (State.trapWord s v1 v2 v3) := by
  unfold State.trapWord
  repeat' first
    | with_reducible assumption | with_reducible apply takeTrap_keeps
      | with_reducible apply onEngine_keeps

theorem State.txgo_keeps {a s : State} (h : Keeps a s) {v1 v2} : Keeps a (State.txgo s v1 v2) := by
  unfold State.txgo
  repeat' first
    | with_reducible assumption | with_reducible apply sendReply_keeps
      | with_reducible apply sendEngine_keeps | with_reducible apply writeQueue_keeps
      | with_reducible apply onPd_keeps | with_reducible apply Keeps.ite
      | with_reducible apply Keeps.foldl
    | intro _ | split

theorem State.retire_keeps {a s : State} (h : Keeps a s) {v1 v2 v3} : Keeps a (State.retire s v1 v2 v3) := by
  unfold State.retire
  repeat' first
    | with_reducible assumption | with_reducible apply when_keeps | with_reducible apply spend_keeps
      | with_reducible apply onEngine_keeps | with_reducible apply Keeps.ite
      | with_reducible apply Keeps.foldl
    | intro _

theorem State.writeOut_keeps {a s : State} (h :
    Keeps a s) {v1 v2 v3 v4} : Keeps a (State.writeOut s v1 v2 v3 v4) := by
  unfold State.writeOut
  repeat' first
    | with_reducible assumption | with_reducible apply onEngine_keeps
      | with_reducible apply draw_keeps | with_reducible apply Keeps.ite
      | with_reducible apply Keeps.foldl
    | intro _ | split

theorem State.writeFlags_keeps {a s : State} (h :
    Keeps a s) {v1 v2 v3} : Keeps a (State.writeFlags s v1 v2 v3) := by
  unfold State.writeFlags
  repeat' first
    | with_reducible assumption | with_reducible apply when_keeps
      | with_reducible apply onEngine_keeps | with_reducible apply Keeps.ite
      | with_reducible apply Keeps.foldl
    | intro _

theorem State.wordTraps_keeps {a s : State} (h : Keeps a s) {e x : Nat} {t : Trap} :
    Keeps a (State.wordTraps s e x t) := by
  unfold State.wordTraps
  extract_lets s1
  have h1 : Keeps a s1 := by
    show Keeps a (match t.bank with | some b => _ | none => s)
    split
    · exact State.when_keeps h fun _ k => State.flashReader_keeps k (fun _ k => k) fun _ k => k
    · exact h
  exact State.trapWord_keeps h1

theorem State.repConflict_keeps {a s : State} (h : Keeps a s) {v1} : Keeps a (State.repConflict s v1) := by
  unfold State.repConflict
  repeat' first
    | with_reducible assumption | with_reducible apply engineSource_keeps

/-- The states that a word may leave are reached so. -/
def Keeps.res (a : State) : State.Res → Prop
  | .done t _ _ => Keeps a t
  | .brk t _ => Keeps a t
  | .trap _ => True

theorem Keeps.res_seq {a t : State} {n c : Nat} (h : Keeps a t) : Keeps.res a (State.seq (n, t) c) := h

theorem Keeps.res_ite {a : State} {x y : State.Res} {c : Prop} {_ : Decidable c} (hx : Keeps.res a x)
    (hy : Keeps.res a y) : Keeps.res a (if c then x else y) := by
  split <;> assumption

theorem Keeps.res_of {α : Type} {a : State} {f : α → State} {x : Except Trap α} {k : α → State.Res}
    (hx : Keeps.ex a f x) (hk : ∀ r, Keeps a (f r) → Keeps.res a (k r)) :
    Keeps.res a (State.Res.of x k) := by
  cases x with
  | error t => trivial
  | ok r => exact hk r (hx r rfl)

/-- A part that reads only. -/
theorem Keeps.res_read {α : Type} {a s : State} (h : Keeps a s) {x : Except Trap α} {k : α → State.Res}
    (hk : ∀ r, Keeps.res a (k r)) : Keeps.res a (State.Res.of x k) :=
  Keeps.res_of (f := fun _ => s) (fun _ _ => h) fun r _ => hk r

theorem Keeps.res_goTo {a s : State} (h : Keeps a s) {e x c : Nat} : Keeps.res a (State.goTo s e x c) :=
  State.onEngine_keeps h

theorem Keeps.res_aligned {a : State} {x : Nat} {r : State.Res} (h : Keeps.res a r) :
    Keeps.res a (State.aligned8 x r) := Keeps.res_ite h trivial

theorem State.shortData_keeps {a s : State} (h : Keeps a s) {e : Nat} {g : Engine} {fl : Bool} {w : Short} :
    Keeps.ex a Prod.snd (State.shortData s e g fl w) := by
  cases w with
  | ld d loc post k =>
    exact Keeps.ex_map (State.dataLoad_keeps h) fun _ k =>
      State.when_keeps (State.loadInto_keeps k) fun _ k => State.updatePtr_keeps k
  | st src loc post k =>
    exact Keeps.ex_map (State.dataStore_keeps h) fun _ k =>
      State.when_keeps k fun _ k => State.updatePtr_keeps k
  | padd sub k src => exact Keeps.ex_pair (State.writeFlags_keeps (State.onEngine_keeps h))
  | movp r tp k high => exact Keeps.ex_ite (Keeps.ex_pair (State.onEngine_keeps h)) (Keeps.ex_pair (State.onEngine_keeps h))
  | cmpi x u => exact Keeps.ex_pair (State.writeFlags_keeps h)
  | alu | movi | addi | unary | bits => exact Keeps.ex_pair (State.writeOut_keeps h)
  | nop | br | sys | illegal => exact Keeps.ex_pair h

theorem State.wtick_keeps {a s : State} (h : Keeps a s) {e c : Nat} : Keeps.res a (State.wtick s e c) := by
  unfold State.wtick
  extract_lets s1
  have h1 : Keeps a s1 := State.when_keeps h fun _ k => State.onEngine_keeps (State.wdgResume_keeps k)
  exact Keeps.res_ite (State.onEngine_keeps h1) (State.onEngine_keeps h1)

theorem State.call_keeps {a s : State} (h : Keeps a s) {e t : Nat} : Keeps.res a (State.call s e t) :=
  Keeps.res_of (State.slideUp_keeps h) fun _ k => Keeps.res_goTo (State.onEngine_keeps k)

theorem State.ret_keeps {a s : State} (h : Keeps a s) {e c : Nat} {g : Engine} :
    Keeps.res a (State.ret s e g c) :=
  Keeps.res_ite trivial (Keeps.res_of (State.slideDown_keeps h) fun _ k => Keeps.res_goTo k)

theorem State.reti_keeps {a s : State} (h : Keeps a s) {e raw c : Nat} :
    Keeps.res a (State.reti s e raw c) :=
  Keeps.res_ite trivial (Keeps.res_ite trivial (Keeps.res_of
    (State.twice_keeps h fun _ k => State.slideDown_keeps k)
    fun _ k => Keeps.res_goTo (State.onEngine_keeps k)))

theorem State.shortControl_keeps {a s : State} (h : Keeps a s) {e raw c : Nat} {g : Engine} {w : Short} :
    Keeps.res a (State.shortControl s e g raw c w) := by
  unfold State.shortControl
  split
  · exact Keeps.res_ite (Keeps.res_goTo h) h
  · exact State.wtick_keeps h
  · exact State.ret_keeps h
  · exact State.reti_keeps h
  · exact Keeps.res_seq (State.onEngine_keeps h)
  · exact Keeps.res_seq (State.onEngine_keeps h)
  · exact Keeps.res_ite trivial (Keeps.res_seq (State.onEngine_keeps h))
  · exact h
  · exact h

theorem State.pairWord_keeps {a s : State} (h : Keeps a s) {e raw : Nat} {g : Engine} {x y : Short} :
    Keeps.res a (State.pairWord s e g x y raw) :=
  Keeps.res_of (State.shortData_keeps h) fun _ k => Keeps.res_ite (State.shortControl_keeps k)
    (Keeps.res_of (State.shortData_keeps k) fun _ k => k)

theorem State.loop_keeps {a s : State} (h : Keeps a s) {e n l : Nat} {g : Engine} :
    Keeps.res a (State.loop s e g n l) :=
  Keeps.res_ite trivial (Keeps.res_ite (Keeps.res_goTo h) (Keeps.res_seq (State.onEngine_keeps h)))

theorem State.rxpop_keeps {a s : State} (h : Keeps a s) {e k r : Nat} {g : Engine} :
    Keeps.res a (State.rxpop s e g k r) := by
  unfold State.rxpop
  refine Keeps.res_aligned ?_
  split
  · exact Keeps.res_of (State.localWrite_keeps h) fun _ k =>
      Keeps.res_seq (State.onEngine_keeps (State.onPd_keeps k))
  · exact Keeps.res_seq (State.onEngine_keeps h)

theorem State.txload_keeps {a s : State} (h : Keeps a s) {e k : Nat} {g : Engine} :
    Keeps.res a (State.txload s e g k) := by
  unfold State.txload
  refine Keeps.res_aligned (Keeps.res_read h fun d => ?_)
  extract_lets n t f hh
  have hs : Keeps a hh.2 := State.draw_keeps (State.draw_keeps h)
  clear_value hh f
  split
  rename_i heq
  have hx : Keeps a (if n < 2 ∨ 30 < n ∨ t = 3 then (2 + f.1 % 29, hh.1 % 3, hh.2) else (n, t, s)).2.2 := by
    split
    · exact hs
    · exact h
  rw [heq] at hx
  replace hx : Keeps a _ := hx
  exact Keeps.res_read h fun _ => Keeps.res_seq (State.onPd_keeps hx)

theorem State.cp0_keeps {a s : State} (h : Keeps a s) {e : Nat} {g : Engine} {w : Long} :
    Keeps.res a (State.cp0 s e g w) := by
  unfold State.cp0
  split
  · exact State.rxpop_keeps h
  · exact State.txload_keeps h
  · exact State.txgo_keeps h
  · exact Keeps.res_seq (State.onEngine_keeps h)
  · exact State.when_keeps h fun _ k => Keeps.ite (State.hardReset_keeps k) (State.cableReset_keeps k)
  · exact State.when_keeps h fun _ k => State.timStart_keeps k
  · exact State.timStop_keeps h
  · exact Keeps.res_seq (State.onEngine_keeps h)
  · exact State.idReset_keeps h
  · exact State.when_keeps h fun _ k => State.onPd_keeps k

theorem State.macm_keeps {a s : State} (h : Keeps a s) {e i j : Nat} {g : Engine} {x : Bool} :
    Keeps.res a (State.macm s e g x i j) :=
  Keeps.res_of (State.dataLoad_keeps h) fun _ k => Keeps.res_of (State.dataLoad_keeps k) fun _ k =>
    Keeps.res_ite (Keeps.res_seq (State.updatePtr_keeps (State.draw_keeps (State.onEngine_keeps k))))
      (Keeps.res_seq (State.updatePtr_keeps (State.updatePtr_keeps (State.onEngine_keeps k))))

theorem State.cp1_keeps {a s : State} (h : Keeps a s) {e : Nat} {g : Engine} {w : Long} :
    Keeps.res a (State.cp1 s e g w) := by
  unfold State.cp1
  split
  case h_3 => exact State.macm_keeps h
  case h_9 => exact h
  all_goals exact Keeps.res_seq (State.onEngine_keeps h)

theorem State.loadBytes_keeps {a s : State} (h : Keeps a s) {e bank off n : Nat} :
    Keeps.ex a Prod.snd (State.loadBytes s e bank off n) := by
  induction n generalizing s off with
  | zero => exact Keeps.ex_ok h
  | succ n ih =>
    unfold State.loadBytes
    have hl := State.load8_keeps h (e := e) (bank := bank) (off := off % 65536)
    split
    · exact Keeps.ex_error
    · rename_i r hr
      exact Keeps.ex_ite Keeps.ex_error (Keeps.ex_map (ih (hl r hr)) fun _ k => k)

theorem State.crcm_keeps {a s : State} (h : Keeps a s) {e k n : Nat} {g : Engine} {loc : Bool} :
    Keeps.res a (State.crcm s e g loc k n) := by
  unfold State.crcm
  extract_lets x bank
  refine Keeps.res_of (State.loadBytes_keeps h) fun r k => ?_
  extract_lets c s1
  have hc : Keeps a c.2 := by
    show Keeps a (if loc = true then (0, r.2) else r.2.accessCost e bank g.lastBank).2
    split
    · exact k
    · exact State.accessCost_keeps k
  exact Keeps.res_seq (State.updatePtr_keeps (State.onEngine_keeps hc))

theorem State.eccWord_keeps {a s : State} (h : Keeps a s) {e x n : Nat}
    {f : BitVec 64 → List Byte → State.Res} (hf : ∀ w c, Keeps.res a (f w c)) :
    Keeps.res a (State.eccWord s e x n f) :=
  Keeps.res_aligned (Keeps.res_read h fun _ => hf _ _)

theorem State.eccc_keeps {a s : State} (h : Keeps a s) {e x r : Nat} : Keeps.res a (State.eccc s e x r) := by
  unfold State.eccc
  refine State.eccWord_keeps h fun w c => ?_
  extract_lets put got
  refine Keeps.res_ite (Keeps.res_seq (State.onEngine_keeps h)) ?_
  split
  · exact Keeps.res_seq (State.onEngine_keeps h)
  · exact Keeps.res_of (State.localWrite_keeps h) fun _ k =>
      Keeps.res_seq (State.onEngine_keeps k)

theorem State.cp2_keeps {a s : State} (h : Keeps a s) {e : Nat} {g : Engine} {w : Long} :
    Keeps.res a (State.cp2 s e g w) := by
  unfold State.cp2
  split
  · exact Keeps.res_seq (State.onEngine_keeps h)
  · exact Keeps.res_seq (State.onEngine_keeps h)
  · exact State.crcm_keeps h
  · exact Keeps.res_seq (State.onEngine_keeps h)
  · exact State.eccWord_keeps h fun _ _ => Keeps.res_seq (State.onEngine_keeps h)
  · exact State.eccc_keeps h
  · exact h

theorem State.longLoad_keeps {a s : State} (h : Keeps a s) {e : Nat} {g : Engine} {x : LAddr} {wide : Bool}
    {put : State → Nat → State} (hp : ∀ t v, Keeps a t → Keeps a (put t v)) :
    Keeps.res a (State.longLoad s e g x wide put) :=
  Keeps.res_of (State.dataLoad_keeps h) fun _ k => hp _ _ k

theorem State.longStore_keeps {a s : State} (h :
    Keeps a s) {e v : Nat} {g : Engine} {x : LAddr} {wide : Bool} :
    Keeps.res a (State.longStore s e g x wide v) :=
  Keeps.res_of (State.dataStore_keeps h) fun _ k => k

theorem State.longWord_keeps {a s : State} (h : Keeps a s) {e : Nat} {g : Engine} {w : Long} :
    Keeps.res a (State.longWord s e g w) := by
  unfold State.longWord
  split
  all_goals first
    | with_reducible exact State.call_keeps h
    | with_reducible exact State.loop_keeps h
    | with_reducible exact State.cp1_keeps h
    | with_reducible exact State.cp2_keeps h
    | with_reducible exact State.cp0_keeps h
    | with_reducible exact State.longLoad_keeps h fun _ _ k => State.loadInto_keeps k
    | with_reducible exact State.longLoad_keeps h fun _ _ k => State.onEngine_keeps k
    | with_reducible exact State.longStore_keeps h
    | with_reducible exact Keeps.res_ite (Keeps.res_goTo h) (Keeps.res_seq h)
    | with_reducible exact Keeps.res_goTo h
    | with_reducible exact Keeps.res_seq (State.onEngine_keeps h)
    | with_reducible exact Keeps.res_seq (State.writeFlags_keeps h)
    | with_reducible exact Keeps.res_seq (State.writeOut_keeps h)
    | with_reducible exact Keeps.res_seq h
    | exact Keeps.res_seq (State.writeFlags_keeps (State.onEngine_keeps h))

theorem State.runWord_keeps {a s : State} (h : Keeps a s) {e : Nat} {w : IWord} :
    Keeps.res a (State.runWord s e w) := by
  unfold State.runWord
  extract_lets g s1 raw
  have h1 : Keeps a s1 := State.onEngine_keeps h
  clear_value s1 g raw
  refine Keeps.res_ite trivial ?_
  split
  · exact State.pairWord_keeps h1
  · exact State.longWord_keeps h1
  · trivial

theorem State.settle_keeps {a s : State} (h : Keeps a s) {e x : Nat} {r : State.Res}
    (hr : Keeps.res a r) : Keeps a (State.settle s e x r) := by
  cases r with
  | done t taken cost => exact State.finishWord_keeps (State.retire_keeps hr)
  | brk t cost => exact State.takeTrap_keeps (State.retire_keeps hr)
  | trap t => exact State.wordTraps_keeps h

theorem State.repeatWord_keeps {a s : State} (h : Keeps a s) {e x n : Nat} {v : IWord} :
    Keeps a (State.repeatWord s e x v n) := by
  induction n generalizing s with
  | zero => exact State.finishWord_keeps (State.onEngine_keeps h)
  | succ n ih =>
    unfold State.repeatWord
    extract_lets s1
    have h1 : Keeps a s1 := State.onEngine_keeps h
    clear_value s1
    have hr := State.runWord_keeps h1 (e := e) (w := v)
    split
    · rename_i t taken cost hx
      rw [hx] at hr
      exact Keeps.ite (ih (State.retire_keeps hr)) (State.retire_keeps hr)
    · rename_i t cost hx
      rw [hx] at hr
      exact State.takeTrap_keeps (State.retire_keeps hr)
    · exact State.wordTraps_keeps h1

theorem State.issueRep_keeps {a s : State} (h : Keeps a s) {e : Nat} {n : RepCount} {v : IWord} :
    Keeps a (State.issueRep s e n v) := by
  unfold State.issueRep
  extract_lets g x s1 s2 s3
  have h2 : Keeps a s2 := State.retire_keeps (State.onEngine_keeps h)
  have h3 : Keeps a s3 := State.onEngine_keeps h2
  clear_value s3 s2
  exact Keeps.ite (State.trapWord_keeps h) (Keeps.ite (State.repConflict_keeps (State.finishWord_keeps h2))
    (Keeps.ite (State.takeTrap_keeps h2) (Keeps.ite (State.repConflict_keeps h3) (State.repeatWord_keeps h3))))

theorem State.atIssue_keeps {a s : State} (h : Keeps a s) {e : Nat} {f : State → State}
    (hf : ∀ t, Keeps a t → Keeps a (f t)) : Keeps a (State.atIssue s e f) := by
  unfold State.atIssue
  extract_lets s1 g
  have h1 : Keeps a s1 := State.takeIrq_keeps h
  clear_value g s1
  exact Keeps.ite h1 (Keeps.ite (State.trapWord_keeps h1) (hf _ h1))

theorem State.issue_keeps {a s : State} (h : Keeps a s) {e : Nat} {w : IWord} : Keeps a (State.issue s e w) :=
  State.atIssue_keeps h fun _ k => State.settle_keeps k (State.runWord_keeps k)

end Sys2Proof.Machine
end

