-- ==== Sys2Proof/Laws/KeepsEdge.lean ====
section
/-!
SUPPORT. One lemma `<operation>_keeps` for each operation of the tick edge: it leaves the queue of waiting
commands as it was, and the tables in their canonical form.
-/
namespace Sys2Proof.Machine

open State

theorem State.eraseWaitEdge_keeps {a s : State} (h :
    Keeps a s) {v1} : Keeps a (State.eraseWaitEdge s v1) := by
  unfold State.eraseWaitEdge
  repeat' first
    | with_reducible assumption | with_reducible apply fset_keeps | with_reducible apply onWdg_keeps
      | with_reducible apply Keeps.ite

theorem State.quadCopy_keeps {a s : State} (h : Keeps a s) {v1} : Keeps a (State.quadCopy s v1) := by
  unfold State.quadCopy
  repeat' first
    | with_reducible assumption | with_reducible apply fset_keeps

theorem State.deviceEdge_keeps {a s : State} (h : Keeps a s) {v1} : Keeps a (State.deviceEdge s v1) := by
  unfold State.deviceEdge
  repeat' first
    | with_reducible assumption | with_reducible apply fset_keeps | with_reducible apply when_keeps
      | with_reducible apply weirCond_keeps | with_reducible apply mbxAges_keeps
      | with_reducible apply Keeps.ite | with_reducible apply Keeps.foldl
    | intro _ | split | with_reducible apply Keeps.record

theorem State.modeService_keeps {a s : State} (h : Keeps a s) {v1} : Keeps a (State.modeService s v1) := by
  unfold State.modeService
  repeat' first
    | with_reducible assumption | with_reducible apply muxHold_keeps
      | with_reducible apply onMux_keeps | with_reducible apply setMux_keeps
      | with_reducible apply hostPop_keeps | with_reducible apply finish_keeps
      | with_reducible apply onPd_keeps | with_reducible apply Keeps.ite
      | with_reducible apply Keeps.foldl
    | intro _ | split

theorem State.runOn_keeps {a s : State} (h : Keeps a s) {v1 v2} : Keeps a (State.runOn s v1 v2) := by
  unfold State.runOn
  repeat' first
    | with_reducible assumption | with_reducible apply onEngine_keeps

theorem State.swapCount_keeps {a s : State} (h : Keeps a s) {v1} : Keeps a (State.swapCount s v1) := by
  unfold State.swapCount
  repeat' first
    | with_reducible assumption | with_reducible apply onSw_keeps | with_reducible apply onMux_keeps

theorem State.countLevels_keeps {a s : State} (h : Keeps a s) : Keeps a (State.countLevels s) := by
  unfold State.countLevels
  repeat' first
    | with_reducible assumption | with_reducible apply forEach_keeps
      | with_reducible apply when_keeps | with_reducible apply cntAdd_keeps
      | with_reducible apply Keeps.ite | with_reducible apply Keeps.foldl
    | intro _

theorem State.windowLeft_keeps {a s : State} (h : Keeps a s) {v1} : Keeps a (State.windowLeft s v1) := by
  unfold State.windowLeft
  repeat' first
    | with_reducible assumption | with_reducible apply fset_keeps | with_reducible apply Keeps.ite
      | with_reducible apply Keeps.foldl
    | intro _ | split

theorem State.frsService_keeps {a s : State} (h : Keeps a s) {v1} : Keeps a (State.frsService s v1) := by
  unfold State.frsService
  repeat' first
    | with_reducible assumption | with_reducible apply setUv_keeps | with_reducible apply fset_keeps
      | with_reducible apply operation_keeps | with_reducible apply voutCommand_keeps
      | with_reducible apply when_keeps | with_reducible apply Keeps.ite
      | with_reducible apply Keeps.foldl
    | intro _

theorem State.clearedLeave_keeps {a s : State} (h : Keeps a s) : Keeps a (State.clearedLeave s) := by
  unfold State.clearedLeave
  repeat' first
    | with_reducible assumption | with_reducible apply forEach_keeps
      | with_reducible apply when_keeps | with_reducible apply leaveReaction_keeps
      | with_reducible apply Keeps.ite | with_reducible apply Keeps.foldl
    | intro _

theorem State.rpService_keeps {a s : State} (h : Keeps a s) {v1} : Keeps a (State.rpService s v1) := by
  unfold State.rpService
  repeat' first
    | with_reducible assumption | with_reducible apply onAtt_keeps | with_reducible apply fset_keeps
      | with_reducible apply when_keeps | with_reducible apply Keeps.ite
      | with_reducible apply Keeps.foldl
    | intro _

theorem State.regStarted_keeps {a s : State} (h : Keeps a s) {v1} : Keeps a (State.regStarted s v1) := by
  unfold State.regStarted
  repeat' first
    | with_reducible assumption | with_reducible apply when_keeps | with_reducible apply onPd_keeps
      | with_reducible apply fset_keeps | with_reducible apply onPwr_keeps
      | with_reducible apply Keeps.ite | with_reducible apply Keeps.foldl
    | intro _

theorem State.serviceB_keeps {a s : State} (h : Keeps a s) {v1} : Keeps a (State.serviceB s v1) := by
  unfold State.serviceB
  repeat' first
    | with_reducible assumption | with_reducible apply when_keeps
      | with_reducible apply regStarted_keeps | with_reducible apply regPost_keeps
      | with_reducible apply Keeps.ite | with_reducible apply Keeps.foldl
    | intro _

theorem State.junction_keeps {a s : State} (h : Keeps a s) {v1 v2} : Keeps a (State.junction s v1 v2) := by
  unfold State.junction
  repeat' first
    | with_reducible assumption | with_reducible apply onQuad_keeps

theorem State.pmbusEdge_keeps {a s : State} (h : Keeps a s) : Keeps a (State.pmbusEdge s) := by
  unfold State.pmbusEdge
  repeat' first
    | with_reducible assumption | with_reducible apply forPorts_keeps
      | with_reducible apply onReg_keeps | with_reducible apply segGrant_keeps
      | with_reducible apply Keeps.ite | with_reducible apply Keeps.foldl
    | intro _

theorem State.serviceA_keeps {a s : State} (h : Keeps a s) {v1} : Keeps a (State.serviceA s v1) := by
  unfold State.serviceA
  repeat' first
    | with_reducible assumption | with_reducible apply when_keeps
      | with_reducible apply evAttach_keeps | with_reducible apply sinkRetry_keeps
      | with_reducible apply tripService_keeps | with_reducible apply modeService_keeps
      | with_reducible apply evPower_keeps | with_reducible apply Keeps.ite
      | with_reducible apply Keeps.foldl
    | intro _

theorem State.offerService_keeps {a s : State} (h : Keeps a s) {v1} : Keeps a (State.offerService s v1) := by
  unfold State.offerService
  repeat' first
    | with_reducible assumption | with_reducible apply discoverCable_keeps
      | with_reducible apply when_keeps | with_reducible apply sendSourceCaps_keeps
      | with_reducible apply onPd_keeps | with_reducible apply Keeps.ite
      | with_reducible apply Keeps.foldl
    | intro _

theorem State.engineService_keeps {a s : State} (h :
    Keeps a s) {v1} : Keeps a (State.engineService s v1) := by
  unfold State.engineService
  repeat' first
    | with_reducible assumption | with_reducible apply when_keeps
      | with_reducible apply serviceA_keeps | with_reducible apply serviceB_keeps
      | with_reducible apply rpService_keeps | with_reducible apply frsService_keeps
      | with_reducible apply offerService_keeps | with_reducible apply Keeps.ite
      | with_reducible apply Keeps.foldl
    | intro _

theorem State.countersEdge_keeps {a s : State} (h : Keeps a s) : Keeps a (State.countersEdge s) := by
  unfold State.countersEdge
  repeat' first
    | with_reducible assumption | with_reducible apply when_keeps
      | with_reducible apply forEach_keeps | with_reducible apply fset_keeps
      | with_reducible apply logRec_keeps | with_reducible apply Keeps.ite
      | with_reducible apply Keeps.foldl
    | intro _ | split | with_reducible apply Keeps.record

theorem State.muxLatch_keeps {a s : State} (h : Keeps a s) {v1} : Keeps a (State.muxLatch s v1) := by
  unfold State.muxLatch
  repeat' first
    | with_reducible assumption | with_reducible apply latch_keeps | with_reducible apply fset_keeps

theorem State.overrun_keeps {a s : State} (h : Keeps a s) {v1} : Keeps a (State.overrun s v1) := by
  unfold State.overrun
  repeat' first
    | with_reducible assumption | with_reducible apply cntEvent_keeps
      | with_reducible apply fbit_keeps | with_reducible apply fset_keeps
      | with_reducible apply engineSource_keeps | with_reducible apply onEngine_keeps
      | with_reducible apply Keeps.ite

theorem State.engineEdge_keeps {a s : State} (h :
    Keeps a s) {v1 v2} : Keeps a (State.engineEdge s v1 v2) := by
  unfold State.engineEdge
  repeat' first
    | with_reducible assumption | with_reducible apply onEngine_keeps
      | with_reducible apply when_keeps | with_reducible apply overrun_keeps
      | with_reducible apply wdgResume_keeps | with_reducible apply runOn_keeps
      | with_reducible apply releaseWait_keeps | with_reducible apply fset_keeps
      | with_reducible apply onAdc_keeps | with_reducible apply wdgEdge_keeps
      | with_reducible apply Keeps.ite | with_reducible apply Keeps.foldl
    | intro _ | split

theorem State.memError_keeps {a s : State} (h : Keeps a s) {v1} : Keeps a (State.memError s v1) := by
  unfold State.memError
  repeat' first
    | with_reducible assumption | with_reducible apply eccUncorrectable_keeps
      | with_reducible apply when_keeps | with_reducible apply trapWord_keeps
      | with_reducible apply eccCorrected_keeps | with_reducible apply Keeps.ite
      | with_reducible apply Keeps.foldl
    | intro _ | split | with_reducible apply Keeps.record

theorem State.freezeHarbour_keeps {a s : State} (h :
    Keeps a s) {v1} : Keeps a (State.freezeHarbour s v1) := by
  unfold State.freezeHarbour
  repeat' first
    | with_reducible assumption | with_reducible apply onPair_keeps

theorem State.tickBegins_keeps {a s : State} (h : Keeps a s) : Keeps a (State.tickBegins s) := by
  unfold State.tickBegins
  repeat' first
    | with_reducible assumption | with_reducible apply onPair_keeps
      | with_reducible apply fset_keeps | with_reducible apply Keeps.ite
      | with_reducible apply Keeps.foldl
    | intro _ | split | with_reducible apply Keeps.record

theorem State.quadEdge_keeps {a s : State} (h : Keeps a s) {v1} : Keeps a (State.quadEdge s v1) := by
  unfold State.quadEdge
  repeat' first
    | with_reducible assumption | with_reducible apply forEach_keeps
      | with_reducible apply quadCopy_keeps | with_reducible apply junction_keeps
      | with_reducible apply Keeps.ite | with_reducible apply Keeps.foldl
    | intro _ | split

theorem State.tickResults_keeps {a s : State} (h : Keeps a s) {v1} : Keeps a (State.tickResults s v1) := by
  unfold State.tickResults
  repeat' first
    | with_reducible assumption | with_reducible apply onPwr_keeps | with_reducible apply onSw_keeps
      | with_reducible apply onAdc_keeps

theorem State.heldJudge_keeps {a s : State} (h : Keeps a s) {v1} : Keeps a (State.heldJudge s v1) := by
  unfold State.heldJudge
  repeat' first
    | with_reducible assumption | with_reducible apply onPd_keeps | with_reducible apply fset_keeps
      | with_reducible apply when_keeps | with_reducible apply holdHead_keeps
      | with_reducible apply Keeps.ite | with_reducible apply Keeps.foldl
    | intro _ | split

theorem State.portEdge_keeps {a s : State} (h : Keeps a s) {v1 v2} : Keeps a (State.portEdge s v1 v2) := by
  unfold State.portEdge
  repeat' first
    | with_reducible assumption | with_reducible apply fset_keeps
      | with_reducible apply copyScan_keeps | with_reducible apply setDis_keeps
      | with_reducible apply copyCmp_keeps | with_reducible apply attCount_keeps
      | with_reducible apply tickResults_keeps | with_reducible apply attShow_keeps
      | with_reducible apply vconnEdge_keeps | with_reducible apply attachEdge_keeps
      | with_reducible apply when_keeps | with_reducible apply shadowCheck_keeps
      | with_reducible apply rpEdge_keeps | with_reducible apply powerGood_keeps
      | with_reducible apply powerCount_keeps | with_reducible apply startClean_keeps
      | with_reducible apply powerTransition_keeps | with_reducible apply swapCount_keeps
      | with_reducible apply onPwr_keeps | with_reducible apply muxLatch_keeps
      | with_reducible apply timCount_keeps | with_reducible apply heldJudge_keeps
      | with_reducible apply Keeps.ite | with_reducible apply Keeps.foldl
    | intro _

theorem State.pairEdge_keeps {a s : State} (h : Keeps a s) : Keeps a (State.pairEdge s) := by
  unfold State.pairEdge
  repeat' first
    | with_reducible assumption | with_reducible apply when_keeps
      | with_reducible apply becomeMaster_keeps | with_reducible apply judgeBeat_keeps
      | with_reducible apply setLink_keeps | with_reducible apply onPair_keeps
      | with_reducible apply fset_keeps | with_reducible apply xferEdge_keeps
      | with_reducible apply answered_keeps | with_reducible apply bulkEdge_keeps
      | with_reducible apply Keeps.ite | with_reducible apply Keeps.foldl
    | intro _

theorem State.resetEdge_keeps {a s : State} (h : Keeps a s) : Keeps a (State.resetEdge s) := by
  unfold State.resetEdge
  repeat' first
    | with_reducible assumption | with_reducible apply unitReset_keeps
      | with_reducible apply Keeps.ite | with_reducible apply Keeps.foldl
    | intro _ | split | with_reducible apply Keeps.record

theorem State.muxbusEdge_keeps {a s : State} (h : Keeps a s) : Keeps a (State.muxbusEdge s) := by
  unfold State.muxbusEdge
  repeat' first
    | with_reducible assumption | with_reducible apply Keeps.ite | with_reducible apply Keeps.foldl
    | intro _ | split | with_reducible apply Keeps.record

theorem State.tickEdge_keeps {a s : State} (h : Keeps a s) {v1} : Keeps a (State.tickEdge s v1) := by
  unfold State.tickEdge
  repeat' first
    | with_reducible assumption | with_reducible apply memError_keeps
      | with_reducible apply hostEdge_keeps | with_reducible apply dropGone_keeps
      | with_reducible apply freezeHarbour_keeps | with_reducible apply tickBegins_keeps
      | with_reducible apply weirEdge_keeps | with_reducible apply countLevels_keeps
      | with_reducible apply clearedLeave_keeps | with_reducible apply countersEdge_keeps
      | with_reducible apply refreshFault_keeps | with_reducible apply latchEdge_keeps
      | with_reducible apply when_keeps | with_reducible apply forEach_keeps
      | with_reducible apply eraseWaitEdge_keeps | with_reducible apply engineEdge_keeps
      | with_reducible apply forPorts_keeps | with_reducible apply quadEdge_keeps
      | with_reducible apply pmbusEdge_keeps | with_reducible apply portEdge_keeps
      | with_reducible apply presEdge_keeps | with_reducible apply deviceEdge_keeps
      | with_reducible apply pairEdge_keeps | with_reducible apply fset_keeps
      | with_reducible apply engineService_keeps | with_reducible apply resetEdge_keeps
      | with_reducible apply muxbusEdge_keeps | with_reducible apply deferredProfile_keeps
      | with_reducible apply windowLeft_keeps | with_reducible apply Keeps.ite
      | with_reducible apply Keeps.foldl
    | intro _

end Sys2Proof.Machine
end

