-- ==== Sys2Proof/Laws/KeepsExec.lean ====
section
/-!
SUPPORT. One lemma `<operation>_keeps` for each operation of the meanings of the commands: it leaves the queue of waiting
commands as it was, and the tables in their canonical form.
-/
namespace Sys2Proof.Machine

open State

theorem Keeps.opt_getD {a s : State} {x : Option State} (hx : Keeps.opt a x) (h : Keeps a s) :
    Keeps a (x.getD s) := by
  cases x with
  | none => exact h
  | some t => exact hx t rfl

theorem Keeps.val_getD {α : Type} {a s : State} {x : Option (α × State)} (hx : Keeps.optOf a Prod.snd x)
    (h : Keeps a s) : Keeps a ((x.map (·.2)).getD s) := by
  cases x with
  | none => exact h
  | some t => exact hx t rfl

/-- The state that a command may leave is reached so. -/
structure Keeps.out (a : State) (o : Out) : Prop where
  next : ∀ t, o = .next t → Keeps a t

theorem Keeps.out_next {a t : State} (h : Keeps a t) : Keeps.out a (.next t) := ⟨fun _ k => by
  cases k
  exact h⟩

theorem Keeps.out_ite {a : State} {x y : Out} {c : Prop} {_ : Decidable c} (hx : Keeps.out a x)
    (hy : Keeps.out a y) : Keeps.out a (if c then x else y) := by
  split <;> assumption

theorem State.hostRow_keeps {a s : State} (h : Keeps a s) {op : Nat} {body : Byte → List Byte → State → State}
    {tag : Byte} {ps : List Byte} (hb : ∀ t, Keeps a t → Keeps a (body tag ps t)) :
    Keeps.out a (State.hostRow op body tag ps s) := by
  unfold State.hostRow
  extract_lets k
  clear_value k
  exact Keeps.out_ite (Keeps.out_next h) (Keeps.out_ite
    (Keeps.out_next (Keeps.ite (State.interpret_keeps (State.takeUp_keeps h) hb) h))
    (Keeps.out_next (State.frontEnd_keeps h)))

theorem execLimitEntry_keeps {a s : State} (h : Keeps a s) {v0} :
    Keeps.out a (execLimitEntry v0 s) := by
  unfold execLimitEntry
  repeat' first
    | with_reducible assumption | with_reducible apply Keeps.out_next
      | with_reducible apply Keeps.out_ite | with_reducible apply cmpOut_keeps

theorem execGateRiseTimeout_keeps {a s : State} (h : Keeps a s) {v0} :
    Keeps.out a (execGateRiseTimeout v0 s) := by
  unfold execGateRiseTimeout
  repeat' first
    | with_reducible assumption | with_reducible apply Keeps.out_next
      | with_reducible apply Keeps.out_ite | with_reducible apply onPwr_keeps
      | with_reducible apply when_keeps | with_reducible apply gateWontRise_keeps
      | with_reducible apply Keeps.ite | with_reducible apply Keeps.foldl
    | intro _

theorem execDischargeTimeout_keeps {a s : State} (h : Keeps a s) {v0} :
    Keeps.out a (execDischargeTimeout v0 s) := by
  unfold execDischargeTimeout
  repeat' first
    | with_reducible assumption | with_reducible apply Keeps.out_next
      | with_reducible apply Keeps.out_ite | with_reducible apply portSource_keeps
      | with_reducible apply pwrEv_keeps | with_reducible apply setPwr_keeps

theorem execStatusWordPoll_keeps {a s : State} (h : Keeps a s) {v0} :
    Keeps.out a (execStatusWordPoll v0 s) := by
  unfold execStatusWordPoll
  repeat' first
    | with_reducible assumption | with_reducible apply Keeps.out_next
      | with_reducible apply Keeps.out_ite | with_reducible apply regPost_keeps
      | with_reducible apply onReg_keeps

theorem execGateStuckOn_keeps {a s : State} (h : Keeps a s) {v0} :
    Keeps.out a (execGateStuckOn v0 s) := by
  unfold execGateStuckOn
  repeat' first
    | with_reducible assumption | with_reducible apply Keeps.out_next
      | with_reducible apply Keeps.out_ite | with_reducible apply portSource_keeps
      | with_reducible apply enterTripped_keeps | with_reducible apply pwrEv_keeps
      | with_reducible apply onPwr_keeps

theorem execEnergyJudgement_keeps {a s : State} (h : Keeps a s) {v0} :
    Keeps.out a (execEnergyJudgement v0 s) := by
  unfold execEnergyJudgement
  repeat' first
    | with_reducible assumption | with_reducible apply Keeps.out_next
      | with_reducible apply Keeps.out_ite | with_reducible apply closeMean_keeps
      | with_reducible apply closeEnergy_keeps | with_reducible apply when_keeps
      | with_reducible apply judgeEnergy_keeps | with_reducible apply energyStep_keeps
      | with_reducible apply Keeps.ite | with_reducible apply Keeps.foldl
    | intro _

theorem execQuietElapsed_keeps {a s : State} (h : Keeps a s) {v0} :
    Keeps.out a (execQuietElapsed v0 s) := by
  unfold execQuietElapsed
  repeat' first
    | with_reducible assumption | with_reducible apply Keeps.out_next
      | with_reducible apply Keeps.out_ite | with_reducible apply leaveTripped_keeps
      | with_reducible apply onPwr_keeps

theorem execPmbusTransactionFail_keeps {a s : State} (h : Keeps a s) {v0} :
    Keeps.out a (execPmbusTransactionFail v0 s) := by
  unfold execPmbusTransactionFail
  repeat' first
    | with_reducible assumption | with_reducible apply Keeps.out_next
      | with_reducible apply Keeps.out_ite | with_reducible apply regRetry_keeps
      | with_reducible apply cntEvent_keeps | with_reducible apply finc_keeps
      | with_reducible apply when_keeps | with_reducible apply pwrEv_keeps
      | with_reducible apply portSource_keeps | with_reducible apply enterTripped_keeps
      | with_reducible apply Keeps.ite | with_reducible apply Keeps.foldl
    | intro _

theorem execVbusOvTrip_keeps {a s : State} (h : Keeps a s) {v0} :
    Keeps.out a (execVbusOvTrip v0 s) := by
  unfold execVbusOvTrip
  repeat' first
    | with_reducible assumption | with_reducible apply Keeps.out_next
      | with_reducible apply Keeps.out_ite | with_reducible apply cmpOut_keeps

theorem execOffMinElapsed_keeps {a s : State} (h : Keeps a s) {v0} :
    Keeps.out a (execOffMinElapsed v0 s) := by
  unfold execOffMinElapsed
  repeat' first
    | with_reducible assumption | with_reducible apply Keeps.out_next
      | with_reducible apply Keeps.out_ite | with_reducible apply onPwr_keeps
      | with_reducible apply onAtt_keeps | with_reducible apply fset_keeps
      | with_reducible apply endDefer_keeps | with_reducible apply enableOff_keeps
      | with_reducible apply Keeps.ite | with_reducible apply Keeps.foldl
    | intro _ | split | extract_lets

theorem execLimWrite_keeps {a s : State} (h : Keeps a s) {v0 v1} :
    Keeps.out a (execLimWrite v0 v1 s) := by
  unfold execLimWrite
  repeat' first
    | with_reducible assumption | with_reducible apply Keeps.out_next
      | with_reducible apply Keeps.out_ite | with_reducible apply writeLim_keeps
      | with_reducible apply fset_keeps

theorem execFixedTimerExpiry_keeps {a s : State} (h : Keeps a s) {v0} :
    Keeps.out a (execFixedTimerExpiry v0 s) := by
  unfold execFixedTimerExpiry
  repeat' first
    | with_reducible assumption | with_reducible apply Keeps.out_next
      | with_reducible apply Keeps.out_ite | with_reducible apply trip_keeps
      | with_reducible apply onPwr_keeps

theorem execPmbusArbitrationLost_keeps {a s : State} (h : Keeps a s) {v0} :
    Keeps.out a (execPmbusArbitrationLost v0 s) := by
  unfold execPmbusArbitrationLost
  repeat' first
    | with_reducible assumption | with_reducible apply Keeps.out_next
      | with_reducible apply Keeps.out_ite | with_reducible apply cntEvent_keeps
      | with_reducible apply regRetry_keeps

theorem execHardTrip_keeps {a s : State} (h : Keeps a s) {v0} :
    Keeps.out a (execHardTrip v0 s) := by
  unfold execHardTrip
  repeat' first
    | with_reducible assumption | with_reducible apply Keeps.out_next
      | with_reducible apply Keeps.out_ite | with_reducible apply cmpOut_keeps

theorem execReverseCurrentBlock_keeps {a s : State} (h : Keeps a s) {v0} :
    Keeps.out a (execReverseCurrentBlock v0 s) := by
  unfold execReverseCurrentBlock
  repeat' first
    | with_reducible assumption | with_reducible apply Keeps.out_next
      | with_reducible apply Keeps.out_ite | with_reducible apply cmpOut_keeps

theorem execPmbusAlert_keeps {a s : State} (h : Keeps a s) {v0} :
    Keeps.out a (execPmbusAlert v0 s) := by
  unfold execPmbusAlert
  repeat' first
    | with_reducible assumption | with_reducible apply Keeps.out_next
      | with_reducible apply Keeps.out_ite | with_reducible apply forPorts_keeps
      | with_reducible apply when_keeps | with_reducible apply regPost_keeps
      | with_reducible apply Keeps.ite | with_reducible apply Keeps.foldl
    | intro _

theorem execLimitTimeCap_keeps {a s : State} (h : Keeps a s) {v0} :
    Keeps.out a (execLimitTimeCap v0 s) := by
  unfold execLimitTimeCap
  repeat' first
    | with_reducible assumption | with_reducible apply Keeps.out_next
      | with_reducible apply Keeps.out_ite | with_reducible apply trip_keeps
      | with_reducible apply onPwr_keeps

theorem execRegulatorStartTimeout_keeps {a s : State} (h : Keeps a s) {v0} :
    Keeps.out a (execRegulatorStartTimeout v0 s) := by
  unfold execRegulatorStartTimeout
  repeat' first
    | with_reducible assumption | with_reducible apply Keeps.out_next
      | with_reducible apply Keeps.out_ite | with_reducible apply portSource_keeps
      | with_reducible apply pwrEv_keeps | with_reducible apply onPwr_keeps

theorem execPmbusTransactionComplete_keeps {a s : State} (h : Keeps a s) {v0 v1} :
    Keeps.out a (execPmbusTransactionComplete v0 v1 s) := by
  unfold execPmbusTransactionComplete
  repeat' first
    | with_reducible assumption | with_reducible apply Keeps.out_next
      | with_reducible apply Keeps.out_ite | with_reducible apply fset_keeps
      | with_reducible apply onReg_keeps | with_reducible apply regDone_keeps
      | with_reducible apply Keeps.ite | with_reducible apply Keeps.foldl
    | intro _ | split

theorem execPsSourceOffTimeout_keeps {a s : State} (h : Keeps a s) {v0} :
    Keeps.out a (execPsSourceOffTimeout v0 s) := by
  unfold execPsSourceOffTimeout
  repeat' first
    | with_reducible assumption | with_reducible apply Keeps.out_next
      | with_reducible apply Keeps.out_ite | with_reducible apply hardReset_keeps
      | with_reducible apply swEvent_keeps | with_reducible apply onSw_keeps
      | with_reducible apply finish_keeps

theorem execPrSwapStep_keeps {a s : State} (h : Keeps a s) {v0} :
    Keeps.out a (execPrSwapStep v0 s) := by
  unfold execPrSwapStep
  repeat' first
    | with_reducible assumption | with_reducible apply Keeps.out_next
      | with_reducible apply Keeps.out_ite | with_reducible apply prSwapStep_keeps

theorem execPsSourceOnTimeout_keeps {a s : State} (h : Keeps a s) {v0} :
    Keeps.out a (execPsSourceOnTimeout v0 s) := by
  unfold execPsSourceOnTimeout
  repeat' first
    | with_reducible assumption | with_reducible apply Keeps.out_next
      | with_reducible apply Keeps.out_ite | with_reducible apply hardReset_keeps
      | with_reducible apply swEvent_keeps | with_reducible apply onSw_keeps
      | with_reducible apply finish_keeps

theorem execQuadBusUndervoltage_keeps {a s : State} (h : Keeps a s) {v0 v1} :
    Keeps.out a (execQuadBusUndervoltage v0 v1 s) := by
  unfold execQuadBusUndervoltage
  repeat' first
    | with_reducible assumption | with_reducible apply Keeps.out_next
      | with_reducible apply Keeps.out_ite | with_reducible apply onQuad_keeps
      | with_reducible apply evQuad_keeps | with_reducible apply weirCond_keeps
      | with_reducible apply fset_keeps | with_reducible apply forPorts_keeps
      | with_reducible apply when_keeps | with_reducible apply onPd_keeps
      | with_reducible apply Keeps.ite | with_reducible apply Keeps.foldl
    | intro _

theorem execSinkTransitionStep_keeps {a s : State} (h : Keeps a s) {v0} :
    Keeps.out a (execSinkTransitionStep v0 s) := by
  unfold execSinkTransitionStep
  repeat' first
    | with_reducible assumption | with_reducible apply Keeps.out_next
      | with_reducible apply Keeps.out_ite | with_reducible apply sinkStep_keeps

theorem execFeedLost_keeps {a s : State} (h : Keeps a s) {v0 v1 v2} :
    Keeps.out a (execFeedLost v0 v1 v2 s) := by
  unfold execFeedLost
  repeat' first
    | with_reducible assumption | with_reducible apply Keeps.out_next
      | with_reducible apply Keeps.out_ite | with_reducible apply onQuad_keeps
      | with_reducible apply weirCond_keeps | with_reducible apply fset_keeps
      | with_reducible apply evQuad_keeps | with_reducible apply Keeps.ite

theorem execModeHoldRelease_keeps {a s : State} (h : Keeps a s) {v0} :
    Keeps.out a (execModeHoldRelease v0 s) := by
  unfold execModeHoldRelease
  repeat' first
    | with_reducible assumption | with_reducible apply Keeps.out_next
      | with_reducible apply Keeps.out_ite | with_reducible apply muxRelease_keeps
      | with_reducible apply Keeps.ite | with_reducible apply Keeps.foldl
    | intro _ | split

theorem execFrsSourceTurnOn_keeps {a s : State} (h : Keeps a s) {v0} :
    Keeps.out a (execFrsSourceTurnOn v0 s) := by
  unfold execFrsSourceTurnOn
  repeat' first
    | with_reducible assumption | with_reducible apply Keeps.out_next
      | with_reducible apply Keeps.out_ite | with_reducible apply onPd_keeps
      | with_reducible apply voutCommand_keeps | with_reducible apply onSw_keeps
      | with_reducible apply fset_keeps

theorem execFrsSignalDetected_keeps {a s : State} (h : Keeps a s) {v0} :
    Keeps.out a (execFrsSignalDetected v0 s) := by
  unfold execFrsSignalDetected
  repeat' first
    | with_reducible assumption | with_reducible apply Keeps.out_next
      | with_reducible apply Keeps.out_ite | with_reducible apply fset_keeps
      | with_reducible apply when_keeps | with_reducible apply withdrawSwap_keeps
      | with_reducible apply onPd_keeps | with_reducible apply swEvent_keeps
      | with_reducible apply Keeps.ite | with_reducible apply Keeps.foldl
    | intro _

theorem execSrcTransitionExpiry_keeps {a s : State} (h : Keeps a s) {v0} :
    Keeps.out a (execSrcTransitionExpiry v0 s) := by
  unfold execSrcTransitionExpiry
  repeat' first
    | with_reducible assumption | with_reducible apply Keeps.out_next
      | with_reducible apply Keeps.out_ite | with_reducible apply fset_keeps
      | with_reducible apply operation_keeps | with_reducible apply onSw_keeps
      | with_reducible apply contractStep_keeps

theorem execSnkNewPowerExpiry_keeps {a s : State} (h : Keeps a s) {v0} :
    Keeps.out a (execSnkNewPowerExpiry v0 s) := by
  unfold execSnkNewPowerExpiry
  repeat' first
    | with_reducible assumption | with_reducible apply Keeps.out_next
      | with_reducible apply Keeps.out_ite | with_reducible apply setLimFor_keeps
      | with_reducible apply onSw_keeps | with_reducible apply when_keeps
      | with_reducible apply fset_keeps | with_reducible apply Keeps.ite
      | with_reducible apply Keeps.foldl
    | intro _

theorem execFrsSwapStep_keeps {a s : State} (h : Keeps a s) {v0} :
    Keeps.out a (execFrsSwapStep v0 s) := by
  unfold execFrsSwapStep
  repeat' first
    | with_reducible assumption | with_reducible apply Keeps.out_next
      | with_reducible apply Keeps.out_ite | with_reducible apply frsStep_keeps

theorem execPpsCurrentLimitStep_keeps {a s : State} (h : Keeps a s) {v0} :
    Keeps.out a (execPpsCurrentLimitStep v0 s) := by
  unfold execPpsCurrentLimitStep
  repeat' first
    | with_reducible assumption | with_reducible apply Keeps.out_next
      | with_reducible apply Keeps.out_ite | with_reducible apply fset_keeps
      | with_reducible apply voutCommand_keeps | with_reducible apply onSw_keeps

theorem execFrsSignalEnd_keeps {a s : State} (h : Keeps a s) {v0} :
    Keeps.out a (execFrsSignalEnd v0 s) := by
  unfold execFrsSignalEnd
  repeat' first
    | with_reducible assumption | with_reducible apply Keeps.out_next
      | with_reducible apply Keeps.out_ite | with_reducible apply onPd_keeps

theorem execVconnOnTimeout_keeps {a s : State} (h : Keeps a s) {v0} :
    Keeps.out a (execVconnOnTimeout v0 s) := by
  unfold execVconnOnTimeout
  repeat' first
    | with_reducible assumption | with_reducible apply Keeps.out_next
      | with_reducible apply Keeps.out_ite | with_reducible apply hardReset_keeps
      | with_reducible apply swEvent_keeps | with_reducible apply onSw_keeps
      | with_reducible apply finish_keeps

theorem execVconnSourceOnExpiry_keeps {a s : State} (h : Keeps a s) {v0} :
    Keeps.out a (execVconnSourceOnExpiry v0 s) := by
  unfold execVconnSourceOnExpiry
  repeat' first
    | with_reducible assumption | with_reducible apply Keeps.out_next
      | with_reducible apply Keeps.out_ite | with_reducible apply sendReply_keeps
      | with_reducible apply onSw_keeps

theorem execSrcRecoverExpiry_keeps {a s : State} (h : Keeps a s) {v0} :
    Keeps.out a (execSrcRecoverExpiry v0 s) := by
  unfold execSrcRecoverExpiry
  repeat' first
    | with_reducible assumption | with_reducible apply Keeps.out_next
      | with_reducible apply Keeps.out_ite | with_reducible apply regStart_keeps
      | with_reducible apply onSw_keeps

theorem execSrcReadyTimeout_keeps {a s : State} (h : Keeps a s) {v0} :
    Keeps.out a (execSrcReadyTimeout v0 s) := by
  unfold execSrcReadyTimeout
  repeat' first
    | with_reducible assumption | with_reducible apply Keeps.out_next
      | with_reducible apply Keeps.out_ite | with_reducible apply portSource_keeps
      | with_reducible apply swEvent_keeps | with_reducible apply hardReset_keeps
      | with_reducible apply onSw_keeps

theorem execHardResetSequenceStep_keeps {a s : State} (h : Keeps a s) {v0} :
    Keeps.out a (execHardResetSequenceStep v0 s) := by
  unfold execHardResetSequenceStep
  repeat' first
    | with_reducible assumption | with_reducible apply Keeps.out_next
      | with_reducible apply Keeps.out_ite | with_reducible apply hardSeqStep_keeps

theorem execSinkHardResetTimeout_keeps {a s : State} (h : Keeps a s) {v0} :
    Keeps.out a (execSinkHardResetTimeout v0 s) := by
  unfold execSinkHardResetTimeout
  repeat' first
    | with_reducible assumption | with_reducible apply Keeps.out_next
      | with_reducible apply Keeps.out_ite | with_reducible apply hardSeqEnd_keeps

theorem execContractTransitionStep_keeps {a s : State} (h : Keeps a s) {v0} :
    Keeps.out a (execContractTransitionStep v0 s) := by
  unfold execContractTransitionStep
  repeat' first
    | with_reducible assumption | with_reducible apply Keeps.out_next
      | with_reducible apply Keeps.out_ite | with_reducible apply contractStep_keeps

theorem execPsHardResetExpiry_keeps {a s : State} (h : Keeps a s) {v0} :
    Keeps.out a (execPsHardResetExpiry v0 s) := by
  unfold execPsHardResetExpiry
  repeat' first
    | with_reducible assumption | with_reducible apply Keeps.out_next
      | with_reducible apply Keeps.out_ite | with_reducible apply fset_keeps
      | with_reducible apply operation_keeps | with_reducible apply onSw_keeps

theorem execJunctionReverseTurnOff_keeps {a s : State} (h : Keeps a s) {v0 v1} :
    Keeps.out a (execJunctionReverseTurnOff v0 v1 s) := by
  unfold execJunctionReverseTurnOff
  repeat' first
    | with_reducible assumption | with_reducible apply Keeps.out_next
      | with_reducible apply Keeps.out_ite | with_reducible apply onQuad_keeps
      | with_reducible apply evQuad_keeps | with_reducible apply unitSource_keeps
      | with_reducible apply fset_keeps

theorem execVconnSwapStep_keeps {a s : State} (h : Keeps a s) {v0} :
    Keeps.out a (execVconnSwapStep v0 s) := by
  unfold execVconnSwapStep
  repeat' first
    | with_reducible assumption | with_reducible apply Keeps.out_next
      | with_reducible apply Keeps.out_ite | with_reducible apply vconnSwapStep_keeps

theorem execHeldMessageTimeout_keeps {a s : State} (h : Keeps a s) {v0} :
    Keeps.out a (execHeldMessageTimeout v0 s) := by
  unfold execHeldMessageTimeout
  repeat' first
    | with_reducible assumption | with_reducible apply Keeps.out_next
      | with_reducible apply Keeps.out_ite | with_reducible apply fset_keeps
      | with_reducible apply finish_keeps | with_reducible apply onPd_keeps
      | with_reducible apply hostPop_keeps | with_reducible apply Keeps.ite
      | with_reducible apply Keeps.foldl
    | intro _ | split | extract_lets

theorem execPdMessageParse_keeps {a s : State} (h : Keeps a s) {v0} :
    Keeps.out a (execPdMessageParse v0 s) := by
  unfold execPdMessageParse
  repeat' first
    | with_reducible assumption | with_reducible apply Keeps.out_next
      | with_reducible apply Keeps.out_ite | with_reducible apply parseMsg_keeps
      | with_reducible apply onPd_keeps | with_reducible apply Keeps.ite
      | with_reducible apply Keeps.foldl
    | intro _ | split

theorem execSinkTxWaitExpiry_keeps {a s : State} (h : Keeps a s) {v0} :
    Keeps.out a (execSinkTxWaitExpiry v0 s) := by
  unfold execSinkTxWaitExpiry
  repeat' first
    | with_reducible assumption | with_reducible apply Keeps.out_next
      | with_reducible apply Keeps.out_ite | with_reducible apply onAtt_keeps

theorem execPacketReceived_keeps {a s : State} (h : Keeps a s) {v0 v1} :
    Keeps.out a (execPacketReceived v0 v1 s) := by
  unfold execPacketReceived
  repeat' first
    | with_reducible assumption | with_reducible apply Keeps.out_next
      | with_reducible apply Keeps.out_ite | with_reducible apply ccActivity_keeps
      | with_reducible apply when_keeps | with_reducible apply overhear_keeps
      | with_reducible apply cntEvent_keeps | with_reducible apply fset_keeps
      | with_reducible apply goodSop_keeps | with_reducible apply goodCrc_keeps
      | with_reducible apply acceptPacket_keeps | with_reducible apply Keeps.ite
      | with_reducible apply Keeps.foldl
    | intro _

theorem execDiscoverIdentityTimeout_keeps {a s : State} (h : Keeps a s) {v0} :
    Keeps.out a (execDiscoverIdentityTimeout v0 s) := by
  unfold execDiscoverIdentityTimeout
  repeat' first
    | with_reducible assumption | with_reducible apply Keeps.out_next
      | with_reducible apply Keeps.out_ite | with_reducible apply timExpire_keeps
      | with_reducible apply when_keeps | with_reducible apply discoverCable_keeps
      | with_reducible apply Keeps.ite | with_reducible apply Keeps.foldl
    | intro _

theorem execHardResetReceived_keeps {a s : State} (h : Keeps a s) {v0} :
    Keeps.out a (execHardResetReceived v0 s) := by
  unfold execHardResetReceived
  repeat' first
    | with_reducible assumption | with_reducible apply Keeps.out_next
      | with_reducible apply Keeps.out_ite | with_reducible apply ccActivity_keeps
      | with_reducible apply heardCount_keeps | with_reducible apply hardResetDone_keeps

theorem execSourceEprKeepaliveTimeout_keeps {a s : State} (h : Keeps a s) {v0} :
    Keeps.out a (execSourceEprKeepaliveTimeout v0 s) := by
  unfold execSourceEprKeepaliveTimeout
  repeat' first
    | with_reducible assumption | with_reducible apply Keeps.out_next
      | with_reducible apply Keeps.out_ite | with_reducible apply hardReset_keeps
      | with_reducible apply timExpire_keeps

theorem execPacketTransmitStart_keeps {a s : State} (h : Keeps a s) {v0} :
    Keeps.out a (execPacketTransmitStart v0 s) := by
  unfold execPacketTransmitStart
  repeat' first
    | with_reducible assumption | with_reducible apply Keeps.out_next
      | with_reducible apply Keeps.out_ite | with_reducible apply txNext_keeps

theorem execSinkEprKeepaliveTimeout_keeps {a s : State} (h : Keeps a s) {v0} :
    Keeps.out a (execSinkEprKeepaliveTimeout v0 s) := by
  unfold execSinkEprKeepaliveTimeout
  repeat' first
    | with_reducible assumption | with_reducible apply Keeps.out_next
      | with_reducible apply Keeps.out_ite | with_reducible apply timStart_keeps
      | with_reducible apply sendEngine_keeps | with_reducible apply timExpire_keeps

theorem execBistContModeTimeout_keeps {a s : State} (h : Keeps a s) {v0} :
    Keeps.out a (execBistContModeTimeout v0 s) := by
  unfold execBistContModeTimeout
  repeat' first
    | with_reducible assumption | with_reducible apply Keeps.out_next
      | with_reducible apply Keeps.out_ite | with_reducible apply linkEvent_keeps
      | with_reducible apply onPd_keeps | with_reducible apply timExpire_keeps

theorem execVdmResponseTimeout_keeps {a s : State} (h : Keeps a s) {v0} :
    Keeps.out a (execVdmResponseTimeout v0 s) := by
  unfold execVdmResponseTimeout
  repeat' first
    | with_reducible assumption | with_reducible apply Keeps.out_next
      | with_reducible apply Keeps.out_ite | with_reducible apply timExpire_keeps
      | with_reducible apply endWait_keeps | with_reducible apply timStart_keeps
      | with_reducible apply evPdLink_keeps | with_reducible apply modeResponse_keeps
      | with_reducible apply Keeps.ite | with_reducible apply Keeps.foldl
    | intro _ | split | extract_lets

theorem execPsTransitionTimeout_keeps {a s : State} (h : Keeps a s) {v0 v1} :
    Keeps.out a (execPsTransitionTimeout v0 v1 s) := by
  unfold execPsTransitionTimeout
  repeat' first
    | with_reducible assumption | with_reducible apply Keeps.out_next
      | with_reducible apply Keeps.out_ite | with_reducible apply hardReset_keeps
      | with_reducible apply timExpire_keeps

theorem execCrcReceiveTimerExpiry_keeps {a s : State} (h : Keeps a s) {v0} :
    Keeps.out a (execCrcReceiveTimerExpiry v0 s) := by
  unfold execCrcReceiveTimerExpiry
  repeat' first
    | with_reducible assumption | with_reducible apply Keeps.out_next
      | with_reducible apply Keeps.out_ite | with_reducible apply timExpire_keeps
      | with_reducible apply cntEvent_keeps | with_reducible apply onPd_keeps
      | with_reducible apply txFail_keeps | with_reducible apply Keeps.ite
      | with_reducible apply Keeps.foldl
    | intro _ | split | extract_lets

theorem execPacketTransmitEnd_keeps {a s : State} (h : Keeps a s) {v0} :
    Keeps.out a (execPacketTransmitEnd v0 s) := by
  unfold execPacketTransmitEnd
  repeat' first
    | with_reducible assumption | with_reducible apply Keeps.out_next
      | with_reducible apply Keeps.out_ite | with_reducible apply txEnd_keeps

theorem execSourceCapabilityTimeout_keeps {a s : State} (h : Keeps a s) {v0} :
    Keeps.out a (execSourceCapabilityTimeout v0 s) := by
  unfold execSourceCapabilityTimeout
  repeat' first
    | with_reducible assumption | with_reducible apply Keeps.out_next
      | with_reducible apply Keeps.out_ite | with_reducible apply timExpire_keeps
      | with_reducible apply when_keeps | with_reducible apply sendSourceCaps_keeps
      | with_reducible apply Keeps.ite | with_reducible apply Keeps.foldl
    | intro _

theorem execVdmModeEntryTimeout_keeps {a s : State} (h : Keeps a s) {v0} :
    Keeps.out a (execVdmModeEntryTimeout v0 s) := by
  unfold execVdmModeEntryTimeout
  repeat' first
    | with_reducible assumption | with_reducible apply Keeps.out_next
      | with_reducible apply Keeps.out_ite | with_reducible apply endWait_keeps
      | with_reducible apply timExpire_keeps | with_reducible apply evPdLink_keeps
      | with_reducible apply when_keeps | with_reducible apply modeResponse_keeps
      | with_reducible apply Keeps.ite | with_reducible apply Keeps.foldl
    | intro _

theorem execSinkWaitCapTimeout_keeps {a s : State} (h : Keeps a s) {v0} :
    Keeps.out a (execSinkWaitCapTimeout v0 s) := by
  unfold execSinkWaitCapTimeout
  repeat' first
    | with_reducible assumption | with_reducible apply Keeps.out_next
      | with_reducible apply Keeps.out_ite | with_reducible apply hardReset_keeps
      | with_reducible apply timExpire_keeps

theorem execCableResetReceived_keeps {a s : State} (h : Keeps a s) {v0} :
    Keeps.out a (execCableResetReceived v0 s) := by
  unfold execCableResetReceived
  repeat' first
    | with_reducible assumption | with_reducible apply Keeps.out_next
      | with_reducible apply Keeps.out_ite | with_reducible apply ccActivity_keeps
      | with_reducible apply heardCount_keeps | with_reducible apply cntEvent_keeps

theorem execSourcePpsCommTimeout_keeps {a s : State} (h : Keeps a s) {v0} :
    Keeps.out a (execSourcePpsCommTimeout v0 s) := by
  unfold execSourcePpsCommTimeout
  repeat' first
    | with_reducible assumption | with_reducible apply Keeps.out_next
      | with_reducible apply Keeps.out_ite | with_reducible apply hardReset_keeps
      | with_reducible apply timExpire_keeps

theorem execSinkEprEnterTimeout_keeps {a s : State} (h : Keeps a s) {v0} :
    Keeps.out a (execSinkEprEnterTimeout v0 s) := by
  unfold execSinkEprEnterTimeout
  repeat' first
    | with_reducible assumption | with_reducible apply Keeps.out_next
      | with_reducible apply Keeps.out_ite | with_reducible apply softReset_keeps
      | with_reducible apply endWait_keeps | with_reducible apply completeAll_keeps
      | with_reducible apply timExpire_keeps

theorem execChunkTimerExpiry_keeps {a s : State} (h : Keeps a s) {v0 v1} :
    Keeps.out a (execChunkTimerExpiry v0 v1 s) := by
  unfold execChunkTimerExpiry
  repeat' first
    | with_reducible assumption | with_reducible apply Keeps.out_next
      | with_reducible apply Keeps.out_ite | with_reducible apply timExpire_keeps
      | with_reducible apply onPd_keeps | with_reducible apply evPdLink_keeps
      | with_reducible apply finish_keeps

theorem execNoResponseTimeout_keeps {a s : State} (h : Keeps a s) {v0} :
    Keeps.out a (execNoResponseTimeout v0 s) := by
  unfold execNoResponseTimeout
  repeat' first
    | with_reducible assumption | with_reducible apply Keeps.out_next
      | with_reducible apply Keeps.out_ite | with_reducible apply timExpire_keeps
      | with_reducible apply hardReset_keeps | with_reducible apply evPdLink_keeps
      | with_reducible apply fset_keeps

theorem execGoodcrcReceived_keeps {a s : State} (h : Keeps a s) {v0 v1 v2} :
    Keeps.out a (execGoodcrcReceived v0 v1 v2 s) := by
  unfold execGoodcrcReceived
  repeat' first
    | with_reducible assumption | with_reducible apply Keeps.out_next
      | with_reducible apply Keeps.out_ite | with_reducible apply ccActivity_keeps
      | with_reducible apply overhear_keeps | with_reducible apply when_keeps
      | with_reducible apply goodSop_keeps | with_reducible apply goodCrc_keeps
      | with_reducible apply Keeps.ite | with_reducible apply Keeps.foldl
    | intro _

theorem execSinkPpsPeriodicTimeout_keeps {a s : State} (h : Keeps a s) {v0} :
    Keeps.out a (execSinkPpsPeriodicTimeout v0 s) := by
  unfold execSinkPpsPeriodicTimeout
  repeat' first
    | with_reducible assumption | with_reducible apply Keeps.out_next
      | with_reducible apply Keeps.out_ite | with_reducible apply timExpire_keeps
      | with_reducible apply timStart_keeps | with_reducible apply sendEngine_keeps
      | with_reducible apply Keeps.ite | with_reducible apply Keeps.foldl
    | intro _ | split

theorem execSenderResponseTimeout_keeps {a s : State} (h : Keeps a s) {v0} :
    Keeps.out a (execSenderResponseTimeout v0 s) := by
  unfold execSenderResponseTimeout
  repeat' first
    | with_reducible assumption | with_reducible apply Keeps.out_next
      | with_reducible apply Keeps.out_ite | with_reducible apply timExpire_keeps
      | with_reducible apply linkEvent_keeps | with_reducible apply endWait_keeps
      | with_reducible apply swapFail_keeps | with_reducible apply finish_keeps
      | with_reducible apply when_keeps | with_reducible apply onSw_keeps
      | with_reducible apply hardReset_keeps | with_reducible apply cableReset_keeps
      | with_reducible apply softReset_keeps | with_reducible apply Keeps.ite
      | with_reducible apply Keeps.foldl
    | intro _ | split | extract_lets

theorem execAnswerTimerExpiry_keeps {a s : State} (h : Keeps a s) {v0} :
    Keeps.out a (execAnswerTimerExpiry v0 s) := by
  unfold execAnswerTimerExpiry
  repeat' first
    | with_reducible assumption | with_reducible apply Keeps.out_next
      | with_reducible apply Keeps.out_ite | with_reducible apply timExpire_keeps
      | with_reducible apply answering_keeps | with_reducible apply onPd_keeps
      | with_reducible apply fallback_keeps | with_reducible apply linkEvent_keeps
      | with_reducible apply cntEvent_keeps | with_reducible apply unitSource_keeps
      | with_reducible apply Keeps.ite | with_reducible apply Keeps.foldl
    | intro _ | split | extract_lets

theorem execHardResetCompleteTimeout_keeps {a s : State} (h : Keeps a s) {v0} :
    Keeps.out a (execHardResetCompleteTimeout v0 s) := by
  unfold execHardResetCompleteTimeout
  repeat' first
    | with_reducible assumption | with_reducible apply Keeps.out_next
      | with_reducible apply Keeps.out_ite | with_reducible apply timExpire_keeps
      | with_reducible apply when_keeps | with_reducible apply hardResetDone_keeps
      | with_reducible apply Keeps.ite | with_reducible apply Keeps.foldl
    | intro _

theorem execCcDebounceExpiry_keeps {a s : State} (h : Keeps a s) {v0} :
    Keeps.out a (execCcDebounceExpiry v0 s) := by
  unfold execCcDebounceExpiry
  repeat' first
    | with_reducible assumption | with_reducible apply Keeps.out_next
      | with_reducible apply Keeps.out_ite | with_reducible apply ccDebounced_keeps

theorem execVconnOvercurrent_keeps {a s : State} (h : Keeps a s) {v0} :
    Keeps.out a (execVconnOvercurrent v0 s) := by
  unfold execVconnOvercurrent
  repeat' first
    | with_reducible assumption | with_reducible apply Keeps.out_next
      | with_reducible apply Keeps.out_ite | with_reducible apply portSource_keeps
      | with_reducible apply attEv_keeps | with_reducible apply fset_keeps
      | with_reducible apply openVconn_keeps

theorem execVconnInputRecovered_keeps {a s : State} (h : Keeps a s) {v0} :
    Keeps.out a (execVconnInputRecovered v0 s) := by
  unfold execVconnInputRecovered
  repeat' first
    | with_reducible assumption | with_reducible apply Keeps.out_next
      | with_reducible apply Keeps.out_ite | with_reducible apply onQuad_keeps

theorem execPdDebounceExpiry_keeps {a s : State} (h : Keeps a s) {v0} :
    Keeps.out a (execPdDebounceExpiry v0 s) := by
  unfold execPdDebounceExpiry
  repeat' first
    | with_reducible assumption | with_reducible apply Keeps.out_next
      | with_reducible apply Keeps.out_ite | with_reducible apply pdDebounced_keeps

theorem execCcOvervoltage_keeps {a s : State} (h : Keeps a s) {v0} :
    Keeps.out a (execCcOvervoltage v0 s) := by
  unfold execCcOvervoltage
  repeat' first
    | with_reducible assumption | with_reducible apply Keeps.out_next
      | with_reducible apply Keeps.out_ite | with_reducible apply portSource_keeps
      | with_reducible apply attEv_keeps | with_reducible apply when_keeps
      | with_reducible apply onPd_keeps | with_reducible apply onAtt_keeps
      | with_reducible apply openVconn_keeps | with_reducible apply Keeps.ite
      | with_reducible apply Keeps.foldl
    | intro _

theorem execErrorRecoveryExpiry_keeps {a s : State} (h : Keeps a s) {v0} :
    Keeps.out a (execErrorRecoveryExpiry v0 s) := by
  unfold execErrorRecoveryExpiry
  repeat' first
    | with_reducible assumption | with_reducible apply Keeps.out_next
      | with_reducible apply Keeps.out_ite | with_reducible apply errRecovered_keeps

theorem execTryCcDebounceExpiry_keeps {a s : State} (h : Keeps a s) {v0} :
    Keeps.out a (execTryCcDebounceExpiry v0 s) := by
  unfold execTryCcDebounceExpiry
  repeat' first
    | with_reducible assumption | with_reducible apply Keeps.out_next
      | with_reducible apply Keeps.out_ite | with_reducible apply tryDebounced_keeps

theorem execForceErrorRecovery_keeps {a s : State} (h : Keeps a s) {v0} :
    Keeps.out a (execForceErrorRecovery v0 s) := by
  unfold execForceErrorRecovery
  repeat' first
    | with_reducible assumption | with_reducible apply Keeps.out_next
      | with_reducible apply Keeps.out_ite | with_reducible apply onAtt_keeps

theorem execForceLeaveDisabled_keeps {a s : State} (h : Keeps a s) {v0} :
    Keeps.out a (execForceLeaveDisabled v0 s) := by
  unfold execForceLeaveDisabled
  repeat' first
    | with_reducible assumption | with_reducible apply Keeps.out_next
      | with_reducible apply Keeps.out_ite | with_reducible apply when_keeps
      | with_reducible apply onAtt_keeps | with_reducible apply Keeps.ite
      | with_reducible apply Keeps.foldl
    | intro _

theorem execRolesw_keeps {a s : State} (h : Keeps a s) {v0} : Keeps.out a (execRolesw v0 s) := by
  unfold execRolesw
  repeat' first
    | with_reducible assumption | with_reducible apply Keeps.out_next
      | with_reducible apply Keeps.out_ite | with_reducible apply when_keeps
      | with_reducible apply onAtt_keeps | with_reducible apply Keeps.ite
      | with_reducible apply Keeps.foldl
    | intro _

theorem execCcScanComparison_keeps {a s : State} (h : Keeps a s) {v0 v1 v2 v3 v4} :
    Keeps.out a (execCcScanComparison v0 v1 v2 v3 v4 s) := by
  unfold execCcScanComparison
  repeat' first
    | with_reducible assumption | with_reducible apply Keeps.out_next
      | with_reducible apply Keeps.out_ite | with_reducible apply scanStep_keeps

theorem execDrpShareEnd_keeps {a s : State} (h : Keeps a s) {v0} :
    Keeps.out a (execDrpShareEnd v0 s) := by
  unfold execDrpShareEnd
  repeat' first
    | with_reducible assumption | with_reducible apply Keeps.out_next
      | with_reducible apply Keeps.out_ite | with_reducible apply onAtt_keeps
      | with_reducible apply cntEvent_keeps | with_reducible apply fset_keeps
      | with_reducible apply setAtt_keeps | with_reducible apply latchCccfg_keeps
      | with_reducible apply Keeps.ite | with_reducible apply Keeps.foldl
    | intro _ | split | extract_lets

theorem execForceDisabled_keeps {a s : State} (h : Keeps a s) {v0} :
    Keeps.out a (execForceDisabled v0 s) := by
  unfold execForceDisabled
  repeat' first
    | with_reducible assumption | with_reducible apply Keeps.out_next
      | with_reducible apply Keeps.out_ite | with_reducible apply onAtt_keeps

theorem execTryTimeoutExpiry_keeps {a s : State} (h : Keeps a s) {v0} :
    Keeps.out a (execTryTimeoutExpiry v0 s) := by
  unfold execTryTimeoutExpiry
  repeat' first
    | with_reducible assumption | with_reducible apply Keeps.out_next
      | with_reducible apply Keeps.out_ite | with_reducible apply setAtt_keeps

theorem execVconnInputUndervoltage_keeps {a s : State} (h : Keeps a s) {v0} :
    Keeps.out a (execVconnInputUndervoltage v0 s) := by
  unfold execVconnInputUndervoltage
  repeat' first
    | with_reducible assumption | with_reducible apply Keeps.out_next
      | with_reducible apply Keeps.out_ite | with_reducible apply onQuad_keeps
      | with_reducible apply forEach_keeps | with_reducible apply when_keeps
      | with_reducible apply openVconn_keeps | with_reducible apply portSource_keeps
      | with_reducible apply attEv_keeps | with_reducible apply Keeps.ite
      | with_reducible apply Keeps.foldl
    | intro _

theorem execDrpTryExpiry_keeps {a s : State} (h : Keeps a s) {v0} :
    Keeps.out a (execDrpTryExpiry v0 s) := by
  unfold execDrpTryExpiry
  repeat' first
    | with_reducible assumption | with_reducible apply Keeps.out_next
      | with_reducible apply Keeps.out_ite | with_reducible apply onAtt_keeps
      | with_reducible apply setAtt_keeps | with_reducible apply attOff_keeps
      | with_reducible apply when_keeps | with_reducible apply tryDebounced_keeps
      | with_reducible apply Keeps.ite | with_reducible apply Keeps.foldl
    | intro _ | split | extract_lets

theorem execSrcDisconnectExpiry_keeps {a s : State} (h : Keeps a s) {v0} :
    Keeps.out a (execSrcDisconnectExpiry v0 s) := by
  unfold execSrcDisconnectExpiry
  repeat' first
    | with_reducible assumption | with_reducible apply Keeps.out_next
      | with_reducible apply Keeps.out_ite | with_reducible apply toUnattached_keeps

theorem execEddyStart_keeps {a s : State} (h : Keeps a s) {v0} :
    Keeps.out a (execEddyStart v0 s) := by
  unfold execEddyStart
  repeat' first
    | with_reducible assumption | with_reducible apply Keeps.out_next
      | with_reducible apply Keeps.out_ite | with_reducible apply fset_keeps
      | with_reducible apply when_keeps | with_reducible apply calStart_keeps
      | with_reducible apply Keeps.ite | with_reducible apply Keeps.foldl
    | intro _

theorem execComparatorOutputChange_keeps {a s : State} (h : Keeps a s) {v0 v1 v2} :
    Keeps.out a (execComparatorOutputChange v0 v1 v2 s) := by
  unfold execComparatorOutputChange
  repeat' first
    | with_reducible assumption | with_reducible apply Keeps.out_next
      | with_reducible apply Keeps.out_ite | with_reducible apply cmpOut_keeps

theorem execEddySelfTrim_keeps {a s : State} (h : Keeps a s) {v0 v1} :
    Keeps.out a (execEddySelfTrim v0 v1 s) := by
  unfold execEddySelfTrim
  repeat' first
    | with_reducible assumption | with_reducible apply Keeps.out_next
      | with_reducible apply Keeps.out_ite | with_reducible apply fset_keeps
      | with_reducible apply Keeps.ite | with_reducible apply Keeps.foldl
    | intro _ | split | extract_lets | with_reducible apply Keeps.record

theorem execDieOverTemperature_keeps {a s : State} (h : Keeps a s) {v0} :
    Keeps.out a (execDieOverTemperature v0 s) := by
  unfold execDieOverTemperature
  repeat' first
    | with_reducible assumption | with_reducible apply Keeps.out_next
      | with_reducible apply Keeps.out_ite | with_reducible apply weirCond_keeps
      | with_reducible apply onAdc_keeps

theorem execEddyCheckFail_keeps {a s : State} (h : Keeps a s) :
    Keeps.out a (execEddyCheckFail s) := by
  unfold execEddyCheckFail
  repeat' first
    | with_reducible assumption | with_reducible apply Keeps.out_next
      | with_reducible apply Keeps.out_ite | with_reducible apply weirCond_keeps
      | with_reducible apply fset_keeps

theorem execConversionComplete_keeps {a s : State} (h : Keeps a s) {v0 v1 v2} :
    Keeps.out a (execConversionComplete v0 v1 v2 s) := by
  unfold execConversionComplete
  repeat' first
    | with_reducible assumption | with_reducible apply Keeps.out_next
      | with_reducible apply Keeps.out_ite | with_reducible apply vbusResult_keeps
      | with_reducible apply railResult_keeps | with_reducible apply auxResult_keeps
      | with_reducible apply isnsResult_keeps | with_reducible apply Keeps.ite
      | with_reducible apply Keeps.foldl
    | intro _ | split

theorem execVdrvUndervoltage_keeps {a s : State} (h : Keeps a s) :
    Keeps.out a (execVdrvUndervoltage s) := by
  unfold execVdrvUndervoltage
  repeat' first
    | with_reducible assumption | with_reducible apply Keeps.out_next
      | with_reducible apply Keeps.out_ite | with_reducible apply onIdx_keeps
      | with_reducible apply unitSource_keeps

theorem execCalibrationEnd_keeps {a s : State} (h : Keeps a s) {v0} :
    Keeps.out a (execCalibrationEnd v0 s) := by
  unfold execCalibrationEnd
  repeat' first
    | with_reducible assumption | with_reducible apply Keeps.out_next
      | with_reducible apply Keeps.out_ite | with_reducible apply calJudge_keeps

theorem execReferenceDivergence_keeps {a s : State} (h : Keeps a s) {v0} :
    Keeps.out a (execReferenceDivergence v0 s) := by
  unfold execReferenceDivergence
  repeat' first
    | with_reducible assumption | with_reducible apply Keeps.out_next
      | with_reducible apply Keeps.out_ite | with_reducible apply fset_keeps
      | with_reducible apply weirCond_keeps

theorem execMailboxStall_keeps {a s : State} (h : Keeps a s) {v0} :
    Keeps.out a (execMailboxStall v0 s) := by
  unfold execMailboxStall
  repeat' first
    | with_reducible assumption | with_reducible apply Keeps.out_next
      | with_reducible apply Keeps.out_ite | with_reducible apply stallSource_keeps
      | with_reducible apply mbxEv_keeps | with_reducible apply onMbx_keeps

theorem execFaultNPulseEnd_keeps {a s : State} (h : Keeps a s) :
    Keeps.out a (execFaultNPulseEnd s) := by
  unfold execFaultNPulseEnd
  repeat' first
    | with_reducible assumption | with_reducible apply Keeps.out_next
      | with_reducible apply Keeps.out_ite | with_reducible apply when_keeps
      | with_reducible apply faultRelease_keeps | with_reducible apply Keeps.ite
      | with_reducible apply Keeps.foldl
    | intro _ | split | extract_lets | with_reducible apply Keeps.record

theorem execWeirUrecWrite_keeps {a s : State} (h : Keeps a s) {v0} :
    Keeps.out a (execWeirUrecWrite v0 s) := by
  unfold execWeirUrecWrite
  repeat' first
    | with_reducible assumption | with_reducible apply Keeps.out_next
      | with_reducible apply Keeps.out_ite | with_reducible apply unitSource_keeps

theorem execWdgCheckIn_keeps {a s : State} (h : Keeps a s) {v0 v1} :
    Keeps.out a (execWdgCheckIn v0 v1 s) := by
  unfold execWdgCheckIn
  repeat' first
    | with_reducible assumption | with_reducible apply Keeps.out_next
      | with_reducible apply Keeps.out_ite | with_reducible apply wdgCheckIn_keeps

theorem execWeirPrecWrite_keeps {a s : State} (h : Keeps a s) {v0 v1} :
    Keeps.out a (execWeirPrecWrite v0 v1 s) := by
  unfold execWeirPrecWrite
  repeat' first
    | with_reducible assumption | with_reducible apply Keeps.out_next
      | with_reducible apply Keeps.out_ite | with_reducible apply portSource_keeps

theorem execRillHoldExpired_keeps {a s : State} (h : Keeps a s) {v0} :
    Keeps.out a (execRillHoldExpired v0 s) := by
  unfold execRillHoldExpired
  repeat' first
    | with_reducible assumption | with_reducible apply Keeps.out_next
      | with_reducible apply Keeps.out_ite | with_reducible apply onWdg_keeps
      | with_reducible apply unitSource_keeps | with_reducible apply portSafe_keeps
      | with_reducible apply reactPort_keeps | with_reducible apply Keeps.ite
      | with_reducible apply Keeps.foldl
    | intro _ | split | extract_lets | with_reducible apply Keeps.record

theorem execWeirReleaseWindowClose_keeps {a s : State} (h : Keeps a s) {v0} :
    Keeps.out a (execWeirReleaseWindowClose v0 s) := by
  unfold execWeirReleaseWindowClose
  repeat' first
    | with_reducible assumption | with_reducible apply Keeps.out_next
      | with_reducible apply Keeps.out_ite | with_reducible apply setRelWin_keeps

theorem execWdgService_keeps {a s : State} (h : Keeps a s) {v0 v1} :
    Keeps.out a (execWdgService v0 v1 s) := by
  unfold execWdgService
  repeat' first
    | with_reducible assumption | with_reducible apply Keeps.out_next
      | with_reducible apply Keeps.out_ite | with_reducible apply wdgService_keeps

theorem execWeirEventWindowClose_keeps {a s : State} (h : Keeps a s) {v0 v1} :
    Keeps.out a (execWeirEventWindowClose v0 v1 s) := by
  unfold execWeirEventWindowClose
  repeat' first
    | with_reducible assumption | with_reducible apply Keeps.out_next
      | with_reducible apply Keeps.out_ite | with_reducible apply onIdx_keeps

theorem execFaultNRelease_keeps {a s : State} (h : Keeps a s) :
    Keeps.out a (execFaultNRelease s) := by
  unfold execFaultNRelease
  repeat' first
    | with_reducible assumption | with_reducible apply Keeps.out_next
      | with_reducible apply Keeps.out_ite | with_reducible apply faultReleaseWrite_keeps

theorem execWatchdogExpiry_keeps {a s : State} (h : Keeps a s) {v0} :
    Keeps.out a (execWatchdogExpiry v0 s) := by
  unfold execWatchdogExpiry
  repeat' first
    | with_reducible assumption | with_reducible apply Keeps.out_next
      | with_reducible apply Keeps.out_ite | with_reducible apply wdgReset_keeps

theorem execWeirQuietElapsed_keeps {a s : State} (h : Keeps a s) {v0} :
    Keeps.out a (execWeirQuietElapsed v0 s) := by
  unfold execWeirQuietElapsed
  repeat' first
    | with_reducible assumption | with_reducible apply Keeps.out_next
      | with_reducible apply Keeps.out_ite | with_reducible apply quietOver_keeps

theorem execOtpCtlReadStrict_keeps {a s : State} (h : Keeps a s) {v0} :
    Keeps.out a (execOtpCtlReadStrict v0 s) := by
  unfold execOtpCtlReadStrict
  repeat' first
    | with_reducible assumption | with_reducible apply Keeps.out_next
      | with_reducible apply Keeps.out_ite | with_reducible apply otpCtl_keeps

theorem execOtpCtlProgram_keeps {a s : State} (h : Keeps a s) {v0} :
    Keeps.out a (execOtpCtlProgram v0 s) := by
  unfold execOtpCtlProgram
  repeat' first
    | with_reducible assumption | with_reducible apply Keeps.out_next
      | with_reducible apply Keeps.out_ite | with_reducible apply otpCtl_keeps

theorem execOtpCtlLcAdvance_keeps {a s : State} (h : Keeps a s) {v0} :
    Keeps.out a (execOtpCtlLcAdvance v0 s) := by
  unfold execOtpCtlLcAdvance
  repeat' first
    | with_reducible assumption | with_reducible apply Keeps.out_next
      | with_reducible apply Keeps.out_ite | with_reducible apply otpCtl_keeps

theorem execOtpOperationComplete_keeps {a s : State} (h : Keeps a s) {v0 v1} :
    Keeps.out a (execOtpOperationComplete v0 v1 s) := by
  unfold execOtpOperationComplete
  repeat' first
    | with_reducible assumption | with_reducible apply Keeps.out_next
      | with_reducible apply Keeps.out_ite | with_reducible apply otpEnd_keeps
      | with_reducible apply Keeps.ite | with_reducible apply Keeps.foldl
    | intro _ | split

theorem execOtpCtlLock_keeps {a s : State} (h : Keeps a s) {v0} :
    Keeps.out a (execOtpCtlLock v0 s) := by
  unfold execOtpCtlLock
  repeat' first
    | with_reducible assumption | with_reducible apply Keeps.out_next
      | with_reducible apply Keeps.out_ite | with_reducible apply otpCtl_keeps

theorem execOtpCtlReadNormal_keeps {a s : State} (h : Keeps a s) {v0} :
    Keeps.out a (execOtpCtlReadNormal v0 s) := by
  unfold execOtpCtlReadNormal
  repeat' first
    | with_reducible assumption | with_reducible apply Keeps.out_next
      | with_reducible apply Keeps.out_ite | with_reducible apply otpCtl_keeps

theorem execOtpBootRead_keeps {a s : State} (h : Keeps a s) {v0 v1} :
    Keeps.out a (execOtpBootRead v0 v1 s) := by
  unfold execOtpBootRead
  repeat' first
    | with_reducible assumption | with_reducible apply Keeps.out_next
      | with_reducible apply Keeps.out_ite | with_reducible apply otpBoot_keeps

theorem execPresenceLevelConfirmed_keeps {a s : State} (h : Keeps a s) {v0} :
    Keeps.out a (execPresenceLevelConfirmed v0 s) := by
  unfold execPresenceLevelConfirmed
  repeat' first
    | with_reducible assumption | with_reducible apply Keeps.out_next
      | with_reducible apply Keeps.out_ite | with_reducible apply fset_keeps
      | with_reducible apply presHigh_keeps | with_reducible apply presLow_keeps
      | with_reducible apply Keeps.ite | with_reducible apply Keeps.foldl
    | intro _ | split | extract_lets | with_reducible apply Keeps.record

theorem execPresenceWindowEnd_keeps {a s : State} (h : Keeps a s) :
    Keeps.out a (execPresenceWindowEnd s) := by
  unfold execPresenceWindowEnd
  repeat' first
    | with_reducible assumption | with_reducible apply Keeps.out_next
      | with_reducible apply Keeps.out_ite | with_reducible apply presEnd_keeps

theorem execMirrorFreeze_keeps {a s : State} (h : Keeps a s) {v0} :
    Keeps.out a (execMirrorFreeze v0 s) := by
  unfold execMirrorFreeze
  repeat' first
    | with_reducible assumption | with_reducible apply Keeps.out_next
      | with_reducible apply Keeps.out_ite | with_reducible apply freeze_keeps

theorem execMirrorRecordReceive_keeps {a s : State} (h : Keeps a s) {v0 v1 v2} :
    Keeps.out a (execMirrorRecordReceive v0 v1 v2 s) := by
  unfold execMirrorRecordReceive
  repeat' first
    | with_reducible assumption | with_reducible apply Keeps.out_next
      | with_reducible apply Keeps.out_ite | with_reducible apply mirrorReceive_keeps

theorem execMirrorCommit_keeps {a s : State} (h : Keeps a s) {v0} :
    Keeps.out a (execMirrorCommit v0 s) := by
  unfold execMirrorCommit
  repeat' first
    | with_reducible assumption | with_reducible apply Keeps.out_next
      | with_reducible apply Keeps.out_ite | with_reducible apply mirrorCommit_keeps

theorem execPairCtlRetrain_keeps {a s : State} (h : Keeps a s) :
    Keeps.out a (execPairCtlRetrain s) := by
  unfold execPairCtlRetrain
  repeat' first
    | with_reducible assumption | with_reducible apply Keeps.out_next
      | with_reducible apply Keeps.out_ite | with_reducible apply retrain_keeps

theorem execSyncMasterLost_keeps {a s : State} (h : Keeps a s) :
    Keeps.out a (execSyncMasterLost s) := by
  unfold execSyncMasterLost
  repeat' first
    | with_reducible assumption | with_reducible apply Keeps.out_next
      | with_reducible apply Keeps.out_ite | with_reducible apply onPair_keeps

theorem execSyncEdgeReceived_keeps {a s : State} (h : Keeps a s) {v0} :
    Keeps.out a (execSyncEdgeReceived v0 s) := by
  unfold execSyncEdgeReceived
  repeat' first
    | with_reducible assumption | with_reducible apply Keeps.out_next
      | with_reducible apply Keeps.out_ite | with_reducible apply fset_keeps
      | with_reducible apply onPair_keeps | with_reducible apply when_keeps
      | with_reducible apply Keeps.ite | with_reducible apply Keeps.foldl
    | intro _

theorem execTimeBindTargetEdge_keeps {a s : State} (h : Keeps a s) :
    Keeps.out a (execTimeBindTargetEdge s) := by
  unfold execTimeBindTargetEdge
  repeat' first
    | with_reducible assumption | with_reducible apply Keeps.out_next
      | with_reducible apply Keeps.out_ite | with_reducible apply fset_keeps
      | with_reducible apply logRec_keeps | with_reducible apply onPair_keeps
      | with_reducible apply Keeps.ite | with_reducible apply Keeps.foldl
    | intro _ | split

theorem execListenTimeExpiry_keeps {a s : State} (h : Keeps a s) :
    Keeps.out a (execListenTimeExpiry s) := by
  unfold execListenTimeExpiry
  repeat' first
    | with_reducible assumption | with_reducible apply Keeps.out_next
      | with_reducible apply Keeps.out_ite | with_reducible apply onPair_keeps
      | with_reducible apply when_keeps | with_reducible apply becomeMaster_keeps
      | with_reducible apply Keeps.ite | with_reducible apply Keeps.foldl
    | intro _

theorem execSkewFault_keeps {a s : State} (h : Keeps a s) : Keeps.out a (execSkewFault s) := by
  unfold execSkewFault
  repeat' first
    | with_reducible assumption | with_reducible apply Keeps.out_next
      | with_reducible apply Keeps.out_ite | with_reducible apply weirCond_keeps
      | with_reducible apply when_keeps | with_reducible apply fset_keeps
      | with_reducible apply Keeps.ite | with_reducible apply Keeps.foldl
    | intro _

theorem execBulkRetransmit_keeps {a s : State} (h : Keeps a s) :
    Keeps.out a (execBulkRetransmit s) := by
  unfold execBulkRetransmit
  repeat' first
    | with_reducible assumption | with_reducible apply Keeps.out_next
      | with_reducible apply Keeps.out_ite | with_reducible apply onPair_keeps

theorem execLaneLoss_keeps {a s : State} (h : Keeps a s) {v0} :
    Keeps.out a (execLaneLoss v0 s) := by
  unfold execLaneLoss
  repeat' first
    | with_reducible assumption | with_reducible apply Keeps.out_next
      | with_reducible apply Keeps.out_ite | with_reducible apply unitSource_keeps
      | with_reducible apply setLink_keeps | with_reducible apply linkDown_keeps

theorem execLinkTrainingTimeout_keeps {a s : State} (h : Keeps a s) :
    Keeps.out a (execLinkTrainingTimeout s) := by
  unfold execLinkTrainingTimeout
  repeat' first
    | with_reducible assumption | with_reducible apply Keeps.out_next
      | with_reducible apply Keeps.out_ite | with_reducible apply linkDown_keeps

theorem execSyncHeartbeatReceived_keeps {a s : State} (h : Keeps a s) {v0} :
    Keeps.out a (execSyncHeartbeatReceived v0 s) := by
  unfold execSyncHeartbeatReceived
  repeat' first
    | with_reducible assumption | with_reducible apply Keeps.out_next
      | with_reducible apply Keeps.out_ite | with_reducible apply onPair_keeps
      | with_reducible apply when_keeps | with_reducible apply hearWord_keeps
      | with_reducible apply Keeps.ite | with_reducible apply Keeps.foldl
    | intro _ | split | extract_lets | with_reducible apply Keeps.record

theorem execProfileChangeEdge_keeps {a s : State} (h : Keeps a s) :
    Keeps.out a (execProfileChangeEdge s) := by
  unfold execProfileChangeEdge
  repeat' first
    | with_reducible assumption | with_reducible apply Keeps.out_next
      | with_reducible apply Keeps.out_ite | with_reducible apply setProfile_keeps
      | with_reducible apply Keeps.ite | with_reducible apply Keeps.foldl
    | intro _ | split | extract_lets | with_reducible apply Keeps.record

theorem execSuperframeTrailer_keeps {a s : State} (h : Keeps a s) {v0} :
    Keeps.out a (execSuperframeTrailer v0 s) := by
  unfold execSuperframeTrailer
  repeat' first
    | with_reducible assumption | with_reducible apply Keeps.out_next
      | with_reducible apply Keeps.out_ite | with_reducible apply linkErrors_keeps
      | with_reducible apply hearWord_keeps | with_reducible apply onPair_keeps
      | with_reducible apply setTx_keeps | with_reducible apply bulkAck_keeps
      | with_reducible apply trailer_keeps | with_reducible apply Keeps.ite
      | with_reducible apply Keeps.foldl
    | intro _ | split

theorem execSyncLockAcquired_keeps {a s : State} (h : Keeps a s) :
    Keeps.out a (execSyncLockAcquired s) := by
  unfold execSyncLockAcquired
  repeat' first
    | with_reducible assumption | with_reducible apply Keeps.out_next
      | with_reducible apply Keeps.out_ite | with_reducible apply fset_keeps

theorem execBulkMessageReceive_keeps {a s : State} (h : Keeps a s) {v0} :
    Keeps.out a (execBulkMessageReceive v0 s) := by
  unfold execBulkMessageReceive
  repeat' first
    | with_reducible assumption | with_reducible apply Keeps.out_next
      | with_reducible apply Keeps.out_ite | with_reducible apply onPair_keeps
      | with_reducible apply bulkReceive_keeps

theorem execTakeoverFirstOwnedEdge_keeps {a s : State} (h : Keeps a s) :
    Keeps.out a (execTakeoverFirstOwnedEdge s) := by
  unfold execTakeoverFirstOwnedEdge
  repeat' first
    | with_reducible assumption | with_reducible apply Keeps.out_next
      | with_reducible apply Keeps.out_ite | with_reducible apply onPair_keeps
      | with_reducible apply when_keeps | with_reducible apply pairEv_keeps
      | with_reducible apply takePorts_keeps | with_reducible apply cntEvent_keeps
      | with_reducible apply Keeps.ite | with_reducible apply Keeps.foldl
    | intro _ | split

theorem execRebalanceDelayExpiry_keeps {a s : State} (h : Keeps a s) :
    Keeps.out a (execRebalanceDelayExpiry s) := by
  unfold execRebalanceDelayExpiry
  repeat' first
    | with_reducible assumption | with_reducible apply Keeps.out_next
      | with_reducible apply Keeps.out_ite | with_reducible apply onPair_keeps
      | with_reducible apply propose_keeps

theorem execPairCtlTake_keeps {a s : State} (h : Keeps a s) {v0} :
    Keeps.out a (execPairCtlTake v0 s) := by
  unfold execPairCtlTake
  repeat' first
    | with_reducible assumption | with_reducible apply Keeps.out_next
      | with_reducible apply Keeps.out_ite | with_reducible apply propose_keeps
      | with_reducible apply when_keeps | with_reducible apply pairEv_keeps
      | with_reducible apply Keeps.ite | with_reducible apply Keeps.foldl
    | intro _

theorem execReleaseTake_keeps {a s : State} (h : Keeps a s) {v0} :
    Keeps.out a (execReleaseTake v0 s) := by
  unfold execReleaseTake
  repeat' first
    | with_reducible assumption | with_reducible apply Keeps.out_next
      | with_reducible apply Keeps.out_ite | with_reducible apply onPair_keeps
      | with_reducible apply assume_keeps

theorem execHandoverSwitch_keeps {a s : State} (h : Keeps a s) :
    Keeps.out a (execHandoverSwitch s) := by
  unfold execHandoverSwitch
  repeat' first
    | with_reducible assumption | with_reducible apply Keeps.out_next
      | with_reducible apply Keeps.out_ite | with_reducible apply hoFail_keeps
      | with_reducible apply hoSwitch_keeps | with_reducible apply Keeps.ite
      | with_reducible apply Keeps.foldl
    | intro _ | split

theorem execHarbourStateApply_keeps {a s : State} (h : Keeps a s) {v0} :
    Keeps.out a (execHarbourStateApply v0 s) := by
  unfold execHarbourStateApply
  repeat' first
    | with_reducible assumption | with_reducible apply Keeps.out_next
      | with_reducible apply Keeps.out_ite | with_reducible apply formation_keeps
      | with_reducible apply harbourHear_keeps

theorem execFormationEdge_keeps {a s : State} (h : Keeps a s) :
    Keeps.out a (execFormationEdge s) := by
  unfold execFormationEdge
  repeat' first
    | with_reducible assumption | with_reducible apply Keeps.out_next
      | with_reducible apply Keeps.out_ite | with_reducible apply onPair_keeps
      | with_reducible apply formWith_keeps | with_reducible apply Keeps.ite
      | with_reducible apply Keeps.foldl
    | intro _ | split

theorem execHandoverKeptRelease_keeps {a s : State} (h : Keeps a s) :
    Keeps.out a (execHandoverKeptRelease s) := by
  unfold execHandoverKeptRelease
  repeat' first
    | with_reducible assumption | with_reducible apply Keeps.out_next
      | with_reducible apply Keeps.out_ite | with_reducible apply onPair_keeps
      | with_reducible apply pairEv_keeps | with_reducible apply releasePorts_keeps

theorem execPairCtlRebal_keeps {a s : State} (h : Keeps a s) :
    Keeps.out a (execPairCtlRebal s) := by
  unfold execPairCtlRebal
  repeat' first
    | with_reducible assumption | with_reducible apply Keeps.out_next
      | with_reducible apply Keeps.out_ite | with_reducible apply rebalance_keeps
      | with_reducible apply when_keeps | with_reducible apply pairEv_keeps
      | with_reducible apply Keeps.ite | with_reducible apply Keeps.foldl
    | intro _

theorem execPairCtlGive_keeps {a s : State} (h : Keeps a s) {v0} :
    Keeps.out a (execPairCtlGive v0 s) := by
  unfold execPairCtlGive
  repeat' first
    | with_reducible assumption | with_reducible apply Keeps.out_next
      | with_reducible apply Keeps.out_ite | with_reducible apply propose_keeps
      | with_reducible apply when_keeps | with_reducible apply pairEv_keeps
      | with_reducible apply Keeps.ite | with_reducible apply Keeps.foldl
    | intro _

theorem execPairCtlWithdraw_keeps {a s : State} (h : Keeps a s) :
    Keeps.out a (execPairCtlWithdraw s) := by
  unfold execPairCtlWithdraw
  repeat' first
    | with_reducible assumption | with_reducible apply Keeps.out_next
      | with_reducible apply Keeps.out_ite | with_reducible apply withdraw_keeps
      | with_reducible apply when_keeps | with_reducible apply pairEv_keeps
      | with_reducible apply Keeps.ite | with_reducible apply Keeps.foldl
    | intro _

theorem execHandoverCommit_keeps {a s : State} (h : Keeps a s) :
    Keeps.out a (execHandoverCommit s) := by
  unfold execHandoverCommit
  repeat' first
    | with_reducible assumption | with_reducible apply Keeps.out_next
      | with_reducible apply Keeps.out_ite | with_reducible apply hoFail_keeps
      | with_reducible apply hoOpen_keeps | with_reducible apply Keeps.ite
      | with_reducible apply Keeps.foldl
    | intro _ | split

theorem execHeartbeatLost_keeps {a s : State} (h : Keeps a s) :
    Keeps.out a (execHeartbeatLost s) := by
  unfold execHeartbeatLost
  repeat' first
    | with_reducible assumption | with_reducible apply Keeps.out_next
      | with_reducible apply Keeps.out_ite | with_reducible apply twinLost_keeps

theorem execMbxAckinRead_keeps {a s : State} (h : Keeps a s) {v0 v1} :
    Keeps.out a (execMbxAckinRead v0 v1 s) := by
  exact Keeps.out_next (Keeps.val_getD (State.boxRead_keeps h) h)

theorem execRcRegisterRead_keeps {a s : State} (h : Keeps a s) {v0 v1} :
    Keeps.out a (execRcRegisterRead v0 v1 s) := by
  exact Keeps.out_next (Keeps.foldl _ h fun _ _ k => Keeps.val_getD (State.load8_keeps k) k)

theorem execTickCountRead_keeps {a s : State} (h : Keeps a s) {v0} :
    Keeps.out a (execTickCountRead v0 s) := by
  unfold execTickCountRead
  repeat' first
    | with_reducible assumption | with_reducible apply Keeps.out_next
      | with_reducible apply Keeps.out_ite | with_reducible apply regLoad_keeps

theorem execMbxPush_keeps {a s : State} (h : Keeps a s) {v0 v1 v2} :
    Keeps.out a (execMbxPush v0 v1 v2 s) := by
  exact Keeps.out_next (Keeps.opt_getD (State.boxWrite_keeps h) h)

theorem execCntCtlClear_keeps {a s : State} (h : Keeps a s) {v0} :
    Keeps.out a (execCntCtlClear v0 s) := by
  unfold execCntCtlClear
  repeat' first
    | with_reducible assumption | with_reducible apply Keeps.out_next
      | with_reducible apply Keeps.out_ite | with_reducible apply regWrite_keeps

theorem execLockRelease_keeps {a s : State} (h : Keeps a s) {v0 v1 v2} :
    Keeps.out a (execLockRelease v0 v1 v2 s) := by
  exact Keeps.out_next (Keeps.opt_getD (State.boxWrite_keeps h) h)

theorem execMbxPop_keeps {a s : State} (h : Keeps a s) {v0 v1} :
    Keeps.out a (execMbxPop v0 v1 s) := by
  exact Keeps.out_next (Keeps.val_getD (State.boxRead_keeps h) h)

theorem execRegisterWrite_keeps {a s : State} (h : Keeps a s) {v0 v1 v2} :
    Keeps.out a (execRegisterWrite v0 v1 v2 s) := by
  unfold execRegisterWrite
  repeat' first
    | with_reducible assumption | with_reducible apply Keeps.out_next
      | with_reducible apply Keeps.out_ite | with_reducible apply regWrite_keeps
      | with_reducible apply Keeps.ite | with_reducible apply Keeps.foldl
    | intro _ | split | extract_lets

theorem execMbxAck_keeps {a s : State} (h : Keeps a s) {v0 v1 v2} :
    Keeps.out a (execMbxAck v0 v1 v2 s) := by
  exact Keeps.out_next (Keeps.opt_getD (State.boxWrite_keeps h) h)

theorem execFlashWindowPlace_keeps {a s : State} (h : Keeps a s) {v0} :
    Keeps.out a (execFlashWindowPlace v0 s) := by
  unfold execFlashWindowPlace
  repeat' first
    | with_reducible assumption | with_reducible apply Keeps.out_next
      | with_reducible apply Keeps.out_ite | with_reducible apply regWrite_keeps

theorem execSwapRequest_keeps {a s : State} (h : Keeps a s) {v0} :
    Keeps.out a (execSwapRequest v0 s) := by
  unfold execSwapRequest
  repeat' first
    | with_reducible assumption | with_reducible apply Keeps.out_next
      | with_reducible apply Keeps.out_ite | with_reducible apply swapRequest_keeps

theorem execLockTake_keeps {a s : State} (h : Keeps a s) {v0 v1} :
    Keeps.out a (execLockTake v0 v1 s) := by
  exact Keeps.out_next (Keeps.val_getD (State.boxRead_keeps h) h)

theorem execConfirmWindowExpiry_keeps {a s : State} (h : Keeps a s) :
    Keeps.out a (execConfirmWindowExpiry s) := by
  unfold execConfirmWindowExpiry
  repeat' first
    | with_reducible assumption | with_reducible apply Keeps.out_next
      | with_reducible apply Keeps.out_ite | with_reducible apply trialExpires_keeps
      | with_reducible apply Keeps.ite | with_reducible apply Keeps.foldl
    | intro _ | split

theorem execConfigApplyEdge_keeps {a s : State} (h : Keeps a s) :
    Keeps.out a (execConfigApplyEdge s) := by
  unfold execConfigApplyEdge
  repeat' first
    | with_reducible assumption | with_reducible apply Keeps.out_next
      | with_reducible apply Keeps.out_ite | with_reducible apply forEach_keeps
      | with_reducible apply when_keeps | with_reducible apply applyNow_keeps
      | with_reducible apply Keeps.ite | with_reducible apply Keeps.foldl
    | intro _ | split

theorem execCalTrialExpiry_keeps {a s : State} (h : Keeps a s) :
    Keeps.out a (execCalTrialExpiry s) := by
  unfold execCalTrialExpiry
  repeat' first
    | with_reducible assumption | with_reducible apply Keeps.out_next
      | with_reducible apply Keeps.out_ite | with_reducible apply trialExpires_keeps
      | with_reducible apply Keeps.ite | with_reducible apply Keeps.foldl
    | intro _ | split

theorem execFlashOperationComplete_keeps {a s : State} (h : Keeps a s) :
    Keeps.out a (execFlashOperationComplete s) := by
  unfold execFlashOperationComplete
  repeat' first
    | with_reducible assumption | with_reducible apply Keeps.out_next
      | with_reducible apply Keeps.out_ite | with_reducible apply flashComplete_keeps

theorem execLogRecordWrite_keeps {a s : State} (h : Keeps a s) :
    Keeps.out a (execLogRecordWrite s) := by
  unfold execLogRecordWrite
  repeat' first
    | with_reducible assumption | with_reducible apply Keeps.out_next
      | with_reducible apply Keeps.out_ite | with_reducible apply logMove_keeps
      | with_reducible apply logWrite_keeps

theorem execTransferOpen_keeps {a s : State} (h : Keeps a s) {v0} :
    Keeps.out a (execTransferOpen v0 s) := by
  unfold execTransferOpen
  repeat' first
    | with_reducible assumption | with_reducible apply Keeps.out_next
      | with_reducible apply Keeps.out_ite | with_reducible apply xferOpen_keeps

theorem execTransferResult_keeps {a s : State} (h : Keeps a s) {v0} :
    Keeps.out a (execTransferResult v0 s) := by
  unfold execTransferResult
  repeat' first
    | with_reducible assumption | with_reducible apply Keeps.out_next
      | with_reducible apply Keeps.out_ite | with_reducible apply xferEnd_keeps

theorem execEhExchange_keeps {a s : State} (h : Keeps a s) : Keeps.out a (execEhExchange s) := by
  unfold execEhExchange
  repeat' first
    | with_reducible assumption | with_reducible apply Keeps.out_next
      | with_reducible apply Keeps.out_ite | with_reducible apply swapHold_keeps

theorem execEhExchangeRelease_keeps {a s : State} (h : Keeps a s) :
    Keeps.out a (execEhExchangeRelease s) := by
  unfold execEhExchangeRelease
  repeat' first
    | with_reducible assumption | with_reducible apply Keeps.out_next
      | with_reducible apply Keeps.out_ite | with_reducible apply actStep_keeps
      | with_reducible apply exchangeOver_keeps | with_reducible apply swapStart_keeps

theorem execTransferData_keeps {a s : State} (h : Keeps a s) {v0} :
    Keeps.out a (execTransferData v0 s) := by
  unfold execTransferData
  repeat' first
    | with_reducible assumption | with_reducible apply Keeps.out_next
      | with_reducible apply Keeps.out_ite | with_reducible apply xferTake_keeps

theorem execTransferClose_keeps {a s : State} (h : Keeps a s) {v0} :
    Keeps.out a (execTransferClose v0 s) := by
  unfold execTransferClose
  repeat' first
    | with_reducible assumption | with_reducible apply Keeps.out_next
      | with_reducible apply Keeps.out_ite | with_reducible apply xferClose_keeps

theorem execEngineExchange_keeps {a s : State} (h : Keeps a s) {v0} :
    Keeps.out a (execEngineExchange v0 s) := by
  unfold execEngineExchange
  repeat' first
    | with_reducible assumption | with_reducible apply Keeps.out_next
      | with_reducible apply Keeps.out_ite | with_reducible apply actStep_keeps
      | with_reducible apply exchangeOver_keeps | with_reducible apply swapStart_keeps
      | with_reducible apply swapHold_keeps | with_reducible apply onEngine_keeps
      | with_reducible apply Keeps.ite | with_reducible apply Keeps.foldl
    | intro _ | split

theorem execSupplyInvalid_keeps {a s : State} (h : Keeps a s) {v0} :
    Keeps.out a (execSupplyInvalid v0 s) := by
  unfold execSupplyInvalid
  repeat' first
    | with_reducible assumption | with_reducible apply Keeps.out_next
      | with_reducible apply Keeps.out_ite | with_reducible apply supplyLost_keeps

theorem execPllLock_keeps {a s : State} (h : Keeps a s) : Keeps.out a (execPllLock s) := by
  unfold execPllLock
  repeat' first
    | with_reducible assumption | with_reducible apply Keeps.out_next
      | with_reducible apply Keeps.out_ite | with_reducible apply pllLock_keeps

theorem execRefokTimeout_keeps {a s : State} (h : Keeps a s) :
    Keeps.out a (execRefokTimeout s) := by
  unfold execRefokTimeout
  repeat' first
    | with_reducible assumption | with_reducible apply Keeps.out_next
      | with_reducible apply Keeps.out_ite | with_reducible apply holdReset_keeps
      | with_reducible apply weirCond_keeps

theorem execBootPairWindowExpiry_keeps {a s : State} (h : Keeps a s) :
    Keeps.out a (execBootPairWindowExpiry s) := by
  unfold execBootPairWindowExpiry
  repeat' first
    | with_reducible assumption | with_reducible apply Keeps.out_next
      | with_reducible apply Keeps.out_ite | with_reducible apply bootEnd_keeps
      | with_reducible apply formation_keeps

theorem execStrapSampling_keeps {a s : State} (h : Keeps a s) {v0} :
    Keeps.out a (execStrapSampling v0 s) := by
  unfold execStrapSampling
  repeat' first
    | with_reducible assumption | with_reducible apply Keeps.out_next
      | with_reducible apply Keeps.out_ite | with_reducible apply strapSample_keeps

theorem execRefok_keeps {a s : State} (h : Keeps a s) : Keeps.out a (execRefok s) := by
  unfold execRefok
  repeat' first
    | with_reducible assumption | with_reducible apply Keeps.out_next
      | with_reducible apply Keeps.out_ite | with_reducible apply fset_keeps

theorem execBootComplete_keeps {a s : State} (h : Keeps a s) :
    Keeps.out a (execBootComplete s) := by
  unfold execBootComplete
  repeat' first
    | with_reducible assumption | with_reducible apply Keeps.out_next
      | with_reducible apply Keeps.out_ite | with_reducible apply bootEnd_keeps

theorem execPowerOnReset_keeps {a s : State} (h : Keeps a s) :
    Keeps.out a (execPowerOnReset s) := by
  unfold execPowerOnReset
  repeat' first
    | with_reducible assumption | with_reducible apply Keeps.out_next
      | with_reducible apply Keeps.out_ite | with_reducible apply powerOn_keeps

theorem execResetNAssert_keeps {a s : State} (h : Keeps a s) :
    Keeps.out a (execResetNAssert s) := by
  unfold execResetNAssert
  repeat' first
    | with_reducible assumption | with_reducible apply Keeps.out_next
      | with_reducible apply Keeps.out_ite | with_reducible apply unitReset_keeps

theorem execVdrvInvalid_keeps {a s : State} (h : Keeps a s) : Keeps.out a (execVdrvInvalid s) := by
  unfold execVdrvInvalid
  repeat' first
    | with_reducible assumption | with_reducible apply Keeps.out_next
      | with_reducible apply Keeps.out_ite | with_reducible apply Keeps.ite
      | with_reducible apply Keeps.foldl
    | intro _ | split | extract_lets | with_reducible apply Keeps.record

theorem execVdrvValid_keeps {a s : State} (h : Keeps a s) : Keeps.out a (execVdrvValid s) := by
  unfold execVdrvValid
  repeat' first
    | with_reducible assumption | with_reducible apply Keeps.out_next
      | with_reducible apply Keeps.out_ite | with_reducible apply Keeps.ite
      | with_reducible apply Keeps.foldl
    | intro _ | split | extract_lets | with_reducible apply Keeps.record

theorem execDbOffFall_keeps {a s : State} (h : Keeps a s) : Keeps.out a (execDbOffFall s) := by
  unfold execDbOffFall
  repeat' first
    | with_reducible assumption | with_reducible apply Keeps.out_next
      | with_reducible apply Keeps.out_ite | with_reducible apply Keeps.ite
      | with_reducible apply Keeps.foldl
    | intro _ | split | extract_lets | with_reducible apply Keeps.record

theorem execDbOffRise_keeps {a s : State} (h : Keeps a s) : Keeps.out a (execDbOffRise s) := by
  unfold execDbOffRise
  repeat' first
    | with_reducible assumption | with_reducible apply Keeps.out_next
      | with_reducible apply Keeps.out_ite | with_reducible apply Keeps.ite
      | with_reducible apply Keeps.foldl
    | intro _ | split | extract_lets | with_reducible apply Keeps.record

theorem execTapTckEdge_keeps {a s : State} (h : Keeps a s) {v0 v1 v2} :
    Keeps.out a (execTapTckEdge v0 v1 v2 s) := by
  unfold execTapTckEdge
  repeat' first
    | with_reducible assumption | with_reducible apply Keeps.out_next
      | with_reducible apply Keeps.out_ite | with_reducible apply tapEdge_keeps

theorem execMuxbusSlot_keeps {a s : State} (h : Keeps a s) {v0} :
    Keeps.out a (execMuxbusSlot v0 s) := by
  unfold execMuxbusSlot
  repeat' first
    | with_reducible assumption | with_reducible apply Keeps.out_next
      | with_reducible apply Keeps.out_ite | with_reducible apply muxDrive_keeps

theorem execSpiStatus_keeps {a s : State} (h : Keeps a s) : Keeps.out a (execSpiStatus s) := by
  unfold execSpiStatus
  repeat' first
    | with_reducible assumption | with_reducible apply Keeps.out_next
      | with_reducible apply Keeps.out_ite | with_reducible apply Keeps.ite
      | with_reducible apply Keeps.foldl
    | intro _ | split | extract_lets | with_reducible apply Keeps.record

theorem execSpiReread_keeps {a s : State} (h : Keeps a s) : Keeps.out a (execSpiReread s) := by
  unfold execSpiReread
  repeat' first
    | with_reducible assumption | with_reducible apply Keeps.out_next
      | with_reducible apply Keeps.out_ite | with_reducible apply Keeps.ite
      | with_reducible apply Keeps.foldl
    | intro _ | split | extract_lets | with_reducible apply Keeps.record

theorem execSpiSingle_keeps {a s : State} (h : Keeps a s) : Keeps.out a (execSpiSingle s) := by
  unfold execSpiSingle
  repeat' first
    | with_reducible assumption | with_reducible apply Keeps.out_next
      | with_reducible apply Keeps.out_ite | with_reducible apply Keeps.ite
      | with_reducible apply Keeps.foldl
    | intro _ | split | extract_lets | with_reducible apply Keeps.record

theorem execSpiWrite_keeps {a s : State} (h : Keeps a s) {v0} :
    Keeps.out a (execSpiWrite v0 s) := by
  unfold execSpiWrite
  repeat' first
    | with_reducible assumption | with_reducible apply Keeps.out_next
      | with_reducible apply Keeps.out_ite | with_reducible apply packetIn_keeps
      | with_reducible apply Keeps.ite | with_reducible apply Keeps.foldl
    | intro _ | split | extract_lets | with_reducible apply Keeps.record

theorem execSpiRead_keeps {a s : State} (h : Keeps a s) {v0} : Keeps.out a (execSpiRead v0 s) := by
  unfold execSpiRead
  repeat' first
    | with_reducible assumption | with_reducible apply Keeps.out_next
      | with_reducible apply Keeps.out_ite | with_reducible apply readOut_keeps
      | with_reducible apply Keeps.ite | with_reducible apply Keeps.foldl
    | intro _ | split | extract_lets | with_reducible apply Keeps.record

theorem execUnitStatus_keeps {a s : State} (h : Keeps a s) {v0 v1} :
    Keeps.out a (execUnitStatus v0 v1 s) := by
  unfold execUnitStatus
  repeat' first
    | with_reducible assumption | with_reducible apply Keeps.out_next
      | with_reducible apply Keeps.out_ite | with_reducible apply hostRow_keeps
      | with_reducible apply reply_keeps | with_reducible apply Keeps.ite
      | with_reducible apply Keeps.foldl
    | intro _

theorem execUnitInfo_keeps {a s : State} (h : Keeps a s) {v0 v1} :
    Keeps.out a (execUnitInfo v0 v1 s) := by
  unfold execUnitInfo
  repeat' first
    | with_reducible assumption | with_reducible apply Keeps.out_next
      | with_reducible apply Keeps.out_ite | with_reducible apply hostRow_keeps
      | with_reducible apply reply_keeps | with_reducible apply Keeps.ite
      | with_reducible apply Keeps.foldl
    | intro _

theorem execQuadSet_keeps {a s : State} (h : Keeps a s) {v0 v1} :
    Keeps.out a (execQuadSet v0 v1 s) := by
  unfold execQuadSet
  repeat' first
    | with_reducible assumption | with_reducible apply Keeps.out_next
      | with_reducible apply Keeps.out_ite | with_reducible apply hostRow_keeps
      | with_reducible apply doQuadSet_keeps | with_reducible apply Keeps.ite
      | with_reducible apply Keeps.foldl
    | intro _

theorem execTimeRead_keeps {a s : State} (h : Keeps a s) {v0 v1} :
    Keeps.out a (execTimeRead v0 v1 s) := by
  unfold execTimeRead
  repeat' first
    | with_reducible assumption | with_reducible apply Keeps.out_next
      | with_reducible apply Keeps.out_ite | with_reducible apply hostRow_keeps
      | with_reducible apply doTimeRead_keeps | with_reducible apply Keeps.ite
      | with_reducible apply Keeps.foldl
    | intro _

theorem execHostNop_keeps {a s : State} (h : Keeps a s) {v0 v1} :
    Keeps.out a (execHostNop v0 v1 s) := by
  unfold execHostNop
  repeat' first
    | with_reducible assumption | with_reducible apply Keeps.out_next
      | with_reducible apply Keeps.out_ite | with_reducible apply hostRow_keeps
      | with_reducible apply reply_keeps | with_reducible apply Keeps.ite
      | with_reducible apply Keeps.foldl
    | intro _

theorem execResetAfterHandover_keeps {a s : State} (h : Keeps a s) :
    Keeps.out a (execResetAfterHandover s) := by
  unfold execResetAfterHandover
  repeat' first
    | with_reducible assumption | with_reducible apply Keeps.out_next
      | with_reducible apply Keeps.out_ite | with_reducible apply unitReset_keeps
      | with_reducible apply Keeps.ite | with_reducible apply Keeps.foldl
    | intro _ | split

theorem execPairCfgSet_keeps {a s : State} (h : Keeps a s) {v0 v1} :
    Keeps.out a (execPairCfgSet v0 v1 s) := by
  unfold execPairCfgSet
  repeat' first
    | with_reducible assumption | with_reducible apply Keeps.out_next
      | with_reducible apply Keeps.out_ite | with_reducible apply hostRow_keeps
      | with_reducible apply doPairCfgSet_keeps | with_reducible apply Keeps.ite
      | with_reducible apply Keeps.foldl
    | intro _

theorem execHostLinkSet_keeps {a s : State} (h : Keeps a s) {v0 v1} :
    Keeps.out a (execHostLinkSet v0 v1 s) := by
  unfold execHostLinkSet
  repeat' first
    | with_reducible assumption | with_reducible apply Keeps.out_next
      | with_reducible apply Keeps.out_ite | with_reducible apply hostRow_keeps
      | with_reducible apply doHostLinkSet_keeps | with_reducible apply Keeps.ite
      | with_reducible apply Keeps.foldl
    | intro _

theorem execPairStatus_keeps {a s : State} (h : Keeps a s) {v0 v1} :
    Keeps.out a (execPairStatus v0 v1 s) := by
  unfold execPairStatus
  repeat' first
    | with_reducible assumption | with_reducible apply Keeps.out_next
      | with_reducible apply Keeps.out_ite | with_reducible apply hostRow_keeps
      | with_reducible apply reply_keeps | with_reducible apply Keeps.ite
      | with_reducible apply Keeps.foldl
    | intro _

theorem execQuadStatus_keeps {a s : State} (h : Keeps a s) {v0 v1} :
    Keeps.out a (execQuadStatus v0 v1 s) := by
  unfold execQuadStatus
  repeat' first
    | with_reducible assumption | with_reducible apply Keeps.out_next
      | with_reducible apply Keeps.out_ite | with_reducible apply hostRow_keeps
      | with_reducible apply doQuadStatus_keeps | with_reducible apply Keeps.ite
      | with_reducible apply Keeps.foldl
    | intro _

theorem execPairRetrain_keeps {a s : State} (h : Keeps a s) {v0 v1} :
    Keeps.out a (execPairRetrain v0 v1 s) := by
  unfold execPairRetrain
  repeat' first
    | with_reducible assumption | with_reducible apply Keeps.out_next
      | with_reducible apply Keeps.out_ite | with_reducible apply hostRow_keeps
      | with_reducible apply doPairRetrain_keeps | with_reducible apply Keeps.ite
      | with_reducible apply Keeps.foldl
    | intro _

theorem execTimeBind_keeps {a s : State} (h : Keeps a s) {v0 v1} :
    Keeps.out a (execTimeBind v0 v1 s) := by
  unfold execTimeBind
  repeat' first
    | with_reducible assumption | with_reducible apply Keeps.out_next
      | with_reducible apply Keeps.out_ite | with_reducible apply hostRow_keeps
      | with_reducible apply doTimeBind_keeps | with_reducible apply Keeps.ite
      | with_reducible apply Keeps.foldl
    | intro _

theorem execIndicatorSet_keeps {a s : State} (h : Keeps a s) {v0 v1} :
    Keeps.out a (execIndicatorSet v0 v1 s) := by
  unfold execIndicatorSet
  repeat' first
    | with_reducible assumption | with_reducible apply Keeps.out_next
      | with_reducible apply Keeps.out_ite | with_reducible apply hostRow_keeps
      | with_reducible apply doIndicatorSet_keeps | with_reducible apply Keeps.ite
      | with_reducible apply Keeps.foldl
    | intro _

theorem execPresenceEnd_keeps {a s : State} (h : Keeps a s) {v0 v1} :
    Keeps.out a (execPresenceEnd v0 v1 s) := by
  unfold execPresenceEnd
  repeat' first
    | with_reducible assumption | with_reducible apply Keeps.out_next
      | with_reducible apply Keeps.out_ite | with_reducible apply hostRow_keeps
      | with_reducible apply doPresenceEnd_keeps | with_reducible apply Keeps.ite
      | with_reducible apply Keeps.foldl
    | intro _

theorem execPresenceStatus_keeps {a s : State} (h : Keeps a s) {v0 v1} :
    Keeps.out a (execPresenceStatus v0 v1 s) := by
  unfold execPresenceStatus
  repeat' first
    | with_reducible assumption | with_reducible apply Keeps.out_next
      | with_reducible apply Keeps.out_ite | with_reducible apply hostRow_keeps
      | with_reducible apply reply_keeps | with_reducible apply Keeps.ite
      | with_reducible apply Keeps.foldl
    | intro _

theorem execPairRebalance_keeps {a s : State} (h : Keeps a s) {v0 v1} :
    Keeps.out a (execPairRebalance v0 v1 s) := by
  unfold execPairRebalance
  repeat' first
    | with_reducible assumption | with_reducible apply Keeps.out_next
      | with_reducible apply Keeps.out_ite | with_reducible apply hostRow_keeps
      | with_reducible apply doPairRebalance_keeps | with_reducible apply Keeps.ite
      | with_reducible apply Keeps.foldl
    | intro _

theorem execUnitProfile_keeps {a s : State} (h : Keeps a s) {v0 v1} :
    Keeps.out a (execUnitProfile v0 v1 s) := by
  unfold execUnitProfile
  repeat' first
    | with_reducible assumption | with_reducible apply Keeps.out_next
      | with_reducible apply Keeps.out_ite | with_reducible apply hostRow_keeps
      | with_reducible apply doUnitProfile_keeps | with_reducible apply Keeps.ite
      | with_reducible apply Keeps.foldl
    | intro _

theorem execPairHandover_keeps {a s : State} (h : Keeps a s) {v0 v1} :
    Keeps.out a (execPairHandover v0 v1 s) := by
  unfold execPairHandover
  repeat' first
    | with_reducible assumption | with_reducible apply Keeps.out_next
      | with_reducible apply Keeps.out_ite | with_reducible apply hostRow_keeps
      | with_reducible apply doPairHandover_keeps | with_reducible apply Keeps.ite
      | with_reducible apply Keeps.foldl
    | intro _

theorem execPairWithdraw_keeps {a s : State} (h : Keeps a s) {v0 v1} :
    Keeps.out a (execPairWithdraw v0 v1 s) := by
  unfold execPairWithdraw
  repeat' first
    | with_reducible assumption | with_reducible apply Keeps.out_next
      | with_reducible apply Keeps.out_ite | with_reducible apply hostRow_keeps
      | with_reducible apply doPairWithdraw_keeps | with_reducible apply Keeps.ite
      | with_reducible apply Keeps.foldl
    | intro _

theorem execUnitReset_keeps {a s : State} (h : Keeps a s) {v0 v1} :
    Keeps.out a (execUnitReset v0 v1 s) := by
  unfold execUnitReset
  repeat' first
    | with_reducible assumption | with_reducible apply Keeps.out_next
      | with_reducible apply Keeps.out_ite | with_reducible apply hostRow_keeps
      | with_reducible apply doUnitReset_keeps | with_reducible apply Keeps.ite
      | with_reducible apply Keeps.foldl
    | intro _

theorem execCntConfig_keeps {a s : State} (h : Keeps a s) {v0 v1} :
    Keeps.out a (execCntConfig v0 v1 s) := by
  unfold execCntConfig
  repeat' first
    | with_reducible assumption | with_reducible apply Keeps.out_next
      | with_reducible apply Keeps.out_ite | with_reducible apply hostRow_keeps
      | with_reducible apply doCntConfig_keeps | with_reducible apply Keeps.ite
      | with_reducible apply Keeps.foldl
    | intro _

theorem execLogRead_keeps {a s : State} (h : Keeps a s) {v0 v1} :
    Keeps.out a (execLogRead v0 v1 s) := by
  unfold execLogRead
  repeat' first
    | with_reducible assumption | with_reducible apply Keeps.out_next
      | with_reducible apply Keeps.out_ite | with_reducible apply hostRow_keeps
      | with_reducible apply doLogRead_keeps | with_reducible apply Keeps.ite
      | with_reducible apply Keeps.foldl
    | intro _

theorem execLogStatus_keeps {a s : State} (h : Keeps a s) {v0 v1} :
    Keeps.out a (execLogStatus v0 v1 s) := by
  unfold execLogStatus
  repeat' first
    | with_reducible assumption | with_reducible apply Keeps.out_next
      | with_reducible apply Keeps.out_ite | with_reducible apply hostRow_keeps
      | with_reducible apply reply_keeps | with_reducible apply Keeps.ite
      | with_reducible apply Keeps.foldl
    | intro _

theorem execWeirClear_keeps {a s : State} (h : Keeps a s) {v0 v1} :
    Keeps.out a (execWeirClear v0 v1 s) := by
  unfold execWeirClear
  repeat' first
    | with_reducible assumption | with_reducible apply Keeps.out_next
      | with_reducible apply Keeps.out_ite | with_reducible apply hostRow_keeps
      | with_reducible apply doWeirClear_keeps | with_reducible apply Keeps.ite
      | with_reducible apply Keeps.foldl
    | intro _

theorem execWeirStatus_keeps {a s : State} (h : Keeps a s) {v0 v1} :
    Keeps.out a (execWeirStatus v0 v1 s) := by
  unfold execWeirStatus
  repeat' first
    | with_reducible assumption | with_reducible apply Keeps.out_next
      | with_reducible apply Keeps.out_ite | with_reducible apply hostRow_keeps
      | with_reducible apply reply_keeps | with_reducible apply Keeps.ite
      | with_reducible apply Keeps.foldl
    | intro _

theorem execCntRead_keeps {a s : State} (h : Keeps a s) {v0 v1} :
    Keeps.out a (execCntRead v0 v1 s) := by
  unfold execCntRead
  repeat' first
    | with_reducible assumption | with_reducible apply Keeps.out_next
      | with_reducible apply Keeps.out_ite | with_reducible apply hostRow_keeps
      | with_reducible apply reply_keeps | with_reducible apply Keeps.ite
      | with_reducible apply Keeps.foldl
    | intro _

theorem execWeirClassSet_keeps {a s : State} (h : Keeps a s) {v0 v1} :
    Keeps.out a (execWeirClassSet v0 v1 s) := by
  unfold execWeirClassSet
  repeat' first
    | with_reducible assumption | with_reducible apply Keeps.out_next
      | with_reducible apply Keeps.out_ite | with_reducible apply hostRow_keeps
      | with_reducible apply doWeirClassSet_keeps | with_reducible apply Keeps.ite
      | with_reducible apply Keeps.foldl
    | intro _

theorem execWeirForce_keeps {a s : State} (h : Keeps a s) {v0 v1} :
    Keeps.out a (execWeirForce v0 v1 s) := by
  unfold execWeirForce
  repeat' first
    | with_reducible assumption | with_reducible apply Keeps.out_next
      | with_reducible apply Keeps.out_ite | with_reducible apply hostRow_keeps
      | with_reducible apply doWeirForce_keeps | with_reducible apply Keeps.ite
      | with_reducible apply Keeps.foldl
    | intro _

theorem execCntClear_keeps {a s : State} (h : Keeps a s) {v0 v1} :
    Keeps.out a (execCntClear v0 v1 s) := by
  unfold execCntClear
  repeat' first
    | with_reducible assumption | with_reducible apply Keeps.out_next
      | with_reducible apply Keeps.out_ite | with_reducible apply hostRow_keeps
      | with_reducible apply doCntClear_keeps | with_reducible apply Keeps.ite
      | with_reducible apply Keeps.foldl
    | intro _

theorem execLogMark_keeps {a s : State} (h : Keeps a s) {v0 v1} :
    Keeps.out a (execLogMark v0 v1 s) := by
  unfold execLogMark
  repeat' first
    | with_reducible assumption | with_reducible apply Keeps.out_next
      | with_reducible apply Keeps.out_ite | with_reducible apply hostRow_keeps
      | with_reducible apply doLogMark_keeps | with_reducible apply Keeps.ite
      | with_reducible apply Keeps.foldl
    | intro _

theorem execWdgStatus_keeps {a s : State} (h : Keeps a s) {v0 v1} :
    Keeps.out a (execWdgStatus v0 v1 s) := by
  unfold execWdgStatus
  repeat' first
    | with_reducible assumption | with_reducible apply Keeps.out_next
      | with_reducible apply Keeps.out_ite | with_reducible apply hostRow_keeps
      | with_reducible apply reply_keeps | with_reducible apply Keeps.ite
      | with_reducible apply Keeps.foldl
    | intro _

theorem execPortDisable_keeps {a s : State} (h : Keeps a s) {v0 v1} :
    Keeps.out a (execPortDisable v0 v1 s) := by
  unfold execPortDisable
  repeat' first
    | with_reducible assumption | with_reducible apply Keeps.out_next
      | with_reducible apply Keeps.out_ite | with_reducible apply hostRow_keeps
      | with_reducible apply doPortDisable_keeps | with_reducible apply Keeps.ite
      | with_reducible apply Keeps.foldl
    | intro _

theorem execPortRecover_keeps {a s : State} (h : Keeps a s) {v0 v1} :
    Keeps.out a (execPortRecover v0 v1 s) := by
  unfold execPortRecover
  repeat' first
    | with_reducible assumption | with_reducible apply Keeps.out_next
      | with_reducible apply Keeps.out_ite | with_reducible apply hostRow_keeps
      | with_reducible apply doPortRecover_keeps | with_reducible apply Keeps.ite
      | with_reducible apply Keeps.foldl
    | intro _

theorem execPortMeasure_keeps {a s : State} (h : Keeps a s) {v0 v1} :
    Keeps.out a (execPortMeasure v0 v1 s) := by
  unfold execPortMeasure
  repeat' first
    | with_reducible assumption | with_reducible apply Keeps.out_next
      | with_reducible apply Keeps.out_ite | with_reducible apply hostRow_keeps
      | with_reducible apply doPortMeasure_keeps | with_reducible apply Keeps.ite
      | with_reducible apply Keeps.foldl
    | intro _

theorem execPortGet_keeps {a s : State} (h : Keeps a s) {v0 v1} :
    Keeps.out a (execPortGet v0 v1 s) := by
  unfold execPortGet
  repeat' first
    | with_reducible assumption | with_reducible apply Keeps.out_next
      | with_reducible apply Keeps.out_ite | with_reducible apply hostRow_keeps
      | with_reducible apply doPortGet_keeps | with_reducible apply Keeps.ite
      | with_reducible apply Keeps.foldl
    | intro _

theorem execMuxSet_keeps {a s : State} (h : Keeps a s) {v0 v1} :
    Keeps.out a (execMuxSet v0 v1 s) := by
  unfold execMuxSet
  repeat' first
    | with_reducible assumption | with_reducible apply Keeps.out_next
      | with_reducible apply Keeps.out_ite | with_reducible apply hostRow_keeps
      | with_reducible apply doMuxSet_keeps | with_reducible apply Keeps.ite
      | with_reducible apply Keeps.foldl
    | intro _

theorem execPortSet_keeps {a s : State} (h : Keeps a s) {v0 v1} :
    Keeps.out a (execPortSet v0 v1 s) := by
  unfold execPortSet
  repeat' first
    | with_reducible assumption | with_reducible apply Keeps.out_next
      | with_reducible apply Keeps.out_ite | with_reducible apply hostRow_keeps
      | with_reducible apply doPortSet_keeps | with_reducible apply Keeps.ite
      | with_reducible apply Keeps.foldl
    | intro _

theorem execModeMapSet_keeps {a s : State} (h : Keeps a s) {v0 v1} :
    Keeps.out a (execModeMapSet v0 v1 s) := by
  unfold execModeMapSet
  repeat' first
    | with_reducible assumption | with_reducible apply Keeps.out_next
      | with_reducible apply Keeps.out_ite | with_reducible apply hostRow_keeps
      | with_reducible apply doModeMapSet_keeps | with_reducible apply Keeps.ite
      | with_reducible apply Keeps.foldl
    | intro _

theorem execPortStatus_keeps {a s : State} (h : Keeps a s) {v0 v1} :
    Keeps.out a (execPortStatus v0 v1 s) := by
  unfold execPortStatus
  repeat' first
    | with_reducible assumption | with_reducible apply Keeps.out_next
      | with_reducible apply Keeps.out_ite | with_reducible apply hostRow_keeps
      | with_reducible apply doPortStatus_keeps | with_reducible apply Keeps.ite
      | with_reducible apply Keeps.foldl
    | intro _

theorem execMuxStatus_keeps {a s : State} (h : Keeps a s) {v0 v1} :
    Keeps.out a (execMuxStatus v0 v1 s) := by
  unfold execMuxStatus
  repeat' first
    | with_reducible assumption | with_reducible apply Keeps.out_next
      | with_reducible apply Keeps.out_ite | with_reducible apply hostRow_keeps
      | with_reducible apply doMuxStatus_keeps | with_reducible apply Keeps.ite
      | with_reducible apply Keeps.foldl
    | intro _

theorem execPortEnable_keeps {a s : State} (h : Keeps a s) {v0 v1} :
    Keeps.out a (execPortEnable v0 v1 s) := by
  unfold execPortEnable
  repeat' first
    | with_reducible assumption | with_reducible apply Keeps.out_next
      | with_reducible apply Keeps.out_ite | with_reducible apply hostRow_keeps
      | with_reducible apply doPortEnable_keeps | with_reducible apply Keeps.ite
      | with_reducible apply Keeps.foldl
    | intro _

theorem execPdStatus_keeps {a s : State} (h : Keeps a s) {v0 v1} :
    Keeps.out a (execPdStatus v0 v1 s) := by
  unfold execPdStatus
  repeat' first
    | with_reducible assumption | with_reducible apply Keeps.out_next
      | with_reducible apply Keeps.out_ite | with_reducible apply hostRow_keeps
      | with_reducible apply doPdStatus_keeps | with_reducible apply Keeps.ite
      | with_reducible apply Keeps.foldl
    | intro _

theorem execPdReplySet_keeps {a s : State} (h : Keeps a s) {v0 v1} :
    Keeps.out a (execPdReplySet v0 v1 s) := by
  unfold execPdReplySet
  repeat' first
    | with_reducible assumption | with_reducible apply Keeps.out_next
      | with_reducible apply Keeps.out_ite | with_reducible apply hostRow_keeps
      | with_reducible apply doPdReplySet_keeps | with_reducible apply Keeps.ite
      | with_reducible apply Keeps.foldl
    | intro _

theorem execPdSwap_keeps {a s : State} (h : Keeps a s) {v0 v1} :
    Keeps.out a (execPdSwap v0 v1 s) := by
  unfold execPdSwap
  repeat' first
    | with_reducible assumption | with_reducible apply Keeps.out_next
      | with_reducible apply Keeps.out_ite | with_reducible apply hostRow_keeps
      | with_reducible apply doPdSwap_keeps | with_reducible apply Keeps.ite
      | with_reducible apply Keeps.foldl
    | intro _

theorem execPdEpr_keeps {a s : State} (h : Keeps a s) {v0 v1} :
    Keeps.out a (execPdEpr v0 v1 s) := by
  unfold execPdEpr
  repeat' first
    | with_reducible assumption | with_reducible apply Keeps.out_next
      | with_reducible apply Keeps.out_ite | with_reducible apply hostRow_keeps
      | with_reducible apply doPdEpr_keeps | with_reducible apply Keeps.ite
      | with_reducible apply Keeps.foldl
    | intro _

theorem execPdBist_keeps {a s : State} (h : Keeps a s) {v0 v1} :
    Keeps.out a (execPdBist v0 v1 s) := by
  unfold execPdBist
  repeat' first
    | with_reducible assumption | with_reducible apply Keeps.out_next
      | with_reducible apply Keeps.out_ite | with_reducible apply hostRow_keeps
      | with_reducible apply doPdBist_keeps | with_reducible apply Keeps.ite
      | with_reducible apply Keeps.foldl
    | intro _

theorem execPdHardReset_keeps {a s : State} (h : Keeps a s) {v0 v1} :
    Keeps.out a (execPdHardReset v0 v1 s) := by
  unfold execPdHardReset
  repeat' first
    | with_reducible assumption | with_reducible apply Keeps.out_next
      | with_reducible apply Keeps.out_ite | with_reducible apply hostRow_keeps
      | with_reducible apply doPdHardReset_keeps | with_reducible apply Keeps.ite
      | with_reducible apply Keeps.foldl
    | intro _

theorem execPdCapsSet_keeps {a s : State} (h : Keeps a s) {v0 v1} :
    Keeps.out a (execPdCapsSet v0 v1 s) := by
  unfold execPdCapsSet
  repeat' first
    | with_reducible assumption | with_reducible apply Keeps.out_next
      | with_reducible apply Keeps.out_ite | with_reducible apply hostRow_keeps
      | with_reducible apply doPdCapsSet_keeps | with_reducible apply Keeps.ite
      | with_reducible apply Keeps.foldl
    | intro _

theorem execPdSend_keeps {a s : State} (h : Keeps a s) {v0 v1} :
    Keeps.out a (execPdSend v0 v1 s) := by
  unfold execPdSend
  repeat' first
    | with_reducible assumption | with_reducible apply Keeps.out_next
      | with_reducible apply Keeps.out_ite | with_reducible apply hostRow_keeps
      | with_reducible apply doPdSend_keeps | with_reducible apply Keeps.ite
      | with_reducible apply Keeps.foldl
    | intro _

theorem execPdAnswer_keeps {a s : State} (h : Keeps a s) {v0 v1} :
    Keeps.out a (execPdAnswer v0 v1 s) := by
  unfold execPdAnswer
  repeat' first
    | with_reducible assumption | with_reducible apply Keeps.out_next
      | with_reducible apply Keeps.out_ite | with_reducible apply hostRow_keeps
      | with_reducible apply doPdAnswer_keeps | with_reducible apply Keeps.ite
      | with_reducible apply Keeps.foldl
    | intro _

theorem execPdSoftReset_keeps {a s : State} (h : Keeps a s) {v0 v1} :
    Keeps.out a (execPdSoftReset v0 v1 s) := by
  unfold execPdSoftReset
  repeat' first
    | with_reducible assumption | with_reducible apply Keeps.out_next
      | with_reducible apply Keeps.out_ite | with_reducible apply hostRow_keeps
      | with_reducible apply doPdSoftReset_keeps | with_reducible apply Keeps.ite
      | with_reducible apply Keeps.foldl
    | intro _

theorem execPdReplyGet_keeps {a s : State} (h : Keeps a s) {v0 v1} :
    Keeps.out a (execPdReplyGet v0 v1 s) := by
  unfold execPdReplyGet
  repeat' first
    | with_reducible assumption | with_reducible apply Keeps.out_next
      | with_reducible apply Keeps.out_ite | with_reducible apply hostRow_keeps
      | with_reducible apply doPdReplyGet_keeps | with_reducible apply Keeps.ite
      | with_reducible apply Keeps.foldl
    | intro _

theorem execPdCableReset_keeps {a s : State} (h : Keeps a s) {v0 v1} :
    Keeps.out a (execPdCableReset v0 v1 s) := by
  unfold execPdCableReset
  repeat' first
    | with_reducible assumption | with_reducible apply Keeps.out_next
      | with_reducible apply Keeps.out_ite | with_reducible apply hostRow_keeps
      | with_reducible apply doPdCableReset_keeps | with_reducible apply Keeps.ite
      | with_reducible apply Keeps.foldl
    | intro _

theorem execFwStageData_keeps {a s : State} (h : Keeps a s) {v0 v1} :
    Keeps.out a (execFwStageData v0 v1 s) := by
  unfold execFwStageData
  repeat' first
    | with_reducible assumption | with_reducible apply Keeps.out_next
      | with_reducible apply Keeps.out_ite | with_reducible apply hostRow_keeps
      | with_reducible apply doFwStageData_keeps | with_reducible apply Keeps.ite
      | with_reducible apply Keeps.foldl
    | intro _

theorem execCfgWrite_keeps {a s : State} (h : Keeps a s) {v0 v1} :
    Keeps.out a (execCfgWrite v0 v1 s) := by
  unfold execCfgWrite
  repeat' first
    | with_reducible assumption | with_reducible apply Keeps.out_next
      | with_reducible apply Keeps.out_ite | with_reducible apply hostRow_keeps
      | with_reducible apply doCfgWrite_keeps | with_reducible apply Keeps.ite
      | with_reducible apply Keeps.foldl
    | intro _

theorem execCfgRead_keeps {a s : State} (h : Keeps a s) {v0 v1} :
    Keeps.out a (execCfgRead v0 v1 s) := by
  unfold execCfgRead
  repeat' first
    | with_reducible assumption | with_reducible apply Keeps.out_next
      | with_reducible apply Keeps.out_ite | with_reducible apply hostRow_keeps
      | with_reducible apply doCfgRead_keeps | with_reducible apply Keeps.ite
      | with_reducible apply Keeps.foldl
    | intro _

theorem execCalConfirm_keeps {a s : State} (h : Keeps a s) {v0 v1} :
    Keeps.out a (execCalConfirm v0 v1 s) := by
  unfold execCalConfirm
  repeat' first
    | with_reducible assumption | with_reducible apply Keeps.out_next
      | with_reducible apply Keeps.out_ite | with_reducible apply hostRow_keeps
      | with_reducible apply doCalConfirm_keeps | with_reducible apply Keeps.ite
      | with_reducible apply Keeps.foldl
    | intro _

theorem execCfgConfirm_keeps {a s : State} (h : Keeps a s) {v0 v1} :
    Keeps.out a (execCfgConfirm v0 v1 s) := by
  unfold execCfgConfirm
  repeat' first
    | with_reducible assumption | with_reducible apply Keeps.out_next
      | with_reducible apply Keeps.out_ite | with_reducible apply hostRow_keeps
      | with_reducible apply doCfgConfirm_keeps | with_reducible apply Keeps.ite
      | with_reducible apply Keeps.foldl
    | intro _

theorem execCalStatus_keeps {a s : State} (h : Keeps a s) {v0 v1} :
    Keeps.out a (execCalStatus v0 v1 s) := by
  unfold execCalStatus
  repeat' first
    | with_reducible assumption | with_reducible apply Keeps.out_next
      | with_reducible apply Keeps.out_ite | with_reducible apply hostRow_keeps
      | with_reducible apply doCalStatus_keeps | with_reducible apply Keeps.ite
      | with_reducible apply Keeps.foldl
    | intro _

theorem execCfgCommit_keeps {a s : State} (h : Keeps a s) {v0 v1} :
    Keeps.out a (execCfgCommit v0 v1 s) := by
  unfold execCfgCommit
  repeat' first
    | with_reducible assumption | with_reducible apply Keeps.out_next
      | with_reducible apply Keeps.out_ite | with_reducible apply hostRow_keeps
      | with_reducible apply doCfgCommit_keeps | with_reducible apply Keeps.ite
      | with_reducible apply Keeps.foldl
    | intro _

theorem execCfgPairSync_keeps {a s : State} (h : Keeps a s) {v0 v1} :
    Keeps.out a (execCfgPairSync v0 v1 s) := by
  unfold execCfgPairSync
  repeat' first
    | with_reducible assumption | with_reducible apply Keeps.out_next
      | with_reducible apply Keeps.out_ite | with_reducible apply hostRow_keeps
      | with_reducible apply doCfgPairSync_keeps | with_reducible apply Keeps.ite
      | with_reducible apply Keeps.foldl
    | intro _

theorem execCalRun_keeps {a s : State} (h : Keeps a s) {v0 v1} :
    Keeps.out a (execCalRun v0 v1 s) := by
  unfold execCalRun
  repeat' first
    | with_reducible assumption | with_reducible apply Keeps.out_next
      | with_reducible apply Keeps.out_ite | with_reducible apply hostRow_keeps
      | with_reducible apply doCalRun_keeps | with_reducible apply Keeps.ite
      | with_reducible apply Keeps.foldl
    | intro _

theorem execCfgStatus_keeps {a s : State} (h : Keeps a s) {v0 v1} :
    Keeps.out a (execCfgStatus v0 v1 s) := by
  unfold execCfgStatus
  repeat' first
    | with_reducible assumption | with_reducible apply Keeps.out_next
      | with_reducible apply Keeps.out_ite | with_reducible apply hostRow_keeps
      | with_reducible apply doCfgStatus_keeps | with_reducible apply Keeps.ite
      | with_reducible apply Keeps.foldl
    | intro _

theorem execFwActivate_keeps {a s : State} (h : Keeps a s) {v0 v1} :
    Keeps.out a (execFwActivate v0 v1 s) := by
  unfold execFwActivate
  repeat' first
    | with_reducible assumption | with_reducible apply Keeps.out_next
      | with_reducible apply Keeps.out_ite | with_reducible apply hostRow_keeps
      | with_reducible apply doFwActivate_keeps | with_reducible apply Keeps.ite
      | with_reducible apply Keeps.foldl
    | intro _

theorem execFwPairSync_keeps {a s : State} (h : Keeps a s) {v0 v1} :
    Keeps.out a (execFwPairSync v0 v1 s) := by
  unfold execFwPairSync
  repeat' first
    | with_reducible assumption | with_reducible apply Keeps.out_next
      | with_reducible apply Keeps.out_ite | with_reducible apply hostRow_keeps
      | with_reducible apply doFwPairSync_keeps | with_reducible apply Keeps.ite
      | with_reducible apply Keeps.foldl
    | intro _

theorem execCalRevert_keeps {a s : State} (h : Keeps a s) {v0 v1} :
    Keeps.out a (execCalRevert v0 v1 s) := by
  unfold execCalRevert
  repeat' first
    | with_reducible assumption | with_reducible apply Keeps.out_next
      | with_reducible apply Keeps.out_ite | with_reducible apply hostRow_keeps
      | with_reducible apply doCalRevert_keeps | with_reducible apply Keeps.ite
      | with_reducible apply Keeps.foldl
    | intro _

theorem execFwStatus_keeps {a s : State} (h : Keeps a s) {v0 v1} :
    Keeps.out a (execFwStatus v0 v1 s) := by
  unfold execFwStatus
  repeat' first
    | with_reducible assumption | with_reducible apply Keeps.out_next
      | with_reducible apply Keeps.out_ite | with_reducible apply hostRow_keeps
      | with_reducible apply doFwStatus_keeps | with_reducible apply Keeps.ite
      | with_reducible apply Keeps.foldl
    | intro _

theorem execCalSave_keeps {a s : State} (h : Keeps a s) {v0 v1} :
    Keeps.out a (execCalSave v0 v1 s) := by
  unfold execCalSave
  repeat' first
    | with_reducible assumption | with_reducible apply Keeps.out_next
      | with_reducible apply Keeps.out_ite | with_reducible apply hostRow_keeps
      | with_reducible apply doCalSave_keeps | with_reducible apply Keeps.ite
      | with_reducible apply Keeps.foldl
    | intro _

theorem execFwStageBegin_keeps {a s : State} (h : Keeps a s) {v0 v1} :
    Keeps.out a (execFwStageBegin v0 v1 s) := by
  unfold execFwStageBegin
  repeat' first
    | with_reducible assumption | with_reducible apply Keeps.out_next
      | with_reducible apply Keeps.out_ite | with_reducible apply hostRow_keeps
      | with_reducible apply doFwStageBegin_keeps | with_reducible apply Keeps.ite
      | with_reducible apply Keeps.foldl
    | intro _

theorem execCfgRevert_keeps {a s : State} (h : Keeps a s) {v0 v1} :
    Keeps.out a (execCfgRevert v0 v1 s) := by
  unfold execCfgRevert
  repeat' first
    | with_reducible assumption | with_reducible apply Keeps.out_next
      | with_reducible apply Keeps.out_ite | with_reducible apply hostRow_keeps
      | with_reducible apply doCfgRevert_keeps | with_reducible apply Keeps.ite
      | with_reducible apply Keeps.foldl
    | intro _

theorem execFwStageEnd_keeps {a s : State} (h : Keeps a s) {v0 v1} :
    Keeps.out a (execFwStageEnd v0 v1 s) := by
  unfold execFwStageEnd
  repeat' first
    | with_reducible assumption | with_reducible apply Keeps.out_next
      | with_reducible apply Keeps.out_ite | with_reducible apply hostRow_keeps
      | with_reducible apply doFwStageEnd_keeps | with_reducible apply Keeps.ite
      | with_reducible apply Keeps.foldl
    | intro _

theorem execEngineStatus_keeps {a s : State} (h : Keeps a s) {v0 v1} :
    Keeps.out a (execEngineStatus v0 v1 s) := by
  unfold execEngineStatus
  repeat' first
    | with_reducible assumption | with_reducible apply Keeps.out_next
      | with_reducible apply Keeps.out_ite | with_reducible apply hostRow_keeps
      | with_reducible apply doEngineStatus_keeps | with_reducible apply Keeps.ite
      | with_reducible apply Keeps.foldl
    | intro _

theorem execRegRead_keeps {a s : State} (h : Keeps a s) {v0 v1} :
    Keeps.out a (execRegRead v0 v1 s) := by
  unfold execRegRead
  repeat' first
    | with_reducible assumption | with_reducible apply Keeps.out_next
      | with_reducible apply Keeps.out_ite | with_reducible apply hostRow_keeps
      | with_reducible apply doRegRead_keeps | with_reducible apply Keeps.ite
      | with_reducible apply Keeps.foldl
    | intro _

theorem execOtpProgram_keeps {a s : State} (h : Keeps a s) {v0 v1} :
    Keeps.out a (execOtpProgram v0 v1 s) := by
  unfold execOtpProgram
  repeat' first
    | with_reducible assumption | with_reducible apply Keeps.out_next
      | with_reducible apply Keeps.out_ite | with_reducible apply hostRow_keeps
      | with_reducible apply doOtpProgram_keeps | with_reducible apply Keeps.ite
      | with_reducible apply Keeps.foldl
    | intro _

theorem execLcAdvance_keeps {a s : State} (h : Keeps a s) {v0 v1} :
    Keeps.out a (execLcAdvance v0 v1 s) := by
  unfold execLcAdvance
  repeat' first
    | with_reducible assumption | with_reducible apply Keeps.out_next
      | with_reducible apply Keeps.out_ite | with_reducible apply hostRow_keeps
      | with_reducible apply doLcAdvance_keeps | with_reducible apply Keeps.ite
      | with_reducible apply Keeps.foldl
    | intro _

theorem execRegWrite_keeps {a s : State} (h : Keeps a s) {v0 v1} :
    Keeps.out a (execRegWrite v0 v1 s) := by
  unfold execRegWrite
  repeat' first
    | with_reducible assumption | with_reducible apply Keeps.out_next
      | with_reducible apply Keeps.out_ite | with_reducible apply hostRow_keeps
      | with_reducible apply doRegWrite_keeps | with_reducible apply Keeps.ite
      | with_reducible apply Keeps.foldl
    | intro _

theorem execOtpStatus_keeps {a s : State} (h : Keeps a s) {v0 v1} :
    Keeps.out a (execOtpStatus v0 v1 s) := by
  unfold execOtpStatus
  repeat' first
    | with_reducible assumption | with_reducible apply Keeps.out_next
      | with_reducible apply Keeps.out_ite | with_reducible apply hostRow_keeps
      | with_reducible apply doOtpStatus_keeps | with_reducible apply Keeps.ite
      | with_reducible apply Keeps.foldl
    | intro _

theorem execOtpRead_keeps {a s : State} (h : Keeps a s) {v0 v1} :
    Keeps.out a (execOtpRead v0 v1 s) := by
  unfold execOtpRead
  repeat' first
    | with_reducible assumption | with_reducible apply Keeps.out_next
      | with_reducible apply Keeps.out_ite | with_reducible apply hostRow_keeps
      | with_reducible apply doOtpRead_keeps | with_reducible apply Keeps.ite
      | with_reducible apply Keeps.foldl
    | intro _

theorem execMemRead_keeps {a s : State} (h : Keeps a s) {v0 v1} :
    Keeps.out a (execMemRead v0 v1 s) := by
  unfold execMemRead
  repeat' first
    | with_reducible assumption | with_reducible apply Keeps.out_next
      | with_reducible apply Keeps.out_ite | with_reducible apply hostRow_keeps
      | with_reducible apply doMemRead_keeps | with_reducible apply Keeps.ite
      | with_reducible apply Keeps.foldl
    | intro _

theorem execOtpLock_keeps {a s : State} (h : Keeps a s) {v0 v1} :
    Keeps.out a (execOtpLock v0 v1 s) := by
  unfold execOtpLock
  repeat' first
    | with_reducible assumption | with_reducible apply Keeps.out_next
      | with_reducible apply Keeps.out_ite | with_reducible apply hostRow_keeps
      | with_reducible apply doOtpLock_keeps | with_reducible apply Keeps.ite
      | with_reducible apply Keeps.foldl
    | intro _

theorem execMemWrite_keeps {a s : State} (h : Keeps a s) {v0 v1} :
    Keeps.out a (execMemWrite v0 v1 s) := by
  unfold execMemWrite
  repeat' first
    | with_reducible assumption | with_reducible apply Keeps.out_next
      | with_reducible apply Keeps.out_ite | with_reducible apply hostRow_keeps
      | with_reducible apply doMemWrite_keeps | with_reducible apply Keeps.ite
      | with_reducible apply Keeps.foldl
    | intro _

theorem execInterruptEntry_keeps {a s : State} (h : Keeps a s) {v0} :
    Keeps.out a (execInterruptEntry v0 s) := by
  unfold execInterruptEntry
  repeat' first
    | with_reducible assumption | with_reducible apply Keeps.out_next
      | with_reducible apply Keeps.out_ite | with_reducible apply takeIrq_keeps

theorem execEi_keeps {a s : State} (h : Keeps a s) {v0 v1} : Keeps.out a (execEi v0 v1 s) := by
  unfold execEi
  repeat' first
    | with_reducible assumption | with_reducible apply Keeps.out_next
      | with_reducible apply Keeps.out_ite | with_reducible apply issue_keeps

theorem execTxload_keeps {a s : State} (h : Keeps a s) {v0 v1} :
    Keeps.out a (execTxload v0 v1 s) := by
  unfold execTxload
  repeat' first
    | with_reducible assumption | with_reducible apply Keeps.out_next
      | with_reducible apply Keeps.out_ite | with_reducible apply issue_keeps

theorem execBclr_keeps {a s : State} (h : Keeps a s) {v0 v1 v2 v3} :
    Keeps.out a (execBclr v0 v1 v2 v3 s) := by
  unfold execBclr
  repeat' first
    | with_reducible assumption | with_reducible apply Keeps.out_next
      | with_reducible apply Keeps.out_ite | with_reducible apply issue_keeps

theorem execPadd_keeps {a s : State} (h : Keeps a s) {v0 v1 v2 v3} :
    Keeps.out a (execPadd v0 v1 v2 v3 s) := by
  unfold execPadd
  repeat' first
    | with_reducible assumption | with_reducible apply Keeps.out_next
      | with_reducible apply Keeps.out_ite | with_reducible apply issue_keeps

theorem execSata_keeps {a s : State} (h : Keeps a s) {v0 v1} : Keeps.out a (execSata v0 v1 s) := by
  unfold execSata
  repeat' first
    | with_reducible assumption | with_reducible apply Keeps.out_next
      | with_reducible apply Keeps.out_ite | with_reducible apply issue_keeps

theorem execShl_keeps {a s : State} (h : Keeps a s) {v0 v1 v2} :
    Keeps.out a (execShl v0 v1 v2 s) := by
  unfold execShl
  repeat' first
    | with_reducible assumption | with_reducible apply Keeps.out_next
      | with_reducible apply Keeps.out_ite | with_reducible apply issue_keeps

theorem execLdip_keeps {a s : State} (h : Keeps a s) {v0 v1 v2} :
    Keeps.out a (execLdip v0 v1 v2 s) := by
  unfold execLdip
  repeat' first
    | with_reducible assumption | with_reducible apply Keeps.out_next
      | with_reducible apply Keeps.out_ite | with_reducible apply issue_keeps

theorem execAdda_keeps {a s : State} (h : Keeps a s) {v0 v1 v2} :
    Keeps.out a (execAdda v0 v1 v2 s) := by
  unfold execAdda
  repeat' first
    | with_reducible assumption | with_reducible apply Keeps.out_next
      | with_reducible apply Keeps.out_ite | with_reducible apply issue_keeps

theorem execRda_keeps {a s : State} (h : Keeps a s) {v0 v1 v2 v3} :
    Keeps.out a (execRda v0 v1 v2 v3 s) := by
  unfold execRda
  repeat' first
    | with_reducible assumption | with_reducible apply Keeps.out_next
      | with_reducible apply Keeps.out_ite | with_reducible apply issue_keeps

theorem execRol_keeps {a s : State} (h : Keeps a s) {v0 v1 v2} :
    Keeps.out a (execRol v0 v1 v2 s) := by
  unfold execRol
  repeat' first
    | with_reducible assumption | with_reducible apply Keeps.out_next
      | with_reducible apply Keeps.out_ite | with_reducible apply issue_keeps

theorem execWtick_keeps {a s : State} (h : Keeps a s) {v0 v1} :
    Keeps.out a (execWtick v0 v1 s) := by
  unfold execWtick
  repeat' first
    | with_reducible assumption | with_reducible apply Keeps.out_next
      | with_reducible apply Keeps.out_ite | with_reducible apply issue_keeps

theorem execPcmpi_keeps {a s : State} (h : Keeps a s) {v0 v1 v2} :
    Keeps.out a (execPcmpi v0 v1 v2 s) := by
  unfold execPcmpi
  repeat' first
    | with_reducible assumption | with_reducible apply Keeps.out_next
      | with_reducible apply Keeps.out_ite | with_reducible apply issue_keeps

theorem execInc_keeps {a s : State} (h : Keeps a s) {v0 v1 v2} :
    Keeps.out a (execInc v0 v1 v2 s) := by
  unfold execInc
  repeat' first
    | with_reducible assumption | with_reducible apply Keeps.out_next
      | with_reducible apply Keeps.out_ite | with_reducible apply issue_keeps

theorem execXori_keeps {a s : State} (h : Keeps a s) {v0 v1 v2} :
    Keeps.out a (execXori v0 v1 v2 s) := by
  unfold execXori
  repeat' first
    | with_reducible assumption | with_reducible apply Keeps.out_next
      | with_reducible apply Keeps.out_ite | with_reducible apply issue_keeps

theorem execIdrst_keeps {a s : State} (h : Keeps a s) {v0 v1} :
    Keeps.out a (execIdrst v0 v1 s) := by
  unfold execIdrst
  repeat' first
    | with_reducible assumption | with_reducible apply Keeps.out_next
      | with_reducible apply Keeps.out_ite | with_reducible apply issue_keeps

theorem execCallp_keeps {a s : State} (h : Keeps a s) {v0 v1} :
    Keeps.out a (execCallp v0 v1 s) := by
  unfold execCallp
  repeat' first
    | with_reducible assumption | with_reducible apply Keeps.out_next
      | with_reducible apply Keeps.out_ite | with_reducible apply issue_keeps

theorem execWra_keeps {a s : State} (h : Keeps a s) {v0 v1 v2 v3} :
    Keeps.out a (execWra v0 v1 v2 v3 s) := by
  unfold execWra
  repeat' first
    | with_reducible assumption | with_reducible apply Keeps.out_next
      | with_reducible apply Keeps.out_ite | with_reducible apply issue_keeps

theorem execCmpi_keeps {a s : State} (h : Keeps a s) {v0 v1 v2} :
    Keeps.out a (execCmpi v0 v1 v2 s) := by
  unfold execCmpi
  repeat' first
    | with_reducible assumption | with_reducible apply Keeps.out_next
      | with_reducible apply Keeps.out_ite | with_reducible apply issue_keeps

theorem execSbc_keeps {a s : State} (h : Keeps a s) {v0 v1 v2 v3} :
    Keeps.out a (execSbc v0 v1 v2 v3 s) := by
  unfold execSbc
  repeat' first
    | with_reducible assumption | with_reducible apply Keeps.out_next
      | with_reducible apply Keeps.out_ite | with_reducible apply issue_keeps

theorem execRep_keeps {a s : State} (h : Keeps a s) {v0 v1 v2} :
    Keeps.out a (execRep v0 v1 v2 s) := by
  unfold execRep
  repeat' first
    | with_reducible assumption | with_reducible apply Keeps.out_next
      | with_reducible apply Keeps.out_ite | with_reducible apply atIssue_keeps
      | with_reducible apply issueRep_keeps | with_reducible apply Keeps.ite
      | with_reducible apply Keeps.foldl
    | intro _

theorem execSt_keeps {a s : State} (h : Keeps a s) {v0 v1 v2} :
    Keeps.out a (execSt v0 v1 v2 s) := by
  unfold execSt
  repeat' first
    | with_reducible assumption | with_reducible apply Keeps.out_next
      | with_reducible apply Keeps.out_ite | with_reducible apply issue_keeps

theorem execAsr_keeps {a s : State} (h : Keeps a s) {v0 v1 v2} :
    Keeps.out a (execAsr v0 v1 v2 s) := by
  unfold execAsr
  repeat' first
    | with_reducible assumption | with_reducible apply Keeps.out_next
      | with_reducible apply Keeps.out_ite | with_reducible apply issue_keeps

theorem execRor_keeps {a s : State} (h : Keeps a s) {v0 v1 v2} :
    Keeps.out a (execRor v0 v1 v2 s) := by
  unfold execRor
  repeat' first
    | with_reducible assumption | with_reducible apply Keeps.out_next
      | with_reducible apply Keeps.out_ite | with_reducible apply issue_keeps

theorem execBset_keeps {a s : State} (h : Keeps a s) {v0 v1 v2 v3} :
    Keeps.out a (execBset v0 v1 v2 v3 s) := by
  unfold execBset
  repeat' first
    | with_reducible assumption | with_reducible apply Keeps.out_next
      | with_reducible apply Keeps.out_ite | with_reducible apply issue_keeps

theorem execMovp_keeps {a s : State} (h : Keeps a s) {v0 v1 v2 v3 v4 v5} :
    Keeps.out a (execMovp v0 v1 v2 v3 v4 v5 s) := by
  unfold execMovp
  repeat' first
    | with_reducible assumption | with_reducible apply Keeps.out_next
      | with_reducible apply Keeps.out_ite | with_reducible apply issue_keeps

theorem execMacu_keeps {a s : State} (h : Keeps a s) {v0 v1 v2 v3} :
    Keeps.out a (execMacu v0 v1 v2 v3 s) := by
  unfold execMacu
  repeat' first
    | with_reducible assumption | with_reducible apply Keeps.out_next
      | with_reducible apply Keeps.out_ite | with_reducible apply issue_keeps

theorem execSubi_keeps {a s : State} (h : Keeps a s) {v0 v1 v2} :
    Keeps.out a (execSubi v0 v1 v2 s) := by
  unfold execSubi
  repeat' first
    | with_reducible assumption | with_reducible apply Keeps.out_next
      | with_reducible apply Keeps.out_ite | with_reducible apply issue_keeps

theorem execCall_keeps {a s : State} (h : Keeps a s) {v0 v1} : Keeps.out a (execCall v0 v1 s) := by
  unfold execCall
  repeat' first
    | with_reducible assumption | with_reducible apply Keeps.out_next
      | with_reducible apply Keeps.out_ite | with_reducible apply issue_keeps

theorem execCrcm_keeps {a s : State} (h : Keeps a s) {v0 v1 v2 v3} :
    Keeps.out a (execCrcm v0 v1 v2 v3 s) := by
  unfold execCrcm
  repeat' first
    | with_reducible assumption | with_reducible apply Keeps.out_next
      | with_reducible apply Keeps.out_ite | with_reducible apply issue_keeps

theorem execJmpp_keeps {a s : State} (h : Keeps a s) {v0 v1} : Keeps.out a (execJmpp v0 v1 s) := by
  unfold execJmpp
  repeat' first
    | with_reducible assumption | with_reducible apply Keeps.out_next
      | with_reducible apply Keeps.out_ite | with_reducible apply issue_keeps

theorem execLoop_keeps {a s : State} (h : Keeps a s) {v0 v1 v2} :
    Keeps.out a (execLoop v0 v1 v2 s) := by
  unfold execLoop
  repeat' first
    | with_reducible assumption | with_reducible apply Keeps.out_next
      | with_reducible apply Keeps.out_ite | with_reducible apply issue_keeps

theorem execEccc_keeps {a s : State} (h : Keeps a s) {v0 v1 v2} :
    Keeps.out a (execEccc v0 v1 v2 s) := by
  unfold execEccc
  repeat' first
    | with_reducible assumption | with_reducible apply Keeps.out_next
      | with_reducible apply Keeps.out_ite | with_reducible apply issue_keeps

theorem execAddi_keeps {a s : State} (h : Keeps a s) {v0 v1 v2} :
    Keeps.out a (execAddi v0 v1 v2 s) := by
  unfold execAddi
  repeat' first
    | with_reducible assumption | with_reducible apply Keeps.out_next
      | with_reducible apply Keeps.out_ite | with_reducible apply issue_keeps

theorem execBr_keeps {a s : State} (h : Keeps a s) {v0 v1} : Keeps.out a (execBr v0 v1 s) := by
  unfold execBr
  repeat' first
    | with_reducible assumption | with_reducible apply Keeps.out_next
      | with_reducible apply Keeps.out_ite | with_reducible apply issue_keeps

theorem execMulsu_keeps {a s : State} (h : Keeps a s) {v0 v1 v2 v3} :
    Keeps.out a (execMulsu v0 v1 v2 v3 s) := by
  unfold execMulsu
  repeat' first
    | with_reducible assumption | with_reducible apply Keeps.out_next
      | with_reducible apply Keeps.out_ite | with_reducible apply issue_keeps

theorem execNot_keeps {a s : State} (h : Keeps a s) {v0 v1 v2} :
    Keeps.out a (execNot v0 v1 v2 s) := by
  unfold execNot
  repeat' first
    | with_reducible assumption | with_reducible apply Keeps.out_next
      | with_reducible apply Keeps.out_ite | with_reducible apply issue_keeps

theorem execAndi_keeps {a s : State} (h : Keeps a s) {v0 v1 v2} :
    Keeps.out a (execAndi v0 v1 v2 s) := by
  unfold execAndi
  repeat' first
    | with_reducible assumption | with_reducible apply Keeps.out_next
      | with_reducible apply Keeps.out_ite | with_reducible apply issue_keeps

theorem execPsub_keeps {a s : State} (h : Keeps a s) {v0 v1 v2 v3} :
    Keeps.out a (execPsub v0 v1 v2 v3 s) := by
  unfold execPsub
  repeat' first
    | with_reducible assumption | with_reducible apply Keeps.out_next
      | with_reducible apply Keeps.out_ite | with_reducible apply issue_keeps

theorem execTxgo_keeps {a s : State} (h : Keeps a s) {v0 v1} : Keeps.out a (execTxgo v0 v1 s) := by
  unfold execTxgo
  repeat' first
    | with_reducible assumption | with_reducible apply Keeps.out_next
      | with_reducible apply Keeps.out_ite | with_reducible apply issue_keeps

theorem execMov_keeps {a s : State} (h : Keeps a s) {v0 v1 v2 v3} :
    Keeps.out a (execMov v0 v1 v2 v3 s) := by
  unfold execMov
  repeat' first
    | with_reducible assumption | with_reducible apply Keeps.out_next
      | with_reducible apply Keeps.out_ite | with_reducible apply issue_keeps

theorem execAdc_keeps {a s : State} (h : Keeps a s) {v0 v1 v2 v3} :
    Keeps.out a (execAdc v0 v1 v2 v3 s) := by
  unfold execAdc
  repeat' first
    | with_reducible assumption | with_reducible apply Keeps.out_next
      | with_reducible apply Keeps.out_ite | with_reducible apply issue_keeps

theorem execPcpy_keeps {a s : State} (h : Keeps a s) {v0 v1 v2} :
    Keeps.out a (execPcpy v0 v1 v2 s) := by
  unfold execPcpy
  repeat' first
    | with_reducible assumption | with_reducible apply Keeps.out_next
      | with_reducible apply Keeps.out_ite | with_reducible apply issue_keeps

theorem execSub_keeps {a s : State} (h : Keeps a s) {v0 v1 v2 v3} :
    Keeps.out a (execSub v0 v1 v2 v3 s) := by
  unfold execSub
  repeat' first
    | with_reducible assumption | with_reducible apply Keeps.out_next
      | with_reducible apply Keeps.out_ite | with_reducible apply issue_keeps

theorem execOr_keeps {a s : State} (h : Keeps a s) {v0 v1 v2 v3} :
    Keeps.out a (execOr v0 v1 v2 v3 s) := by
  unfold execOr
  repeat' first
    | with_reducible assumption | with_reducible apply Keeps.out_next
      | with_reducible apply Keeps.out_ite | with_reducible apply issue_keeps

theorem execRlc_keeps {a s : State} (h : Keeps a s) {v0 v1 v2} :
    Keeps.out a (execRlc v0 v1 v2 s) := by
  unfold execRlc
  repeat' first
    | with_reducible assumption | with_reducible apply Keeps.out_next
      | with_reducible apply Keeps.out_ite | with_reducible apply issue_keeps

theorem execBtst_keeps {a s : State} (h : Keeps a s) {v0 v1 v2 v3} :
    Keeps.out a (execBtst v0 v1 v2 v3 s) := by
  unfold execBtst
  repeat' first
    | with_reducible assumption | with_reducible apply Keeps.out_next
      | with_reducible apply Keeps.out_ite | with_reducible apply issue_keeps

theorem execDi_keeps {a s : State} (h : Keeps a s) {v0 v1} : Keeps.out a (execDi v0 v1 s) := by
  unfold execDi
  repeat' first
    | with_reducible assumption | with_reducible apply Keeps.out_next
      | with_reducible apply Keeps.out_ite | with_reducible apply issue_keeps

theorem execMovi_keeps {a s : State} (h : Keeps a s) {v0 v1 v2 v3} :
    Keeps.out a (execMovi v0 v1 v2 v3 s) := by
  unfold execMovi
  repeat' first
    | with_reducible assumption | with_reducible apply Keeps.out_next
      | with_reducible apply Keeps.out_ite | with_reducible apply issue_keeps

theorem execLdi_keeps {a s : State} (h : Keeps a s) {v0 v1 v2} :
    Keeps.out a (execLdi v0 v1 v2 s) := by
  unfold execLdi
  repeat' first
    | with_reducible assumption | with_reducible apply Keeps.out_next
      | with_reducible apply Keeps.out_ite | with_reducible apply issue_keeps

theorem execShr_keeps {a s : State} (h : Keeps a s) {v0 v1 v2} :
    Keeps.out a (execShr v0 v1 v2 s) := by
  unfold execShr
  repeat' first
    | with_reducible assumption | with_reducible apply Keeps.out_next
      | with_reducible apply Keeps.out_ite | with_reducible apply issue_keeps

theorem execBtgl_keeps {a s : State} (h : Keeps a s) {v0 v1 v2 v3} :
    Keeps.out a (execBtgl v0 v1 v2 v3 s) := by
  unfold execBtgl
  repeat' first
    | with_reducible assumption | with_reducible apply Keeps.out_next
      | with_reducible apply Keeps.out_ite | with_reducible apply issue_keeps

theorem execLd_keeps {a s : State} (h : Keeps a s) {v0 v1 v2} :
    Keeps.out a (execLd v0 v1 v2 s) := by
  unfold execLd
  repeat' first
    | with_reducible assumption | with_reducible apply Keeps.out_next
      | with_reducible apply Keeps.out_ite | with_reducible apply issue_keeps

theorem execTxstat_keeps {a s : State} (h : Keeps a s) {v0 v1} :
    Keeps.out a (execTxstat v0 v1 s) := by
  unfold execTxstat
  repeat' first
    | with_reducible assumption | with_reducible apply Keeps.out_next
      | with_reducible apply Keeps.out_ite | with_reducible apply issue_keeps

theorem execMacm_keeps {a s : State} (h : Keeps a s) {v0 v1 v2 v3} :
    Keeps.out a (execMacm v0 v1 v2 v3 s) := by
  unfold execMacm
  repeat' first
    | with_reducible assumption | with_reducible apply Keeps.out_next
      | with_reducible apply Keeps.out_ite | with_reducible apply issue_keeps

theorem execCrcr_keeps {a s : State} (h : Keeps a s) {v0 v1 v2} :
    Keeps.out a (execCrcr v0 v1 v2 s) := by
  unfold execCrcr
  repeat' first
    | with_reducible assumption | with_reducible apply Keeps.out_next
      | with_reducible apply Keeps.out_ite | with_reducible apply issue_keeps

theorem execPaddi_keeps {a s : State} (h : Keeps a s) {v0 v1 v2} :
    Keeps.out a (execPaddi v0 v1 v2 s) := by
  unfold execPaddi
  repeat' first
    | with_reducible assumption | with_reducible apply Keeps.out_next
      | with_reducible apply Keeps.out_ite | with_reducible apply issue_keeps

theorem execMovs_keeps {a s : State} (h : Keeps a s) {v0 v1 v2} :
    Keeps.out a (execMovs v0 v1 v2 s) := by
  unfold execMovs
  repeat' first
    | with_reducible assumption | with_reducible apply Keeps.out_next
      | with_reducible apply Keeps.out_ite | with_reducible apply issue_keeps

theorem execFrstx_keeps {a s : State} (h : Keeps a s) {v0} : Keeps.out a (execFrstx v0 s) := by
  unfold execFrstx
  repeat' first
    | with_reducible assumption | with_reducible apply Keeps.out_next
      | with_reducible apply Keeps.out_ite | with_reducible apply issue_keeps

theorem execMul_keeps {a s : State} (h : Keeps a s) {v0 v1 v2 v3} :
    Keeps.out a (execMul v0 v1 v2 v3 s) := by
  unfold execMul
  repeat' first
    | with_reducible assumption | with_reducible apply Keeps.out_next
      | with_reducible apply Keeps.out_ite | with_reducible apply issue_keeps

theorem execCrcb_keeps {a s : State} (h : Keeps a s) {v0 v1} : Keeps.out a (execCrcb v0 v1 s) := by
  unfold execCrcb
  repeat' first
    | with_reducible assumption | with_reducible apply Keeps.out_next
      | with_reducible apply Keeps.out_ite | with_reducible apply issue_keeps

theorem execTstop_keeps {a s : State} (h : Keeps a s) {v0 v1} :
    Keeps.out a (execTstop v0 v1 s) := by
  unfold execTstop
  repeat' first
    | with_reducible assumption | with_reducible apply Keeps.out_next
      | with_reducible apply Keeps.out_ite | with_reducible apply issue_keeps

theorem execOri_keeps {a s : State} (h : Keeps a s) {v0 v1 v2} :
    Keeps.out a (execOri v0 v1 v2 s) := by
  unfold execOri
  repeat' first
    | with_reducible assumption | with_reducible apply Keeps.out_next
      | with_reducible apply Keeps.out_ite | with_reducible apply issue_keeps

theorem execRrc_keeps {a s : State} (h : Keeps a s) {v0 v1 v2} :
    Keeps.out a (execRrc v0 v1 v2 s) := by
  unfold execRrc
  repeat' first
    | with_reducible assumption | with_reducible apply Keeps.out_next
      | with_reducible apply Keeps.out_ite | with_reducible apply issue_keeps

theorem execEccg_keeps {a s : State} (h : Keeps a s) {v0 v1 v2} :
    Keeps.out a (execEccg v0 v1 v2 s) := by
  unfold execEccg
  repeat' first
    | with_reducible assumption | with_reducible apply Keeps.out_next
      | with_reducible apply Keeps.out_ite | with_reducible apply issue_keeps

theorem execReti_keeps {a s : State} (h : Keeps a s) {v0 v1} : Keeps.out a (execReti v0 v1 s) := by
  unfold execReti
  repeat' first
    | with_reducible assumption | with_reducible apply Keeps.out_next
      | with_reducible apply Keeps.out_ite | with_reducible apply issue_keeps

theorem execCrci_keeps {a s : State} (h : Keeps a s) {v0 v1} : Keeps.out a (execCrci v0 v1 s) := by
  unfold execCrci
  repeat' first
    | with_reducible assumption | with_reducible apply Keeps.out_next
      | with_reducible apply Keeps.out_ite | with_reducible apply issue_keeps

theorem execMovts_keeps {a s : State} (h : Keeps a s) {v0 v1 v2} :
    Keeps.out a (execMovts v0 v1 v2 s) := by
  unfold execMovts
  repeat' first
    | with_reducible assumption | with_reducible apply Keeps.out_next
      | with_reducible apply Keeps.out_ite | with_reducible apply issue_keeps

theorem execSwapn_keeps {a s : State} (h : Keeps a s) {v0 v1 v2} :
    Keeps.out a (execSwapn v0 v1 v2 s) := by
  unfold execSwapn
  repeat' first
    | with_reducible assumption | with_reducible apply Keeps.out_next
      | with_reducible apply Keeps.out_ite | with_reducible apply issue_keeps

theorem execSha_keeps {a s : State} (h : Keeps a s) {v0 v1 v2} :
    Keeps.out a (execSha v0 v1 v2 s) := by
  unfold execSha
  repeat' first
    | with_reducible assumption | with_reducible apply Keeps.out_next
      | with_reducible apply Keeps.out_ite | with_reducible apply issue_keeps

theorem execOrdset_keeps {a s : State} (h : Keeps a s) {v0 v1} :
    Keeps.out a (execOrdset v0 v1 s) := by
  unfold execOrdset
  repeat' first
    | with_reducible assumption | with_reducible apply Keeps.out_next
      | with_reducible apply Keeps.out_ite | with_reducible apply issue_keeps

theorem execNeg_keeps {a s : State} (h : Keeps a s) {v0 v1 v2} :
    Keeps.out a (execNeg v0 v1 v2 s) := by
  unfold execNeg
  repeat' first
    | with_reducible assumption | with_reducible apply Keeps.out_next
      | with_reducible apply Keeps.out_ite | with_reducible apply issue_keeps

theorem execXor_keeps {a s : State} (h : Keeps a s) {v0 v1 v2 v3} :
    Keeps.out a (execXor v0 v1 v2 v3 s) := by
  unfold execXor
  repeat' first
    | with_reducible assumption | with_reducible apply Keeps.out_next
      | with_reducible apply Keeps.out_ite | with_reducible apply issue_keeps

theorem execNop_keeps {a s : State} (h : Keeps a s) {v0 v1} : Keeps.out a (execNop v0 v1 s) := by
  unfold execNop
  repeat' first
    | with_reducible assumption | with_reducible apply Keeps.out_next
      | with_reducible apply Keeps.out_ite | with_reducible apply issue_keeps

theorem execTstart_keeps {a s : State} (h : Keeps a s) {v0 v1} :
    Keeps.out a (execTstart v0 v1 s) := by
  unfold execTstart
  repeat' first
    | with_reducible assumption | with_reducible apply Keeps.out_next
      | with_reducible apply Keeps.out_ite | with_reducible apply issue_keeps

theorem execClr_keeps {a s : State} (h : Keeps a s) {v0 v1 v2} :
    Keeps.out a (execClr v0 v1 v2 s) := by
  unfold execClr
  repeat' first
    | with_reducible assumption | with_reducible apply Keeps.out_next
      | with_reducible apply Keeps.out_ite | with_reducible apply issue_keeps

theorem execStw_keeps {a s : State} (h : Keeps a s) {v0 v1 v2} :
    Keeps.out a (execStw v0 v1 v2 s) := by
  unfold execStw
  repeat' first
    | with_reducible assumption | with_reducible apply Keeps.out_next
      | with_reducible apply Keeps.out_ite | with_reducible apply issue_keeps

theorem execRxpop_keeps {a s : State} (h : Keeps a s) {v0 v1 v2} :
    Keeps.out a (execRxpop v0 v1 v2 s) := by
  unfold execRxpop
  repeat' first
    | with_reducible assumption | with_reducible apply Keeps.out_next
      | with_reducible apply Keeps.out_ite | with_reducible apply issue_keeps

theorem execBank_keeps {a s : State} (h : Keeps a s) {v0 v1} : Keeps.out a (execBank v0 v1 s) := by
  unfold execBank
  repeat' first
    | with_reducible assumption | with_reducible apply Keeps.out_next
      | with_reducible apply Keeps.out_ite | with_reducible apply issue_keeps

theorem execBrk_keeps {a s : State} (h : Keeps a s) {v0 v1} : Keeps.out a (execBrk v0 v1 s) := by
  unfold execBrk
  repeat' first
    | with_reducible assumption | with_reducible apply Keeps.out_next
      | with_reducible apply Keeps.out_ite | with_reducible apply issue_keeps

theorem execMulu_keeps {a s : State} (h : Keeps a s) {v0 v1 v2 v3} :
    Keeps.out a (execMulu v0 v1 v2 v3 s) := by
  unfold execMulu
  repeat' first
    | with_reducible assumption | with_reducible apply Keeps.out_next
      | with_reducible apply Keeps.out_ite | with_reducible apply issue_keeps

theorem execDec_keeps {a s : State} (h : Keeps a s) {v0 v1 v2} :
    Keeps.out a (execDec v0 v1 v2 s) := by
  unfold execDec
  repeat' first
    | with_reducible assumption | with_reducible apply Keeps.out_next
      | with_reducible apply Keeps.out_ite | with_reducible apply issue_keeps

theorem execClra_keeps {a s : State} (h : Keeps a s) {v0 v1} : Keeps.out a (execClra v0 v1 s) := by
  unfold execClra
  repeat' first
    | with_reducible assumption | with_reducible apply Keeps.out_next
      | with_reducible apply Keeps.out_ite | with_reducible apply issue_keeps

theorem execTst_keeps {a s : State} (h : Keeps a s) {v0 v1 v2 v3} :
    Keeps.out a (execTst v0 v1 v2 v3 s) := by
  unfold execTst
  repeat' first
    | with_reducible assumption | with_reducible apply Keeps.out_next
      | with_reducible apply Keeps.out_ite | with_reducible apply issue_keeps

theorem execMacsu_keeps {a s : State} (h : Keeps a s) {v0 v1 v2 v3} :
    Keeps.out a (execMacsu v0 v1 v2 v3 s) := by
  unfold execMacsu
  repeat' first
    | with_reducible assumption | with_reducible apply Keeps.out_next
      | with_reducible apply Keeps.out_ite | with_reducible apply issue_keeps

theorem execLdw_keeps {a s : State} (h : Keeps a s) {v0 v1 v2} :
    Keeps.out a (execLdw v0 v1 v2 s) := by
  unfold execLdw
  repeat' first
    | with_reducible assumption | with_reducible apply Keeps.out_next
      | with_reducible apply Keeps.out_ite | with_reducible apply issue_keeps

theorem execTread_keeps {a s : State} (h : Keeps a s) {v0 v1 v2 v3} :
    Keeps.out a (execTread v0 v1 v2 v3 s) := by
  unfold execTread
  repeat' first
    | with_reducible assumption | with_reducible apply Keeps.out_next
      | with_reducible apply Keeps.out_ite | with_reducible apply issue_keeps

theorem execAnd_keeps {a s : State} (h : Keeps a s) {v0 v1 v2 v3} :
    Keeps.out a (execAnd v0 v1 v2 v3 s) := by
  unfold execAnd
  repeat' first
    | with_reducible assumption | with_reducible apply Keeps.out_next
      | with_reducible apply Keeps.out_ite | with_reducible apply issue_keeps

theorem execCmp_keeps {a s : State} (h : Keeps a s) {v0 v1 v2 v3} :
    Keeps.out a (execCmp v0 v1 v2 v3 s) := by
  unfold execCmp
  repeat' first
    | with_reducible assumption | with_reducible apply Keeps.out_next
      | with_reducible apply Keeps.out_ite | with_reducible apply issue_keeps

theorem execAdd_keeps {a s : State} (h : Keeps a s) {v0 v1 v2 v3} :
    Keeps.out a (execAdd v0 v1 v2 v3 s) := by
  unfold execAdd
  repeat' first
    | with_reducible assumption | with_reducible apply Keeps.out_next
      | with_reducible apply Keeps.out_ite | with_reducible apply issue_keeps

theorem execRet_keeps {a s : State} (h : Keeps a s) {v0 v1} : Keeps.out a (execRet v0 v1 s) := by
  unfold execRet
  repeat' first
    | with_reducible assumption | with_reducible apply Keeps.out_next
      | with_reducible apply Keeps.out_ite | with_reducible apply issue_keeps

theorem execMac_keeps {a s : State} (h : Keeps a s) {v0 v1 v2 v3} :
    Keeps.out a (execMac v0 v1 v2 v3 s) := by
  unfold execMac
  repeat' first
    | with_reducible assumption | with_reducible apply Keeps.out_next
      | with_reducible apply Keeps.out_ite | with_reducible apply issue_keeps

theorem execLpop_keeps {a s : State} (h : Keeps a s) {v0 v1} : Keeps.out a (execLpop v0 v1 s) := by
  unfold execLpop
  repeat' first
    | with_reducible assumption | with_reducible apply Keeps.out_next
      | with_reducible apply Keeps.out_ite | with_reducible apply issue_keeps

theorem execTickEdge_keeps {a s : State} (h : Keeps a s) {v0} :
    Keeps.out a (execTickEdge v0 s) := by
  unfold execTickEdge
  repeat' first
    | with_reducible assumption | with_reducible apply Keeps.out_next
      | with_reducible apply Keeps.out_ite | with_reducible apply tickEdge_keeps

end Sys2Proof.Machine
end

