-- ==== Sys2Proof/WellFormed.lean ====
section
/-!
DEFINITION. When the operands of a command are of the form the spec gives them. The types bound every
index and every field already; the checks here are on the lists. A meaning is total all the same: it
answers for ill-formed operands too.
-/
namespace Sys2Proof

/-- A transaction carries at most one packet: 6 header bytes, 1,024 parameter bytes and 4 CRC bytes
(R300). -/
def spiOk (bytes : List Byte) : Bool := decide (bytes.length ≤ 1034)

/-- A command's parameters (R300). -/
def paramsOk (ps : List Byte) : Bool := decide (ps.length ≤ 1024)

/-- 128 data words and the control row (R426). -/
def otpOk (l : List (BitVec 64)) : Bool := decide (l.length = 129)

/-- A mirror record is 64 bytes (R268). -/
def recordOk (l : List (BitVec 64)) : Bool := decide (l.length = 8)

/-- The harbour state is 24 words (R270). -/
def harbourOk (l : List (BitVec 64)) : Bool := decide (l.length = 24)

/-- A bulk message has at most 55 payload words (R272). -/
def bulkOk (m : BulkMsg) : Bool := decide (m.words.length ≤ 55)

/-- A channel 2 message: whole words, at most 55, with the transfer word's KIND (R455). -/
def transferOk (kind : Nat) (m : List Byte) : Bool :=
  decide (8 ≤ m.length) && decide (m.length ≤ 440) && decide (m.length % 8 = 0) &&
    decide ((m.headD 0).toNat = kind)

/-- A packet whose coding, CRC and length are good has a 2-byte header and up to 28 bytes of data that the
header counts (R128, R132). -/
def packetOk (k : PacketIn) : Bool :=
  !k.good || decide (2 ≤ k.bytes.length) && decide (k.bytes.length ≤ 30) &&
    decide (k.bytes.length = 2 + 4 * bits (ofBytes (k.bytes.take 2)) 14 12)

/-- A memory of R413 as WEIR_ECC.UMEM codes it; an engine meets uncorrectable words only. -/
def memErrOk (x : MemErr) : Bool :=
  let m := x.mem.toNat
  (decide (m ≤ 0x10) || decide (0x20 ≤ m ∧ m ≤ 0x30) || decide (0x40 ≤ m ∧ m ≤ 0x45) ||
    decide (0x50 ≤ m ∧ m ≤ 0x60)) && (x.bad || x.reader.isNone)

/-- An access covers 1 byte, or up to the widest register (R9). -/
def accessOk (n : Nat) : Bool := decide (1 ≤ n) && decide (n ≤ 8)

/-- The operands have the form the spec gives them. -/
def Instr.wellFormed : Instr → Bool
  | .spiWrite bytes => spiOk bytes
  | .spiRead _ => true
  | .spiReread => true
  | .spiStatus => true
  | .spiSingle => true
  | .hostNop _ ps => paramsOk ps
  | .unitInfo _ ps => paramsOk ps
  | .unitStatus _ ps => paramsOk ps
  | .unitProfile _ ps => paramsOk ps
  | .hostLinkSet _ ps => paramsOk ps
  | .indicatorSet _ ps => paramsOk ps
  | .unitReset _ ps => paramsOk ps
  | .resetAfterHandover => true
  | .quadSet _ ps => paramsOk ps
  | .quadStatus _ ps => paramsOk ps
  | .portEnable _ ps => paramsOk ps
  | .portDisable _ ps => paramsOk ps
  | .portStatus _ ps => paramsOk ps
  | .portMeasure _ ps => paramsOk ps
  | .portSet _ ps => paramsOk ps
  | .portGet _ ps => paramsOk ps
  | .portRecover _ ps => paramsOk ps
  | .pdCapsSet _ ps => paramsOk ps
  | .pdReplySet _ ps => paramsOk ps
  | .pdAnswer _ ps => paramsOk ps
  | .pdSend _ ps => paramsOk ps
  | .pdSwap _ ps => paramsOk ps
  | .pdEpr _ ps => paramsOk ps
  | .pdSoftReset _ ps => paramsOk ps
  | .pdHardReset _ ps => paramsOk ps
  | .pdCableReset _ ps => paramsOk ps
  | .pdBist _ ps => paramsOk ps
  | .pdStatus _ ps => paramsOk ps
  | .pdReplyGet _ ps => paramsOk ps
  | .modeMapSet _ ps => paramsOk ps
  | .muxSet _ ps => paramsOk ps
  | .muxStatus _ ps => paramsOk ps
  | .pairStatus _ ps => paramsOk ps
  | .pairHandover _ ps => paramsOk ps
  | .pairWithdraw _ ps => paramsOk ps
  | .pairRebalance _ ps => paramsOk ps
  | .pairRetrain _ ps => paramsOk ps
  | .pairCfgSet _ ps => paramsOk ps
  | .weirStatus _ ps => paramsOk ps
  | .weirClear _ ps => paramsOk ps
  | .weirClassSet _ ps => paramsOk ps
  | .weirForce _ ps => paramsOk ps
  | .wdgStatus _ ps => paramsOk ps
  | .cntConfig _ ps => paramsOk ps
  | .cntRead _ ps => paramsOk ps
  | .cntClear _ ps => paramsOk ps
  | .logMark _ ps => paramsOk ps
  | .logRead _ ps => paramsOk ps
  | .logStatus _ ps => paramsOk ps
  | .cfgWrite _ ps => paramsOk ps
  | .cfgCommit _ ps => paramsOk ps
  | .cfgConfirm _ ps => paramsOk ps
  | .cfgRevert _ ps => paramsOk ps
  | .cfgStatus _ ps => paramsOk ps
  | .cfgRead _ ps => paramsOk ps
  | .cfgPairSync _ ps => paramsOk ps
  | .calRun _ ps => paramsOk ps
  | .calSave _ ps => paramsOk ps
  | .calConfirm _ ps => paramsOk ps
  | .calRevert _ ps => paramsOk ps
  | .calStatus _ ps => paramsOk ps
  | .fwStageBegin _ ps => paramsOk ps
  | .fwStageData _ ps => paramsOk ps
  | .fwStageEnd _ ps => paramsOk ps
  | .fwActivate _ ps => paramsOk ps
  | .fwStatus _ ps => paramsOk ps
  | .fwPairSync _ ps => paramsOk ps
  | .otpRead _ ps => paramsOk ps
  | .otpProgram _ ps => paramsOk ps
  | .otpLock _ ps => paramsOk ps
  | .otpStatus _ ps => paramsOk ps
  | .lcAdvance _ ps => paramsOk ps
  | .regRead _ ps => paramsOk ps
  | .regWrite _ ps => paramsOk ps
  | .memRead _ ps => paramsOk ps
  | .memWrite _ ps => paramsOk ps
  | .engineStatus _ ps => paramsOk ps
  | .presenceStatus _ ps => paramsOk ps
  | .timeBind _ ps => paramsOk ps
  | .timeRead _ ps => paramsOk ps
  | .presenceEnd _ ps => paramsOk ps
  | .tickEdge i => i.memErrs.all memErrOk && decide (i.quads.length ≤ 4)
  | .energyJudgement _ => true
  | .conversionComplete _ _ _ => true
  | .calibrationEnd _ => true
  | .eddySelfTrim _ _ => true
  | .eddyCheckFail => true
  | .hardTrip _ => true
  | .limitEntry _ => true
  | .reverseCurrentBlock _ => true
  | .vbusOvTrip _ => true
  | .comparatorOutputChange _ _ _ => true
  | .frsSourceTurnOn _ => true
  | .frsSignalDetected _ => true
  | .ccOvervoltage _ => true
  | .vconnOvercurrent _ => true
  | .vconnInputUndervoltage _ => true
  | .referenceDivergence _ => true
  | .vdrvUndervoltage => true
  | .dieOverTemperature _ => true
  | .feedLost _ _ _ => true
  | .quadBusUndervoltage _ _ => true
  | .junctionReverseTurnOff _ _ => true
  | .dbOffRise => true
  | .powerOnReset => true
  | .supplyInvalid _ => true
  | .resetNAssert => true
  | .strapSampling _ => true
  | .pllLock => true
  | .refok => true
  | .refokTimeout => true
  | .otpBootRead normal strict => otpOk normal && otpOk strict
  | .bootComplete => true
  | .bootPairWindowExpiry => true
  | .formationEdge => true
  | .syncEdgeReceived _ => true
  | .syncHeartbeatReceived _ => true
  | .listenTimeExpiry => true
  | .syncLockAcquired => true
  | .syncMasterLost => true
  | .skewFault => true
  | .mirrorFreeze _ => true
  | .mirrorRecordReceive _ words _ => recordOk words
  | .harbourStateApply words => harbourOk words
  | .superframeTrailer _ => true
  | .linkTrainingTimeout => true
  | .laneLoss _ => true
  | .bulkMessageReceive m => bulkOk m
  | .bulkRetransmit => true
  | .transferOpen m => transferOk 1 m
  | .transferData m => transferOk 2 m
  | .transferClose m => transferOk 3 m && decide (m.length = 40)
  | .transferResult m => transferOk 4 m && decide (m.length = 8)
  | .heartbeatLost => true
  | .takeoverFirstOwnedEdge => true
  | .releaseTake _ => true
  | .handoverCommit => true
  | .handoverSwitch => true
  | .handoverKeptRelease => true
  | .rebalanceDelayExpiry => true
  | .profileChangeEdge => true
  | .timeBindTargetEdge => true
  | .packetReceived _ k => packetOk k
  | .goodcrcReceived _ _ _ => true
  | .hardResetReceived _ => true
  | .cableResetReceived _ => true
  | .packetTransmitStart _ => true
  | .packetTransmitEnd _ => true
  | .frsSignalEnd _ => true
  | .pdMessageParse _ => true
  | .crcReceiveTimerExpiry _ => true
  | .senderResponseTimeout _ => true
  | .answerTimerExpiry _ => true
  | .chunkTimerExpiry _ _ => true
  | .sourceCapabilityTimeout _ => true
  | .sinkWaitCapTimeout _ => true
  | .psTransitionTimeout _ _ => true
  | .noResponseTimeout _ => true
  | .hardResetCompleteTimeout _ => true
  | .discoverIdentityTimeout _ => true
  | .vdmResponseTimeout _ => true
  | .vdmModeEntryTimeout _ => true
  | .bistContModeTimeout _ => true
  | .sinkEprEnterTimeout _ => true
  | .sinkEprKeepaliveTimeout _ => true
  | .sourceEprKeepaliveTimeout _ => true
  | .sinkPpsPeriodicTimeout _ => true
  | .sourcePpsCommTimeout _ => true
  | .heldMessageTimeout _ => true
  | .drpShareEnd _ => true
  | .ccDebounceExpiry _ => true
  | .pdDebounceExpiry _ => true
  | .tryCcDebounceExpiry _ => true
  | .drpTryExpiry _ => true
  | .tryTimeoutExpiry _ => true
  | .errorRecoveryExpiry _ => true
  | .srcDisconnectExpiry _ => true
  | .sinkTxWaitExpiry _ => true
  | .contractTransitionStep _ => true
  | .srcReadyTimeout _ => true
  | .sinkTransitionStep _ => true
  | .snkNewPowerExpiry _ => true
  | .ppsCurrentLimitStep _ => true
  | .prSwapStep _ => true
  | .srcTransitionExpiry _ => true
  | .psSourceOffTimeout _ => true
  | .psSourceOnTimeout _ => true
  | .vconnSwapStep _ => true
  | .vconnOnTimeout _ => true
  | .vconnSourceOnExpiry _ => true
  | .frsSwapStep _ => true
  | .hardResetSequenceStep _ => true
  | .psHardResetExpiry _ => true
  | .srcRecoverExpiry _ => true
  | .sinkHardResetTimeout _ => true
  | .modeHoldRelease _ => true
  | .offMinElapsed _ => true
  | .quietElapsed _ => true
  | .gateRiseTimeout _ => true
  | .gateStuckOn _ => true
  | .limitTimeCap _ => true
  | .fixedTimerExpiry _ => true
  | .dischargeTimeout _ => true
  | .regulatorStartTimeout _ => true
  | .pmbusTransactionComplete _ _ => true
  | .pmbusTransactionFail _ => true
  | .pmbusArbitrationLost _ => true
  | .statusWordPoll _ => true
  | .pmbusAlert _ => true
  | .watchdogExpiry _ => true
  | .rillHoldExpired _ => true
  | .weirQuietElapsed _ => true
  | .weirReleaseWindowClose _ => true
  | .weirEventWindowClose _ _ => true
  | .faultNPulseEnd => true
  | .mailboxStall _ => true
  | .presenceLevelConfirmed _ => true
  | .presenceWindowEnd => true
  | .logRecordWrite => true
  | .flashOperationComplete => true
  | .configApplyEdge => true
  | .confirmWindowExpiry => true
  | .calTrialExpiry => true
  | .engineExchange _ => true
  | .ehExchange => true
  | .ehExchangeRelease => true
  | .interruptEntry _ => true
  | .nop _ _ => true
  | .mov _ _ _ _ => true
  | .add _ _ _ _ => true
  | .adc _ _ _ _ => true
  | .sub _ _ _ _ => true
  | .sbc _ _ _ _ => true
  | .and _ _ _ _ => true
  | .or _ _ _ _ => true
  | .xor _ _ _ _ => true
  | .cmp _ _ _ _ => true
  | .tst _ _ _ _ => true
  | .movi _ _ _ _ => true
  | .addi _ _ _ => true
  | .cmpi _ _ _ => true
  | .shl _ _ _ => true
  | .shr _ _ _ => true
  | .asr _ _ _ => true
  | .rol _ _ _ => true
  | .ror _ _ _ => true
  | .rlc _ _ _ => true
  | .rrc _ _ _ => true
  | .not _ _ _ => true
  | .neg _ _ _ => true
  | .inc _ _ _ => true
  | .dec _ _ _ => true
  | .swapn _ _ _ => true
  | .clr _ _ _ => true
  | .bset _ _ _ _ => true
  | .bclr _ _ _ _ => true
  | .btst _ _ _ _ => true
  | .btgl _ _ _ _ => true
  | .ld _ _ _ => true
  | .st _ _ _ => true
  | .ldw _ _ _ => true
  | .stw _ _ _ => true
  | .padd _ _ _ _ => true
  | .psub _ _ _ _ => true
  | .movp _ _ _ _ _ _ => true
  | .br _ _ => true
  | .wtick _ _ => true
  | .ret _ _ => true
  | .reti _ _ => true
  | .ei _ _ => true
  | .di _ _ => true
  | .lpop _ _ => true
  | .brk _ _ => true
  | .ldi _ _ _ => true
  | .subi _ _ _ => true
  | .andi _ _ _ => true
  | .ori _ _ _ => true
  | .xori _ _ _ => true
  | .bank _ _ => true
  | .ldip _ _ _ => true
  | .paddi _ _ _ => true
  | .pcmpi _ _ _ => true
  | .pcpy _ _ _ => true
  | .call _ _ => true
  | .jmpp _ _ => true
  | .callp _ _ => true
  | .loop _ _ _ => true
  | .rep _ _ _ => true
  | .movs _ _ _ => true
  | .movts _ _ _ => true
  | .rxpop _ _ _ => true
  | .txload _ _ => true
  | .txgo _ _ => true
  | .txstat _ _ => true
  | .ordset _ _ => true
  | .tstart _ _ => true
  | .tstop _ _ => true
  | .tread _ _ _ _ => true
  | .idrst _ _ => true
  | .frstx _ => true
  | .clra _ _ => true
  | .mul _ _ _ _ => true
  | .mulu _ _ _ _ => true
  | .mulsu _ _ _ _ => true
  | .mac _ _ _ _ => true
  | .macu _ _ _ _ => true
  | .macsu _ _ _ _ => true
  | .macm _ _ _ _ => true
  | .sha _ _ _ => true
  | .adda _ _ _ => true
  | .sata _ _ => true
  | .rda _ _ _ _ => true
  | .wra _ _ _ _ => true
  | .crci _ _ => true
  | .crcb _ _ => true
  | .crcm _ _ _ _ => true
  | .crcr _ _ _ => true
  | .eccg _ _ _ => true
  | .eccc _ _ _ => true
  | .mbxPush _ _ _ => true
  | .mbxPop _ _ => true
  | .mbxAck _ _ _ => true
  | .mbxAckinRead _ _ => true
  | .lockTake _ _ => true
  | .lockRelease _ _ _ => true
  | .mirrorCommit _ => true
  | .wdgCheckIn _ _ => true
  | .wdgService _ _ => true
  | .weirPrecWrite _ _ => true
  | .weirUrecWrite _ => true
  | .faultNRelease => true
  | .eddyStart _ => true
  | .swapRequest _ => true
  | .flashWindowPlace _ => true
  | .forceErrorRecovery _ => true
  | .forceDisabled _ => true
  | .forceLeaveDisabled _ => true
  | .rolesw _ => true
  | .limWrite _ _ => true
  | .otpCtlReadNormal _ => true
  | .otpCtlReadStrict _ => true
  | .otpCtlProgram _ => true
  | .otpCtlLock _ => true
  | .otpCtlLcAdvance _ => true
  | .pairCtlGive _ => true
  | .pairCtlTake _ => true
  | .pairCtlRetrain => true
  | .pairCtlWithdraw => true
  | .pairCtlRebal => true
  | .cntCtlClear _ => true
  | .tickCountRead _ => true
  | .rcRegisterRead _ size => accessOk size
  | .registerWrite _ _ bytes => accessOk bytes.length
  | .ccScanComparison _ _ _ _ _ => true
  | .muxbusSlot _ => true
  | .dbOffFall => true
  | .vdrvInvalid => true
  | .vdrvValid => true
  | .vconnInputRecovered _ => true
  | .otpOperationComplete _ _ => true
  | .tapTckEdge _ _ _ => true

end Sys2Proof
end

