-- ==== Sys2Proof/Tests/Slice0.lean ====
section
/-!
SUPPORT. The model's own tests: an ill-formed command for each check of WellFormed, one step of each
family on a small state with the result the spec gives, words of the engines' instruction set written out
from the encodings of chapter 12, and for every statement of the obligations states and operands that meet
its hypotheses.
-/
set_option maxRecDepth 100000
set_option Elab.async false

namespace Sys2Proof.Tests
open Sys2Proof Sys2Proof.Machine Sys2Proof.Machine.State

/-! ## Small states -/

/-- A unit that has booted and owns no port. -/
def unit : State := { State.reset with boot := { State.reset.boot with phase := .run } }

/-- A unit that has booted and owns every port. -/
def owner : State := unit.fset PAIR_ST.OWN 0 0xFFFF

/-- A unit of a pair, at position A, with ports 0 to 7. -/
def paired : State := (unit.fset PAIR_ST.POS 0 1).fset PAIR_ST.OWN 0 0xFF

/-- A port unit with the engines running and the first word's registers resident. -/
def running : State := (owner.onEngine 0 fun g => { g with run := .running }).onEngine 16 fun g =>
  { g with run := .running }

/-- Port 0 attached as a source with the link running. -/
def source : State := (owner.fset PRT_ATTST.STATE 0 7).fset PRT_ROLE.PWR 0 1

/-- Port 0 attached as a sink with the link running. -/
def sink : State := (source.fset PRT_ATTST.STATE 0 4).fset PRT_ROLE.PWR 0 0

/-- Presence granted. -/
def present (s : State) : State := s.fset DEV_PRES.GRANT 0 1

/-- The packet of the command of `op` with tag 1. -/
def pkt (op : Nat) (ps : List Byte) : Packet := packetOf op 1 ps

/-- An edge after the waiting packets were accepted. -/
def ripe (s : State) : State :=
  let old := fun (q : List Packet) => q.map fun k => { k with late := true }
  { s with host := { s.host with urgent := old s.host.urgent, fast := old s.host.fast, slow := old s.host.slow } }

/-- The state in which the command of `op` waits. -/
def front (op : Nat) (ps : List Byte) (s : State) : State :=
  if s.waits (pkt op ps) then s else ripe (s.frontEnd (pkt op ps) 0)

/-- The state in which the command's own meaning is judged. -/
def taken (op : Nat) (ps : List Byte) (s : State) : State := (front op ps s).takeUp (pkt op ps)

/-- It is the command's turn. -/
def turn (op : Nat) (ps : List Byte) (s : State) : Bool :=
  let f := front op ps s
  f.booted && f.waits (pkt op ps) && f.upNext (pkt op ps) && (taken op ps s).hostLife op ps

theorem served {op : Nat} {ps : List Byte} {s : State} (h : turn op ps s = true) :
    Served op 1 ps (front op ps s) (taken op ps s) := by
  simp only [turn, Bool.and_eq_true] at h
  exact ⟨h.1.1.1, h.1.1.2, h.1.2, rfl, h.2⟩

/-- The conditions of `Ready` as one Bool. -/
def readyFor (s : State) (e : Nat) (w : IWord) : Bool :=
  decide ((s.engine e).run = .running) && !s.irqDue e && decide ((s.engine e).pc < bankWords e) &&
    w.legal e (s.engine e).bank

theorem ready {s : State} {e : Nat} {w : IWord} (h : readyFor s e w = true) : Ready s e w := by
  simp only [readyFor, Bool.and_eq_true, decide_eq_true_eq, Bool.not_eq_true'] at h
  exact ⟨h.1.1.1, h.1.1.2, h.1.2, h.2⟩

/-- A word of zeros in the other slot: a NOP. -/
def slotA : Slot := ⟨true, 0⟩
def slotB : Slot := ⟨false, 0⟩

/-- The outcome is a next state for which `p` holds. -/
def nextIs (o : Host.Outcome State Fault Refusal) (p : State → Bool) : Bool :=
  match o with
  | .next t => p t
  | _ => false

/-! ## Ill-formed operands are refused by the checks of WellFormed -/

theorem test_wf_spi : (Instr.spiWrite (List.replicate 1035 0)).wellFormed = false := by decide
theorem test_wf_params : (Instr.hostNop 1 (List.replicate 1025 0)).wellFormed = false := by decide
theorem test_wf_otp : (Instr.otpBootRead (List.replicate 128 0) (List.replicate 129 0)).wellFormed = false := by
  decide
theorem test_wf_record : (Instr.mirrorRecordReceive 0 [0, 0, 0] true).wellFormed = false := by decide
theorem test_wf_harbour : (Instr.harbourStateApply (List.replicate 23 0)).wellFormed = false := by decide
theorem test_wf_bulk :
    (Instr.bulkMessageReceive ⟨true, 0, 0, 0, false, 0, List.replicate 56 0⟩).wellFormed = false := by decide
theorem test_wf_transfer_kind : (Instr.transferOpen [2, 0, 0, 0, 0, 0, 0, 0]).wellFormed = false := by decide
theorem test_wf_transfer_close : (Instr.transferClose [3, 0, 0, 0, 0, 0, 0, 0]).wellFormed = false := by decide
theorem test_wf_transfer_result :
    (Instr.transferResult ([4, 0, 0, 0, 0, 0, 0, 0] ++ List.replicate 8 0)).wellFormed = false := by decide
theorem test_wf_packet : (Instr.packetReceived 0 ⟨0, true, [0, 0x10, 0, 0]⟩).wellFormed = false := by decide
theorem test_wf_memory : memErrOk ⟨0x61, 0, true, none⟩ = false := by decide
theorem test_wf_access : (Instr.rcRegisterRead 0 9).wellFormed = false := by decide
theorem test_wf_ok : (Instr.packetReceived 0 ⟨0, true, [0x41, 0x10, 1, 2, 3, 4]⟩).wellFormed = true := by decide

/-- A corrected flash word: its location, and source 45 (R413). -/
theorem test_memory_corrected : (let t := unit.memError ⟨0x45, 0x1234, false, none⟩
    (t.fget WEIR_ECC.CMEM 0, t.fget WEIR_ECC.CADDR 0, t.fget WEIR_ECC.UMEM 0, bit (t.fget WEIR_USTK.STK 0) 45)) =
    (0x45, 0x1234, 0xFF, true) := by decide +kernel

/-- An uncorrectable word that E0 loads from its data memory: the trap of cause 4 (R352, R413). -/
theorem test_memory_trap :
    (let g := (running.memError ⟨0, 0x20, true, some (0, 0, 0x100)⟩).engine 0
     (g.tcause, g.tval, g.tbank, g.pc)) = (4, 0x100, 0, 4) := by decide +kernel

/-! ## Words of the instruction set, bit by bit from the encodings of R355 to R362 -/

/-- MOV w1, w2 with ADD w3, w4. -/
theorem test_word_mov_add : decodeWord 0x04220864#32 =
    .pair (.alu .mov 1 2) (.alu .add 3 4) := by decide

/-- SUB w8, BANK with TST ZR, FLG. -/
theorem test_word_sub_tst : decodeWord 0x11182B99#32 =
    .pair (.alu .sub 8 24) (.alu .tst 28 25) := by decide

/-- ADDI w0, #-16 with CMPI w15, #31. -/
theorem test_word_addi_cmpi : decodeWord 0x301035FF#32 =
    .pair (.addi 0 16) (.cmpi 15 31) := by decide

/-- RRC w5 with BTST w6, #3. -/
theorem test_word_rrc_btst : decodeWord 0x38A63CD3#32 =
    .pair (.unary .rrc 5) (.bits .btst 6 3) := by decide

/-- PSUB p3, w7 with MOVP p5.h from w2. -/
theorem test_word_psub_movp : decodeWord 0x49674C5B#32 =
    .pair (.padd true 3 7) (.movp 2 true 5 true) := by decide

/-- NOP with BR EQ, offset -2. -/
theorem test_word_br : decodeWord 0x0000523E#32 =
    .pair .nop (.br 1 62) := by decide

/-- NOP with RETI. -/
theorem test_word_reti : decodeWord 0x00007C02#32 =
    .pair .nop (.sys .reti) := by decide

/-- XORI w9, #0x5A. -/
theorem test_word_xori : decodeWord 0x8548005A#32 =
    .long (.imm .xori 9 0x5A) := by decide

/-- PADDI p6, #-1. -/
theorem test_word_paddi : decodeWord 0x89C0FFFF#32 =
    .long (.paddi 6 0xFFFF) := by decide

/-- LDW p2, (p1 - 4096) in space 3. -/
theorem test_word_ldw : decodeWord 0x92117000#32 =
    .long (.ldw 2 (.disp 1 3 0x1000)) := by decide

/-- ST w4 to address 0xBEEF in space 1. -/
theorem test_word_stabs : decodeWord 0x9521BEEF#32 =
    .long (.st 4 (.abs 1 0xBEEF)) := by decide

/-- BR SLE to word 0x7FFF. -/
theorem test_word_brlong : decodeWord 0x98E07FFF#32 =
    .long (.br 14 0x7FFF) := by decide

/-- CALL word 0x1234. -/
theorem test_word_call : decodeWord 0x99001234#32 =
    .long (.call 0x1234) := by decide

/-- LOOP p5, end 7. -/
theorem test_word_loopp : decodeWord 0xA1A00007#32 =
    .long (.loop (.ptr 5) 7) := by decide

/-- REP w3. -/
theorem test_word_repreg : decodeWord 0xA3180000#32 =
    .long (.rep (.reg 3)) := by decide

/-- MOVTS special register 0x05, p4. -/
theorem test_word_movts : decodeWord 0xA9800005#32 =
    .long (.movts 4 5) := by decide

/-- TREAD p2, w9, timer 19. -/
theorem test_word_tread : decodeWord 0xE1D26600#32 =
    .long (.tread 2 9 19) := by decide

/-- TXGO #2. -/
theorem test_word_txgo : decodeWord 0xE0800100#32 =
    .long (.txgo 2) := by decide

/-- MACU A1, p3, p6. -/
theorem test_word_macu : decodeWord 0xE94BC000#32 =
    .long (.mul .uu true true 3 6) := by decide

/-- ADDA A0, A1. -/
theorem test_word_adda : decodeWord 0xEA401000#32 =
    .long (.adda false true) := by decide

/-- SHA A1, #-3. -/
theorem test_word_sha : decodeWord 0xEA0807A0#32 =
    .long (.sha true 61) := by decide

/-- CRCM (p1)+, #4095 in local memory. -/
theorem test_word_crcm : decodeWord 0xF0882FFF#32 =
    .long (.crcm true 1 4095) := by decide

/-- ECCC w6, (p7). -/
theorem test_word_eccc : decodeWord 0xF1798000#32 =
    .long (.eccc 6 7) := by decide

/-- CP 3 is unassigned, REG 29 is no register, and TXGO with SEL 3 is illegal. -/
theorem test_word_illegal : (decodeWord 0xF8000000#32).legal 0 0 = false ∧
    (decodeWord 0x80E80000#32).legal 0 0 = false ∧ (decodeWord 0xE0800180#32).legal 0 0 = false ∧
    (decodeWord 0x50200000#32).legal 0 0 = false := by decide

/-! ## One step of each family, with the result worked out from the rule named -/

/-- R299, R302: with boot complete, nothing waiting and no tag in flight the status byte reads 32. -/
theorem test_status_free : nextIs (exec .spiStatus unit) (fun t => t.host.out == [0x20]) = true := by decide

/-- R304: NOP's reply has status SUCCESS. -/
theorem test_nop_reply :
    nextIs (exec (.hostNop 1 []) (front 0x00 [] unit)) (fun t => t.host.entries.map (·.status) == [0]) = true := by decide

/-- R355: 200 + 100 = 300 = 256 + 44, so 44 with C set and N, Z, V clear (200 is −56, and −56 + 100 = 44). -/
theorem test_add_carry : nextIs (exec (.add 0 slotA 1 2) (running.onEngine 0 fun g => (g.setReg 1 200).setReg 2 100))
    (fun t => (t.engine 0).reg 1 == 44 && (t.engine 0).psw == 1 && (t.engine 0).pc == 1) = true := by decide

/-- R355: 5 − 7 = −2, so 254 with borrow and N set. -/
theorem test_sub_borrow : nextIs (exec (.sub 3 slotB 1 2) (running.onEngine 3 fun g =>
      ({ g with run := .running }.setReg 1 5).setReg 2 7))
    (fun t => (t.engine 3).reg 1 == 254 && (t.engine 3).psw == 5) = true := by decide

/-- R355: 127 + 1 = 128 sets N and V and leaves C, which INC does not touch. -/
theorem test_inc_overflow : nextIs (exec (.inc 0 slotA 4) (running.onEngine 0 fun g =>
      { g.setReg 4 127 with psw := 1 })) (fun t => (t.engine 0).reg 4 == 128 && (t.engine 0).psw == 13) = true := by
  decide

/-- R355: both slots read the values before the word, so a pair of MOVs exchanges two registers. -/
theorem test_pair_exchange : nextIs (exec (.mov 0 ⟨true, 0x0441⟩ 1 2) (running.onEngine 0 fun g =>
      (g.setReg 1 11).setReg 2 22)) (fun t => (t.engine 0).reg 1 == 22 && (t.engine 0).reg 2 == 11) = true := by
  decide

/-- R341: a loaded byte is not visible to the next word, and is to the one after. -/
theorem test_load_delay : nextIs (exec (.ld 0 1 (.long (.disp 0 0 5))) ((running.memPut 0 5 0xAB).onEngine 0
      fun g => g.setReg 1 7)) (fun t => (t.engine 0).reg 1 == 7 && nextIs (exec (.nop 0 slotA) t)
        (fun u => (u.engine 0).reg 1 == 0xAB)) = true := by decide

/-- R341: a word is stored little-endian. -/
theorem test_store_word : nextIs (exec (.stw 0 2 (.disp 0 0 6)) (running.onEngine 0 fun g => g.setPtr 2 0x1234))
    (fun t => t.memGet 0 6 == 0x34 && t.memGet 0 7 == 0x12 && t.memGet 0 8 == 0) = true := by decide

/-- R355: a branch with offset −2 from word 10 goes to word 9 in 2 cycles. -/
theorem test_branch_back : nextIs (exec (.br 0 (.short slotB 0 62)) (running.onEngine 0 fun g => { g with pc := 10 }))
    (fun t => (t.engine 0).pc == 9 && (t.engine 0).cyc == 2) = true := by decide

/-- R344: CALL from word 0x0123 leaves 0x0124 in w6 and w7 of the new window. -/
theorem test_call_link : nextIs (exec (.call 0 0x200) (running.onEngine 0 fun g => { g with pc := 0x123 }))
    (fun t => (t.engine 0).pc == 0x200 && (t.engine 0).reg 6 == 0x24 && (t.engine 0).reg 7 == 0x01) = true := by
  decide

/-- R361: −2 times 3 is −6, 0xFFFFFFFFFA in 40 bits. -/
theorem test_mul_signed : nextIs (exec (.mul 0 false 1 2) (running.onEngine 0 fun g =>
      (g.setPtr 1 0xFFFE).setPtr 2 3)) (fun t => (t.engine 0).a0 == 0xFFFFFFFFFA) = true := by decide

/-- R362: CRC-32 over "123456789" read out is 0xCBF43926. -/
theorem test_crc32_check : nextIs (exec (.crcm 0 true 1 9) (running.memWrite 0 0
      [0x31, 0x32, 0x33, 0x34, 0x35, 0x36, 0x37, 0x38, 0x39])) (fun t =>
    nextIs (exec (.crcr 0 2 false) t) fun u => (u.engine 0).ptr 2 == 0x3926 &&
      nextIs (exec (.crcr 0 3 true) u) fun v => (v.engine 0).ptr 3 == 0xCBF4) = true := by decide

/-- R352: BRK traps with cause 8, saves the next word's address and goes to word 4. -/
theorem test_brk_trap : nextIs (exec (.brk 0 slotB) (running.onEngine 0 fun g => { g with pc := 0x40 }))
    (fun t => (t.engine 0).tcause == 8 && (t.engine 0).tpc == 0x41 && (t.engine 0).pc == 4) = true := by decide

/-- R347: a loop of count 0 goes behind its end. -/
theorem test_loop_zero : nextIs (exec (.loop 0 (.imm 0) 3) running) (fun t => (t.engine 0).pc == 4) = true := by
  decide

/-- R360: with nothing received RXPOP writes 0xE0. -/
theorem test_rxpop_empty : nextIs (exec (.rxpop 0 0 5) running) (fun t => (t.engine 0).reg 5 == 0xE0) = true := by
  decide

/-- R389: a free lock is taken by engine 4 as requester 5. -/
theorem test_lock_take : nextIs (exec (.lockTake 4 0xA06) unit) (fun t => t.lockOwner 3 == 5) = true := by decide

/-- R414: a wrong key sets BADKEY. -/
theorem test_watchdog_key : nextIs (exec (.wdgService 2 0x5B) unit) (fun t => t.fon WDG_ST.BADKEY 2) = true := by
  decide

/-- Chapter 14: index 50 of the unit is not in use, and a write of it changes nothing. -/
theorem test_weir_unused : nextIs (exec (.weirUrecWrite 50) unit) (fun t => t == unit) = true := by decide

/-- R197: the hard comparator trips an enabled, owned path in On to state 5 with cause 1. -/
theorem test_hard_trip : nextIs (exec (.hardTrip 0) (((source.fset PRT_PWRST.STATE 0 2).fset PRT_PWRST.MODE 0 1)))
    (fun t => t.fget PRT_PWRST.STATE 0 == 5 && t.fget PRT_PWRST.TRIP 0 == 1) = true := by decide

/-- R113: tCCDebounce with one Rp and valid VBUS attaches a sink. -/
theorem test_attach_sink : nextIs (exec (.ccDebounceExpiry 0) ((((owner.fset PRT_ATTST.STATE 0 3).fset
      PRT_CCSTAT.VBUSOK 0 1).onAtt 0 fun h => { h with ccDb := some 0, ref1 := 2, ref2 := 0 })))
    (fun t => t.fget PRT_ATTST.STATE 0 == 4) = true := by decide

/-- R140: retries remain, so the packet is sent again and one retry fewer is left. -/
theorem test_retry : nextIs (exec (.crcReceiveTimerExpiry 0) ((source.setTimer 0 0 (some 0) 1).onPd 0 fun h =>
      { h with cur := some { msg := ctl 3 }, retries := 2 }))
    (fun t => (t.pd 0).retries == 1 && (t.pd 0).resend) = true := by decide

/-- R40: an edge adds one to the tick. -/
theorem test_tick : unit.tickBegins.tick = unit.tick + 1 := by decide

/-- R437: a confirmed low level in button mode begins a press and grants nothing yet. -/
theorem test_button_press : nextIs (exec (.presenceLevelConfirmed false)
      { unit with pres := { unit.pres with sample := false, count := 6250 } })
    (fun t => t.pres.press == some 0 && !t.fon DEV_PRES.GRANT) = true := by decide

/-- R82: DB_OFF opens the clamps. -/
theorem test_db_off : nextIs (exec .dbOffRise unit) (fun t => t.pins.dbOff) = true := by decide

/-- R157: a shadow overhears a packet and answers nothing. -/
theorem test_overhear : nextIs (exec (.goodcrcReceived 9 0 3) paired) (fun t => (t.pd 9).gcrc.isNone) = true := by
  decide

/-- R482: LOG_MARK records its data, padded with zeros. -/
theorem test_log_mark : nextIs (exec (.logMark 1 [0x11, 0, 0xAA, 0xBB]) (front 0x83 [0x11, 0, 0xAA, 0xBB] unit))
    (fun t => t.log.buf.map (·.data) == [pad 12 [0xAA, 0xBB]] && t.host.entries.length == 1) = true := by decide

/-- R303: a packet of 9 bytes is discarded without an entry. -/
theorem test_short_packet : nextIs (exec (.spiWrite (List.replicate 9 0xA7)) unit)
    (fun t => t.host.entries.isEmpty && t.host.slow.isEmpty) = true := by decide

/-- R303: an unassigned opcode is refused with status 0x10 and no tag is taken. -/
theorem test_bad_opcode : nextIs (exec (.spiWrite ([0xA7, 0x2F, 1, 0, 0, 0] ++ crcBytes [0xA7, 0x2F, 1, 0, 0, 0])) unit)
    (fun t => t.host.entries.map (·.status) == [0x10] && t.host.tags.isEmpty) = true := by decide

/-! ## A configuration blob and stored versions -/

/-- A blob with every register at its reset value, profile 1 and no extension blocks (R458). -/
def blobBody : List Byte :=
  cfgUnitRegs.flatMap (fun r => State.reset.rbytes r.1 r.2) ++ [1, 0] ++ (List.range 16).flatMap fun p =>
    (cfgPortRegs p).flatMap (fun r => State.reset.rbytes r.1 r.2) ++ List.replicate 36 0

def blobHead : List Byte := [0x58, 0x4B, 0x43, 0x46, 1, 0, 0, 0] ++ toBytes 4 5868 ++ [0, 0, 0, 0]

def blobImage : List Byte := blobHead ++ blobBody ++ crcBytes (blobHead ++ blobBody)

theorem blob_length : blobImage.length = 5868 := by decide +kernel

/-- A blob of reset values is legal. -/
theorem test_blob_legal : (blobOf blobImage).isSome = true := by decide +kernel

/-- Flash cells from `a` on, erased bytes left out. -/
def cells (a : Nat) : List Byte → Tab Byte
  | [] => []
  | b :: t => if b = 0xFF then cells (a + 1) t else (a, b) :: cells (a + 1) t

theorem cells_below (l : List Byte) (a k : Nat) (r : Tab Byte) (h : k < a) :
    Tab.get 0xFF k (cells a l ++ r) = Tab.get 0xFF k r := by
  induction l generalizing a with
  | nil => rfl
  | cons b t ih =>
    unfold cells
    split
    · exact ih _ (by omega)
    · show Tab.get _ _ ((a, b) :: (cells (a + 1) t ++ r)) = _
      rw [Tab.get, if_neg (by omega)]
      exact ih _ (by omega)

/-- Reading the cells back, with nothing at the addresses behind them. -/
theorem flashRead_cells (l : List Byte) (a : Nat) (r : Tab Byte) (s : State)
    (hr : ∀ k, k < a + l.length → Tab.get 0xFF k r = 0xFF) (hf : ∀ k, a ≤ k → s.flashGet k = Tab.get 0xFF k (cells a l ++ r)) :
    s.flashRead a l.length = l := by
  induction l generalizing a with
  | nil => rfl
  | cons b t ih =>
    have hlen : (b :: t).length = t.length + 1 := rfl
    have h0 : s.flashGet a = b := by
      rw [hf a (Nat.le_refl _)]
      unfold cells
      split
      · rename_i hb
        rw [cells_below _ _ _ _ (by omega), hr a (by omega), hb]
      · show Tab.get _ _ ((a, b) :: _) = b
        rw [Tab.get, if_pos rfl]
    show s.flashGet a :: s.flashRead (a + 1) t.length = b :: t
    rw [h0, ih (a + 1) (fun k hk => hr k (by omega)) fun k hk => ?_]
    rw [hf k (by omega)]
    conv => lhs; unfold cells
    split
    · rfl
    · show Tab.get _ _ ((a, b) :: _) = _
      rw [Tab.get, if_neg (by omega)]
      rfl

/-- The bytes written to memory are read back. -/
theorem memRead_memWrite (l : List Byte) (s : State) (m off : Nat) :
    (s.memWrite m off l).memRead m off l.length = l := by
  induction l generalizing s off with
  | nil => rfl
  | cons b t ih =>
    show (s.memWrite m off (b :: t)).memGet m off :: _ = _
    congr 1
    · show ((s.memPut m off b).memWrite m (off + 1) t).memGet m off = b
      rw [memGet_memWrite_out _ _ fun j _ => by unfold memKey; omega]
      exact memGet_memPut_same _ _ _ _
    · exact ih _ _

/-- The record of a version in a place. -/
def recBytes (v state : Nat) (b : List Byte) : List Byte :=
  toBytes 2 v ++ [byte state, 0xFF] ++ toBytes 4 b.length ++ verCrc v b

/-- Version `v` stands in the first place of a store. -/
def stored (s : State) (st v state : Nat) (b : List Byte) : State :=
  { s with flash := cells (placeAddr st 0) b ++ cells (recAddr st 0) (recBytes v state b) }

/-- The unit holds the blob as version 3. -/
def withBlob : State := stored owner 0 3 stConfirmed blobImage

/-! ## States and operands that meet the hypotheses of the statements -/

/-- A host command's turn, and a further condition on the state in which it is taken up. -/
def met (op : Nat) (ps : List Byte) (s : State) (p : State → Bool := fun _ => true) : Bool :=
  turn op ps s && p (taken op ps s)

/-- A head of a port prefix. -/
def port0 : List Byte := [0, 0, 0, 0]

/-- A reply and a completion that wait. -/
def entryA : Entry := ⟨.completion, 0x00, 5, 0, 0, []⟩
def entryB : Entry := ⟨.completion, 0x04, 6, 0, 1, []⟩
def waiting : State := { unit with host := { unit.host with entries := [entryA, entryB], tags := [5, 6], last := some entryB } }

theorem witness_StepRunsFront : { unit with pending := [.refok] }.pending = .refok :: [] ∧ unit.pending = [] := by
  decide

theorem witness_EveryCommandAnswers : nextIs (exec .refok unit) (fun _ => true) = true := by decide

theorem witness_QueueIsFirstInFirstOut : nextIs (exec .refok { unit with pending := [.pllLock] })
    (fun t => t.pending == [.pllLock]) = true := by decide

theorem witness_TablesStayCanonical : State.reset.Inv ∧ step State.reset = .next State.reset :=
  ⟨by unfold State.Inv; decide, rfl⟩

theorem witness_PairedWordsRoundTrip : ∀ raw, Short.nop ≠ .illegal raw := fun _ => Short.noConfusion

theorem witness_StatusByte : unit.booted = true ∧ unit.host.tags.length ≤ 32 ∧ waiting.booted = true := by decide

theorem witness_ReadTakesWholeEntries : unit.host.entries = [] ∧ waiting.host.entries = entryA :: [entryB] ∧
    11 = (entryBytes entryA).length ∧ 4 < (entryBytes entryA).length := by decide

theorem witness_TagsAreFreedByReading : waiting.host.entries = entryA :: [entryB] ∧ entryA.place = .completion ∧
    entryA.status ≠ 1 ∧ entryA.status ≠ 2 ∧ (entryB.place ≠ .completion ∨ entryB.status = 1) ∧
    waiting.host.last = some entryB := by decide

theorem witness_FrontEndChecksInOrder : State.reset.booted = false ∧ unit.booted = true ∧
    hostLenOk 0x2F 0 = none ∧ hostLenOk 0x08 1 = some false ∧ hostLenOk 0x00 0 = some true ∧
    (5 ∈ waiting.host.tags ∧ 7 ∉ waiting.host.tags ∧ waiting.host.tags.length < 32) ∧
    (40 ∉ List.range 32 ∧ 32 ≤ (List.range 32).length) ∧ crcBytes [0xA7, 0, 1, 0, 0, 0] ≠ [0, 0, 0, 0] := by decide

/-- It is the turn of a command with this opcode and its shortest parameters. -/
def mayCome (s : State) (op : Nat) : Bool :=
  [0, 2, 4, 8, 9, 10, 12, 16, 32].any fun n => hostLenOk op n == some true &&
    (front op (List.replicate n 0) s).upNext (pkt op (List.replicate n 0))

/-- The unit in loader mode. -/
def inLoader (s : State) : State := { s with boot := { s.boot with loader := true } }

theorem witness_HostCommandsInTheirTurn :
    ([0x00, 0x01, 0x02, 0x03, 0x04, 0x05, 0x06, 0x07, 0x08, 0x10, 0x11, 0x12, 0x13, 0x14, 0x15, 0x16, 0x30, 0x31,
      0x32, 0x33, 0x34, 0x35, 0x36, 0x37, 0x38, 0x39, 0x3A, 0x3B, 0x50, 0x51, 0x52, 0x60, 0x61, 0x62, 0x63, 0x64,
      0x65, 0x70, 0x71, 0x72, 0x73, 0x74, 0x80, 0x81, 0x82, 0x83, 0x84, 0x85, 0x90, 0x91, 0x92, 0x93, 0x94, 0x95,
      0x96, 0xA0, 0xA1, 0xA2, 0xA3, 0xA4, 0xB0, 0xB1, 0xB2, 0xB3, 0xB4, 0xB5, 0xC0, 0xC1, 0xC2, 0xC3, 0xC4, 0xD0,
      0xD1, 0xD2, 0xD3, 0xD4, 0xE0, 0xE1, 0xE2, 0xE3].all fun op => mayCome owner op && (hostUrgent op ||
        mayCome (owner.fset OTP_LCST.LC 0 4) op && mayCome (inLoader owner) op)) = true ∧
    ((front 0x11 port0 owner).fset OTP_LCST.LC 0 4).upNext (pkt 0x11 port0) = true ∧
    State.reset.booted = false ∧ (taken 0x10 port0 (unit.fset OTP_LCST.LC 0 4)).fget OTP_LCST.LC = 4 ∧
    (0x10 : Nat) ∉ [0x01, 0x02, 0x70, 0x74, 0x80, 0x81, 0x82, 0x84, 0x85, 0xC0, 0xC3, 0xE0, 0xE2] ∧
    loaderOp 0x10 port0 = false := by decide

theorem witness_HostQueriesAnswer :
    ([0x00, 0x01, 0x02, 0x60, 0x70, 0x74, 0xE0, 0xD4, 0x85, 0x94, 0xA4, 0xC3, 0xB4, 0xE2].all
      fun op => met op [] unit) = true ∧ met 0x81 port0 unit = true := by decide

/-- Port `p` of both kinds: mirrored and owned. -/
def both (op : Nat) (ps : List Byte) (p : State → Bool := fun _ => true) : Bool := met op ps unit p && met op ps owner p

theorem witness_PortQueriesAnswer : badPort [15, 0, 0, 0] = false ∧
    ([0x12, 0x13, 0x52, 0x3A].all fun op => both op [15, 0, 0, 0]) = true ∧ met 0x3B [15, 0, 0, 0] owner = true ∧
    both 0x15 ([0, 0, 0, 0] ++ toBytes 2 0x408 ++ [0, 0]) = true ∧ (getReg 0x408).isSome = true ∧
    met 0x08 [3, 0, 0, 0] unit = true ∧ met 0x84 [0, 0, 0, 0, 1, 0, 0, 0] unit = true ∧
    met 0x84 [0, 0, 0, 0, 31, 0, 0, 0] unit = true ∧
    met 0x95 [7, 0, 0, 0, 0, 0, 0, 0, 4, 0, 0, 0] (stored unit 0 7 stConfirmed [1, 2, 3, 4])
      (fun u => u.placeOf 0 7 == some 0 && u.recSize 0 0 == 4) = true ∧
    met 0xC0 [15, 0, 0, 8] unit (fun u => u.otpRefusal 0 15 0 false 0 != 0x31) = true ∧
    met 0xD0 [0, 0, 0xF1, 2, 4, 0, 0, 0] unit = true ∧ debugAddr [0, 0, 0xF1, 2, 4, 0, 0, 0] = some 0xF10004 ∧
    (regAt 0xF10004).isSome = true ∧ met 0xD2 [16, 0, 0, 0, 4, 0, 0, 0] unit (fun u =>
      (u.debugMem [16, 0, 0, 0, 4, 0, 0, 0]).isSome && !u.fon OTP_LCST.DBGLOCK) = true := by decide

theorem witness_UnitCommandsAct :
    ([[1, 0, 0, 0], [3, 0, 0, 0]].all fun ps => met 0x03 ps owner fun u => !u.moving && !u.swapping && !u.paired &&
      (List.range 16).all fun p => !u.busyContract p) = true ∧
    met 0x04 [2, 0, 0xFF, 0xFF] unit (fun u => !bit (u.fget DEV_STRAP.STRAP) 2) = true ∧
    met 0x04 [0, 0, 0, 0] (unit.fset DEV_STRAP.STRAP 0 4) = true ∧ met 0x05 [0xFF, 0x3F, 0xFF, 0x3F] unit = true ∧
    met 0x06 [1, 0, 0, 0] unit (fun u => !u.paired) = true ∧
    met 0x06 [2, 0, 0, 0] (present paired) (fun u => !u.absent) = true ∧
    met 0x07 [3, 0, 0, 0, 0, 1, 0, 0] (present unit) (fun u => regLegal QD_JCFG.reg 256 && u.fget QD_JCFG.SEG 3 == 1 &&
      !u.absent && !u.unitSafe) = true ∧ met 0x65 [0xFF, 0, 50, 0] unit = true ∧
    met 0xE1 (List.replicate 16 0) unit = true ∧
    met 0xE1 ([1, 2, 3, 4, 5, 6, 7, 8] ++ toBytes 6 2 ++ [0, 0]) unit (fun u => u.tick == 0) = true ∧
    met 0xE3 [] { unit with pres := { unit.pres with window := some 5 } } (·.pres.window.isSome) = true ∧
    met 0xE3 [] unit = true := by decide

theorem witness_LowWaterRefusedOverContracts :
    met 0x03 [3, 0, 0, 0] (owner.fset PRT_CONTRACT.TYPE 15 3) (fun u => u.owns 15) = true ∧
    met 0x03 [3, 0, 0, 0] (owner.fset PRT_PDST.EPR 0 1) (fun u => u.fon PRT_PDST.EPR 0) = true ∧
    met 0x03 [3, 0, 0, 0] ((paired.fset PAIR_SHOK.TWINOWN 0 0xFF00).memWrite 0x41 (inBuf 9 + 8)
      (toBytes 8 (2 ^ 55 + 3 * 2 ^ 29))) (fun u => !u.owns 9 && bit (u.fget PAIR_SHOK.TWINOWN) 9 &&
        bits (u.recWord (inBuf 9) 1) 31 29 == 3 && bit (u.recWord (inBuf 9) 1) 55) = true := by decide

/-- A takeover is in progress. -/
def takingOver : State := owner.onPair fun h => { h with assume := some ⟨0xFF00, 9, 3⟩ }

theorem witness_ProfileChangeDefers :
    met 0x03 [1, 0, 0, 0] takingOver (fun u => u.moving && u.prof.deferred.isNone) = true ∧
    met 0x03 [2, 0, 0, 0] { takingOver with prof := { takingOver.prof with deferred := some (1, 7) } }
      (fun u => u.moving && u.prof.deferred == some (1, 7)) = true ∧
    met 0x03 [1, 0, 0, 0] (owner.fset DEV_SWAP.REQ 0 1) (·.swapping) = true := by decide

theorem witness_PairCommandsAct : ([0x64, 0x62, 0x63].all fun op => met op [] paired (·.paired)) = true ∧
    met 0x61 [1, 0, 1, 0] paired = true ∧ met 0x61 [2, 0, 0, 1] paired = true ∧
    ([0x62, 0x63, 0x64].all fun op => met op [] owner fun u => !u.paired) = true := by decide

/-- A PORT_SET of PRT_PDCFG with its reset value, and of a safety-class register. -/
def setPd : List Byte := port0 ++ toBytes 2 (PRT_PDCFG.reg.base - 0xFC0000) ++ [0, 0] ++
  toBytes 4 (State.reset.rget PRT_PDCFG.reg 0)
def setPwr : List Byte := port0 ++ toBytes 2 (PRT_PWRCFG.reg.base - 0xFC0000) ++ [0, 0] ++
  toBytes 4 (State.reset.rget PRT_PWRCFG.reg 0)

theorem witness_PortCommandsAct : badPort port0 = false ∧ met 0x11 port0 owner (fun u => u.owns 0) = true ∧
    met 0x10 port0 (owner.fset PRT_PWRST.STATE 0 5) (fun u => !u.unitSafe && (u.endDefer 0 0x22).pwrState 0 == 5) = true ∧
    met 0x10 port0 (owner.fset PRT_PWRST.STATE 0 4) (fun u => (u.endDefer 0 0x22).pwrState 0 == 4) = true ∧
    met 0x10 port0 ((owner.fset PRT_PWRST.STATE 0 0).onPwr 0 fun h => { h with offMin := some 3 }) (fun u =>
      (u.endDefer 0 0x22).pwrState 0 == 0 && ((u.endDefer 0 0x22).pwr 0).offMin.isSome) = true ∧
    met 0x10 port0 (source.fset PRT_PWRST.STATE 0 0) (fun u => ((u.endDefer 0 0x22).pwr 0).offMin.isNone &&
      u.attState 0 == 7) = true ∧
    met 0x10 port0 ((owner.fset PRT_PWRST.STATE 0 0).fset PRT_ATTST.STATE 0 0) (fun u => u.attState 0 == 0) = true ∧
    met 0x14 setPd owner (fun _ => !(setEntries 1 (setPd.drop 4)).any badEntry &&
      !(setEntries 1 (setPd.drop 4)).any safetyEntry) = true ∧
    met 0x14 setPwr (present owner) (fun u => !(setEntries 1 (setPwr.drop 4)).any badEntry &&
      (setEntries 1 (setPwr.drop 4)).any safetyEntry && !u.absent) = true ∧
    met 0x16 port0 owner = true ∧
    met 0x50 (port0 ++ [0, 3, 6, 4]) (owner.fset DEV_SVID.SVID 0 0x1234) (fun u => u.fget DEV_SVID.SVID != 0 &&
      !u.modeBusy 0) = true ∧
    met 0x51 (port0 ++ [13, 0, 0, 0]) source (fun u => !u.modeBusy 0 && attached (u.attState 0)) = true := by decide

/-- Parameters of the commands that a port refuses. -/
def refusals (port : Byte) : List (Nat × List Byte) :=
  [(0x14, [port] ++ setPd.drop 1), (0x16, [port, 0, 0, 0]), (0x33, [port, 0, 0, 0, 2, 0, 0, 0, 7, 0]),
    (0x34, [port, 0, 0, 0, 3, 0, 0, 0]), (0x36, [port, 0, 0, 0, 0, 0, 0, 0]), (0x39, [port, 0, 0, 0, 8, 0, 0, 0])]

theorem witness_PortCommandsRefuse :
    ((refusals 16).all fun x => badPort x.2 && met x.1 x.2 unit) = true ∧
    ((refusals 15).all fun x => !badPort x.2 && met x.1 x.2 unit (fun u => !u.unitSafe && !u.owns 15) &&
      met x.1 x.2 (unit.fset WEIR_ST.USAFE 0 1) (·.unitSafe)) = true ∧
    sendRefused.contains (msgOfBytes 2 [7, 0]).code = false := by decide

/-- A Fixed 5 V, 3 A object. -/
def fixed5 : List Byte := [0x2C, 0x91, 0x01, 0x00]

/-- Port 0 waits for the host's answer to DR_Swap. -/
def raised : State := source.onPd 0 fun h => { h with raise := some ⟨7, ctl Code.drSwap⟩ }

/-- Port 0 sources VCONN. -/
def vconn : State := source.fset PRT_ROLE.VCSRC 0 1

theorem witness_PdCommandsAct : badPort port0 = false ∧ source.owns 0 = true ∧ source.unitSafe = false ∧
    met 0x30 (port0 ++ [0, 4, 0, 0] ++ fixed5) source (fun u => !u.unitSafe && u.owns 0) = true ∧
    capsLenOk 0 4 fixed5 = true ∧ fixed5V (ofBytes fixed5) = true ∧ met 0x30 (port0 ++ [10, 0, 0, 0]) source = true ∧
    capsLenOk 10 0 [] = true ∧
    met 0x31 (port0 ++ [1, 0, 0, 0, 1, 0, 0, 1, 0, 0, 0, 0]) source (fun u =>
      !badReplyEntry (u.eget PRT_CCCFG.ROLE 0 == 2) 0x01000001) = true ∧
    met 0x32 (port0 ++ [7, 0, 1, 0]) raised (fun u => (u.pd 0).raise == some ⟨7, ctl Code.drSwap⟩ &&
      !u.badAnswer 0 1 (ctl Code.drSwap) (msgOfBytes 0 [])) = true ∧
    met 0x33 (port0 ++ [0, 0, 0, 0, 7, 0]) source (fun u => !u.queueFull 0 && !u.linkRefuses 0 0 &&
      !(msgOfBytes 0 [7, 0]).ext && !u.enterMode (msgOfBytes 0 [7, 0])) = true ∧
    met 0x33 (port0 ++ [0, 0, 0, 0, 0x42, 0x10, 0, 0, 0, 0]) sink (fun u => !u.isSource 0 && !u.linkRefuses 0 0 &&
      (msgOfBytes 0 [0x42, 0x10, 0, 0, 0, 0]).code == Code.request) = true ∧
    ([1, 2, 3].all fun x => met 0x34 (port0 ++ [x, 0, 0, 0]) source fun u => !u.linkRefuses 0 0 &&
      u.fget PRT_ROLE.SWAP 0 == 0 && u.eget PRT_CCCFG.ROLE 0 == 2 && !u.fon PRT_MODEST.ENTERED 0) = true ∧
    ([1, 240].all fun x => met 0x35 (port0 ++ [1, x, 0, 0]) sink fun u => !u.linkRefuses 0 0 &&
      !u.fon PRT_PDST.EPR 0 && !u.isSource 0) = true ∧
    met 0x35 (port0 ++ [2, 0, 0, 0]) ((sink.fset PRT_PDST.EPR 0 1).fset PRT_CONTRACT.VOLT 0 1000) (fun u =>
      u.fon PRT_PDST.EPR 0 && u.fget PRT_CONTRACT.VOLT 0 == 1000 && !u.linkRefuses 0 0) = true ∧
    met 0x36 (port0 ++ [0, 0, 0, 0]) source (fun u => !u.linkRefuses 0 0) = true ∧
    met 0x36 (port0 ++ [2, 0, 0, 0]) vconn (fun u => !u.linkRefuses 0 2) = true ∧
    met 0x37 port0 source (fun u => u.linkRuns 0 && u.fget PRT_PDST.ESCSTEP 0 != 3) = true ∧
    met 0x38 port0 vconn (fun u => u.linkRuns 0 && u.vconnSource 0) = true ∧
    ([5, 8].all fun x => met 0x39 (port0 ++ [x, 0, 0, 0]) source fun u => u.linkRuns 0 &&
      ((u.reply 0x39 1 1).openCmd 0x39 1 0).eget PRT_PDCFG.BISTEN 0 == 1 &&
      decide (((u.reply 0x39 1 1).openCmd 0x39 1 0).fget PRT_CONTRACT.VOLT 0 ≤ 250)) = true := by decide

theorem witness_EvidenceCommandsAct :
    met 0x71 [0x27, 0xFF, 3, 0] unit (fun u => ((srcCovers 0xFF27).getD []).all (fun e => u.weirClass e.1 e.2 != 3) &&
      (u.latchedBy ((srcCovers 0xFF27).getD [])).isEmpty) = true ∧ (srcCovers 0xFF27).isSome = true ∧
    (srcCovers 0xFF05).isSome = true ∧ met 0x72 [0x05, 0xFF, 2, 1, 1, 0, 0, 0] (present unit) (fun u => !u.absent) = true ∧
    srcCovers 0xFF05 = some [(16, 5)] ∧ (5 : Nat) < scCount 16 ∧
    met 0x73 [0x05, 0xFF, 1, 0] (present unit) (fun u => !u.absent) = true ∧
    met 0x73 [0x05, 0xFF, 0, 0] (present unit) (fun u => !u.absent) = true ∧
    met 0x80 [31, 0x02, 1, 0, 0, 0, 0, 0] unit = true ∧ eventScope 0x02 = some true ∧
    met 0x80 [0, 0x52, 0, 0, 7, 0, 0, 0] unit = true ∧ eventScope 0x52 = some false ∧
    met 0x82 [0xFF, 0xFF, 0xFF, 0xFF] unit = true ∧
    met 0x83 ([0x11, 0] ++ List.replicate 12 0xAA) unit (fun u => decide (u.log.buf.length < 255)) = true := by decide

/-- The link of a pair is up in both directions, so versions can be sent. -/
def linked : State := (paired.fset PAIR_ST.LSTATE 0 3).onPair fun h => { h with txLanes := 2 }

/-- A trial of version `v` with three ticks and more to its expiry. -/
def trial (st v : Nat) : State := (owner.fset (trialF st) 0 v).onVer st fun h => { h with expiry := some 3 }

def commitParams : List Byte := toBytes 4 5868 ++ [0, 0, 0, 0]

/-- The unit with presence, these memory contents, and a slow command at the head of its queue. -/
def holding (op : Nat) (ps : List Byte) (m : Tab Byte) : State :=
  { present owner with mem := m, host := { owner.host with slow := [{ pkt op ps with late := true }], tags := [1] } }

/-- The blob stands in the staging buffer. -/
def staging : State := holding 0x91 commitParams (unit.memWrite stageMem 0 blobImage).mem

theorem commit_mem (m : Tab Byte) : (taken 0x91 commitParams (holding 0x91 commitParams m)).mem = m := rfl

theorem memRead_mem {s t : State} (h : s.mem = t.mem) (m off n : Nat) : s.memRead m off n = t.memRead m off n := by
  induction n generalizing off with
  | zero => rfl
  | succ n ih =>
    show s.memGet m off :: _ = t.memGet m off :: _
    rw [ih, show s.memGet m off = t.memGet m off by unfold memGet; rw [h]]

theorem commit_image : (taken 0x91 commitParams staging).memRead stageMem 0 5868 = blobImage := by
  rw [memRead_mem (s := taken 0x91 commitParams staging) (commit_mem _), ← blob_length]
  exact memRead_memWrite _ _ _ _

theorem witness_StoreCommandsAct_commit : turn 0x91 commitParams staging = true ∧
    (let u := taken 0x91 commitParams staging
     (blobOf (u.memRead stageMem 0 5868)).isSome = true ∧ (∀ b, u.needsPresence b = false) ∧
     (u.fon DEV_CFGST.TRIAL || u.moving || u.fw.xfer.isSome || u.cfgPending || u.flashFull) = false) := by
  refine ⟨by decide, ?_, fun b => ?_, by decide⟩
  · rw [commit_image]; exact test_blob_legal
  · cases b with
    | none => rfl
    | some b => rfl

/-- The unit with this flash content and a slow command at the head of its queue. -/
def flashed (op : Nat) (ps : List Byte) (f : Tab Byte) : State :=
  { present owner with flash := f, host := { owner.host with slow := [{ pkt op ps with late := true }], tags := [1] } }

def revertParams : List Byte := [3, 0, 0, 0]

/-- The blob stands in the store as version 3. -/
def blobFlash : Tab Byte :=
  cells (placeAddr 0 0) blobImage ++ cells (recAddr 0 0) (recBytes 3 stConfirmed blobImage)

def reverting : State := flashed 0x93 revertParams blobFlash

theorem revert_flash (f : Tab Byte) : (taken 0x93 revertParams (flashed 0x93 revertParams f)).flash = f := rfl

theorem revert_turn : turn 0x93 revertParams reverting = true := by decide

theorem revert_content :
    (taken 0x93 revertParams reverting).flashRead (placeAddr 0 0) 5868 = blobImage := by
  rw [← blob_length]
  refine flashRead_cells _ _ (cells (recAddr 0 0) (recBytes 3 stConfirmed blobImage)) _ (fun k hk => ?_) fun k _ => ?_
  · rw [← List.append_nil (cells _ _)]
    refine (cells_below _ _ _ _ ?_).trans rfl
    rw [blob_length] at hk
    exact Nat.lt_trans hk (by decide)
  · show Tab.get _ _ (taken 0x93 revertParams reverting).flash = _
    rw [show (taken 0x93 revertParams reverting).flash = _ from revert_flash _]
    rfl

theorem revert_place : (taken 0x93 revertParams reverting).placeOf 0 3 = some 0 ∧
    (taken 0x93 revertParams reverting).recSize 0 0 = 5868 ∧
    (taken 0x93 revertParams reverting).recVersion 0 0 = 3 := by decide +kernel

theorem revert_crc : (taken 0x93 revertParams reverting).flashRead (recAddr 0 0 + 8) 4 = verCrc 3 blobImage := by
  decide +kernel

/-- A version that stands in the first place without error is read as its content. -/
theorem blobAt_stored (u : State) (b : List Byte) (v : Nat) (h1 : u.placeOf 0 v = some 0)
    (h2 : u.recSize 0 0 = b.length) (h3 : u.recVersion 0 0 = v)
    (hf : u.flashSound (placeAddr 0 0) b.length = true) (hg : u.flashSound (recAddr 0 0) 64 = true)
    (hc : u.flashRead (placeAddr 0 0) b.length = b) (hr : u.flashRead (recAddr 0 0 + 8) 4 = verCrc v b)
    (hl : b.length ≤ placeSize 0 - 64) : u.blobAt v = blobOf b := by
  unfold blobAt intact
  rw [h1]
  show (if (decide (u.recSize 0 0 ≤ _) && u.flashSound _ (u.recSize 0 0) && _ &&
    (_ == verCrc (u.recVersion 0 0) (u.flashRead _ (u.recSize 0 0)))) = true then _ else _) = _
  rw [h2, h3, hc, hr, hf, hg]
  simp [hl]

theorem revert_blob : (taken 0x93 revertParams reverting).blobAt 3 = blobOf blobImage :=
  blobAt_stored _ _ _ revert_place.1 (revert_place.2.1.trans blob_length.symm) revert_place.2.2 rfl rfl
    (by rw [blob_length]; exact revert_content) revert_crc (by rw [blob_length]; decide)

theorem witness_StoreCommandsAct_revert : turn 0x93 revertParams reverting = true ∧
    (let u := taken 0x93 revertParams reverting
     u.placeOf 0 3 = some 0 ∧ u.flashSound (placeAddr 0 0) (u.recSize 0 0) = true ∧ (u.blobAt 3).isSome = true ∧
       u.needsPresence (u.blobAt 3) = false) := by
  refine ⟨revert_turn, revert_place.1, rfl, ?_, ?_⟩
  · rw [revert_blob]; exact test_blob_legal
  · rw [revert_blob]
    cases blobOf blobImage with
    | none => rfl
    | some b => rfl

theorem witness_StoreCommandsAct :
    met 0x90 [8, 0, 0, 0, 1, 2, 3] unit = true ∧
    ([(0x92, 0), (0xA2, 1)].all fun x => met x.1 [4, 0, 0, 0] (trial x.2 4) fun u =>
      u.fget (trialF x.2) == 4 && u.tick == 0 && (u.ver x.2).expiry == some 3) = true ∧
    met 0x96 [5, 0, 0, 0] (stored linked 0 5 stConfirmed [1, 2]) (fun u => u.sending && !u.fon DEV_CFGST.TRIAL &&
      u.placeOf 0 5 == some 0 && u.recState 0 0 == stConfirmed && u.fw.xfer.isNone) = true ∧
    met 0xA0 [15, 0, 0, 0] unit (fun u => !u.lowWater && !u.fon DEV_EDDY.BUSY && !u.fon DEV_EDDY.CHKFAIL) = true ∧
    met 0xA1 [0xFF, 0xFF, 0, 0] unit (fun u => !u.fon DEV_EDDY.BUSY && !u.flashFull) = true ∧
    met 0xA3 [9, 0, 0, 0] (stored unit 1 9 stStored [1, 2, 3]) (fun u => (u.placeOf 1 9).isSome &&
      (u.calAt 9).isSome) = true := by decide +kernel

/-- A descriptor that makes a slot complete. -/
def slotDescr : List Byte := 0x5A :: List.replicate 43 0

/-- Slot 1 is complete. -/
def slotDone (s : State) : State := { s with flash := cells (slotBase 1 + 0x1F0000) (slotDescr ++ crcBytes slotDescr) }

/-- A staging session is open for a slot. -/
def session (s : State) (slot : Nat) : State := { s with fw := { s.fw with session := some (slot, 64, 7) } }

theorem witness_FirmwareCommandsAct :
    met 0xB0 ([1, 0, 0, 0] ++ toBytes 4 0x200000 ++ [1, 2, 3, 4]) (present owner) (fun u => !u.absent &&
      u.runSlot != 1 && u.selected != 1 && !u.flashFull) = true ∧
    met 0xB0 ([2, 0, 0, 0] ++ toBytes 4 64 ++ [1, 2, 3, 4]) (present (inLoader owner)) (fun u => !u.absent &&
      u.boot.loader && u.selected != 2) = true ∧
    ([1, 2].all fun k => met 0xB1 [56, 0, 0, 0, 1, 2, 3, 4, 5, 6, 7, 8] (session owner k) fun u => !u.flashFull &&
      u.fw.session == some (k, 64, 7)) = true ∧
    ([1, 2].all fun k => met 0xB2 (List.replicate 32 0) (session owner k) fun u => !u.flashFull &&
      u.fw.session == some (k, 64, 7)) = true ∧
    ([1, 2].all fun m => met 0xB3 [1, m, 0, 0] (slotDone (present owner)) fun u => !u.absent && !u.moving &&
      u.fw.act.isNone && u.slotComplete 1 && !u.flashFull && !u.lowWater) = true ∧
    met 0xB3 [2, 1, 0, 0] (present (inLoader { owner with fw := { owner.fw with loaded := true } })) (fun u =>
      !u.absent && !u.moving && u.fw.act.isNone && u.boot.loader && u.fw.loaded) = true ∧
    met 0xB5 [1, 0, 0, 0] (slotDone (present linked)) (fun u => !u.absent && u.sending && u.slotComplete 1 &&
      u.fw.xfer.isNone) = true ∧
    met 0xB3 [1, 1, 0, 0] (present { owner with prof := { owner.prof with cur := 3 } }) (fun u => !u.absent &&
      u.lowWater) = true ∧
    met 0xB3 [0, 2, 0, 0] (present takingOver) (fun u => !u.absent && u.moving) = true ∧
    met 0xB3 [1, 2, 0, 0] (present owner) (fun u => !u.absent && !u.slotComplete 1) = true ∧
    met 0xB0 ([0, 0, 0, 0] ++ toBytes 4 64 ++ [1, 2, 3, 4]) (present owner) (fun u => !u.absent &&
      (u.runSlot == 0 || u.selected == 0)) = true := by decide +kernel

theorem witness_FuseAndDebugCommandsAct :
    met 0xC1 ([5, 0, 0, 0] ++ toBytes 8 1) (present unit) (fun u => !u.absent && !u.fon OTP_ST.BUSY &&
      u.otpRefusal 2 5 0 false 1 == 0) = true ∧
    met 0xC2 [5, 1, 0, 0] (present unit) (fun u => !u.absent && u.otpRefusal 3 5 0 false 1 == 0) = true ∧
    met 0xC4 ([1, 0, 0, 0] ++ [0x58, 0x4B, 0x4C, 1]) (present unit) (fun u => !u.absent &&
      u.otpRefusal 4 1 0 false 0 == 0) = true ∧
    ([0, 1].all fun l => met 0xD1 ([0, 0, 0xF1, 2, 4, 0, 0, 0] ++ [0xFF, 0x3F, 0, 0, 0, 0, 0, 0])
      ((present unit).fset OTP_LCST.DBGLOCK 0 l) fun u => !u.absent && u.fget OTP_LCST.DBGLOCK == l &&
        (debugParts 8 0xF10004 2 0x3FFF).all fun e => !u.debugIllegal e) = true ∧
    ([0, 1].all fun l => met 0xD3 ([16, 0, 0, 0, 2, 0, 0, 0] ++ [7, 8]) ((present unit).fset OTP_LCST.DBGLOCK 0 l)
      fun u => !u.absent && u.fget OTP_LCST.DBGLOCK == l && (u.debugMem ([16, 0, 0, 0, 2, 0, 0, 0] ++ [7, 8])).isSome) =
        true := by decide +kernel

/-- A field written and in force. -/
def forced (s : State) (f : Fld) (i v : Nat) : State := (s.fset f i v).latch f i

/-- Both ends wait for an acknowledgement for 65 edges. -/
def stalling (id : Nat) : State :=
  (unit.onMbx id fun m => { m with unack := [(4, 65)] }).onMbx (mbxPeer id) fun m => { m with unack := [(4, 65)] }

theorem witness_MailboxRowsComplete :
    ([(0, 16), (16, 0), (15, 31), (31, 15)].all fun x =>
      (decide ((unit.mbxEnd x.2).rx.length < 8 ∧ (unit.mbxEnd x.1).unack.length < 8 ∧ (unit.mbxEnd x.1).txLeft = 0) &&
        mbxLen 1 == 1) &&
      decide (8 ≤ ((unit.onMbx x.2 fun m => { m with rx := List.replicate 8 ⟨1, true, true⟩ }).mbxEnd x.2).rx.length) &&
      decide (8 ≤ ((unit.onMbx x.1 fun m => { m with unack := List.replicate 8 (1, 0) }).mbxEnd x.1).unack.length) &&
      (((unit.onMbx x.1 fun m => { m with rx := [⟨1, true, true⟩] }).mbxEnd x.1).rx == [⟨1, true, true⟩]) &&
      (let s := (unit.onMbx x.1 fun m => { m with popped := [5], ackin := [(3, 9)] }).onMbx x.2 fun m =>
        { m with unack := [(4, 0)] }
       (s.mbxEnd x.1).popped == [5] && (s.mbxEnd x.2).unack == [(4, 0)] && (s.mbxEnd x.1).ackin == [(3, 9)])) = true ∧
    (unit.mbxEnd 0).rx = [] ∧ (unit.mbxEnd 0).popped = [] ∧
    ([0, 15, 80, 83].all fun id => decide (64 < mbxAge ((stalling id).mbxEnd id) ∧
      64 < mbxAge ((stalling id).mbxEnd (mbxPeer id))) && !((stalling id).mbxEnd id).stalled) = true := by
  decide +kernel

theorem witness_LockRowsComplete : (unit.boxRead 4 0xA06).isSome = true ∧ unit.lockOwner 3 = 0 ∧
    (unit.setLock 3 5).lockOwner 3 = 4 + 1 ∧ (unit.setLock 3 9).lockOwner 3 ≠ 4 + 1 := by decide +kernel

theorem witness_RegisterRowsComplete : regPlace 3 0xF9 0xFFFF = none ∧
    ((regPlace 16 0xF1 4).bind regAt).isSome = true ∧
    (¬(1024 < 0 + 64 ∨ 0 * 0x10000 < 0xC00000 ∧ 0xA00000 < 0 * 0x10000 + 0x400000)) ∧
    (1024 < 1023 + 64 ∨ 1023 * 0x10000 < 0xC00000 ∧ 0xA00000 < 1023 * 0x10000 + 0x400000) ∧
    ({ unit with prof := { unit.prof with cur := 3 } } : State).lowWater = true ∧ takingOver.moving = true ∧
    unit.lowWater = false ∧ unit.moving = false := by decide +kernel

/-- Port 0's reaction of class 1 has been quiet for Q1. -/
def quietDone : State := unit.setReact 0 { cls := 1, quiet := unit.quietTicks 1 }

theorem witness_WeirRowsComplete : (23 : Nat) % 32 ≤ 23 ∧ ¬(24 : Nat) % 32 ≤ 23 ∧ (49 : Nat) % 64 ≤ 49 ∧ ¬(50 : Nat) % 64 ≤ 49 ∧
    1 < (forced unit (WEIR_PCFG.N 4) 0 2).weirN 0 4 ∧ (forced unit (WEIR_PCFG.N 4) 0 1).weirN 0 4 ≤ 1 ∧
    (let s := unit.onIdx 3 4 fun h => { h with opened := true }
     let t := (forced s (WEIR_PCFG.W 4) 3 0)
     (t.weirIdx 3 4).opened = true ∧ (t.weirIdx 3 4).start + t.weirW 3 4 ≤ t.tick) ∧
    (let s := (quietDone.fset WEIR_CFG.ESCW 0 0).setRelWin 0 ⟨true, 0, 2⟩
     (s.relWin 0).opened = true ∧ (s.relWin 0).start + s.escTicks ≤ s.tick) ∧
    (quietDone.react 0).cls = 1 ∧ (quietDone.react 0).latched = false ∧ (quietDone.react 0).fresh = false ∧
    quietDone.quietTicks 1 ≤ (quietDone.react 0).quiet ∧ 1 < quietDone.fget WEIR_CFG.ESCN ∧
    (quietDone.relWin 0).opened = false ∧ (quietDone.fset WEIR_CFG.ESCN 0 1).fget WEIR_CFG.ESCN = 1 ∧
    (quietDone.fset WEIR_CFG.ESCN 0 0).fget WEIR_CFG.ESCN = 0 ∧ ((unit.react 0).cls = 0) ∧
    ({ unit with weir := { unit.weir with pulse := some 0 } } : State).weir.pulse = some 0 ∧
    (unit.fset WEIR_CFG.FMODE 0 1).fget WEIR_CFG.FMODE = 1 ∧ unit.fget WEIR_CFG.FMODE ≠ 1 ∧ unit.weir.pulse = none := by
  decide +kernel

theorem witness_WatchdogRowsComplete :
    ((0x5A : Byte) = 0x5A ∧ (0x5B : Byte) ≠ 0x5A) ∧ unit.fget WDG_ST.T 0 < (unit.wdg 0).openT ∧
    (let s := unit.fset WDG_ST.T 0 1
     (s.wdg 0).openT ≤ s.fget WDG_ST.T 0 ∧ s.fget WDG_CHK.CIN 0 &&& (s.wdg 0).mask ≠ (s.wdg 0).mask ∧
      (let t := s.fset WDG_CHK.CIN 0 1
       t.fget WDG_CHK.CIN 0 &&& (t.wdg 0).mask = (t.wdg 0).mask)) ∧
    (let s := unit.onWdg 16 fun w => { w with begun := true, limit := 0, hold := some 0 }
     (s.wdg 16).begun = true ∧ s.fon WDG_ST.SUSP 16 = false ∧ (s.wdg 16).limit ≤ s.fget WDG_ST.T 16) ∧
    ((unit.onWdg 2 fun w => { w with hold := some 0 }).wdg 2).hold = some 0 := by decide +kernel

theorem witness_SensingRowsComplete :
    bit (unit.eget PRT_AUXSEL.EN 0) (unit.tick % 8) = true ∧
    bit ((forced unit PRT_AUXSEL.EN 0 0).eget PRT_AUXSEL.EN 0) (unit.tick % 8) = false ∧
    unit.fon DEV_EDDY.BUSY = false ∧ unit.eget (PRT_ADCTRIM.GAIN 1) 0 = 0 ∧ unit.eget (PRT_ADCTRIM.OFFS 1) 0 = 0 ∧
    0 < (100 : BitVec 13).toInt ∧ (100 : BitVec 13).toInt < 4095 ∧
    8 ≤ ((unit.onAdc 0 fun h => { h with hot := 8 }).adc 0).hot ∧
    bit (0x13 : BitVec 16).toNat 4 = true ∧ bit (0x03 : BitVec 16).toNat 4 = false ∧
    (unit.fset DEV_EDDY.PORT 0 3).calMay = true ∧
    (({ unit with prof := { unit.prof with cur := 3 } } : State).fset DEV_EDDY.PORT 0 3).calMay = false ∧
    ({ unit with eddy := { unit.eddy with left := some 0, since := 4096, outTicks := 16 } } : State).eddy.left = some 0 ∧
    (unit.fset DEV_REFST.REFOK 0 1).fon DEV_REFST.REFOK = true := by decide +kernel

/-- Port 0 in an attach state, with levels on its two CC that have been stable. -/
def attIn (st : Nat) (r1 r2 : Nat) (f : AttHw → AttHw) : State :=
  (owner.fset PRT_ATTST.STATE 0 st).onAtt 0 fun h => f { h with ref1 := r1, ref2 := r2 }

theorem witness_AttachRowsComplete :
    ([2, 5].all fun st => let s := attIn st 7 7 fun h => { h with drp := some 0 }
      s.attDue 0 (s.att 0).drp && s.attState 0 == st) = true ∧ owner.attDue 0 (owner.att 0).drp = false ∧
    (let s := (attIn 3 2 0 fun h => { h with ccDb := some 0 }).fset PRT_CCSTAT.VBUSOK 0 1
     s.attDue 0 (s.att 0).ccDb && s.oneRp 0 && s.fon PRT_CCSTAT.VBUSOK 0 && s.attState 0 == 3) = true ∧
    (let s := (attIn 6 1 0 fun h => { h with ccDb := some 0 }).fset PRT_CCSTAT.VSAFE0 0 1
     s.attDue 0 (s.att 0).ccDb && s.oneRd 0 && s.fon PRT_CCSTAT.VSAFE0 0 && s.attState 0 == 6) = true ∧
    ([3, 9].all fun st => let s := attIn st 0 0 fun h => { h with pdDb := some 0 }
      s.attDue 0 (s.att 0).pdDb && s.attState 0 == st && s.ref 0 == (0, 0)) = true ∧
    ([8, 0xB].all fun st => let s := attIn st 0 1 fun h => { h with tryCcDb := some 0, drpTry := some 0 }
      s.attDue 0 (s.att 0).tryCcDb && s.attDue 0 (s.att 0).drpTry && s.oneRd 0 && s.attState 0 == st) = true ∧
    (let s := attIn 0xA 0 0 fun h => { h with tryTo := some 0 }
     s.attDue 0 (s.att 0).tryTo && s.attState 0 == 0xA) = true ∧
    (let s := (attIn 1 0 0 fun h => { h with errRec := some 0 }).fset PRT_CCSTAT.VSAFE0 0 1
     s.attDue 0 (s.att 0).errRec && s.attState 0 == 1 && s.fon PRT_CCSTAT.VSAFE0 0) = true ∧
    (let s := attIn 7 0 0 fun h => { h with srcDis := some 0 }
     s.attDue 0 (s.att 0).srcDis && s.fget PRT_CCCTL.HOLDATT 0 == 0) = true ∧
    appliesRp (unit.termState 0) = false ∧ appliesRd (unit.termState 0) = false ∧
    (owner.fset PRT_ATTST.STATE 0 0).attState 0 = 0 ∧ source.attState 0 = 7 ∧ sink.attState 0 = 4 ∧
    (owner.fset PRT_ATTST.VCONN 0 1).fon PRT_ATTST.VCONN 0 = true ∧
    (let t := 50 * 3000 - owner.eget PRT_CCHYS.HYST 0 * 3000
     50 * 3000 < 150001 ∧ t ≤ 150000 ∧ t - 1 < t) := by decide +kernel

/-- Counter 3 counts, in edges or in levels, event 4 on port 2. -/
def counting (level : Nat) : State :=
  forced (forced (forced (forced unit (CNT_CFG.EN 3) 0 1) (CNT_CFG.EVENT 3) 0 4) (CNT_CFG.PMASK 3) 0 4)
    (CNT_CFG.LEVEL 3) 0 level

/-- The clock runs. -/
def ticking : State := unit.fset TICK_STATUS.PLL_LOCK 0 1

theorem witness_TickEdgeActs : (ticking.fon TICK_STATUS.PLL_LOCK && !ticking.boot.hold &&
      decide (ticking.boot.phase ≠ .reset)) = true ∧
    ticking.pair.adopt = none ∧ ticking.tick + 1 < 2 ^ 48 ∧
    ((owner.onAtt 0 fun h => { h with ccDb := some 3, errRec := some 1 }).att 0).ccDb = some (2 + 1) ∧
    ((owner.onAtt 0 fun h => { h with ccDb := some 0 }).att 0).ccDb = some 0 ∧ (owner.att 0).errRec = none ∧
    ([0, 1].all fun l => (counting l).cntSelects 3 4 (some 2) && (counting l).eget (CNT_CFG.LEVEL 3) == l) = true ∧
    (counting 1).levelOn 3 = true ∧ (counting 1).eget (CNT_CFG.PMASK 3) ≠ 0 ∧
    ({ unit with prof := { unit.prof with pend := [(2, 0), (1, 9)] } } : State).prof.pend = (2, 0) :: [(1, 9)] ∧
    (∀ c ∈ [(1, 9)], unit.tick < c.2) ∧ 0 ≤ unit.tick ∧
    (unit.onPair fun h => { h with bind := some (0, 9) }).pair.bind = some (0, 9) ∧
    (unit.onPair fun h => { h with bind := some (1, 9) }).pair.bind = some (1, 9) ∧ unit.tick < 1 := by decide +kernel

/-- The straps are latched and the clock runs, and boot waits for nothing but its end. -/
def bootClock : State := (State.reset.fset TICK_STATUS.PLL_LOCK 0 1).fset DEV_REFST.REFOK 0 1
def bootDone (ticks : Nat) : State :=
  { bootClock with boot := { bootClock.boot with strapped := true, otpRead := true, ticks := ticks } }

theorem witness_BootRowsComplete : State.reset.otp.op = none ∧ State.reset.jobs = [] ∧
    ({ unit with boot := { unit.boot with phase := .reset } } : State).boot.phase = .reset ∧ unit.boot.phase ≠ .reset ∧
    State.reset.booting = true ∧ State.reset.boot.strapped = false ∧ unit.booting = false ∧
    (0x42 : Byte).toNat % 4 ≠ 3 ∧ State.reset.pins.attempts < 15 ∧
    (bootClock.boot.phase = .boot ∧ bootClock.boot.hold = false ∧ bootClock.fon DEV_REFST.REFOK = true ∧
      bootClock.boot.otpRead = false) ∧
    ({ State.reset with boot := { State.reset.boot with strapped := true } } : State).fon TICK_STATUS.PLL_LOCK = false ∧
    State.reset.fon DEV_REFST.REFOK = false ∧ (bootDone 0).bootReady = true ∧ (bootDone 0).paired = false ∧
    (let s := (bootDone 256).fset PAIR_ST.POS 0 1
     s.bootReady = true ∧ s.paired = true ∧ s.pair.heard = false ∧ 256 ≤ s.boot.ticks) ∧
    ({ unit with boot := { unit.boot with formT := some 0 } } : State).boot.formT = some 0 ∧ unit.boot.formT ≠ some 0 := by
  decide +kernel

/-- A level on PRESENCE_N that has stood for 6,250 edges, in a wiring mode. -/
def level (low : Bool) (mode : Nat) : State :=
  let s := (unit.fset DEV_PRES.MODE 0 mode).fset DEV_PRES.PIN 0 (b2n low)
  { s with pres := { s.pres with sample := !low, count := 6250, known := true, press := some 1250000 } }

theorem witness_PinAndPresenceRowsComplete :
    ({ unit with pins := { unit.pins with muxOn := true } } : State).pins.muxOn = true ∧
    (let s : State := { unit with pins := { unit.pins with tap := { unit.pins.tap with st := 2, ir := 3 } } }
     s.tapOpen = true ∧ s.pins.tap.st = 2 ∧ s.pins.tap.ir = 3) ∧ ({ unit with pins := { unit.pins with vcc33 := false } } : State).tapOpen = false ∧
    ([(true, 0), (true, 1), (false, 0)].all fun x => let s := level x.1 x.2
      (s.pres.sample == !x.1) && decide (6250 ≤ s.pres.count) && s.fget DEV_PRES.PIN != b2n (!x.1) && s.pwire == x.2 &&
        s.pres.press == some 1250000) = true ∧
    unit.presAllowed = true ∧ (unit.fset DEV_STRAP.PCHK 0 2).presAllowed = false ∧
    ({ unit with pres := { unit.pres with window := some 0 } } : State).pres.window = some 0 := by decide +kernel

/-- The bytes of a heartbeat word with sequence number 4, and the word with its CRC8. -/
def beat : Nat := 4 + 2 ^ 24 * Crypto.crc8 (toBytes 3 4)

/-- A read of word 2 of region 3, asked through OTP_CTL. -/
def fuseRead (op : Nat) : OtpOp := ⟨op, 3, 2, false, 0, none, decide (op = 1)⟩

theorem witness_LinkRowsComplete :
    unit.paired = false ∧ (paired.fset TICK_STATUS.MASTER 0 1).fon TICK_STATUS.MASTER = true ∧ paired.paired = true ∧
    paired.fon TICK_STATUS.MASTER = false ∧ beatOk beat = true ∧ seqOk (some 3) (beat % 16) = true ∧
    seqOk (some 4) (beat % 16) = false ∧ ({ paired with boot := State.reset.boot } : State).booted = false ∧
    (paired.onPair fun h => { h with listen := some 0 }).pair.listen = some 0 ∧
    (let s := paired.onPair fun h => { h with edgeHeard := true }
     s.pair.edgeHeard = true ∧ (toSigned 8 (s.fget TICK_SKEW.SKEW)).natAbs ≤ 16) ∧
    (let s := (paired.fset TICK_STATUS.PLL_LOCK 0 1).onPair fun h => { h with noEdge := 2 }
     s.follower = true ∧ 2 ≤ s.pair.noEdge) ∧ unit.pair.skewBig < 4 ∧
    4 ≤ (paired.onPair fun h => { h with skewBig := 4 }).pair.skewBig ∧
    (let s := (paired.fset PAIR_ST.LSTATE 0 2).onPair fun h => { h with train := 16 }
     s.fget PAIR_ST.LSTATE = 2 ∧ 16 ≤ s.pair.train) ∧ paired.pair.bulkPos = 0 ∧
    ([(3, 2), (3, 1), (4, 1), (0, 0), (1, 0)].all fun x =>
      let s := (paired.fset PAIR_ST.LSTATE 0 x.1).fset PAIR_ST.LANES 0 x.2
      s.fget PAIR_ST.LSTATE == x.1 && s.fget PAIR_ST.LANES == x.2) = true ∧
    (let w : List (BitVec 64) := 32 :: List.replicate 7 0
     w.length = 8 ∧ bit ((w.map (·.toNat)).getD 0 0) 5 = true) ∧ paired.owns 7 = true ∧ paired.freezesNow 7 = true ∧
    (paired.fset TICK_COUNT.COUNT 0 1).freezesNow 7 = true ∧
    bit (0x80000300 : BitVec 32).toNat 31 = true ∧ unit.fon OTP_ST.BUSY = false ∧
    (unit.fset OTP_ST.BUSY 0 1).fon OTP_ST.BUSY = true ∧ unit.otpRefusal 0 3 0 false 0 = 0 ∧
    unit.otpRefusal 4 9 0 false 0 ≠ 0 ∧ unit.otp.op = none ∧
    ([0, 1].all fun k => ({ unit with otp := { unit.otp with op := some (fuseRead k) } } : State).otp.op ==
      some (fuseRead k) && (fuseRead k).cmd.isNone) = true := by decide +kernel

/-- Handover 5 of port 0, opened by this unit at tick 0, with its switch edge at 5. -/
def offer : Handover := { prop := true, take := false, mask := 1, id := 5, edge := 5, start := 0, phase := 1 }

/-- A unit of a pair that follows and is in step. -/
def locked : State := paired.fset TICK_STATUS.SYNC_LOCK 0 1

/-- The handover is open, the tick is its third, and the twin shows this in H2. -/
def offering (h2 : Nat) : State := (locked.fset TICK_COUNT.COUNT 0 2).onPair fun h => { h with
  ho := some offer, hinTick := 2, hin := [0, 0, h2] }

/-- A pair whose twin is able and alike, with port 0 to 7 its own. -/
def able : State := (locked.fset PAIR_ST.ABLE 0 1).fset PAIR_ST.TWINABLE 0 1

theorem witness_OwnershipRowsComplete :
    (let s := paired.onPair fun h => { h with missed := 2 }
     s.paired = true ∧ 2 ≤ s.pair.missed ∧ s.pair.lost = false) ∧
    ([3, 4].all fun w => (paired.onPair fun h => { h with assume := some ⟨0xFF00, 0, w⟩ }).pair.assume ==
      some ⟨0xFF00, 0, w⟩) = true ∧
    0xFF00 &&& paired.fget PAIR_ST.OWN = 0 ∧ paired.pair.assume = none ∧
    ([2, 5].all fun ph => let s := offering (5 + 256 * ph + 4096 * 3)
      s.pair.ho == some offer && decide (offer.start + 2 ≤ s.tick) && s.pair.hinTick == offer.start + 2 &&
        bits (s.hin 2) 7 0 == offer.id && bits (s.hin 2) 10 8 == ph && s.synced &&
        !(s.fset TICK_STATUS.SYNC_LOCK 0 0).synced) = true ∧
    (paired.mayOwn = true ∧ paired.fon PAIR_ST.WITHDRAWN = false ∧ (inLoader paired).mayOwn = false ∧
      (paired.fset PAIR_ST.WITHDRAWN 0 1).fon PAIR_ST.WITHDRAWN = true) ∧
    (let s := offering 0x305
     (s.fset TICK_COUNT.COUNT 0 5).tick = offer.edge ∧ ({ offer with commit := true }).commit = true) ∧
    bits ((offering 6).hin 2) 7 0 ≠ offer.id ∧ ((offering 0).fset TICK_COUNT.COUNT 0 5).tick = offer.edge ∧
    paired.pair.ho = none ∧
    (let s := (paired.fset TICK_COUNT.COUNT 0 3).onPair fun h => { h with received := 3, receivedAt := 2 }
     s.pair.received ≠ 0 ∧ s.pair.receivedAt + 1 ≤ s.tick) ∧
    (let s := (paired.fset PAIR_ST.OWN 0 0x1FF).onPair fun h => { h with rebal := 50 * 12500 }
     s.fget PAIR_CFG.REBALDLY ≠ 0 ∧ s.fget PAIR_CFG.REBALDLY * 12500 ≤ s.pair.rebal ∧
      s.fget PAIR_ST.OWN - (s.fget PAIR_ST.OWN &&& s.homeSet) ≠ 0 ∧ s.fon PAIR_ST.WITHDRAWN = false) ∧
    (able.propose false 1 none false false).1 = 0 ∧ (paired.propose false 1 none false false).1 ≠ 0 ∧
    ((able.fset PAIR_SHOK.TWINOWN 0 0xFF00).propose true 0x100 none false false).1 = 0 ∧
    (able.withdraw none).1 = 0 ∧ (able.rebalance none).1 = 0 ∧ (paired.fset PAIR_ST.OWN 0 0).fget PAIR_ST.OWN = 0 ∧
    (List.replicate 24 (0 : BitVec 64)).length = 24 ∧ 2 ≤ (paired.fset PAIR_ST.LSTATE 0 3).fget PAIR_ST.LSTATE ∧
    (let s := paired.onPair fun h => { h with form := some 0 }
     s.pair.form = some 0 ∧ 0 ≤ s.tick ∧ s.mayOwn = true ∧ s.fget PAIR_ST.FORM = 0) := by decide +kernel

/-- Timer `k` of port 0 is due. -/
def dueTimer (s : State) (k : Nat) : State := s.setTimer 0 k (some 0) 1

theorem witness_PdRowsComplete : unit.owns 0 = false ∧ owner.owns 0 = true ∧ owner.linkRuns 0 = false ∧
    source.owns 0 = true ∧ source.linkRuns 0 = true ∧ (source.pd 0).frsGen = false ∧ source.lowWater = false ∧
    ({ source with prof := { source.prof with cur := 3 } } : State).lowWater = true ∧
    source.fon PRT_PDST.SOPPEN 0 = false ∧ (source.fset PRT_PDST.SOPPEN 0 1).fon PRT_PDST.SOPPEN 0 = true ∧
    source.fon PRT_PDST.BIST 0 = false ∧
    2 ≤ ((source.onPd 0 fun h => { h with rx := [ctl 7, ctl 8] }).pd 0).rx.length ∧
    (source.pd 0).line = .idle ∧ ([Line.packet, .hardReset, .cableReset, .idle].all fun l =>
      ((source.onPd 0 fun h => { h with line := l }).pd 0).line == l) = true ∧
    source.hoQuiet 0 = false ∧ ((source.onPd 0 fun h => { h with rx := [ctl 7] }).pd 0).rx = [ctl 7] ∧
    ((source.onAtt 0 fun h => { h with sinkTx := some 0 }).att 0).sinkTx = some 0 ∧
    ((List.range 20).all fun k => (dueTimer source k).timDue 0 k && !source.timDue 0 k &&
      !((dueTimer source k).pd 0).owedT.contains k) = true ∧
    (let s := (dueTimer source 0).onPd 0 fun h => { h with cur := some { msg := ctl 7 }, retries := 2 }
     s.timDue 0 0 = true ∧ (s.pd 0).cur = some { msg := ctl 7 } ∧ 0 < (s.pd 0).retries) ∧
    ((dueTimer source 0).onPd 0 fun h => { h with cur := some { msg := ctl 7 } }).pd 0 = { (dueTimer source 0).pd 0 with
      cur := some { msg := ctl 7 } } ∧ ((dueTimer source 0).pd 0).retries = 0 ∧ ((dueTimer source 0).pd 0).cur = none ∧
    ((dueTimer source 1).pd 0).wait = none ∧
    (let s := (dueTimer source 1).onPd 0 fun h => { h with wait := some { sop := 0, code := Code.getSourceCap } }
     (s.pd 0).wait = some { sop := 0, code := Code.getSourceCap } ∧ s.eget PRT_PDCFG.ESC 0 = 0 ∧
      (s.timExpire 0 1).eget PRT_PDCFG.ESC 0 = 0) ∧
    ({ dueTimer raised 2 with host := { owner.host with urgent := [pkt 0x32 (port0 ++ [7, 0, 1, 0])] } } :
      State).answerWaits 0 = true ∧ (dueTimer raised 2).answerWaits 0 = false ∧ ((dueTimer raised 2).pd 0).raise = some ⟨7, ctl Code.drSwap⟩ ∧
    ((dueTimer source 2).pd 0).raise = none ∧ (dueTimer source 2).answerWaits 0 = false ∧
    ((dueTimer source 5).pd 0).capsSent < 50 ∧ ((dueTimer source 9).pd 0).hardSent < 3 ∧
    3 ≤ (((dueTimer source 9).onPd 0 fun h => { h with hardSent := 3 }).pd 0).hardSent ∧
    ((dueTimer source 12).pd 0).wait = none ∧
    (((dueTimer source 12).onPd 0 fun h => { h with wait := some { sop := 0, code := Code.vdm, vcmd := 1 } }).pd 0).wait =
      some { sop := 0, code := Code.vdm, vcmd := 1 } ∧ ((dueTimer source 13).mux 0).busy = 0 ∧
    (let s := (source.fset PRT_PDST.HELD 0 1).onPd 0 fun h => { h with heldFor := 250000, engine := [{ msg := ctl 7 }] }
     250000 ≤ (s.pd 0).heldFor ∧ s.fon PRT_PDST.HELD 0 = true ∧ (s.pd 0).engine = [{ msg := ctl 7 }]) ∧
    (let s := (source.fset PRT_PDST.HELD 0 1).onPd 0 fun h => { h with heldFor := 250000, hostq := [{ msg := ctl 7 }] }
     250000 ≤ (s.pd 0).heldFor ∧ s.fon PRT_PDST.HELD 0 = true ∧ (s.pd 0).engine = [] ∧
      (s.pd 0).hostq = [{ msg := ctl 7 }]) := by decide +kernel

/-- Port 0 with its path in a state, and its power hardware set. -/
def path (st : Nat) (f : PwrHw → PwrHw) : State := (source.fset PRT_PWRST.STATE 0 st).onPwr 0 f

/-- A PMBus transaction of port 0 is in flight, and one waits. -/
def pmbus : State := source.onReg 0 fun r => { r with txn := some .statusWord, waiting := [.voutMode] }

/-- One that waits for its segment. -/
def claiming : State := source.onReg 0 fun r => { r with waiting := [.statusWord] }

/-- Every count of the power path is due. -/
def allDue (h : PwrHw) : PwrHw := { h with
  gateRise := some 0, quiet := some 0, regStart := some 0, stuck := 16, limOn := true, limCnt := 12500 }

theorem witness_PowerRowsComplete :
    (let s := path 2 fun h => { h with judged := true }
     let u := (s.closeEnergy 0).closeMean 0
     (u.pwr 0).judged = true ∧ u.owns 0 = true ∧ u.eget PRT_PWRCFG.FORM 0 = 0 ∧ (u.judgeEnergy 0).listRuns 0 = true ∧
       (u.onEngine 0 fun g => { g with run := .stopped }).listRuns 0 = false ∧ (source.pwr 0).idle = 0) ∧
    (let s := path 2 fun h => { h with headPrev := true, headVal := 5 }
     (s.pwr 0).headPrev = true ∧ s.fget PRT_ELAST.SUM 0 ≤ (s.pwr 0).headVal ∧
      (s.pwr 0).headVal < (s.fset PRT_ELAST.SUM 0 6).fget PRT_ELAST.SUM 0 ∧ s.tripsAny 0 = true) ∧
    (source.pwr 0).offMin = none ∧
    (let s := path 0 fun h => { h with offMin := some 0 }
     (s.pwr 0).offMin = some 0 ∧ (s.pwr 0).deferTag = none) ∧
    (let s := path 0 fun h => { h with offMin := some 0, deferTag := some 9 }
     (s.pwr 0).deferTag = some 9 ∧ (s.onPwr 0 fun h => { h with offMin := none }).fget PRT_ATTST.STATE 0 = 7 ∧
      ((s.fset PRT_ATTST.STATE 0 0).onPwr 0 fun h => { h with offMin := none }).fget PRT_ATTST.STATE 0 = 0) ∧
    (let s := path 1 allDue
     (s.pwr 0).gateRise = some 0 ∧ s.pwrState 0 = 1 ∧ s.fon PRT_PWRST.GATEOK 0 = false ∧
      (s.fset PRT_PWRST.GATEOK 0 1).fon PRT_PWRST.GATEOK 0 = true ∧ (s.pwr 0).quiet = some 0 ∧
      16 ≤ (s.pwr 0).stuck ∧ s.fget PRT_BRKTIM.LIMCAP 0 ≤ (s.pwr 0).limCnt ∧ (s.pwr 0).limOn = true ∧
      s.eget PRT_PWRCFG.FORM 0 = 0 ∧ s.tripsAny 0 = true ∧ (s.pwr 0).regStart = some 0 ∧
      (let t := forced s PRT_PWRCFG.FORM 0 1
       t.eget PRT_PWRCFG.FORM 0 = 1 ∧ t.fget PRT_BRKTIM.TFIX 0 * 2500 ≤ ((t.pwr 0).limCnt + 1) * 2000 ∧
        t.tripsAny 0 = true ∧ (t.pwr 0).limOn = true)) ∧
    (let s := path 4 fun h => { h with dis := some 0 }
     (s.pwr 0).dis = some 0 ∧ s.pwrState 0 = 4) ∧
    (source.vreg 0).txn = none ∧ (pmbus.vreg 0).txn ≠ none ∧
    (((pmbus.finc PRT_REG.FAILS 0).cntEvent 0x2A (some 0)).regRetry 0).fget PRT_REG.FAILS 0 ≠ 3 ∧
    ((((pmbus.fset PRT_REG.FAILS 0 2).finc PRT_REG.FAILS 0).cntEvent 0x2A (some 0)).regRetry 0).fget PRT_REG.FAILS 0 = 3 ∧
    (let s := source.onReg 0 fun r => { r with poll := 64 }
     64 ≤ (s.vreg 0).poll ∧ s.fget PRT_ROLE.SWAP 0 ≠ 5 ∧ (s.fset PRT_ROLE.SWAP 0 5).fget PRT_ROLE.SWAP 0 = 5) ∧
    pmbus.segBusy 0 = true ∧ source.claimants 0 7 = [] ∧ claiming.segBusy 0 = false ∧
    claiming.claimants 0 7 = 0 :: [] ∧ unit.owns 0 = false := by decide +kernel

/-- Port 0 in step `k` of swap `n`, its swap hardware set. -/
def inSwap (s : State) (n k : Nat) (f : SwapHw → SwapHw) : State :=
  ((s.fset PRT_ROLE.SWAP 0 n).fset PRT_ROLE.SWSTEP 0 k).onSw 0 f

/-- A contract for 9 V, 3 A. -/
def nine : Contract := { typ := 1, pos := 2, volt := 450, cur := 300, lo := 855, hi := 945, mv10 := 900 }

/-- Every timer of the swaps is due. -/
def swDue (h : SwapHw) : SwapHw := { h with
  srcTr := some 0, srcRdy := some 0, newPwr := some 0, psOff := some 0, psOn := some 0, vconnTo := some 0,
  vconnOn := some 0, psHr := some 0, srcRec := some 0, sinkHr := some 0 }

theorem witness_SwapRowsComplete_transitions :
    ((source.sw 0).goal = none) ∧
    (let s := source.onSw 0 fun h => { h with goal := some nine, go := true }
     (s.sw 0).goal = some nine ∧ s.fget PRT_ROLE.SWAP 0 = 0 ∧ (s.sw 0).go = true ∧ s.isSource 0 = true) ∧
    ([1, 2, 3, 4].all fun k => let s := inSwap source 5 k fun h =>
       { h with goal := some nine, srcTr := some 0, okTicks := 4 }
     s.fget PRT_ROLE.SWAP 0 == 5 && s.fget PRT_ROLE.SWSTEP 0 == k && (s.sw 0).goal == some nine &&
      (s.sw 0).srcTr == some 0 && decide (4 ≤ (s.sw 0).okTicks)) = true ∧
    ([(1, 0), (2, 3), (2, 4)].all fun x => let s := inSwap sink 6 x.1 fun h =>
       { h with goal := some nine, rdySeen := true, okTicks := x.2 }
     s.fget PRT_ROLE.SWAP 0 == 6 && s.fget PRT_ROLE.SWSTEP 0 == x.1 && (s.sw 0).rdySeen &&
      (s.sw 0).okTicks == x.2) = true ∧
    (let s := source.onSw 0 swDue
     let h := s.sw 0
     h.srcTr = some 0 ∧ h.srcRdy = some 0 ∧ h.newPwr = some 0 ∧ h.psOff = some 0 ∧ h.psOn = some 0 ∧
      h.vconnTo = some 0 ∧ h.vconnOn = some 0 ∧ h.psHr = some 0 ∧ h.srcRec = some 0 ∧ h.sinkHr = some 0 ∧
      s.fget PRT_ROLE.SWAP 0 ≠ 1 ∧ (s.fset PRT_ROLE.SWAP 0 1).fget PRT_ROLE.SWAP 0 = 1) ∧
    (source.fset PRT_ROLE.SWAP 0 5).fget PRT_ROLE.SWAP 0 = 5 ∧
    ([(0, 0), (5, 6)].all fun x => let s := inSwap (forced source PRT_SWCFG.PPSCL 0 1) x.1 x.2 fun h =>
       { h with held := { nine with typ := 3 }, ppsOver := 16 }
     (s.sw 0).held.typ == 3 && s.isSource 0 && s.eget PRT_SWCFG.PPSCL 0 == 1 && decide (16 ≤ (s.sw 0).ppsOver) &&
      decide (s.fget PRT_ROLE.SWAP 0 ≠ 5 ∨ s.fget PRT_ROLE.SWSTEP 0 = 6)) = true ∧
    (let s := inSwap source 5 4 id
     ¬(s.fget PRT_ROLE.SWAP 0 ≠ 5 ∨ s.fget PRT_ROLE.SWSTEP 0 = 6)) ∧
    ((source.onSw 0 fun h => { h with ppsUnder := 16 }).sw 0).ppsOver < 16 ∧
    16 ≤ ((source.onSw 0 fun h => { h with ppsUnder := 16 }).sw 0).ppsUnder := by decide +kernel

theorem witness_SwapRowsComplete_swaps :
    ([(1, 1), (1, 3), (1, 5), (1, 7), (0, 1), (0, 2), (0, 5), (0, 6)].all fun x =>
      let s := (((inSwap source 1 x.2 fun h => { h with go := true, rdySeen := true, okTicks := 4 }).fset
        PRT_ROLE.BASEPWR 0 x.1).fset PRT_CCSTAT.VSAFE0 0 1).fset PRT_CCSTAT.VBUSOK 0 1
      s.fget PRT_ROLE.SWAP 0 == 1 && s.fget PRT_ROLE.BASEPWR 0 == x.1 && s.fget PRT_ROLE.SWSTEP 0 == x.2 &&
        (s.sw 0).go && (s.sw 0).rdySeen && decide (4 ≤ (s.sw 0).okTicks) && s.fon PRT_CCSTAT.VSAFE0 0 &&
        s.fon PRT_CCSTAT.VBUSOK 0 && !(s.sw 0).rdySent) = true ∧ source.fget PRT_ROLE.SWAP 0 ≠ 1 ∧
    (let s := inSwap vconn 3 1 fun h => { h with go := true }
     s.fget PRT_ROLE.SWAP 0 = 3 ∧ s.fget PRT_ROLE.SWSTEP 0 = 1 ∧ (s.sw 0).go = true ∧ s.vconnSource 0 = true) ∧
    (let s := inSwap source 3 1 fun h => { h with go := true }
     s.vconnSource 0 = false ∧ (forced s PRT_CCCFG.VCONN_EN 0 0).eget PRT_CCCFG.VCONN_EN 0 = 0 ∧
      (forced s PRT_CCCFG.VCONN_EN 0 1).eget PRT_CCCFG.VCONN_EN 0 ≠ 0 ∧ (s.quad 0).vconnUv = false) ∧
    (let s := forced (inSwap source 3 2 id) PRT_CCCFG.VCONN_EN 0 1
     let barred := fun (s : State) => decide (s.eget PRT_CCCFG.VCONN_EN 0 = 0 ∨ (s.quad 0).vconnUv = true)
     s.vconnSource 0 = false ∧ s.fon PRT_ATTST.VCONN 0 = false ∧ barred s = false ∧
      barred (s.onQuad 0 fun q => { q with vconnUv := true }) = true ∧
      barred (forced s PRT_CCCFG.VCONN_EN 0 0) = true) ∧
    (let s := (inSwap source 3 2 fun h => { h with rdySeen := true }).fset PRT_ATTST.VCONN 0 1
     s.fget PRT_ROLE.SWSTEP 0 = 2 ∧ s.vconnSource 0 = false ∧ s.fon PRT_ATTST.VCONN 0 = true ∧
      (s.fset PRT_ROLE.VCSRC 0 1).vconnSource 0 = true ∧ (s.sw 0).rdySeen = true) ∧
    (let s := source.onPd 0 fun d => { d with frsSeen := true }
     (s.pd 0).frsSeen = true ∧ s.fget PRT_ROLE.SWAP 0 = 0 ∧ (s.fset PRT_ROLE.SWAP 0 6).fget PRT_ROLE.SWAP 0 = 6) ∧
    ([(0, 1), (0, 2), (1, 1), (1, 2), (1, 4)].all fun x =>
      let s := (inSwap source 4 x.2 fun h => { h with go := true, rdySeen := true }).fset PRT_ROLE.BASEPWR 0 x.1
      s.fget PRT_ROLE.SWAP 0 == 4 && s.fget PRT_ROLE.BASEPWR 0 == x.1 && s.fget PRT_ROLE.SWSTEP 0 == x.2 &&
        (s.sw 0).go && (s.sw 0).rdySeen && decide (s.fget PRT_RVBUS.CODE 0 * 60000 < 500 * 40960)) = true ∧
    source.fon PRT_ROLE.FRSARM 0 = false ∧ (source.fset PRT_ROLE.FRSARM 0 1).fon PRT_ROLE.FRSARM 0 = true ∧
    (((sink.onPd 0 fun d => { d with wait := some { sop := 0, code := 10 } }).pd 0).wait.any fun w =>
      [9, 10, 11].contains w.code) = true ∧ ((sink.pd 0).wait.any fun w => [9, 10, 11].contains w.code) = false ∧
    (let s := ((sink.fset PRT_PWRCTL.FRSPRE 0 1).onPd 0 fun d => { d with frsDet := true }).fset PRT_PWRST.STATE 0 2
     s.fon PRT_PWRCTL.FRSPRE 0 = true ∧ (s.pd 0).frsDet = true ∧ s.pwrState 0 = 2) ∧
    ([0, 1, 2, 3, 4, 5, 6].all fun k => let s := source.onSw 0 fun h => { h with hrSeq := k, okTicks := 4 }
      (s.sw 0).hrSeq == k && decide (4 ≤ (s.sw 0).okTicks)) = true ∧
    (source.fset PRT_CCSTAT.VSAFE0 0 1).fon PRT_CCSTAT.VSAFE0 0 = true ∧
    source.fon PRT_CCSTAT.VBUSOK 0 = false ∧ (source.mux 0).hold = none ∧
    ((source.onMux 0 fun m => { m with hold := some ⟨1, 0, none⟩ }).mux 0).hold = some ⟨1, 0, none⟩ ∧
    (unit.quad 0).faPres = false ∧ ((unit.onQuad 0 fun h => { h with faPres := true }).quad 0).faPres = true ∧
    (unit.quad 0).busUv = false ∧ ((unit.onQuad 0 fun h => { h with busUv := true }).quad 0).busUv = true := by
  decide +kernel

theorem witness_StorageRowsComplete : State.reset.fon LOG_ST.READY = false ∧ State.reset.jobs = [] ∧
    (let s := (unit.fset LOG_ST.READY 0 1).logRec 0x80 0 []
     s.fon LOG_ST.READY = true ∧ s.log.buf ≠ [] ∧ s.logWriting = false ∧ s.flashFull = false ∧
      (2048 ≤ ({ s with log := { s.log with pos := 2048 } } : State).log.pos) ∧ s.log.pos < 2048) ∧
    ([(0, 0), (1, 0), (2, 0), (3, 0), (1, 4)].all fun x =>
      let g := (unit.onEngine 5 fun g => { g with swap := x.1, swapLeft := x.2 }).engine 5
      g.swap == x.1 && g.swapLeft == x.2) = true ∧
    exchangeable ((unit.onEngine 5 fun g => { g with run := .waiting }).engine 5) = true ∧
    exchangeable ((running.onEngine 0 fun g => { g with pc := 9 }).engine 0) = false ∧
    (unit.ver 0).next = none ∧ (unit.ver 1).next = none ∧ unit.cfg.expiry = none ∧ unit.cal.expiry = none ∧
    (trial 0 4).cfg.expiry = some 3 ∧ (trial 1 4).cal.expiry = some 3 ∧ unit.host.resetPend = none ∧
    ([0, 7].all fun n => ({ unit with host := { unit.host with resetPend := some (3, n, false) } } :
      State).host.resetPend == some (3, n, false)) = true := by decide +kernel

/-- The word may issue on engine 0 and on EH. -/
def issues (w : IWord) : Bool := readyFor running 0 w && readyFor running 16 w

theorem alone_nop : Alone slotA ∧ Alone slotB := ⟨by unfold Alone; decide, by unfold Alone; decide⟩

theorem witness_ready : Ready running 0 (slotWord slotA .nop) := ready (by decide)

theorem witness_ShortAluRowsComplete : ([AluOp.mov, .add, .adc, .sub, .sbc, .and_, .or_, .xor_, .cmp, .tst].all
      fun op => issues (slotWord slotA (.alu op 1 25)) && issues (slotWord slotB (.alu op 23 2))) = true ∧
    issues (slotWord slotA (.movi 28 31)) = true ∧ issues (slotWord slotB (.addi 0 16)) = true ∧
    issues (slotWord slotA (.cmpi 15 31)) = true := by decide +kernel

theorem witness_ShortUnaryRowsComplete : (running.engine 0).reg 5 < 256 ∧
    ([UnOp.shl, .shr, .asr, .rol, .ror, .rlc, .rrc, .not_, .neg, .inc, .dec, .swapn, .clr].all
      fun op => issues (slotWord slotA (.unary op 5)) && issues (slotWord slotB (.unary op 24))) = true ∧
    ([BitOp.bset, .bclr, .btst, .btgl].all
      fun op => issues (slotWord slotA (.bits op 5 0)) && issues (slotWord slotB (.bits op 5 7))) = true := by
  decide +kernel

theorem witness_FlagRegisterDestination : ([AluOp.add, .adc, .sub, .sbc, .and_, .or_, .xor_].all
      fun op => issues (slotWord slotA (.alu op 25 3))) = true ∧
    ([UnOp.shl, .shr, .asr, .rol, .ror, .rlc, .rrc, .not_, .neg, .inc, .dec, .swapn].all
      fun op => issues (slotWord slotB (.unary op 25))) = true ∧ issues (slotWord slotA (.addi 25 1)) = true ∧
    ([ImmOp.addi, .subi, .andi, .ori, .xori].all fun op => issues (.long (.imm op 25 7))) = true := by decide +kernel

theorem witness_FlagsOfSumsAndDifferences : 255 < 2 ^ 8 ∧ 65535 < 2 ^ 16 ∧ 1 ≤ 1 := by decide

theorem witness_PairedWordReadsBefore : ([AluOp.add, .adc, .sub, .sbc, .and_, .or_, .xor_].all fun x =>
    [AluOp.add, .adc, .sub, .sbc, .and_, .or_, .xor_].all fun y => issues (.pair (.alu x 1 2) (.alu y 3 1))) =
      true := by decide +kernel

theorem witness_LongImmediateRowsComplete : issues (slotWord slotB .nop) = true ∧ issues (.long (.ldi 25 0xFF)) = true ∧
    issues (.long (.bank 0x10)) = true ∧
    ([ImmOp.addi, .subi, .andi, .ori, .xori, .cmpi].all fun op => issues (.long (.imm op 15 0x80))) = true := by
  decide +kernel

theorem witness_PointerRowsComplete : ([true, false].all fun b => issues (slotWord slotA (.padd b 7 25)) &&
      ([true, false].all fun h => issues (slotWord slotB (.movp 2 b 7 h)))) = true ∧
    ([Long.ldip 7 0xFFFF, .paddi 7 0xFFFF, .pcmpi 0 0, .pcpy 7 0, .movs 7 19, .movts 7 0].all
      fun l => issues (.long l)) = true := by decide +kernel

/-- The address stands for a byte of plain memory. -/
def plain (s : State) (e bank off : Nat) (m : Nat × Nat) : Bool :=
  decide (bank ≠ 3) && !decide (0x40 ≤ bank ∧ bank ≤ 0x7F) && ((regPlace e bank off).bind regAt).isNone &&
    s.memPlace e bank off == some m

theorem plainAt {s : State} {e bank off m o : Nat} (h : plain s e bank off (m, o) = true) :
    PlainAt s e bank off m o := by
  simp only [plain, Bool.and_eq_true, decide_eq_true_eq, Bool.not_eq_true', decide_eq_false_iff_not,
    Option.isNone_iff_eq_none, beq_iff_eq] at h
  exact ⟨h.1.1.1, h.1.1.2, h.1.2, h.2⟩

theorem witness_LoadRowsComplete : ([true, false].all fun post =>
      issues (slotWord slotA (.ld 5 true post 0)) && issues (slotWord slotB (.ld 5 false post 7))) = true ∧
    plain running 0 0 0 (0, 0) = true ∧ plain running 16 0 0xFFFF (0x10, 0xFFFF) = true ∧
    (longAddr (running.engine 0) (.disp 0 0 6)) = (0, 6) ∧ plain running 0 0 6 (0, 6) = true ∧
    plain running 0 0 7 (0, 7) = true ∧ issues (.long (.ld 5 (.disp 0 0 6))) = true ∧
    issues (.long (.ldw 7 (.disp 0 0 6))) = true := by decide +kernel

theorem witness_StoreRowsComplete : ([true, false].all fun post =>
      issues (slotWord slotA (.st 5 true post 0)) && issues (slotWord slotB (.st 5 false post 7))) = true ∧
    running.memOpen 0 0 0 = true ∧ running.memOpen 0 0 6 = true ∧ running.memOpen 0 0 7 = true ∧
    running.memOpen 16 0 0xFFFF = true ∧ issues (.long (.st 5 (.disp 0 0 6))) = true ∧
    issues (.long (.stw 7 (.disp 0 0 6))) = true ∧ memKey 0 5 ≠ memKey 0 6 := by decide +kernel

/-- All 16 groups of engine 0 are resident. -/
def full : State := running.onEngine 0 fun g => { g with resg := 16 }

theorem witness_TransferRowsComplete : issues (slotWord slotB (.br 1 62)) = true ∧
    ([Long.br 14 0x7FF, .jmpp 3, .call 0x100, .callp 3].all fun l => issues (.long l)) = true ∧
    (running.engine 0).resg < 16 ∧ readyFor full 0 (.long (.call 0x100)) = true ∧
    readyFor full 0 (.long (.callp 3)) = true ∧ (full.engine 0).resg = 16 ∧ spillAligned (full.engine 0) = true ∧
    (full.engine 0).ssp + 8 ≤ (full.engine 0).ssl ∧ (full.engine 0).ssp + 8 ≤ 0x4000 ∧
    (let s := running.onEngine 0 fun g => { g with depth := 1, resg := 3 }
     readyFor s 0 (slotWord slotB (.sys .ret)) = true ∧ (s.engine 0).depth ≠ 0 ∧ 2 < (s.engine 0).resg) := by
  decide +kernel

theorem witness_LoopRowsComplete : issues (.long (.loop (.imm 0) 1)) = true ∧
    issues (.long (.loop (.imm 4095) 4095)) = true ∧ issues (.long (.loop (.ptr 7) 2)) = true ∧
    (running.engine 0).loops.length < 4 ∧
    (let s := running.onEngine 0 fun g => { g with loops := [⟨1, 5, 2⟩] }
     readyFor s 0 (slotWord slotB (.sys .lpop)) = true ∧ (s.engine 0).loops ≠ []) ∧
    ([0, 255].all fun c => issues (.long (.rep (.imm c)))) = true ∧ (running.engine 0).loops = [] ∧
    (running.engine 0).delay = [] ∧ (running.engine 0).pc + 1 < bankWords 0 := by decide +kernel

/-- Engine 0 in an interrupt handler (or a trap handler) entered with two slides, outside loops. -/
def handler (trap : Bool) : State := running.onEngine 0 fun g =>
  { g with psw := if trap then 64 else 32, resg := 4, depth := 2 }

/-- An attach event waits for engine 0, which takes interrupts. -/
def interrupted : State := (running.fset PRT_ATTEV.VCONNOC 0 1).onEngine 0 fun g => { g with psw := 16, imask := 1 }

theorem witness_SystemRowsComplete :
    (let s := running.onEngine 0 fun g => { g with fresh := false }
     readyFor s 0 (slotWord slotB (.sys .wtick)) = true ∧ (s.engine 0).fresh = false) ∧
    ([SysOp.ei, .di, .brk].all fun op => issues (slotWord slotB (.sys op))) = true ∧
    ([true, false].all fun t => let s := handler t
      readyFor s 0 (slotWord slotB (.sys .reti)) && (bit (s.engine 0).psw 6 == t) && (bit (s.engine 0).psw 5 == !t) &&
        bits (s.engine 0).tpsw 10 8 == (s.engine 0).loops.length && bits (s.engine 0).ipsw 10 8 == 0 &&
        decide (3 < (s.engine 0).resg)) = true ∧
    interrupted.irqDue 0 = true ∧ (interrupted.engine 0).resg < 15 := by decide +kernel

theorem witness_TrapEntrySavesAndGoes : bit ((handler true).engine 0).psw 6 = true ∧
    bit (running.engine 0).psw 6 = false ∧ (running.engine 0).resg < 15 := by decide +kernel

theorem witness_TrapCauses : ([0, 16].all fun e => decide ((running.engine e).run = .running ∧ running.irqDue e = false ∧
      (running.engine e).pc < bankWords e)) = true ∧
    29 ≤ (29 : BitVec 5).toNat ∧ sregWrite (1 : BitVec 6).toNat = false ∧ 8 ≤ (8 : BitVec 5).toNat ∧
    issues (.long (.ldw 2 (.disp 0 0 5))) = true ∧ issues (.long (.stw 2 (.disp 0 0 5))) = true ∧
    (longAddr (running.engine 0) (.disp 0 0 5)).2 % 2 = 1 ∧
    issues (.long (.ld 1 (.abs 0 0x4000))) = true ∧ issues (.long (.st 1 (.abs 0 0x4000))) = true ∧
    longAddr (running.engine 0) (.abs 0 0x4000) = (0, 0x4000) ∧
    ((running.onEngine 0 (Engine.began true)).load8 0 0 0x4000).isNone = true ∧
    ((running.onEngine 0 (Engine.began false)).store8 0 0 0x4000 0).isNone = true ∧
    ([SysOp.ret, .lpop, .reti].all fun op => issues (slotWord slotB (.sys op))) = true ∧
    (running.engine 0).depth = 0 ∧ (running.engine 0).loops = [] ∧ bit (running.engine 0).psw 5 = false ∧
    (let s := running.onEngine 0 fun g => { g with loops := List.replicate 4 ⟨1, 5, 2⟩ }
     readyFor s 0 (.long (.loop (.imm 0) 1)) = true ∧ 4 ≤ (s.engine 0).loops.length) ∧
    bankWords 0 ≤ ((running.onEngine 0 fun g => { g with pc := 0xFFFF }).engine 0).pc := by decide +kernel

/-- Engine 0's port runs its link. -/
def linkRunning : State := source.onEngine 0 fun g => { g with run := .running }

/-- The word may issue on engine 0. -/
def issues0 (w : Long) : Bool := readyFor linkRunning 0 (.long w)

theorem witness_Cp0RowsComplete :
    ([Long.rxpop 1 2, .txload 1, .txgo 0, .txgo 1, .txgo 2, .txstat 3, .ordset 0, .ordset 1, .tstart 19, .tstop 0,
      .tread 1 2 19, .idrst 2, .frstx].all issues0) = true ∧ (linkRunning.engine 0).ptr 1 % 8 = 0 ∧
    (linkRunning.pd 0).rx = [] ∧ linkRunning.owns 0 = true ∧
    (let s := linkRunning.onPd 0 fun h => { h with rx := [ctl 7] }
     (s.pd 0).rx = [ctl 7] ∧ (s.engine 0).ptr 1 + 2 + (rxBytes (ctl 7)).length ≤ 0x4000) ∧
    (let s := linkRunning.memWrite 0 0 [2, 30]
     readyFor s 0 (.long (.txload 1)) = true ∧ (s.memGet 0 1).toNat = 30 ∧ (s.memGet 0 0).toNat % 4 = 2) ∧
    (let s := linkRunning.onPd 0 fun h => { h with txDesc := some (ctl 7) }
     (s.pd 0).txDesc = some (ctl 7) ∧ (s.pd 0).hostq.length < 4 ∧ readyFor s 0 (.long (.txgo 2)) = true) ∧
    running.owns 0 = true ∧ (running.fset PAIR_ST.OWN 0 0).owns 0 = false ∧
    readyFor (running.fset PAIR_ST.OWN 0 0) 0 (.long (.rxpop 1 2)) = true := by decide +kernel

theorem witness_Cp1RowsComplete : ([true, false].all fun x =>
      [Long.clra x, .mul .ss false x 1 2, .mul .uu false x 1 2, .mul .su false x 1 2, .mul .ss true x 1 2,
        .mul .uu true x 1 2, .mul .su true x 1 2, .macm x 1 2, .sha x 31, .sha x 32, .adda x true, .adda x false,
        .sata x, .rda x 3 0, .rda x 3 2, .wra x 3 1, .wra x 3 2].all fun l => issues (.long l)) = true ∧
    (running.engine 0).ptrInc 1 % 2 = 0 ∧ (running.engine 0).ptrInc 1 < 0x4000 ∧ (1 : BitVec 3) ≠ 2 := by
  decide +kernel

theorem witness_Cp2RowsComplete :
    ([Long.crci true, .crci false, .crcb 25, .crcm true 1 1, .crcm true 1 4095, .crcr 1 false, .crcr 1 true, .eccg 1 2,
      .eccc 1 2].all fun l => issues (.long l)) = true ∧
    (running.engine 0).ptrInc 1 + 4095 ≤ 0x4000 ∧ (running.engine 0).crc8 = false ∧
    (running.engine 0).ptr 2 % 8 = 0 ∧ (running.engine 0).ptr 2 + 9 ≤ 0x4000 := by decide +kernel

/-! ## Further clauses of the statements -/

/-- The unit with the flash word `w` found uncorrectable. -/
def spoilt (s : State) (w : Nat) : State := { s with fw := { s.fw with bad := [w] } }

/-- A unit in Low Water. -/
def ebbed (s : State) : State := { s with prof := { s.prof with cur := 3 } }

theorem witness_HostCommandsInTheirTurn_waits : unit.waits (pkt 0x10 port0) = false ∧
    (front 0x10 port0 unit).waits (pkt 0x10 port0) = true ∧
    (unit.frontEnd (pkt 0x10 port0) 0).waits (pkt 0x10 port0) = true ∧
    (unit.frontEnd (pkt 0x10 port0) 0).upNext (pkt 0x10 port0) = false := by decide +kernel

theorem witness_PortQueriesAnswer_bad :
    met 0x95 [7, 0, 0, 0, 0, 0, 0, 0, 4, 0, 0, 0] (spoilt (stored unit 0 7 stConfirmed [1, 2, 3, 4]) (placeAddr 0 0 / 8))
      (fun u => u.placeOf 0 7 == some 0 && u.recSize 0 0 == 4 &&
        u.flashBad (placeAddr 0 0 + 0) 4 == some (placeAddr 0 0 / 8)) = true ∧
    (stored unit 0 7 stConfirmed [1, 2, 3, 4]).flashBad (placeAddr 0 0 + 0) 4 = none := by decide +kernel

theorem witness_UnitCommandsAct_paired : ([[1, 0, 0, 0], [3, 0, 0, 0]].all fun ps => met 0x03 ps paired fun u =>
      !u.moving && !u.swapping && u.paired && (List.range 16).all fun p => !u.busyContract p) = true := by
  decide +kernel

theorem witness_PdCommandsAct_answer4 : met 0x32 (port0 ++ [7, 0, 4, 0] ++ [3, 0]) raised (fun u =>
      (u.pd 0).raise == some ⟨7, ctl Code.drSwap⟩ &&
      !u.badAnswer 0 4 (ctl Code.drSwap) (msgOfBytes 0 [3, 0]) && !(msgOfBytes 0 [3, 0]).ext) = true := by
  decide +kernel

theorem witness_PdCommandsAct_bist : ([5, 8].all fun x => met 0x39 (port0 ++ [x, 0, 0, 0])
      (source.fset PRT_RVBUS.CODE 0 345) fun u => u.linkRuns 0 &&
        ((u.reply 0x39 1 1).openCmd 0x39 1 0).bistOk 0) = true := by decide +kernel

theorem witness_StoreCommandsAct_bad : met 0xA3 [9, 0, 0, 0] (spoilt (stored unit 1 9 stStored [1, 2, 3])
      (placeAddr 1 0 / 8)) (fun u => u.placeOf 1 9 == some 0 &&
        u.flashBad (placeAddr 1 0) (u.recSize 1 0) == some (placeAddr 1 0 / 8)) = true ∧
    met 0xA3 [0, 0, 0, 0] ((stored unit 1 9 stStored [1, 2, 3]).fset DEV_CALST.PREV 0 9) (fun u =>
      u.fget DEV_CALST.PREV == 9 && u.placeOf 1 9 == some 0 && u.flashSound (placeAddr 1 0) (u.recSize 1 0) &&
        (u.calAt 9).isSome) = true ∧
    met 0x93 [7, 0, 0, 0] (spoilt (stored (present unit) 0 7 stConfirmed [1, 2, 3, 4]) (placeAddr 0 0 / 8)) (fun u =>
      u.placeOf 0 7 == some 0 && u.flashBad (placeAddr 0 0) (u.recSize 0 0) == some (placeAddr 0 0 / 8) &&
        !u.needsPresence (u.blobAt 7)) = true := by decide +kernel

theorem witness_FirmwareCommandsAct_bad : met 0xB2 (List.replicate 32 0) (spoilt (session owner 1) (slotBase 1 / 8))
      (fun u => !u.flashFull && u.fw.session == some (1, 64, 7) && u.flashBad (slotBase 1) 64 == some (slotBase 1 / 8)) =
        true ∧ (session owner 1).flashSound (slotBase 1) 64 = true := by decide +kernel

theorem witness_SensingRowsComplete_awake : (unit.engine 0).awake = true ∧
    ((unit.onEngine 0 fun g => { g with awake := false }).engine 0).awake = false := by decide +kernel

theorem witness_AttachRowsComplete_more :
    (let s := (attIn 0xE 1 2 fun h => { h with srcDis := some 0 }).fset PRT_CCCTL.HOLDATT 0 1
     s.attDue 0 (s.att 0).srcDis = true ∧ s.attState 0 = 0xE ∧ (s.att 0).ref2 = 2 ∧ s.fget PRT_CCCTL.HOLDATT 0 ≠ 0) ∧
    (let s := ((ebbed owner).fset PRT_CMPMODE.ACTIVE 0 3).onAtt 0 fun h => { h with scanAt := 0, scanPos := 1 }
     (s.fset TICK_COUNT.COUNT 0 5).scanDue 0 = false ∧ (s.fset TICK_COUNT.COUNT 0 1).scanDue 0 = true) ∧
    source.scanDue 0 = true ∧ appliesRp (source.termState 0) = true ∧
    ((source.onPd 0 fun h => { h with line := .packet }).pd 0).line = .packet := by decide +kernel

theorem witness_TickEdgeActs_adopt : (ticking.onPair fun h => { h with adopt := some 77 }).pair.adopt = some 77 ∧
    77 < 2 ^ 48 := by decide +kernel

/-- A seal is fitted, its level as known, and no presence is granted. -/
def sealed : State :=
  let s := (unit.fset DEV_PRES.MODE 0 1).fset DEV_PRES.PIN 0 0
  { s with pres := { s.pres with sample := false, count := 6250, known := true } }

theorem witness_PinAndPresenceRowsComplete_seal : sealed.pres.sample = false ∧ sealed.pres.known = true ∧
    sealed.fget DEV_PRES.PIN = b2n false ∧ sealed.pwire = 1 ∧ sealed.fon DEV_PRES.GRANT = false := by decide +kernel

/-- Port 0 in Low Water, its PHY asleep or awake. -/
def low (awake : Bool) : State := (ebbed source).onPd 0 fun h => { h with phyOn := awake }

theorem witness_PdRowsComplete_more : (low false).phyUp 0 = false ∧ (low true).phyUp 0 = true ∧
    (low true).lowWater = true ∧ source.phyUp 0 = true ∧ source.blanked 0 = false ∧ (low true).blanked 0 = false ∧
    (low true).linkRuns 0 = true ∧ (source.onPd 0 fun h => { h with frsGen := true }).blanked 0 = true ∧
    (let c := source.onPd 0 fun h => { h with line := .goodCrc 0 0x0041 }
     (c.pd 0).line = .goodCrc 0 0x0041 ∧ (c.sw 0).acc = none ∧
      ((c.onSw 0 fun h => { h with acc := some 2 }).sw 0).acc = some 2) ∧
    (source.pd 0).carrier = false ∧ (source.att 0).ovPend = false ∧
    (((dueTimer source 10).onPd 0 fun h => { h with ordHard := true }).timExpire 0 10 |>.pd 0).ordHard = true ∧
    ((dueTimer source 10).timExpire 0 10 |>.pd 0).ordHard = false ∧
    ((dueTimer sink 18).timExpire 0 18 |>.pd 0).lastReq = none ∧
    (((dueTimer sink 18).onPd 0 fun h => { h with lastReq := some (dat 2 [7]) }).timExpire 0 18 |>.pd 0).lastReq =
      some (dat 2 [7]) ∧
    (let s := source.onPd 0 fun h => { h with owedT := [6] }
     s.timDue 0 6 = true ∧ (s.pd 0).owedT.contains 6 = true) := by decide +kernel

theorem witness_SwapRowsComplete_reset : ((inSwap source 5 4 fun h => { h with newPwr := some 0 }).sw 0).newPwr = some 0 ∧
    (sink.fset PRT_CCSTAT.VBUSOK 0 1).fon PRT_CCSTAT.VBUSOK 0 = true ∧ sink.fon PRT_CCSTAT.VBUSOK 0 = false := by
  decide +kernel

theorem witness_SystemRowsComplete_wtick : ([true, false].all fun l => let s := running.onEngine 0 fun g =>
      { g with latched := l, fresh := l }
    readyFor s 0 (slotWord slotB (.sys .wtick)) && (s.engine 0).latched == l && (s.engine 0).fresh == l) = true := by
  decide +kernel

/-- EH's bank is the flash window, and the word at its start was found uncorrectable. -/
def windowed : State := (spoilt running 0).onEngine 16 fun g => { g with bank := 0x40 }

theorem witness_TrapCauses_window : readyFor windowed 16 (.long (.ld 1 (.abs 0 0))) = true ∧
    longAddr (windowed.engine 16) (.abs 0 0) = (0x40, 0) ∧
    ((windowed.onEngine 16 (Engine.began true)).load8 16 0x40 0).isSome = true ∧
    (windowed.onEngine 16 (Engine.began true)).windowBad 0x40 0 = true := by decide +kernel

/-- R464: the edge of a pair's application goes through H22 and H23 to the twin, which takes it while it is to come. -/
theorem test_apply_edge_carried :
    let a : ApplyAt := { edge := 40, version := 7, how := 1, window := 60, pair := true }
    let u := unit.bothApply a
    let heard := fun (n : Nat) => (unit.fset TICK_COUNT.COUNT 0 n).onPair fun h => { h with
      hin := List.replicate 22 0 ++ [u.fget (PAIR_HSOUT.WORD 14), u.fget (PAIR_HSOUT.WORD 15)] }
    ((heard 39).applyHear []).cfg.next = some a ∧ ((heard 40).applyHear []).cfg.next = none := by decide +kernel

end Sys2Proof.Tests
end

section
/-!
SUPPORT. Register accesses by engines (R9, R366 to R368, R374, R470): what a write of bytes or a read
comes to where a register stands, and the registers whose writes start something.
-/
namespace Sys2Proof

@[simp] theorem length_toBytes (n v : Nat) : (toBytes n v).length = n := by
  induction n generalizing v with
  | zero => rfl
  | succ n ih => simp [toBytes, ih]

/-- Bytes cut off a number read back as its low bytes. -/
theorem ofBytes_toBytes (n v : Nat) : ofBytes (toBytes n v) = v % 256 ^ n := by
  induction n generalizing v with
  | zero => simp [toBytes, ofBytes, Nat.mod_one]
  | succ n ih => simp [toBytes, ofBytes, ih, Nat.pow_succ', Nat.mod_mul]

/-- The upper byte of a word whose lower byte is clear is the whole word. -/
theorem and_upperByte {x : Nat} (hx : x < 2 ^ 16) (hl : x % 256 = 0) : x &&& 0xFF00 = x := by
  obtain ⟨y, rfl⟩ : ∃ y, x = y <<< 8 := ⟨x / 256, by simp only [Nat.shiftLeft_eq]; omega⟩
  have hy : y < 2 ^ 8 := by simp only [Nat.shiftLeft_eq] at hx; omega
  have hm : y &&& 0xFF = y := by
    rw [show 0xFF = 2 ^ 8 - 1 from rfl, Nat.and_two_pow_sub_one_eq_mod, Nat.mod_eq_of_lt hy]
  calc y <<< 8 &&& 0xFF00 = y <<< 8 &&& 0xFF <<< 8 := rfl
    _ = (y &&& 0xFF) <<< 8 := Nat.shiftLeft_and_distrib.symm
    _ = y <<< 8 := by rw [hm]

/-- Clearing a word's lower byte and then its upper one leaves nothing. -/
theorem clear_bothBytes (x : Nat) :
    (x - (x &&& 0xFF)) % 2 ^ 16 - ((x - (x &&& 0xFF)) % 2 ^ 16 &&& 0xFF00) = 0 := by
  have hm : x &&& 0xFF = x % 256 := Nat.and_two_pow_sub_one_eq_mod x 8
  rw [hm, and_upperByte (by omega) (by omega), Nat.sub_self]

end Sys2Proof

namespace Sys2Proof.Machine.State

/-! ### Writes of one field -/

/-- Of two writes of one field the later stands. -/
@[simp] theorem fset_fset (s : State) (f : Fld) (i v w : Nat) : (s.fset f i v).fset f i w = s.fset f i w := by
  simp only [fset, Tab.put_put]

/-- A write sees its value only up to the field's width. -/
theorem fset_congr (s : State) (f : Fld) (i : Nat) {v w : Nat} (h : v % 2 ^ f.w = w % 2 ^ f.w) :
    s.fset f i v = s.fset f i w := by
  simp only [fset, h]

/-- A write of one field leaves every other key of the register table alone. -/
theorem get_regs_fset_ne (s : State) {f : Fld} {i k : Nat} (h : k ≠ f.key i) (v d : Nat) :
    (s.fset f i v).regs.get d k = s.regs.get d k :=
  Tab.get_put_ne' _ _ h _ _

/-! ### Writes of a unit register -/

/-- Every field but PRT_MUX.STATE is accessed by its own code. -/
theorem access_of_place_ne (s : State) {f : Acc × Fld} (i : Nat) (h : (f.2.place == PRT_MUX.STATE.place) = false) :
    s.access f i = f.1 := by
  simp [access, h]

/-- A write that covers the whole of an RW field without rules sets the field to its part of the value. -/
theorem fieldWrite_rw_whole (s : State) {f : Fld} (i v mask : Nat) (eh : Bool) (hw : 0 < f.w)
    (hm : fldMask f mask = 2 ^ f.w - 1) (hl : legalOf f = none) :
    s.fieldWrite .rw f i v mask eh = s.fset f i (fldMask f v) := by
  have hne : 2 ^ f.w - 1 ≠ 0 := by have := Nat.one_lt_two_pow hw.ne'; omega
  have hx : fldMask f v < 2 ^ f.w := Nat.mod_lt _ (by positivity)
  simp only [fieldWrite, hm, hl, hne, if_false, Nat.and_two_pow_sub_one_eq_mod]
  apply fset_congr
  have := Nat.div_add_mod (s.fget f i) (2 ^ f.w)
  rw [show s.fget f i - s.fget f i % 2 ^ f.w = 2 ^ f.w * (s.fget f i / 2 ^ f.w) by omega]
  simp

/-- No write of a unit register is masked: R237 and R14 speak of registers of ports and quads. -/
theorem openMask_unit (s : State) {r : Reg} (i mask : Nat) (h : r.base < 0xFC0000) :
    s.openMask r i mask = mask := by
  have port {b : Nat} (hb : 0xFC0000 ≤ b) : r.base ≠ b := by omega
  simp only [openMask, port (b := (PRT_CMP.reg 6).base) (by decide), port (b := (PRT_CMP.reg 7).base) (by decide),
    port (b := (PRT_CMP.reg 0).base) (by decide), port (b := (PRT_CMP.reg 1).base) (by decide),
    port (b := (PRT_PDTIM.reg 2).base) (by decide), port (b := PRT_MUX.reg.base) (by decide),
    port (b := QD_JCFG.reg.base) (by decide), false_or, false_and, if_false]

/-- A write to a unit register outside the weir stores its fields and starts its own action. -/
theorem regWrite_unit (s : State) (e : Nat) {r : Reg} (i v mask : Nat)
    (hb : r.base < 0xF30000 ∨ 0xF40000 ≤ r.base ∧ r.base < 0xFC0000)
    (hw : r.base ≠ FL_WIN.reg.base) (hs : r.base ≠ DEV_SWAP.reg.base) :
    s.regWrite e r i v mask = ((s.regStore r i v mask (decide (16 ≤ e))).unitAction r v mask).cntAction r := by
  have hq : r.base ≠ QD_JCFG.reg.base := by
    rw [show QD_JCFG.reg.base = 0xFD0000 from rfl]
    omega
  have hp : ¬ 0xFC0000 ≤ r.base := by omega
  have hx : ¬ (0xF30000 ≤ r.base ∧ r.base < 0xF40000) := by omega
  have hm : s.openMask r i mask = mask := openMask_unit s i mask (by omega)
  simp only [regWrite, hq, hw, hs, hp, hx, hm, false_and, if_false]

/-- DEV_MUXIND written by EH starts nothing: its 14 bits are stored. -/
theorem regWrite_muxind (s : State) (v : Nat) :
    s.regWrite 16 DEV_MUXIND.reg 0 v 0xFFFF = s.fset DEV_MUXIND.IND 0 (v % 2 ^ 14) := by
  have store : s.regStore DEV_MUXIND.reg 0 v 0xFFFF true = s.fset DEV_MUXIND.IND 0 (v % 2 ^ 14) := by
    show s.fieldWrite (s.access (.rw, DEV_MUXIND.IND) 0) DEV_MUXIND.IND 0 v 0xFFFF true = _
    rw [access_of_place_ne _ _ (by decide), fieldWrite_rw_whole _ _ _ _ _ (by decide) (by decide) (by decide +kernel)]
    simp [fldMask, DEV_MUXIND.IND]
  rw [regWrite_unit s 16 0 v 0xFFFF (by decide) (by decide) (by decide)]
  show ((s.regStore DEV_MUXIND.reg 0 v 0xFFFF true).unitAction _ v 0xFFFF).cntAction _ = _
  rw [store]
  rfl

/-- A rill engine's write of QD_JCFG is ignored (chapter 7, register tables). -/
theorem regWrite_jcfg_rill (s : State) {e : Nat} (he : e < 16) (i v mask : Nat) :
    s.regWrite e QD_JCFG.reg i v mask = s := by
  simp [regWrite, he]

/-- A write of the whole of CNT_CTL adds its bits to the clears pending (R474). -/
theorem regWrite_cntCtl (s : State) (v : Nat) (hv : v < 2 ^ 32) :
    s.regWrite 16 CNT_CTL.reg 0 v 0xFFFFFFFF = s.fset CNT_CTL.CLR 0 (s.fget CNT_CTL.CLR ||| v) := by
  have store : s.regStore CNT_CTL.reg 0 v 0xFFFFFFFF true = s := by
    show s.fieldWrite (s.access (.wo, CNT_CTL.CLR) 0) CNT_CTL.CLR 0 v 0xFFFFFFFF true = _
    rw [access_of_place_ne _ _ (by decide)]
    simp [fieldWrite]
  have hm : v &&& 0xFFFFFFFF = v := by
    rw [show 0xFFFFFFFF = 2 ^ 32 - 1 from rfl, Nat.and_two_pow_sub_one_eq_mod, Nat.mod_eq_of_lt hv]
  rw [regWrite_unit s 16 0 v 0xFFFFFFFF (by decide) (by decide) (by decide)]
  show ((s.regStore CNT_CTL.reg 0 v 0xFFFFFFFF true).unitAction _ v 0xFFFFFFFF).cntAction _ = _
  rw [store]
  show s.fset CNT_CTL.CLR 0 (s.fget CNT_CTL.CLR ||| v &&& 0xFFFFFFFF) = _
  rw [hm]

/-- A write of the whole of FL_WIN that leaves REFUSED alone asks for the window at its BASE (R368). -/
theorem regWrite_flWin (s : State) (v : Nat) (hv : v < 2 ^ 10) :
    s.regWrite 16 FL_WIN.reg 0 v 0xFFFF =
      (s.fset FL_WIN.REFUSED 0 (s.fget FL_WIN.REFUSED)).flWinWrite v := by
  have refused : s.fieldWrite .w1c FL_WIN.REFUSED 0 v 0xFFFF true =
      s.fset FL_WIN.REFUSED 0 (s.fget FL_WIN.REFUSED) := by
    have hx : fldMask FL_WIN.REFUSED v = 0 := by simp only [fldMask, FL_WIN.REFUSED]; omega
    simp [fieldWrite, hx, show fldMask FL_WIN.REFUSED 0xFFFF = 1 from rfl]
  have base (old : Nat) : (old - (old &&& 0x3FF) + (v &&& 0x3FF)) % 1024 = v := by
    rw [show 0x3FF = 2 ^ 10 - 1 from rfl, Nat.and_two_pow_sub_one_eq_mod, Nat.and_two_pow_sub_one_eq_mod]
    omega
  show ((s.fieldWrite .w1c FL_WIN.REFUSED 0 v 0xFFFF true).flWinWrite
    ((_ - (_ &&& 0x3FF) + (fldMask FL_WIN.BASE v &&& 0x3FF)) % 1024)) = _
  rw [refused, show fldMask FL_WIN.BASE v = v from by simp only [fldMask, FL_WIN.BASE]; omega, base]

/-- In Low Water and while a handover is under way, requests for an exchange fail at once (R378). -/
theorem swapRequest_refused {s : State} (h : s.lowWater = true ∨ s.moving = true) (v : Nat) :
    s.swapRequest v = s.fset DEV_SWAPST.FAIL 0 (s.fget DEV_SWAPST.FAIL ||| v % 2 ^ 17) := by
  simp [swapRequest, h]

/-- Otherwise they are added to those pending (R375). -/
theorem swapRequest_taken {s : State} (hl : s.lowWater = false) (hm : s.moving = false) (v : Nat) :
    s.swapRequest v = (s.fset DEV_SWAP.REQ 0 (s.fget DEV_SWAP.REQ ||| v % 2 ^ 17)).swapNext := by
  simp [swapRequest, hl, hm]

/-! ### Reads -/

/-- A load of a byte at which a register stands is a load of that register's byte. -/
theorem load8_register {s : State} {e bank off i j : Nat} {r : Reg} (hbox : bank ≠ 3)
    (hflash : ¬(0x40 ≤ bank ∧ bank ≤ 0x7F)) (h : (regPlace e bank off).bind regAt = some (r, i, j)) :
    s.load8 e bank off = some (s.regLoad e r i j 1) := by
  simp only [load8, hbox, hflash, h, if_false]

/-- A read of byte 0 of TICK_COUNT by an engine latches the count for it (R68). -/
theorem regLoad_tickCount (s : State) (e : Eng) :
    (s.regLoad e TICK_COUNT.reg 0 0 1).2 =
      s.onEngine e fun g => { g with coh := g.coh.put none 0xF00000 (some s.tick) } := by
  have hv : s.regRead TICK_COUNT.reg 0 = s.tick := by
    simp [regRead, TICK_COUNT.reg, TICK_COUNT.COUNT, tick]
  have hc : coherent TICK_COUNT.reg = true ∧ (e : Nat) < 17 := ⟨rfl, e.isLt⟩
  have hn : TICK_COUNT.reg.base ≠ TICK_CYCLE.reg.base := by decide
  simp only [regLoad, hn, hc, hv, if_false, and_self, if_true]
  rfl

/-- LOG_ST stands at 0xF4:0x040C of EH's space, byte after byte. -/
theorem regAt_logSt {j : Nat} (hj : j < 4) : (regPlace 16 0xF4 (0x40C + j)).bind regAt = some (LOG_ST.reg, 0, j) := by
  match j, hj with
  | 0, _ => rfl
  | 1, _ => rfl
  | 2, _ => rfl
  | 3, _ => rfl

/-- EH's load of byte `j` of LOG_ST clears that byte's part of DROP, the register's one RC field (R9). -/
theorem load8_logSt (s : State) {j : Nat} (hj : j < 4) :
    ((s.load8 16 ((0xF4040C + j) / 0x10000) ((0xF4040C + j) % 0x10000)).map (·.2)).getD s =
      s.fset LOG_ST.DROP 0
        (s.fget LOG_ST.DROP - (s.fget LOG_ST.DROP &&& fldMask LOG_ST.DROP (255 * 256 ^ j))) := by
  rw [show (0xF4040C + j) / 0x10000 = 0xF4 by omega, show (0xF4040C + j) % 0x10000 = 0x40C + j by omega,
    load8_register (by decide) (by decide) (regAt_logSt hj)]
  rfl

end Sys2Proof.Machine.State

namespace Sys2Proof.Machine
open State

/-! ### The rows -/

/-- Where no register stands a write changes nothing. -/
theorem exec_registerWrite_nowhere {e : Eng} {addr : BitVec 24} (bytes : List Byte) (s : State)
    (h : regPlace e (addr.toNat / 0x10000) (addr.toNat % 0x10000) = none) :
    exec (.registerWrite e addr bytes) s = .next s := by
  show execRegisterWrite e addr bytes s = _
  simp only [execRegisterWrite, h, Option.bind_none]

/-- Outside the bank of the engine's own registers, a write of bytes is a write of the register standing there
under the mask of those bytes. -/
theorem exec_registerWrite_at {e : Eng} {addr : BitVec 24} (bytes : List Byte) (s : State) {r : Reg} {i j : Nat}
    (h : (regPlace e (addr.toNat / 0x10000) (addr.toNat % 0x10000)).bind regAt = some (r, i, j))
    (hb : addr.toNat / 0x10000 ≠ 4) : exec (.registerWrite e addr bytes) s =
      .next (s.regWrite e r i (ofBytes bytes * 256 ^ j) ((256 ^ bytes.length - 1) * 256 ^ j)) := by
  show execRegisterWrite e addr bytes s = _
  simp only [execRegisterWrite, h, hb, writerOf, false_and, if_false]

/-- QD_JCFG of its own quad stands at 0x02:0x0000 of a rill engine (R366). -/
theorem regAt_jcfg_rill (p : Port) : (regPlace p.eng 0x02 0).bind regAt = some (QD_JCFG.reg, p.val / 4, 0) := by
  have place : regPlace p.eng 0x02 0 = some (0xFD0000 + 0x1000 * (p.val / 4)) := by simp [regPlace, Port.eng]
  have quad : p.val / 4 < 4 := by omega
  rw [place]
  match p.val / 4, quad with
  | 0, _ => rfl
  | 1, _ => rfl
  | 2, _ => rfl
  | 3, _ => rfl

/-- A read of the whole of LOG_ST clears DROP and nothing else: bytes 0 and 1 cover none of it, bytes 2 and 3
a half each. -/
theorem exec_rcRegisterRead_logSt (s : State) :
    exec (.rcRegisterRead 0xF4040C#24 4) s = .next (s.fset LOG_ST.DROP 0 0) := by
  show execRcRegisterRead 0xF4040C#24 4 s = _
  have masks : fldMask LOG_ST.DROP (255 * 256 ^ 0) = 0 ∧ fldMask LOG_ST.DROP (255 * 256 ^ 1) = 0 ∧
      fldMask LOG_ST.DROP (255 * 256 ^ 2) = 0xFF ∧ fldMask LOG_ST.DROP (255 * 256 ^ 3) = 0xFF00 := by decide
  obtain ⟨m0, m1, m2, m3⟩ := masks
  show Host.Outcome.next ([0, 1, 2, 3].foldl (fun s k =>
    ((s.load8 16 ((0xF4040C + k) / 0x10000) ((0xF4040C + k) % 0x10000)).map (·.2)).getD s) s) = _
  simp only [List.foldl, load8_logSt _ (show 0 < 4 by decide), load8_logSt _ (show 1 < 4 by decide),
    load8_logSt _ (show 2 < 4 by decide), load8_logSt _ (show 3 < 4 by decide), m0, m1, m2, m3, fset_fset,
    fget_fset_same, Nat.and_zero, Nat.sub_zero]
  rw [show LOG_ST.DROP.w = 16 from rfl, clear_bothBytes]

/-- Settles O30: the write rule for every address, then each register whose access starts something, by the lemma
of its name. The window FL_WIN refuses is the one over the key, certificate and factory area (R368). -/
theorem registerRowsComplete : Obligations.RegisterRowsComplete := by
  unfold Obligations.RegisterRowsComplete
  refine ⟨fun e addr bytes s => ⟨exec_registerWrite_nowhere bytes s, fun r i j => exec_registerWrite_at bytes s⟩,
    fun v s => ?muxind, fun p v s => ?jcfg, fun v s hv => ?window, fun v s => ⟨fun h => ?refused, fun hl hm => ?taken⟩,
    fun v s => ?clear, fun e s => ?count, fun s => ?rc⟩
  case muxind =>
    have hw := exec_registerWrite_at (e := 16) (addr := 0xF10004#24) (toBytes 2 v.toNat) s (r := DEV_MUXIND.reg)
      (i := 0) (j := 0) rfl (by decide)
    have hv : v.toNat % 256 ^ 2 = v.toNat := Nat.mod_eq_of_lt v.isLt
    rw [ofBytes_toBytes, length_toBytes, hv, pow_zero, Nat.mul_one] at hw
    refine ⟨_, hw.trans (congrArg _ (regWrite_muxind s v.toNat)), rfl, ?_⟩
    show 0 + (s.fset DEV_MUXIND.IND 0 (v.toNat % 2 ^ 14)).fget DEV_MUXIND.IND * 2 ^ 0 = _
    rw [fget_fset_same, show DEV_MUXIND.IND.w = 14 from rfl]
    omega
  case jcfg =>
    rw [exec_registerWrite_at _ s (regAt_jcfg_rill p) (by decide), regWrite_jcfg_rill s (e := p.eng) p.isLt]
  case window => exact congrArg Host.Outcome.next (regWrite_flWin s v.toNat hv)
  case refused =>
    show Host.Outcome.next (s.swapRequest v.toNat) = _
    rw [swapRequest_refused h]
  case taken =>
    show Host.Outcome.next (s.swapRequest v.toNat) = _
    rw [swapRequest_taken hl hm]
  case clear => exact congrArg Host.Outcome.next (regWrite_cntCtl s v.toNat v.isLt)
  case count => exact congrArg Host.Outcome.next (regLoad_tickCount s e)
  case rc =>
    exact ⟨_, exec_rcRegisterRead_logSt s, fget_fset_same .., rfl, fun k hk d => get_regs_fset_ne s hk 0 d⟩

end Sys2Proof.Machine
end

section
/-!
SUPPORT. UNIT_PROFILE (R29 to R33): which ports count as under contract, and what the command's body comes
to where Low Water is refused and where the unit moves or exchanges code.
-/
namespace Sys2Proof.Machine.State

/-! ### Ports under an EPR, PPS or AVS contract -/

/-- A port counts by its owner's registers, or, owned by the twin, by words of its inbound record (R33, R266). -/
theorem busyContract_iff (s : State) (p : Nat) : s.busyContract p = true ↔
    s.owns p = true ∧ (3 ≤ s.fget PRT_CONTRACT.TYPE p ∨ s.fon PRT_PDST.EPR p = true) ∨
      s.owns p = false ∧ bit (s.fget PAIR_SHOK.TWINOWN) p = true ∧
        (3 ≤ bits (s.recWord (inBuf p) 1) 31 29 ∨ bit (s.recWord (inBuf p) 1) 55 = true) := by
  unfold busyContract
  cases s.owns p <;> simp

/-! ### The body of UNIT_PROFILE -/

/-- Low Water over such a contract is refused (R33). -/
theorem doUnitProfile_lowWater_busy {s : State} {p : Nat} (hp : p < 16) (hb : s.busyContract p = true) (tag : Byte) :
    doUnitProfile tag [3, 0, 0, 0] s = s.reply 0x03 tag 0x22 := by
  have legal : (decide (par [3, 0, 0, 0] 0 1 = 0 ∨ 3 < par [3, 0, 0, 0] 0 1) ||
      !zeroAt [3, 0, 0, 0] 1 3) = false := by decide
  have busy : (decide (par [3, 0, 0, 0] 0 1 = 3) && (List.range 16).any s.busyContract) = true := by
    rw [show par [3, 0, 0, 0] 0 1 = 3 from rfl, decide_eq_true rfl, Bool.true_and, List.any_eq_true]
    exact ⟨p, List.mem_range.mpr hp, hb⟩
  unfold doUnitProfile
  rw [judge_passed legal, judge_refused busy]

/-- A legal profile other than Low Water is asked for whatever the contracts are. -/
theorem doUnitProfile_asks {ps : List Byte} (hx : par ps 0 1 = 1 ∨ par ps 0 1 = 2) (hz : zeroAt ps 1 3 = true)
    (tag : Byte) (s : State) : doUnitProfile tag ps s = s.askProfile (par ps 0 1) tag := by
  have legal : (decide (par ps 0 1 = 0 ∨ 3 < par ps 0 1) || !zeroAt ps 1 3) = false := by
    rw [hz, decide_eq_false (by omega)]; rfl
  have other : (decide (par ps 0 1 = 3) && (List.range 16).any s.busyContract) = false := by
    rw [decide_eq_false (by omega)]; rfl
  unfold doUnitProfile
  rw [judge_passed legal, judge_passed other, judge_nil]

/-! ### A profile asked for while the unit moves or exchanges code (R32) -/

section
variable {s : State} (hb : s.moving = true ∨ s.swapping = true)
include hb

theorem askProfile_defers_first (hd : s.prof.deferred = none) (prof : Nat) (tag : Byte) :
    s.askProfile prof tag = ({ s with prof := { s.prof with deferred := some (prof, tag.toNat) } }.reply
      0x03 tag 2).openCmd 0x03 tag := by
  simp only [askProfile, Bool.or_eq_true, hb, if_true, hd]

theorem askProfile_defers_next {e : Nat × Nat} (hd : s.prof.deferred = some e) (prof : Nat) (tag : Byte) :
    s.askProfile prof tag = ({ s.complete 0x03 e.2 0x22 with prof := { (s.complete 0x03 e.2 0x22).prof with
      deferred := some (prof, tag.toNat) } }.reply 0x03 tag 2).openCmd 0x03 tag := by
  simp only [askProfile, Bool.or_eq_true, hb, if_true, hd]

end

end Sys2Proof.Machine.State

namespace Sys2Proof.Machine
open State

/-- Settles O18: the port at hand is under contract, by the lemma on contracts, so the second check refuses. -/
theorem lowWaterRefusedOverContracts : Obligations.LowWaterRefusedOverContracts := by
  unfold Obligations.LowWaterRefusedOverContracts
  intro tag s u p served hp contract
  have busy : u.busyContract p = true := (busyContract_iff u p).mpr contract
  calc exec (.unitProfile tag [3, 0, 0, 0]) s
      = .next (doUnitProfile tag [3, 0, 0, 0] u) := hostRow_served served doUnitProfile
    _ = .next (u.reply 0x03 tag 0x22) := by rw [doUnitProfile_lowWater_busy hp busy]

/-- Settles O19: the body asks for the profile, and what that does goes by the profile deferred before. -/
theorem profileChangeDefers : Obligations.ProfileChangeDefers := by
  unfold Obligations.ProfileChangeDefers
  intro tag s u x d hx served moves hd v
  have asked : par [byte x, 0, 0, 0] 0 1 = x := by rcases hx with rfl | rfl <;> rfl
  have run : exec (.unitProfile tag [byte x, 0, 0, 0]) s = .next (u.askProfile x tag) :=
    calc exec (.unitProfile tag [byte x, 0, 0, 0]) s
        = .next (doUnitProfile tag [byte x, 0, 0, 0] u) := hostRow_served served doUnitProfile
      _ = .next (u.askProfile x tag) := by rw [doUnitProfile_asks (by rwa [asked]) rfl, asked]
  rw [run]
  cases d with
  | none => rw [askProfile_defers_first moves hd]
  | some e => rw [askProfile_defers_next moves hd]

end Sys2Proof.Machine
end

section
/-!
SUPPORT. What counters and the log touch (R470 to R473, R480): the evidence registers, and of the hardware
the counters and the log's buffer. A walk over the 32 counters does to each what its own step does.
-/
namespace Sys2Proof

/-- A bit just set reads as set. -/
@[simp] theorem bit_setBit_true (v i : Nat) : bit (setBit v i true) i = true := by
  simp [bit, setBit]

end Sys2Proof

namespace Sys2Proof.Machine

/-- Field `f` at index `i` stands outside the counters' and the log's registers (0xF4:0000 to 0xF4:FFFF). -/
def Fld.OffEvidence (f : Fld) (i : Nat) : Prop := f.key i < 0xF40000 * 64 ∨ 0xF50000 * 64 ≤ f.key i

/-- Two counters have two places. -/
theorem countKey_ne {j k : Nat} (h : k ≠ j) : (CNT_VAL.COUNT k).key 0 ≠ (CNT_VAL.COUNT j).key 0 := by
  simp only [Fld.key, CNT_VAL.COUNT]
  omega

namespace State

/-! ### What only counts or records -/

/-- `t` is `s` but for evidence registers, the counters' hardware and the log's buffer. -/
structure EvidenceOnly (s t : State) : Prop where
  rest : t = { s with regs := t.regs, cnts := t.cnts, log := t.log }
  flds : ∀ (f : Fld) (i : Nat), f.OffEvidence i → t.fget f i = s.fget f i

namespace EvidenceOnly

theorem refl (s : State) : EvidenceOnly s s := ⟨rfl, fun _ _ _ => rfl⟩

theorem symm {s t : State} (h : EvidenceOnly s t) : EvidenceOnly t s :=
  ⟨by rw [h.rest], fun f i off => (h.flds f i off).symm⟩

theorem trans {s t u : State} (h : EvidenceOnly s t) (k : EvidenceOnly t u) : EvidenceOnly s u where
  rest := calc
    u = { t with regs := u.regs, cnts := u.cnts, log := u.log } := k.rest
    _ = { s with regs := u.regs, cnts := u.cnts, log := u.log } := by rw [h.rest]
  flds f i off := (k.flds f i off).trans (h.flds f i off)

variable {s t : State} (h : EvidenceOnly s t)
include h

theorem eff : t.eff = s.eff := by rw [h.rest]
theorem pair : t.pair = s.pair := by rw [h.rest]
theorem mem : t.mem = s.mem := by rw [h.rest]
theorem host : t.host = s.host := by rw [h.rest]

theorem eget (f : Fld) (i : Nat) : t.eget f i = s.eget f i := by simp only [State.eget, h.eff]

end EvidenceOnly

theorem when_evidenceOnly {s : State} {c : Bool} {g : State → State} (hg : EvidenceOnly s (g s)) :
    EvidenceOnly s (s.when c g) := by
  cases c with
  | true => exact hg
  | false => exact .refl s

theorem fset_evidenceOnly (s : State) {f : Fld} {i : Nat} (hf : ¬ f.OffEvidence i) (v : Nat) :
    EvidenceOnly s (s.fset f i v) :=
  ⟨rfl, fun _ _ off => fget_fset_ne s (fun e => hf (by rwa [Fld.OffEvidence, ← e])) v⟩

theorem cntAdd_evidenceOnly (s : State) {k : Nat} (hk : k < 32) (n : Nat) : EvidenceOnly s (s.cntAdd k n) :=
  fset_evidenceOnly s (by simp only [Fld.OffEvidence, Fld.key, CNT_VAL.COUNT]; omega) _

theorem cntQual_evidenceOnly (s : State) (k p : Nat) : EvidenceOnly s (s.cntQual k p) :=
  ⟨rfl, fun _ _ _ => rfl⟩

/-- A walk whose every step only counts or records does only that. -/
theorem forEach_evidenceOnly {l : List Nat} {g : Nat → State → State}
    (hg : ∀ i ∈ l, ∀ t, EvidenceOnly t (g i t)) (s : State) : EvidenceOnly s (s.forEach l g) := by
  induction l generalizing s with
  | nil => exact .refl s
  | cons i l ih =>
    have rest := ih (fun j hj => hg j (List.mem_cons_of_mem i hj)) (g i s)
    exact (hg i List.mem_cons_self s).trans rest

/-! ### One counter's part of an event and of the end of a tick -/

/-- What an event does to counter `k`. -/
def eventStep (code : Nat) (p : Option Nat) (k : Nat) (s : State) : State :=
  s.when (s.cntSelects k code p) fun s =>
    if s.eget (CNT_CFG.LEVEL k) = 1 then s.cntQual k (p.getD 0) else s.cntAdd k 1

theorem cntEvent_eq (s : State) (code : Nat) (p : Option Nat) :
    s.cntEvent code p = s.forEach (List.range 32) (eventStep code p) := rfl

/-- What the end of a tick adds to level counter `k`. -/
def levelSum (s : State) (k : Nat) : Nat :=
  let mask := s.eget (CNT_CFG.PMASK k)
  let q := (s.cnts.get {} k).qual ||| s.levelPorts k
  if mask = 0 then min 1 q else ones (q &&& mask)

/-- What the end of a tick does to counter `k`. -/
def levelStep (k : Nat) (s : State) : State := s.when (s.levelOn k) fun s => s.cntAdd k (s.levelSum k)

theorem countLevels_eq (s : State) : s.countLevels = s.forEach (List.range 32) levelStep := rfl

theorem eventStep_evidenceOnly (code : Nat) (p : Option Nat) {k : Nat} (hk : k < 32) (s : State) :
    EvidenceOnly s (eventStep code p k s) := by
  refine when_evidenceOnly ?_
  split
  · exact cntQual_evidenceOnly s k _
  · exact cntAdd_evidenceOnly s hk 1

theorem cntEvent_evidenceOnly (s : State) (code : Nat) (p : Option Nat) : EvidenceOnly s (s.cntEvent code p) :=
  forEach_evidenceOnly (fun _ hk t => eventStep_evidenceOnly code p (List.mem_range.mp hk) t) s

/-! ### One counter in a walk over all -/

/-- The condition of an L code is read off fields outside the evidence. -/
theorem EvidenceOnly.levelNow {s t : State} (h : EvidenceOnly s t) (code p : Nat) :
    t.levelNow code p = s.levelNow code p := by
  have port {f : Fld} (hb : 0xF50000 ≤ f.base) : t.fget f p = s.fget f p :=
    h.flds f p (.inr (by simp only [Fld.key]; omega))
  simp only [State.levelNow, fon, port (f := PRT_ATTST.VCONN) (by decide), port (f := PRT_PWRST.PG) (by decide),
    port (f := PRT_PWRST.LIMIT) (by decide), port (f := PRT_CMPNOW.OUT) (by decide)]

/-- `t` is `s` but for evidence, and counter `k` stands in both alike. -/
structure SameCounter (k : Nat) (s t : State) : Prop where
  only : EvidenceOnly s t
  hw : t.cnts.get {} k = s.cnts.get {} k
  count : t.fget (CNT_VAL.COUNT k) = s.fget (CNT_VAL.COUNT k)

namespace SameCounter

variable {k : Nat} {s t u : State}

theorem refl (k : Nat) (s : State) : SameCounter k s s := ⟨.refl s, rfl, rfl⟩

theorem trans (h : SameCounter k s t) (h' : SameCounter k t u) : SameCounter k s u :=
  ⟨h.only.trans h'.only, h'.hw.trans h.hw, h'.count.trans h.count⟩

theorem when {c : Bool} {g : State → State} (hg : SameCounter k s (g s)) : SameCounter k s (s.when c g) := by
  cases c with
  | true => exact hg
  | false => exact .refl k s

theorem cntSelects (h : SameCounter k s t) (code : Nat) (p : Option Nat) :
    t.cntSelects k code p = s.cntSelects k code p := by
  simp only [State.cntSelects, h.only.eget]

theorem levelOn (h : SameCounter k s t) : t.levelOn k = s.levelOn k := by
  simp only [State.levelOn, h.only.eget]

theorem levelSum (h : SameCounter k s t) : t.levelSum k = s.levelSum k := by
  simp only [State.levelSum, levelPorts, h.only.eget, h.only.levelNow, h.hw]

/-- A step of another counter leaves counter `k` alone. -/
theorem cntAdd_ne {j : Nat} (s : State) (hj : j < 32) (n : Nat) (h : j ≠ k) : SameCounter k s (s.cntAdd j n) :=
  ⟨cntAdd_evidenceOnly s hj n, rfl, fget_fset_ne s (countKey_ne h.symm) _⟩

theorem cntQual_ne {j : Nat} (s : State) (p : Nat) (h : j ≠ k) : SameCounter k s (s.cntQual j p) :=
  ⟨cntQual_evidenceOnly s j p, Tab.get_put_ne _ h.symm _ _, rfl⟩

/-- What is added to counter `k` in like states leaves it alike. -/
theorem cntAdd_congr (h : SameCounter k s t) (hk : k < 32) (n : Nat) : SameCounter k (s.cntAdd k n) (t.cntAdd k n) where
  only := (cntAdd_evidenceOnly s hk n).symm.trans (h.only.trans (cntAdd_evidenceOnly t hk n))
  hw := h.hw
  count := by simp only [cntAdd, fget_fset_same, h.count]

theorem cntQual_congr (h : SameCounter k s t) (p : Nat) : SameCounter k (s.cntQual k p) (t.cntQual k p) where
  only := (cntQual_evidenceOnly s k p).symm.trans (h.only.trans (cntQual_evidenceOnly t k p))
  hw := by simp only [cntQual, Tab.get_put_same, h.hw]
  count := h.count

end SameCounter

/-- After a walk over the counters, each of whose steps minds its own, counter `k` stands as its own step leaves it. -/
theorem forEach_sameCounter {g : Nat → State → State} {k : Nat} (hk : k < 32)
    (other : ∀ j < 32, j ≠ k → ∀ t, SameCounter k t (g j t))
    (own : ∀ {s t}, SameCounter k s t → SameCounter k (g k s) (g k t)) (s : State) :
    SameCounter k (g k s) (s.forEach (List.range 32) g) := by
  have others {l : List Nat} (hl : ∀ j ∈ l, j < 32 ∧ j ≠ k) (t : State) : SameCounter k t (t.forEach l g) := by
    induction l generalizing t with
    | nil => exact .refl k t
    | cons j l ih =>
      obtain ⟨hj, hne⟩ := hl j List.mem_cons_self
      exact (other j hj hne t).trans (ih (fun i hi => hl i (List.mem_cons_of_mem j hi)) (g j t))
  obtain ⟨before, after, split⟩ := List.append_of_mem (List.mem_range.mpr hk)
  have nodup : (before ++ k :: after).Nodup := split ▸ List.nodup_range
  have small : ∀ j ∈ before ++ k :: after, j < 32 := fun j hj => List.mem_range.mp (split ▸ hj)
  obtain ⟨hb, ha⟩ : k ∉ before ∧ k ∉ after := by
    simpa [not_or] using (List.nodup_middle.mp nodup).notMem
  have first := others (l := before) (fun j hj => ⟨small j (by simp [hj]), fun e => hb (e ▸ hj)⟩) s
  have last := others (l := after) (fun j hj => ⟨small j (by simp [hj]), fun e => ha (e ▸ hj)⟩)
    (g k (s.forEach before g))
  have walk : s.forEach (List.range 32) g = (g k (s.forEach before g)).forEach after g := by
    simp only [forEach, split, List.foldl_append, List.foldl_cons]
  rw [walk]
  exact (own first).trans last

theorem eventStep_ne {j k : Nat} (hj : j < 32) (h : j ≠ k) (code : Nat) (p : Option Nat) (s : State) :
    SameCounter k s (eventStep code p j s) := by
  refine SameCounter.when ?_
  split
  · exact .cntQual_ne s _ h
  · exact .cntAdd_ne s hj 1 h

theorem eventStep_congr {k : Nat} (hk : k < 32) (code : Nat) (p : Option Nat) {s t : State} (h : SameCounter k s t) :
    SameCounter k (eventStep code p k s) (eventStep code p k t) := by
  simp only [eventStep, h.cntSelects, State.when, h.only.eget]
  split
  · split
    · exact h.cntQual_congr _
    · exact h.cntAdd_congr hk 1
  · exact h

/-- What an event comes to for counter `k`. -/
theorem cntEvent_sameCounter {k : Nat} (hk : k < 32) (code : Nat) (p : Option Nat) (s : State) :
    SameCounter k (eventStep code p k s) (s.cntEvent code p) := by
  rw [cntEvent_eq]
  exact forEach_sameCounter hk (fun j hj h => eventStep_ne hj h code p) (eventStep_congr hk code p) s

theorem levelStep_ne {j k : Nat} (hj : j < 32) (h : j ≠ k) (s : State) : SameCounter k s (levelStep j s) :=
  SameCounter.when (.cntAdd_ne s hj _ h)

theorem levelStep_congr {k : Nat} (hk : k < 32) {s t : State} (h : SameCounter k s t) :
    SameCounter k (levelStep k s) (levelStep k t) := by
  simp only [levelStep, h.levelOn, State.when, h.levelSum]
  split
  · exact h.cntAdd_congr hk _
  · exact h

/-- What the end of a tick comes to for counter `k`. -/
theorem countLevels_sameCounter {k : Nat} (hk : k < 32) (s : State) :
    SameCounter k (levelStep k s) s.countLevels := by
  rw [countLevels_eq]
  exact forEach_sameCounter hk (fun j hj h => levelStep_ne hj h) (levelStep_congr hk) s

/-! ### Counts (R471 to R473) -/

/-- A count that would pass 2^48 - 1 stays there (R473). -/
theorem fget_cntAdd (s : State) (k n : Nat) :
    (s.cntAdd k n).fget (CNT_VAL.COUNT k) = min (s.fget (CNT_VAL.COUNT k) + n) (2 ^ 48 - 1) := by
  rw [cntAdd, fget_fset_same, show (CNT_VAL.COUNT k).w = 48 from rfl]
  omega

/-- A selected event adds 1 to an edge counter (R471). -/
theorem count_cntEvent_edge {s : State} {k code : Nat} {p : Option Nat} (hk : k < 32)
    (hs : s.cntSelects k code p = true) (hl : s.eget (CNT_CFG.LEVEL k) = 0) :
    (s.cntEvent code p).fget (CNT_VAL.COUNT k) = min (s.fget (CNT_VAL.COUNT k) + 1) (2 ^ 48 - 1) := by
  have own : eventStep code p k s = s.cntAdd k 1 := by simp [eventStep, State.when, hs, hl]
  rw [(cntEvent_sameCounter hk code p s).count, own, fget_cntAdd]

/-- A level counter notes the port of a selected event and adds nothing yet (R472). -/
theorem cntEvent_level {s : State} {k code p : Nat} (hk : k < 32)
    (hs : s.cntSelects k code (some p) = true) (hl : s.eget (CNT_CFG.LEVEL k) = 1) :
    (s.cntEvent code (some p)).fget (CNT_VAL.COUNT k) = s.fget (CNT_VAL.COUNT k) ∧
      bit ((s.cntEvent code (some p)).cnts.get {} k).qual p = true := by
  have own : eventStep code (some p) k s = s.cntQual k p := by simp [eventStep, State.when, hs, hl]
  have same := cntEvent_sameCounter hk code (some p) s
  rw [own] at same
  refine ⟨same.count, ?_⟩
  rw [same.hw, cntQual, Tab.get_put_same]
  exact bit_setBit_true _ p

/-- At the end of a tick a level counter adds its selected ports that qualified (R472). -/
theorem count_countLevels {s : State} {k : Nat} (hk : k < 32) (on : s.levelOn k = true)
    (hm : s.eget (CNT_CFG.PMASK k) ≠ 0) : s.countLevels.fget (CNT_VAL.COUNT k) =
      min (s.fget (CNT_VAL.COUNT k) + ones (((s.cnts.get {} k).qual ||| s.levelPorts k) &&& s.eget (CNT_CFG.PMASK k)))
        (2 ^ 48 - 1) := by
  have own : levelStep k s = s.cntAdd k (s.levelSum k) := by rw [levelStep, on]; rfl
  rw [(countLevels_sameCounter hk s).count, own, fget_cntAdd, levelSum, if_neg hm]

/-! ### The log (R480, R481) -/

/-- An automatic record touches evidence only. -/
theorem logRec_evidenceOnly (s : State) (code src : Nat) (data : List Byte) :
    EvidenceOnly s (s.logRec code src data) := by
  have field {f : Fld} (hf : f.base = LOG_ST.DROP.base ∧ f.stride = 0 ∧ f.lo < 64) : ¬ f.OffEvidence 0 := by
    obtain ⟨hb, hs, hl⟩ := hf
    simp only [Fld.OffEvidence, Fld.key, hb, hs, LOG_ST.DROP]
    omega
  have buffer (t : State) (l : LogHw) : EvidenceOnly t { t with log := l } := ⟨rfl, fun _ _ _ => rfl⟩
  unfold logRec logPush
  split
  · exact (buffer s _).trans ((fset_evidenceOnly _ (field (by decide)) _).trans (cntEvent_evidenceOnly _ _ _))
  · exact (buffer s _).trans (fset_evidenceOnly _ (field (by decide)) _)

end State
end Sys2Proof.Machine
end

section
/-!
SUPPORT. The tick edge (R38, R40): the tick's number and SEQ, the attach timers, and the changes due at an edge.
-/
namespace Sys2Proof.Machine.State

/-! ### A tick begins (R38, R40, R60, R97) -/

theorem tick_fset_count (s : State) {n : Nat} (h : n < 2 ^ 48) : (s.fset TICK_COUNT.COUNT 0 n).tick = n :=
  (fget_fset_same ..).trans (Nat.mod_eq_of_lt h)

theorem tick_tickBegins {s : State} (ha : s.pair.adopt = none) (hn : s.tick + 1 < 2 ^ 48) :
    s.tickBegins.tick = s.tick + 1 := by
  simp only [tickBegins, onPair, ha]
  exact tick_fset_count _ hn

theorem tickBegins_adopts {s : State} {n : Nat} (ha : s.pair.adopt = some n) (hn : n < 2 ^ 48) :
    s.tickBegins.tick = n ∧ s.tickBegins.pair.adopt = none := by
  simp only [tickBegins, onPair, ha]
  have adopted (t : State) : (t.fset TICK_STATUS.ADOPTED 0 1).tick = t.tick := fget_fset_ne t (by decide) 1
  exact ⟨(adopted _).trans (tick_fset_count _ hn), trivial⟩

theorem seq_tickBegins (s : State) : s.tickBegins.pair.seq = (s.pair.seq + 1) % 16 := by
  simp only [tickBegins, onPair]
  cases s.pair.adopt <;> rfl

/-! ### The attach timers (R118) -/

@[simp] theorem att_onAtt_same (s : State) (p : Nat) (g : AttHw → AttHw) : (s.onAtt p g).att p = g (s.att p) := by
  simp [onAtt, att]

/-! ### Changes due at an edge (R29, R70) -/

/-- The first change pending waits for its edge, and so do the others. -/
theorem exec_profileChangeEdge_early {s : State} {prof e : Nat} {rest : List (Nat × Nat)}
    (hp : s.prof.pend = (prof, e) :: rest) (he : s.tick < e) : exec .profileChangeEdge s = .next s := by
  show execProfileChangeEdge s = _
  have wait : decide (e ≤ s.tick) = false := decide_eq_false (by omega)
  simp only [execProfileChangeEdge, hp, List.takeWhile_cons, List.dropWhile_cons, wait, List.foldl_nil,
    Bool.false_eq_true, if_false]
  rw [← hp]

/-- At its edge the first change pending takes effect, and those of later edges go on waiting. -/
theorem exec_profileChangeEdge_due {s : State} {prof e : Nat} {rest : List (Nat × Nat)}
    (hp : s.prof.pend = (prof, e) :: rest) (later : ∀ c ∈ rest, s.tick < c.2) (he : e ≤ s.tick) :
    exec .profileChangeEdge s =
      .next (({ s with prof := { s.prof with pend := rest } } : State).setProfile prof) := by
  show execProfileChangeEdge s = _
  have now : decide (e ≤ s.tick) = true := decide_eq_true he
  have none_due : rest.takeWhile (fun c => decide (c.2 ≤ s.tick)) = [] ∧
      rest.dropWhile (fun c => decide (c.2 ≤ s.tick)) = rest := by
    cases rest with
    | nil => exact ⟨rfl, rfl⟩
    | cons c rest =>
      have := later c List.mem_cons_self
      simp [show ¬ c.2 ≤ s.tick by omega]
  simp only [execProfileChangeEdge, hp, List.takeWhile_cons, List.dropWhile_cons, now, if_true, none_due,
    List.foldl_cons, List.foldl_nil]

/-- Before its target edge a time binding waits. -/
theorem exec_timeBind_early {s : State} {e time : Nat} (hb : s.pair.bind = some (e, time)) (he : s.tick < e) :
    exec .timeBindTargetEdge s = .next s := by
  show execTimeBindTargetEdge s = _
  simp only [execTimeBindTargetEdge, hb, if_neg (show ¬ e ≤ s.tick by omega)]

/-- The state a time binding leaves, before the record of it. -/
def timeBound (s : State) (e time : Nat) : State :=
  (((s.fset TICK_HTICK.HTICK 0 e).fset TICK_HTIME.HTIME 0 time).fset TICK_STATUS.HBOUND 0 1).onPair fun h =>
    { h with bind := none }

/-- From its target edge on it comes into force and is recorded. -/
theorem exec_timeBind_due {s : State} {e time : Nat} (hb : s.pair.bind = some (e, time)) (he : e ≤ s.tick) :
    exec .timeBindTargetEdge s = .next ((s.timeBound e time).logRec 0x03 0xFF (toBytes 6 e)) := by
  show execTimeBindTargetEdge s = _
  simp only [execTimeBindTargetEdge, hb, if_pos he]
  rfl

theorem timeBound_fields (s : State) {e time : Nat} (he : e < 2 ^ 48) (ht : time < 2 ^ 64) :
    (s.timeBound e time).fget TICK_HTICK.HTICK = e ∧ (s.timeBound e time).fget TICK_HTIME.HTIME = time ∧
      (s.timeBound e time).fget TICK_STATUS.HBOUND = 1 := by
  have bound (f : Fld) : (s.timeBound e time).fget f =
    (((s.fset TICK_HTICK.HTICK 0 e).fset TICK_HTIME.HTIME 0 time).fset TICK_STATUS.HBOUND 0 1).fget f := rfl
  refine ⟨?_, ?_, ?_⟩
  · rw [bound, fget_fset_ne _ (by decide), fget_fset_ne _ (by decide), fget_fset_same]
    exact Nat.mod_eq_of_lt he
  · rw [bound, fget_fset_ne _ (by decide), fget_fset_same]
    exact Nat.mod_eq_of_lt ht
  · rw [bound, fget_fset_same]
    rfl

end Sys2Proof.Machine.State

namespace Sys2Proof.Machine
open State

/-- Settles O35: each clause by the lemma of its action; a counter in the walk over all 32 stands as its own step
leaves it, and a record of the log touches evidence only. -/
theorem tickEdgeActs : Obligations.TickEdgeActs := by
  unfold Obligations.TickEdgeActs
  refine ⟨fun i s => ?edge, fun s => ⟨tick_tickBegins, fun n => tickBegins_adopts, seq_tickBegins s⟩,
    fun p s => ?timers, fun k n s => ⟨fget_cntAdd s k n, ?saturates⟩,
    fun code p s k hk hs => ⟨count_cntEvent_edge hk hs, cntEvent_level hk hs⟩,
    fun k s hk on hm => count_countLevels hk on hm,
    fun prof e rest s hp later => ⟨exec_profileChangeEdge_due hp later, fun he =>
      exec_profileChangeEdge_early hp (Nat.lt_of_not_le he)⟩,
    fun e time s hb he ht => ⟨exec_timeBind_early hb, fun due => ?binding⟩⟩
  case edge =>
    have run : exec (.tickEdge i) s = if s.ticking then .next (s.tickEdge i) else .next s := rfl
    have clock : s.ticking = true ↔
        s.fon TICK_STATUS.PLL_LOCK = true ∧ s.boot.hold = false ∧ s.boot.phase ≠ .reset := by
      simp [ticking, and_assoc]
    rw [Acts, run, ← clock]
    exact ⟨fun on => if_pos on, fun off => if_neg off⟩
  case timers =>
    simp only [attCount, att_onAtt_same]
    refine ⟨fun n hc => ?_, fun hc => ?_, fun n hc => ?_, fun hc => ?_, trivial⟩ <;> rw [hc] <;> rfl
  case saturates =>
    rw [fget_cntAdd, fget_cntAdd]
    omega
  case binding =>
    have record := logRec_evidenceOnly (s.timeBound e time) 0x03 0xFF (toBytes 6 e)
    obtain ⟨htick, htime, hbound⟩ := timeBound_fields s he ht
    have field {f : Fld} (off : f.OffEvidence 0) := record.flds f 0 off
    refine ⟨_, exec_timeBind_due hb due, ?_, ?_, ?_, ?_, record.mem, record.host⟩
    · rw [record.pair]
      rfl
    · rw [field (.inl (by decide)), htick]
    · rw [field (.inl (by decide)), htime]
    · rw [fon, field (.inl (by decide)), hbound]
      rfl

end Sys2Proof.Machine
end

section
/-!
SUPPORT. The balls and the presence monitor (R77, R90, R437): the parity of a MUXBUS byte, what an edge on TCK
comes to, and a confirmed level of PRESENCE_N by wiring mode.
-/
namespace Sys2Proof.Machine

/-- A command that answers `t` where a condition stands and its own state elsewhere acts where that condition does. -/
theorem acts_of_ite {c : Instr} {s t : State} {due cond : Prop} {_ : Decidable cond}
    (run : exec c s = if cond then .next t else .next s) (h : cond ↔ due) : Acts c s due t :=
  ⟨fun d => run.trans (if_pos (h.mpr d)), fun n => run.trans (if_neg (mt h.mp n))⟩

namespace State

/-! ### Odd parity (R90) -/

/-- The ones among bits 6:0. -/
def lowOnes (v : Nat) : Nat := ((List.range 7).filter fun i => bit (v % 128) i).length

theorem oddParity_eq (v : Nat) : oddParity v = 2 ^ 7 * (1 - lowOnes v % 2) + v % 128 := Nat.add_comm ..

theorem oddParity_mod (v : Nat) : oddParity v % 128 = v % 128 := by
  rw [oddParity_eq]
  omega

theorem bit_oddParity (v i : Nat) :
    bit (oddParity v) i = if i < 7 then bit (v % 128) i else bit (1 - lowOnes v % 2) (i - 7) := by
  rw [oddParity_eq]
  exact Nat.testBit_two_pow_mul_add _ (Nat.mod_lt v (by decide)) i

/-- Bit 7 makes the number of ones odd. -/
theorem ones_oddParity (v : Nat) : ((List.range 8).filter fun i => bit (oddParity v) i).length % 2 = 1 := by
  have low : (List.range 7).filter (fun i => bit (oddParity v) i) = (List.range 7).filter fun i => bit (v % 128) i :=
    List.filter_congr fun i hi => by rw [bit_oddParity, if_pos (List.mem_range.mp hi)]
  rw [List.range_succ, List.filter_append, low, List.length_append, ← lowOnes, List.filter_singleton, bit_oddParity]
  rcases Nat.mod_two_eq_zero_or_one (lowOnes v) with even | odd
  · simp [even, bit, Nat.add_mod]
  · simp [odd, bit]

/-! ### The test access port (R77; IEEE 1149.1) -/

section
variable {s : State} {tms tdi : Bool}

/-- A TAP that is not open, or whose TRST_N is low, is reset. -/
theorem tapEdge_reset {trst : Bool} (h : s.tapOpen = false ∨ trst = true) (rise : Bool) :
    s.tapEdge rise tms tdi trst = { s with pins := { s.pins with tap := {} } } := by
  have shut : (!s.tapOpen || trst) = true := by
    rcases h with h | h <;> simp [h]
  simp only [tapEdge, shut, if_true]

theorem tapEdge_rise (ho : s.tapOpen = true) : s.tapEdge true tms tdi false =
    { s with pins := { s.pins with tap := tapRise s.pins.tap tms tdi } } := by
  simp [tapEdge, ho]

/-- In BYPASS a falling TCK drives the bit that shifts. -/
theorem tapEdge_fall_bypass (ho : s.tapOpen = true) (hst : s.pins.tap.st = 2) (hir : s.pins.tap.ir = 3) :
    (s.tapEdge false tms tdi false).pins.tap.tdo = some (bit s.pins.tap.drShift 0) := by
  simp [tapEdge, ho, hst, hir]

end

/-- Five rising edges with TMS high reach Test-Logic-Reset from every state. -/
theorem tapNext_five : ∀ st < 16, (List.replicate 5 true).foldl tapNext st = 0xF := by decide

theorem tapNext_reset_lt (tms : Bool) : tapNext 0xF tms < 16 := by cases tms <;> decide

/-! ### What presence touches (R437) -/

theorem EvidenceOnly.pres {s t : State} (h : EvidenceOnly s t) : t.pres = s.pres := by rw [h.rest]

/-- An event to the host touches the host link and, where it is dropped, evidence. -/
theorem hostEvent_evidenceOnly (s : State) (kind : Nat) (data : List Byte) :
    EvidenceOnly { s with host := (s.hostEvent kind data).host } (s.hostEvent kind data) := by
  unfold hostEvent
  split
  · exact ⟨rfl, fun _ _ _ => rfl⟩
  · split
    · exact .refl s
    · split
      · have dropped := cntEvent_evidenceOnly { s with host := { s.host with lost := true } } 0x54 none
        rwa [dropped.host]
      · exact ⟨rfl, fun _ _ _ => rfl⟩

/-- A change of presence is recorded and told to the host. -/
def presTold (s : State) (what : Nat) : State := (s.presRecord what).hostEvent 12 s.presenceData

/-- The state in which GRANT is set to `v`, with a window or without one, before it is told. -/
def presSet (s : State) (window : Option Nat) (v : Nat) : State :=
  ({ s with pres := { s.pres with window := window } }.fset DEV_PRES.GRANT 0 v).presLeft

theorem presRecord_evidenceOnly (s : State) (what : Nat) : EvidenceOnly s (s.presRecord what) :=
  logRec_evidenceOnly s 0x0E 0xFF _

@[simp] theorem fget_presTold_grant (s : State) (what : Nat) :
    (s.presTold what).fget DEV_PRES.GRANT = s.fget DEV_PRES.GRANT := by
  have off : DEV_PRES.GRANT.OffEvidence 0 := .inl (by decide)
  exact ((hostEvent_evidenceOnly ..).flds _ 0 off).trans ((presRecord_evidenceOnly s what).flds _ 0 off)

@[simp] theorem pres_presTold (s : State) (what : Nat) : (s.presTold what).pres = s.pres :=
  (hostEvent_evidenceOnly ..).pres.trans (presRecord_evidenceOnly s what).pres

@[simp] theorem fget_presSet_grant (s : State) (window : Option Nat) (v : Nat) :
    (s.presSet window v).fget DEV_PRES.GRANT = v % 2 := by
  rw [presSet, presLeft, fget_fset_ne _ (by decide), fget_fset_same]
  rfl

@[simp] theorem window_presSet (s : State) (window : Option Nat) (v : Nat) :
    (s.presSet window v).pres.window = window := rfl

theorem presGrant_refused {s : State} (h : s.presAllowed = false) (w : Option Nat) : s.presGrant w = s := by
  simp [presGrant, h]

/-- Presence granted anew is told; a grant that lasts only takes the window. -/
theorem presGrant_allowed {s : State} (h : s.presAllowed = true) (w : Option Nat) : s.presGrant w =
    if s.fon DEV_PRES.GRANT then s.presSet w 1 else (s.presSet w 1).presTold 1 := by
  simp only [presGrant, h, Bool.not_true, Bool.false_eq_true, if_false]
  rfl

theorem presEnd_eq (s : State) :
    s.presEnd = if s.fon DEV_PRES.GRANT then (s.presSet none 0).presTold 0 else s := rfl

theorem presGrant_granted {s : State} (h : s.presAllowed = true) (w : Option Nat) :
    (s.presGrant w).fon DEV_PRES.GRANT = true ∧ (s.presGrant w).pres.window = w := by
  rw [presGrant_allowed h]
  split <;> simp [fon]

theorem presEnd_off (s : State) : s.presEnd.fon DEV_PRES.GRANT = false := by
  rw [presEnd_eq]
  split
  · simp [fon]
  · exact Bool.eq_false_iff.mpr ‹_›

/-! ### A confirmed level (R437, R438) -/

/-- A level has stood for 6,250 edges and is not the one confirmed last, or is a fitted jumper's without presence. -/
def LevelDue (s : State) (level : Bool) : Prop :=
  s.pres.sample = level ∧ 6250 ≤ s.pres.count ∧ (s.pres.known = false ∨
    s.fget DEV_PRES.PIN ≠ b2n level ∨ s.pwire = 1 ∧ s.fon DEV_PRES.GRANT = false)

/-- The level shown as confirmed. -/
def levelShown (s : State) (level : Bool) : State :=
  ({ s with pres := { s.pres with known := true } } : State).fset DEV_PRES.PIN 0 (b2n level)

theorem pwire_levelShown (s : State) (level : Bool) : (s.levelShown level).pwire = s.pwire :=
  fget_fset_ne _ (by decide) _

theorem exec_levelConfirmed (s : State) (level : Bool) : Acts (.presenceLevelConfirmed level) s (s.LevelDue level)
    (if level then (s.levelShown level).presHigh else (s.levelShown level).presLow) :=
  acts_of_ite rfl (by simp [LevelDue])

theorem presLow_button {s : State} (h : s.pwire = 0) :
    s.presLow = { s with pres := { s.pres with press := some 0 } } := by
  simp only [presLow, h]

theorem presLow_jumper {s : State} (h : s.pwire = 1) : s.presLow = s.presGrant none := by
  simp only [presLow, h]

/-- In button mode the high level ends the press, and one of at most 10 s opens the window. -/
theorem presHigh_button {s : State} (h : s.pwire = 0) {n : Nat} (hp : s.pres.press = some n) :
    s.presHigh = if n ≤ 1250000 then
        ({ s with pres := { s.pres with press := none } } : State).presGrant (some 15000000)
      else { s with pres := { s.pres with press := none } } := by
  have mode : ({ s with pres := { s.pres with press := none } } : State).pwire = 0 := h
  simp only [presHigh, mode, hp]

end State

open State

/-- Settles O37: each row by the lemma of its operation; a level of PRESENCE_N by its wiring mode. -/
theorem pinAndPresenceRowsComplete : Obligations.PinAndPresenceRowsComplete := by
  unfold Obligations.PinAndPresenceRowsComplete
  refine ⟨fun s => ⟨rfl, rfl, rfl, rfl⟩, fun k s => acts_of_ite rfl Iff.rfl,
    fun v => ⟨oddParity_mod v, ones_oddParity v⟩, fun rise tms tdi trst s => ?tap,
    fun n st hst => ⟨tapNext_five st hst, tapNext_reset_lt n⟩, fun level s => ?confirmed,
    fun w s => ⟨fun h => presGrant_refused h w, fun h => presGrant_granted h w⟩,
    fun s => ⟨acts_of_ite rfl Iff.rfl, presEnd_off s⟩⟩
  case tap =>
    have run : exec (.tapTckEdge rise tms ⟨tdi, trst⟩) s = .next (s.tapEdge rise tms tdi trst) := rfl
    dsimp only
    rw [run]
    refine ⟨fun h => by rw [tapEdge_reset h], ?_, ?_⟩
    · rintro ho rfl rfl
      rw [tapEdge_rise ho]
    · rintro ho rfl rfl hst hir
      exact ⟨_, rfl, tapEdge_fall_bypass ho hst hir⟩
  case confirmed =>
    obtain ⟨acts, waits⟩ := exec_levelConfirmed s level
    have mode := pwire_levelShown s level
    refine ⟨waits, ?_, ?_, ?_⟩
    · rintro due rfl button
      exact (acts due).trans (congrArg _ (presLow_button (mode.trans button)))
    · rintro due rfl jumper
      exact (acts due).trans (congrArg _ (presLow_jumper (mode.trans jumper)))
    · rintro n due rfl button press
      exact (acts due).trans (congrArg _ (presHigh_button (mode.trans button) press))

end Sys2Proof.Machine
end

section
/-!
SUPPORT. From reset to the end of boot (R15, R84, R243, R490 to R492): what an operation cut off by a reset touches,
what stands after a reset, and what straps that agree leave.
-/
namespace Sys2Proof.Machine

/-- A table cut down to the keys that `keep` names reads as before at these, and as unlisted elsewhere. -/
theorem Tab.get_filter {α : Type} (d : α) (keep : Nat → Bool) (k : Nat) (t : Tab α) :
    Tab.get d k (t.filter fun e => keep e.1) = if keep k then Tab.get d k t else d := by
  induction t with
  | nil => simp [Tab.get]
  | cons e t ih =>
    obtain ⟨n, v⟩ := e
    by_cases hn : n = k
    · subst hn
      cases hk : keep n <;> simp [Tab.get, hk, ih]
    · cases hk : keep n <;> simp [Tab.get, hk, hn, ih]

namespace State

/-! ### Operations cut off by a reset (R431, R491) -/

/-- `t` is `s` but for the fuse array, the flash with its failed words, and the free values drawn. -/
def CutOnly (s t : State) : Prop := t = { s with otp := t.otp, flash := t.flash, fw := t.fw, free := t.free }

namespace CutOnly

theorem refl (s : State) : CutOnly s s := rfl

theorem trans {s t u : State} (h : CutOnly s t) (k : CutOnly t u) : CutOnly s u := calc
  u = { t with otp := u.otp, flash := u.flash, fw := u.fw, free := u.free } := k
  _ = { s with otp := u.otp, flash := u.flash, fw := u.fw, free := u.free } := by rw [h]

theorem foldl {α : Type} {g : State → α → State} (hg : ∀ t a, CutOnly t (g t a)) (l : List α) (s : State) :
    CutOnly s (l.foldl g s) := by
  induction l generalizing s with
  | nil => exact .refl s
  | cons a l ih => exact (hg s a).trans (ih (g s a))

variable {s t : State} (h : CutOnly s t)
include h

theorem pending : t.pending = s.pending := by rw [h]
theorem mem : t.mem = s.mem := by rw [h]

end CutOnly

theorem flashProgram_cutOnly (s : State) (a : Nat) (l : List Byte) : CutOnly s (s.flashProgram a l) := by
  induction l generalizing s a with
  | nil => exact .refl s
  | cons b l ih => exact CutOnly.trans (t := s.flashPut a (s.flashGet a &&& b)) rfl (ih _ _)

theorem otpCut_cutOnly (s : State) : CutOnly s s.otpCut := by
  unfold otpCut
  split <;> rfl

theorem flashCut_cutOnly (s : State) : CutOnly s s.flashCut := by
  have front (t : State) (a : Nat) (b : List Byte) :
      CutOnly t ((t.draw 32).2.flashProgram a (b.take ((t.draw 32).1 % b.length))) :=
    CutOnly.trans (t := (t.draw 32).2) rfl (flashProgram_cutOnly ..)
  unfold flashCut
  split
  · exact .refl s
  · split
    · refine CutOnly.foldl (fun t e => ?_) _ _
      split <;> rfl
    · exact front ..
    · exact CutOnly.trans (t := s.flashErase _ _) rfl (front ..)

/-- What a reset finds once the operations in progress are cut off. -/
theorem cut_cutOnly (s : State) : CutOnly s s.otpCut.flashCut := s.otpCut_cutOnly.trans (flashCut_cutOnly _)

/-- With no operation in progress nothing is cut off. -/
theorem cut_idle {s : State} (ho : s.otp.op = none) (hj : s.jobs = []) : s.otpCut.flashCut = s := by
  have otp : s.otpCut = s := by simp only [otpCut, ho]
  rw [otp]
  simp only [flashCut, hj]

/-! ### Resets (R489 to R492) -/

theorem memKey_code {m a : Nat} (h : a < 2 ^ 24) : memKey m a / 2 ^ 24 = m := by
  simp only [memKey]
  omega

/-- A unit reset leaves the retained memory (code 0x42) and clears every other. -/
theorem memGet_unitReset (s : State) (cause m : Nat) {a : Nat} (ha : a < 2 ^ 24) :
    (s.unitReset cause).memGet m a = if m = 0x42 then s.memGet m a else 0 := by
  have kept : (s.unitReset cause).mem = s.mem.filter fun e => e.1 / 2 ^ 24 == 0x42 := by
    rw [← s.cut_cutOnly.mem]
    unfold unitReset State.when
    dsimp only
    split <;> rfl
  rw [memGet, kept, Tab.get_filter 0 (fun k => k / 2 ^ 24 == 0x42), memKey_code ha]
  simp [memGet]

/-- A unit reset says why it came. -/
theorem fget_unitReset_cause (s : State) (cause : Nat) :
    (s.unitReset cause).fget WDG_CAUSE.CAUSE = cause % 2 ^ WDG_CAUSE.CAUSE.w := by
  unfold unitReset
  dsimp only
  rw [fget_fset_ne _ (by decide), fget_fset_same]

theorem unitReset_clears (s : State) (cause : Nat) :
    (s.unitReset cause).booted = false ∧ (s.unitReset cause).host = {} ∧ (s.unitReset cause).engines = [] := by
  unfold unitReset State.when
  dsimp only
  split <;> exact ⟨rfl, rfl, rfl⟩

theorem supplyLost_holds (s : State) (k : Supply) : (s.supplyLost k).boot.phase = .reset := by
  unfold supplyLost
  cases k <;> rfl

/-- PWROK_OUT falls with VCC33 and with VCORE (R491). -/
theorem supplyLost_pwrok (s : State) {k : Supply} (h : k = .vcc33 ∨ k = .vcore) :
    (s.supplyLost k).pwrokOut = false := by
  rcases h with rfl | rfl
  · rfl
  · exact Bool.and_false _

/-! ### Straps (R84 to R86, R99) -/

/-- Readings that agree latch the position, unless they name none. -/
theorem strapTake_latches (s : State) {v : Nat} (hv : v < 2 ^ 8) (pull : Bool) (hp : v % 4 ≠ 3) :
    (s.strapTake v pull pull).boot = { s.boot with strapped := true } ∧
      (s.strapTake v pull pull).fget PAIR_ST.POS = v % 4 ∧
      (s.strapTake v pull pull).fget DEV_STRAP.STRAP = v := by
  simp only [strapTake, wiring, hp, if_true, if_false]
  refine ⟨rfl, ?_, ?_⟩
  · refine (fget_fset_same ..).trans (Nat.mod_eq_of_lt ?_)
    show v % 4 < 2 ^ 2
    omega
  · show (State.fset _ PAIR_ST.POS 0 _).fget DEV_STRAP.STRAP = v
    simp (disch := decide) only [fget_fset_ne, fget_fset_same]
    exact Nat.mod_eq_of_lt hv

theorem strapSample_agreed {s : State} {r : StrapIn} (h : r.r1 = r.r2 ∧ r.r1 = r.r3 ∧ r.r1 = r.r4) :
    s.strapSample r = s.strapTake r.r1.toNat r.pullUp r.pullDown := if_pos h

/-- One of the first fifteen attempts that fail only counts. -/
theorem strapSample_retries {s : State} {r : StrapIn} (h : ¬(r.r1 = r.r2 ∧ r.r1 = r.r3 ∧ r.r1 = r.r4))
    (ha : s.pins.attempts < 15) :
    s.strapSample r = { s with pins := { s.pins with attempts := s.pins.attempts + 1 } } := by
  have more : ¬ 16 ≤ s.pins.attempts + 1 := by omega
  simp [strapSample, State.when, h, more]

theorem exec_strapSampling (r : StrapIn) (s : State) : Acts (.strapSampling r) s
    (s.booting = true ∧ s.boot.strapped = false) (s.strapSample r) :=
  acts_of_ite rfl (by simp)

/-! ### The clock and the end of boot (R15, R38, R55) -/

/-- The state in which the PLL has locked and tick 0 begins, before the unit is master or listens. -/
def clocked (s : State) : State :=
  ({ (s.draw 32).2 with boot := { s.boot with early := (s.draw 32).1 } }.fset TICK_STATUS.PLL_LOCK 0 1).fset
    TICK_COUNT.COUNT 0 0

/-- Who is master is all that the position adds to it. -/
theorem fget_pllLock (s : State) {f : Fld} (hl : f.key 0 ≠ PAIR_ST.LSTATE.key 0)
    (hm : f.key 0 ≠ TICK_STATUS.MASTER.key 0) (hf : f.key 0 ≠ TICK_STATUS.FREERUN.key 0) :
    s.pllLock.fget f = s.clocked.fget f := by
  have pllLock_eq : s.pllLock = if s.clocked.paired then (s.clocked.fset PAIR_ST.LSTATE 0 1).onPair fun h =>
        { h with listen := some (if s.clocked.unitA then 32 else 64) }
      else (s.clocked.fset TICK_STATUS.MASTER 0 1).fset TICK_STATUS.FREERUN 0 1 := rfl
  rw [pllLock_eq]
  split
  · exact fget_fset_ne _ hl 1
  · rw [fget_fset_ne _ hf, fget_fset_ne _ hm]

theorem pllLock_fields (s : State) : s.pllLock.tick = 0 ∧ s.pllLock.fon TICK_STATUS.PLL_LOCK = true := by
  rw [tick, fon, fget_pllLock s (by decide) (by decide) (by decide),
    fget_pllLock s (by decide) (by decide) (by decide), clocked]
  simp (disch := decide) only [fget_fset_ne, fget_fset_same]
  exact ⟨rfl, rfl⟩

/-- The window of a paired unit has passed and no twin was heard. -/
def PairLate (s : State) : Prop :=
  s.bootReady = true ∧ s.paired = true ∧ s.pair.heard = false ∧ 256 ≤ s.boot.ticks

theorem exec_bootPairWindow_late {s : State} (h : s.PairLate) : exec .bootPairWindowExpiry s = .next s.bootEnd :=
  if_pos (by simpa [PairLate] using h)

theorem exec_bootPairWindow_formation {s : State} (h : ¬s.PairLate) :
    exec .bootPairWindowExpiry s = if s.boot.formT = some 0 then .next s.formation else .next s :=
  if_neg (by simpa [PairLate] using h)

end State

open State

/-- Settles O36: the resets by what they keep, the straps by what their readings come to, and each step of boot by
the condition under which it acts. -/
theorem bootRowsComplete : Obligations.BootRowsComplete := by
  unfold Obligations.BootRowsComplete
  refine ⟨fun s => ?powerOn, fun s => ⟨fun h => if_pos h, ?reset, ?supply⟩, fun r s => ?straps,
    fun n st s => acts_of_ite rfl (by simp), fun s => ⟨acts_of_ite rfl (by simp), pllLock_fields s,
      acts_of_ite rfl Iff.rfl, acts_of_ite rfl (by simp), acts_of_ite rfl (by simp), rfl,
      exec_bootPairWindow_late, ?formation, ?nothing⟩⟩
  case powerOn =>
    refine ⟨_, rfl, fun _ _ => rfl, fun _ _ => rfl, s.cut_cutOnly.pending, rfl, rfl, rfl, fun ho hj => ?_⟩
    have idle : s.powerOn.otp = { s.otp with op := none, used := [] } ∧ s.powerOn.flash = s.flash := by
      simp only [powerOn, cut_idle ho hj, and_self]
    rwa [← ho] at idle
  case reset =>
    intro h
    obtain ⟨booted, host, engines⟩ := unitReset_clears s 1
    refine ⟨_, if_neg h, fget_unitReset_cause s 1, booted, host, engines,
      fun a ha => memGet_unitReset s 1 0x42 ha, fun m a ha hm => ?_⟩
    rw [memGet_unitReset s 1 m ha, if_neg hm]
  case supply => exact fun k => ⟨_, rfl, supplyLost_holds s k, supplyLost_pwrok s⟩
  case straps =>
    obtain ⟨acts, waits⟩ := exec_strapSampling r s
    have agree (due : s.booting = true ∧ s.boot.strapped = false) (h2 : r.r1 = r.r2) (h3 : r.r1 = r.r3)
        (h4 : r.r1 = r.r4) :
        exec (.strapSampling r) s = .next (s.strapTake r.r1.toNat r.pullUp r.pullDown) := by
      rw [acts due, strapSample_agreed ⟨h2, h3, h4⟩]
    refine ⟨waits, agree, fun due h2 h3 h4 pulls pos => ?_, fun due differ few => ?_⟩
    · rw [agree due h2 h3 h4, ← pulls]
      obtain ⟨boot, position, straps⟩ := strapTake_latches s r.r1.isLt r.pullUp pos
      exact ⟨_, rfl, by rw [boot], position, straps, by rw [boot]⟩
    · rw [acts due, strapSample_retries differ few]
  case formation => exact fun early due => (exec_bootPairWindow_formation early).trans (if_pos due)
  case nothing => exact fun early wait => (exec_bootPairWindow_formation early).trans (if_neg wait)

end Sys2Proof.Machine
end

section
/-!
SUPPORT. The attach block (R104, R113 to R121): a latch after a comparison, what STATE becoming another value leaves,
and the exit each timer leads to by the state in which it is due.
-/
namespace Sys2Proof

/-- A bit just cleared reads as clear. -/
@[simp] theorem bit_setBit_false (v i : Nat) : bit (setBit v i false) i = false := by
  have cut : setBit v i false = v - 2 ^ i * (v.testBit i).toNat := by
    simp only [setBit, Bool.false_eq_true, if_false, Nat.and_two_pow, Nat.mul_comm]
  cases hb : v.testBit i with
  | false => simp [bit, cut, hb]
  | true =>
    have odd : v / 2 ^ i % 2 = 1 := by simpa [Nat.testBit_eq_decide_div_mod_eq] using hb
    have whole : 2 ^ i * 1 ≤ v := by simpa using Nat.ge_two_pow_of_testBit hb
    rw [bit, cut, hb, Bool.toNat_true, Nat.testBit_eq_decide_div_mod_eq, Nat.sub_mul_div_of_le v (2 ^ i) 1 whole]
    exact decide_eq_false (by omega)

theorem bit_setBit_same (v i : Nat) (b : Bool) : bit (setBit v i b) i = b := by
  cases b
  · exact bit_setBit_false v i
  · exact bit_setBit_true v i

end Sys2Proof

namespace Sys2Proof.Machine.State

/-! ### Conditional steps -/

theorem when_pos (s : State) {c : Bool} (h : c = true) (g : State → State) : s.when c g = g s := if_pos h

/-- What a step leaves of a state it leaves where it is made under a condition. -/
theorem read_when {α : Type} (read : State → α) {s : State} {c : Bool} {g : State → State}
    (h : read (g s) = read s) : read (s.when c g) = read s := by
  cases c
  · rfl
  · exact h

/-! ### STATE becomes another value (R113) -/

section
variable (s : State) (p : Nat)

theorem attState_onAtt (q : Nat) (g : AttHw → AttHw) : (s.onAtt q g).attState p = s.attState p := rfl

theorem attState_fset_state {st : Nat} (h : st < 16) : (s.fset PRT_ATTST.STATE p st).attState p = st :=
  (fget_fset_same ..).trans (Nat.mod_eq_of_lt h)

theorem attState_attEv (f : Fld) (hf : f.key p ≠ PRT_ATTST.STATE.key p) :
    (s.attEv f p).attState p = s.attState p :=
  (read_when (attState · p) rfl).trans (fget_fset_ne s hf.symm 1)

theorem mem_attEv (f : Fld) : (s.attEv f p).mem = s.mem := read_when State.mem rfl

theorem host_attEv (f : Fld) : (s.attEv f p).host = s.host := read_when State.host rfl

theorem attState_setAtt {st : Nat} (h : st < 16) : (s.setAtt p st).attState p = st := by
  have places : PRT_ATTEV.STCHG.key p ≠ PRT_ATTST.STATE.key p := by
    simp only [Fld.key, PRT_ATTEV.STCHG, PRT_ATTST.STATE]
    omega
  exact (read_when (attState · p) rfl).trans ((attState_attEv _ p _ places).trans (attState_fset_state _ p h))

theorem mem_setAtt (st : Nat) : (s.setAtt p st).mem = s.mem :=
  (read_when State.mem rfl).trans ((mem_attEv _ p _).trans (read_when State.mem rfl))

theorem host_setAtt (st : Nat) : (s.setAtt p st).host = s.host :=
  (read_when State.host rfl).trans ((host_attEv _ p _).trans (read_when State.host rfl))

end

/-! ### The scan (R104 to R107) -/

/-- A set latch stands down to the threshold less hysteresis, and a clear one up to the threshold. -/
theorem latch_compareCc (s : State) (p b thr v : Nat) : bit ((s.compareCc p b thr v).att p).latches b =
    if bit (s.att p).latches b then !decide (v < thr * 3000 - s.eget PRT_CCHYS.HYST p * 3000)
    else decide (thr * 3000 < v) := by
  simp only [compareCc, att_onAtt_same, bit_setBit_same]

/-- A comparison without a termination, or in a tick that holds none, changes nothing. -/
theorem scanStep_idle {s : State} {p : Nat} (h : appliesRp (s.termState p) = false ∧
    appliesRd (s.termState p) = false ∨ s.scanDue p = false) (v1 v2 : Nat) (b1 b2 : Bool) :
    s.scanStep p v1 v2 b1 b2 = s := by
  have idle : (!(appliesRp (s.termState p) || appliesRd (s.termState p)) || !s.scanDue p) = true := by
    rcases h with ⟨rp, rd⟩ | due
    · rw [rp, rd]; rfl
    · rw [due, Bool.not_false, Bool.or_true]
  exact if_pos idle

/-! ### What a timer leads to, by the state in which it is due (R113) -/

section
variable {s : State} {p : Port}

/-- tCCDebounce in AttachWait.SNK with one Rp and VBUS valid: Try.SRC where TRY says so, else Attached.SNK. -/
theorem ccDebounced_attachWaitSnk (hst : s.attState p = 3) (rp : s.oneRp p = true)
    (vbus : s.fon PRT_CCSTAT.VBUSOK p = true) :
    s.ccDebounced p = if s.eget PRT_CCCFG.TRY p = 1 then s.setAtt p 8 else s.attOn p 4 := by
  simp only [ccDebounced, hst, rp, if_true, when_pos s vbus]

/-- tCCDebounce in AttachWait.SRC with one Rd and VBUS at vSafe0V: Try.SNK where TRY says so, else Attached.SRC. -/
theorem ccDebounced_attachWaitSrc (hst : s.attState p = 6) (rd : s.oneRd p = true)
    (safe : s.fon PRT_CCSTAT.VSAFE0 p = true) :
    s.ccDebounced p = if s.eget PRT_CCCFG.TRY p = 2 then s.setAtt p 0xA else s.attOn p 7 := by
  simp only [ccDebounced, hst, rd, if_true, when_pos s safe]

/-- tTryCCDebounce in Try.SRC and TryWait.SRC with one Rd. -/
theorem tryDebounced_source (hst : s.attState p = 8 ∨ s.attState p = 0xB) (rd : s.oneRd p = true) :
    s.tryDebounced p = s.attOn p 7 := by
  rcases hst with hst | hst <;> simp only [tryDebounced, hst, when_pos s rd]

/-- A due end of a DRP share exchanges Unattached.SNK and Unattached.SRC. -/
theorem exec_drpShareEnd_toggles (due : s.attDue p (s.att p).drp = true) (hst : s.attState p = 2 ∨ s.attState p = 5) :
    exec (.drpShareEnd p) s = .next (((((s.onAtt p fun h => { h with drp := none }).latchCccfg p).setAtt p
      (if s.attState p = 2 then 5 else 2)).fset PRT_ATTST.KIND p 0).cntEvent 0x02 (some p.val)) := by
  refine (if_pos due).trans ?_
  rcases hst with hst | hst <;> simp only [attState_onAtt, hst] <;> rfl

/-- A due tDRPTry leads from Try.SRC to TryWait.SNK. -/
theorem exec_drpTryExpiry_trySrc (due : s.attDue p (s.att p).drpTry = true) (hst : s.attState p = 8) :
    exec (.drpTryExpiry p) s = .next ((s.onAtt p fun h => { h with drpTry := none }).setAtt p 9) := by
  refine (if_pos due).trans ?_
  simp only [attState_onAtt, hst]

/-- A due tDRPTry leads from TryWait.SRC to Unattached.SNK. -/
theorem exec_drpTryExpiry_tryWaitSrc (due : s.attDue p (s.att p).drpTry = true) (hst : s.attState p = 0xB) :
    exec (.drpTryExpiry p) s = .next ((s.onAtt p fun h => { h with drpTry := none }).attOff p 2) := by
  refine (if_pos due).trans ?_
  simp only [attState_onAtt, hst]

end

end Sys2Proof.Machine.State

namespace Sys2Proof.Machine
open State

/-- A command that answers a state changed only under a condition acts where the condition stands. -/
theorem acts_of_next_ite {c : Instr} {s t : State} {b : Bool} {due : Prop}
    (run : exec c s = .next (if b then t else s)) (h : b = true ↔ due) : Acts c s due t :=
  acts_of_ite (run.trans (apply_ite Host.Outcome.next ..)) h

/-- Where the command does so only when a timer is due, it acts where both stand. -/
theorem acts_of_ite_next_ite {c : Instr} {s t : State} {a b : Bool} {due : Prop}
    (run : exec c s = if a then .next (if b then t else s) else .next s) (h : a = true ∧ b = true ↔ due) :
    Acts c s due t := by
  refine acts_of_next_ite (b := a && b) (run.trans ?_) (by rwa [Bool.and_eq_true])
  cases a <;> rfl

/-- Settles O34: each timer by the lemma of the state in which it is due, a latch by the hysteresis of its
comparison, and STATE by what its writing leaves alone. -/
theorem attachRowsComplete : Obligations.AttachRowsComplete := by
  unfold Obligations.AttachRowsComplete
  refine ⟨fun p s => ⟨exec_drpShareEnd_toggles, fun wait => if_neg (Bool.eq_false_iff.mp wait),
      fun wait => if_neg (Bool.eq_false_iff.mp wait), ?attachWaitSnk, ?attachWaitSrc,
      acts_of_ite_next_ite rfl (by simp [and_assoc]), ?trySource,
      fun wait => if_neg (Bool.eq_false_iff.mp wait), exec_drpTryExpiry_trySrc, exec_drpTryExpiry_tryWaitSrc,
      acts_of_ite rfl Iff.rfl, acts_of_ite_next_ite rfl (by simp),
      acts_of_ite rfl (by simp)⟩,
    fun p s st h => ⟨attState_setAtt s p h, mem_setAtt s p st, host_setAtt s p st⟩,
    fun p b thr v s _ => ?latch, fun p v1 v2 b1 b2 s => ⟨rfl, fun idle => scanStep_idle idle _ _ b1 b2⟩,
    fun p s => ⟨rfl, rfl, acts_of_next_ite rfl (by simp),
      acts_of_next_ite rfl (by simp)⟩,
    fun p s => ⟨acts_of_ite rfl Iff.rfl, rfl⟩, fun q s => ⟨rfl, rfl⟩⟩
  case attachWaitSnk =>
    exact fun due hst rp vbus => (if_pos due).trans (congrArg _ (ccDebounced_attachWaitSnk hst rp vbus))
  case attachWaitSrc =>
    exact fun due hst rd safe => (if_pos due).trans (congrArg _ (ccDebounced_attachWaitSrc hst rd safe))
  case trySource =>
    exact fun due hst rd => (if_pos due).trans (congrArg _ (tryDebounced_source hst rd))
  case latch =>
    dsimp only
    rw [latch_compareCc]
    refine ⟨fun above => ?_, fun high low => ?_, fun below => ?_⟩
    · rw [decide_eq_true above, decide_eq_false (by omega : ¬ v < _)]
      exact ite_self _
    · rw [decide_eq_false (by omega : ¬ thr * 3000 < v), decide_eq_false (by omega : ¬ v < _)]
      simp
    · rw [decide_eq_true below, decide_eq_false (by omega : ¬ thr * 3000 < v)]
      exact ite_self _

end Sys2Proof.Machine
end

section
/-!
SUPPORT. The Power Delivery commands (R138, R142, R146 to R148, R154, R166 to R168, R321 to R323, R512): a served
command that passes its checks goes on to its effect, and what those checks come to for PD_ANSWER.
-/
namespace Sys2Proof.Machine.State

/-- Where no check holds the command goes on. -/
theorem judge_goes {l : List (Bool × Nat)} (h : l.any (·.1) = false) (s : State) (op : Nat) (tag : Byte)
    (go : State → State) : s.judge op tag l go = go s := by
  have noCheck : l.find? (·.1) = none := List.find?_eq_none.mpr (List.any_eq_false.mp h)
  simp only [judge, noCheck]

/-- A PD_ANSWER with a known ACTION, whose bytes ACTION 4 brings and no other, is well formed. -/
theorem answer_wellFormed {ps d : List Byte} {a : Nat} (known : a ≤ 4) (zero : zeroAt ps 7 1 = true)
    (given : a = 4 → 2 ≤ d.length) (empty : a ≠ 4 → d = []) :
    (decide (4 < a) || !zeroAt ps 7 1 || (a == 4) == decide (d.length < 2) || (a != 4 && !d.isEmpty)) = false := by
  by_cases four : a = 4
  · have long : ¬ d.length < 2 := Nat.not_lt.mpr (given four)
    simp [four, zero, long]
  · simp [four, zero, empty four, known]

/-- The effect of a PD_ANSWER that names the open raise and is legal for it (R322). -/
theorem doPdAnswer_answers {tag : Byte} {ps : List Byte} {u : State} {r : Raise}
    (raised : (u.pd (par ps 0 1)).raise = some r) (num : r.num = par ps 4 2) (known : par ps 6 1 ≤ 4)
    (zero : zeroAt ps 7 1 = true) (given : par ps 6 1 = 4 → 2 ≤ (ps.drop 8).length)
    (empty : par ps 6 1 ≠ 4 → ps.drop 8 = [])
    (legal : u.badAnswer (par ps 0 1) (par ps 6 1) r.msg (msgOfBytes r.msg.sop (ps.drop 8)) = false)
    (revision : par ps 6 1 = 4 → (msgOfBytes r.msg.sop (ps.drop 8)).ext = true → u.rev2 (par ps 0 1) = false) :
    let p := par ps 0 1
    let a := par ps 6 1
    let w := msgOfBytes r.msg.sop (ps.drop 8)
    let v := (u.onPd p fun h => { h with raise := none }).timStop p 2
    doPdAnswer tag ps u = (v.answering p fun t => if v.tKind p r.msg ≠ 0
      then t.answerT p r.msg (v.tKind p r.msg) a w else t.answerOther p r.msg a w).reply 0x32 tag 0 := by
  have sendable : ¬ (par ps 6 1 = 4 ∧ (msgOfBytes r.msg.sop (ps.drop 8)).ext = true ∧ u.rev2 (par ps 0 1) = true) :=
    fun ⟨four, ext, old⟩ => Bool.false_ne_true ((revision four ext).symm.trans old)
  simp only [doPdAnswer, answer_wellFormed known zero given empty, raised, num, legal, sendable, ne_eq,
    not_true_eq_false, Bool.false_eq_true, if_false]

end Sys2Proof.Machine.State

namespace Sys2Proof.Machine
open State

/-- Settles O23: each command by its body, in which no check holds under the premises. -/
theorem pdCommandsAct : Obligations.PdCommandsAct := by
  unfold Obligations.PdCommandsAct
  intro tag ps s u
  dsimp only
  intro port safe own
  refine ⟨fun served block len zero fixed => ?caps, fun served len zero legal => ?table,
    fun r a served raised num action known zero given empty legal revision => ?answer,
    fun room => ⟨fun served sop zero allowed ext enter link asks => ?send,
      fun served zero link free kind => ?swap, fun served zero link =>
      ⟨fun enter low high off sink => ?eprEnter, fun exit noPdp on volt => ?eprExit⟩⟩,
    fun served sop zero link => ?soft, fun served runs step => ?hard, fun served runs vconn => ?cable,
    fun served zero runs => ?bist⟩
  case caps =>
    refine (hostRow_served served doPdCapsSet).trans (congrArg _ ?_)
    rw [doPdCapsSet, judge_goes]
    simpa [port, safe, own, block, len, zero] using fun x long => (fixed x).resolve_left (by simpa using long)
  case table =>
    refine (hostRow_served served doPdReplySet).trans (congrArg _ ?_)
    rw [doPdReplySet, judge_goes]
    simpa [port, safe, own, len, zero] using fun i k mem => legal (i, _) (List.mem_map.mpr ⟨(i, k), mem, rfl⟩)
  case answer =>
    subst action
    exact (hostRow_served served doPdAnswer).trans
      (congrArg _ (doPdAnswer_answers raised num known zero given empty legal revision))
  case send =>
    refine (hostRow_served served doPdSend).trans (congrArg _ ?_)
    rw [doPdSend, judge_goes]
    have refused : (msgOfBytes (par ps 4 1) (ps.drop 8)).code ∉ sendRefused := by simpa using allowed
    simpa [port, safe, own, zero, link, room, sop] using
      ⟨⟨⟨refused, fun e => (ext e).1⟩, fun e => (enter e).1⟩, ⟨fun e => (enter e).2, asks⟩, fun e => (ext e).2⟩
  case swap =>
    refine (hostRow_served served doPdSwap).trans (congrArg _ ?_)
    rw [doPdSwap, judge_goes]
    have idle : ¬ (1 ≤ u.fget PRT_ROLE.SWAP (par ps 0 1) ∧ u.fget PRT_ROLE.SWAP (par ps 0 1) ≤ 4) := by omega
    rcases kind with ⟨power, drp⟩ | ⟨data, outside⟩ | vconn
    · simp [port, safe, own, zero, link, room, idle, power, drp]
    · simp [port, safe, own, zero, link, room, idle, data, outside]
    · simp [port, safe, own, zero, link, room, idle, vconn]
  case eprEnter =>
    refine (hostRow_served served doPdEpr).trans (congrArg _ ?_)
    rw [doPdEpr, judge_goes, if_pos enter]
    simp [port, safe, own, zero, link, room, enter, low, high, off, sink]
  case eprExit =>
    refine (hostRow_served served doPdEpr).trans (congrArg _ ?_)
    rw [doPdEpr, judge_goes, if_neg (by omega)]
    simp [port, safe, own, zero, link, room, exit, noPdp, on, volt]
  case soft =>
    refine (hostRow_served served doPdSoftReset).trans (congrArg _ ?_)
    rw [doPdSoftReset, judge_goes]
    simp [port, safe, own, zero, link, sop]
  case hard =>
    refine (hostRow_served served doPdHardReset).trans (congrArg _ ?_)
    simp [doPdHardReset, runs, State.when, step]
  case cable =>
    refine (hostRow_served served doPdCableReset).trans (congrArg _ ?_)
    rw [doPdCableReset, judge_goes]
    simp [port, safe, own, runs, vconn]
  case bist =>
    constructor
    all_goals
      intro mode ok
      refine (hostRow_served served doPdBist).trans (congrArg _ ?_)
      rw [doPdBist, judge_goes]
      · simp [mode, ok]
      · simp [port, safe, own, zero, runs, mode]

end Sys2Proof.Machine
end

section
/-!
SUPPORT. The link's hardware (R133, R138, R143, R144): what an operation on the timer bank, an event or a completion
leaves of a port's link, and what the requests for a reset come to.
-/
namespace Sys2Proof.Machine.State

/-! ### The link among a port's hardware -/

@[simp] theorem pd_onPd_same (s : State) (p : Nat) (g : PdHw → PdHw) : (s.onPd p g).pd p = g (s.pd p) := by
  simp [onPd, pd]

@[simp] theorem sw_onPd_same (s : State) (p : Nat) (g : PdHw → PdHw) : (s.onPd p g).sw p = s.sw p := by
  simp [onPd, sw]

@[simp] theorem mux_onPd_same (s : State) (p : Nat) (g : PdHw → PdHw) : (s.onPd p g).mux p = s.mux p := by
  simp [onPd, mux]

theorem pd_fset (s : State) (f : Fld) (i v p : Nat) : (s.fset f i v).pd p = s.pd p := rfl

theorem mux_fset (s : State) (f : Fld) (i v p : Nat) : (s.fset f i v).mux p = s.mux p := rfl

/-! ### The timers (R143) -/

section
variable (s : State) (p : Nat) {j k : Nat}

theorem timer_onPd {g : PdHw → PdHw} (h : ∀ d, (g d).tim = d.tim) : (s.onPd p g).timer p j = s.timer p j := by
  rw [timer, pd_onPd_same, h, timer]

theorem pd_setTimer (v : Option Nat) (st : Nat) :
    (s.setTimer p k v st).pd p = { s.pd p with tim := (s.pd p).tim.put none k v } :=
  pd_onPd_same s p fun h => { h with tim := h.tim.put none k v }

@[simp] theorem timer_setTimer_same (v : Option Nat) (st : Nat) : (s.setTimer p k v st).timer p k = v := by
  rw [timer, pd_setTimer, Tab.get_put_same]

theorem timer_setTimer_ne (h : j ≠ k) (v : Option Nat) (st : Nat) :
    (s.setTimer p k v st).timer p j = s.timer p j := by
  rw [timer, pd_setTimer, Tab.get_put_ne _ h, timer]

theorem timer_timStop_same : (s.timStop p k).timer p k = none := by
  unfold timStop State.when
  dsimp only
  split
  case isTrue => exact timer_setTimer_same ..
  case isFalse idle => simpa using idle

theorem timer_timStop_ne (h : j ≠ k) : (s.timStop p k).timer p j = s.timer p j :=
  (read_when (timer · p j) (timer_setTimer_ne _ p h _ _)).trans (timer_onPd s p fun _ => rfl)

theorem timer_timStart_same : (s.timStart p k).timer p k = some (s.fget (PRT_PDTIM.LOAD k) p) := by
  unfold timStart
  dsimp only
  rw [timer_setTimer_same]
  exact congrArg some (read_when (fun t => t.fget (PRT_PDTIM.LOAD k) p) rfl)

theorem timer_timStart_ne (h : j ≠ k) : (s.timStart p k).timer p j = s.timer p j :=
  (timer_setTimer_ne _ p h _ _).trans (read_when (timer · p j) (timer_onPd s p fun _ => rfl))

/-- A timer that has not been started again stops as its expiry is acted on. -/
theorem timer_timExpire (h : (s.pd p).owedT.contains k = false) : (s.timExpire p k).timer p k = none := by
  rw [timExpire, h]
  exact timer_setTimer_same ..

end

/-! ### What the timer bank does not hold -/

/-- What is read of a port's link outside its timer bank. -/
def OffBank {α : Type} (read : PdHw → α) : Prop :=
  ∀ (d : PdHw) (tim : Tab (Option Nat)) (owed : List Nat), read { d with tim := tim, owedT := owed } = read d

namespace OffBank
variable {α : Type} {read : PdHw → α} (off : OffBank read) (s : State) (p k : Nat)
include off

theorem setTimer (v : Option Nat) (st : Nat) : read ((s.setTimer p k v st).pd p) = read (s.pd p) := by
  rw [pd_setTimer]
  exact off _ _ (s.pd p).owedT

theorem owed (g : List Nat → List Nat) :
    read ((s.onPd p fun h => { h with owedT := g h.owedT }).pd p) = read (s.pd p) := by
  rw [pd_onPd_same]
  exact off _ (s.pd p).tim _

theorem timExpire : read ((s.timExpire p k).pd p) = read (s.pd p) := by
  unfold State.timExpire
  split
  · exact off.owed s p _
  · exact off.setTimer s p k _ _

theorem timStop : read ((s.timStop p k).pd p) = read (s.pd p) :=
  (read_when (fun t => read (t.pd p)) (off.setTimer _ p k _ _)).trans (off.owed s p _)

theorem timStart : read ((s.timStart p k).pd p) = read (s.pd p) :=
  (off.setTimer _ p k _ _).trans (read_when (fun t => read (t.pd p))
    (off.owed s p fun l => if l.contains k then l else l ++ [k]))

/-- The end of a wait leaves of the link what neither the wait nor the timer bank holds. -/
theorem endWait : read ((s.endWait p).pd p) = read { s.pd p with wait := none } := by
  have start : read ((s.onPd p fun h => { h with wait := none }).pd p) = read { s.pd p with wait := none } := by
    rw [pd_onPd_same]
  exact (off.timStop _ p 13).trans ((off.timStop _ p 12).trans ((off.timStop _ p 1).trans start))

end OffBank

section
variable (s : State) (p k : Nat)

theorem cur_timExpire : ((s.timExpire p k).pd p).cur = (s.pd p).cur :=
  OffBank.timExpire (read := (·.cur)) (fun _ _ _ => rfl) s p k

theorem retries_timExpire : ((s.timExpire p k).pd p).retries = (s.pd p).retries :=
  OffBank.timExpire (read := (·.retries)) (fun _ _ _ => rfl) s p k

theorem wait_timExpire : ((s.timExpire p k).pd p).wait = (s.pd p).wait :=
  OffBank.timExpire (read := (·.wait)) (fun _ _ _ => rfl) s p k

theorem raise_timExpire : ((s.timExpire p k).pd p).raise = (s.pd p).raise :=
  OffBank.timExpire (read := (·.raise)) (fun _ _ _ => rfl) s p k

theorem chunkOf_timExpire : ((s.timExpire p k).pd p).chunkOf = (s.pd p).chunkOf :=
  OffBank.timExpire (read := (·.chunkOf)) (fun _ _ _ => rfl) s p k

theorem capsSent_timExpire : ((s.timExpire p k).pd p).capsSent = (s.pd p).capsSent :=
  OffBank.timExpire (read := (·.capsSent)) (fun _ _ _ => rfl) s p k

theorem hardSent_timExpire : ((s.timExpire p k).pd p).hardSent = (s.pd p).hardSent :=
  OffBank.timExpire (read := (·.hardSent)) (fun _ _ _ => rfl) s p k

theorem mux_setTimer (v : Option Nat) (st : Nat) : (s.setTimer p k v st).mux p = s.mux p := by
  rw [setTimer, mux_fset, mux_onPd_same]

theorem mux_timExpire : (s.timExpire p k).mux p = s.mux p := by
  unfold timExpire
  split
  · exact mux_onPd_same ..
  · exact mux_setTimer ..

theorem mux_timStop : (s.timStop p k).mux p = s.mux p :=
  (read_when (mux · p) (mux_setTimer ..)).trans (mux_onPd_same ..)

theorem eff_timStop : (s.timStop p k).eff = s.eff := read_when State.eff rfl

end

/-! ### The end of a wait (R511) -/

section
variable (s : State) (p : Nat)

theorem wait_endWait : ((s.endWait p).pd p).wait = none :=
  OffBank.endWait (read := (·.wait)) (fun _ _ _ => rfl) s p

theorem timer_endWait : (s.endWait p).timer p 1 = none := by
  rw [endWait, timer_timStop_ne _ _ (by decide), timer_timStop_ne _ _ (by decide), timer_timStop_same]

theorem mux_endWait : (s.endWait p).mux p = s.mux p := by
  rw [endWait, mux_timStop, mux_timStop, mux_timStop, mux_fset, mux_onPd_same]

theorem eff_endWait : (s.endWait p).eff = s.eff := by
  rw [endWait, eff_timStop, eff_timStop, eff_timStop]
  rfl

end

/-! ### Events and completions touch no link -/

theorem ports_cntEvent (s : State) (code : Nat) (p : Option Nat) : (s.cntEvent code p).ports = s.ports := by
  rw [(cntEvent_evidenceOnly s code p).rest]

theorem ports_linkEvent (s : State) (p : Nat) (f : Fld) : (s.linkEvent p f).ports = s.ports :=
  read_when (g := fun s => s.hostEvent 7 _) State.ports (by rw [(hostEvent_evidenceOnly ..).rest])

theorem eff_linkEvent (s : State) (p : Nat) (f : Fld) : (s.linkEvent p f).eff = s.eff :=
  read_when (g := fun s => s.hostEvent 7 _) State.eff (hostEvent_evidenceOnly ..).eff

theorem ports_finish (s : State) (c : Option (Nat × Nat)) (status : Nat) : (s.finish c status).ports = s.ports := by
  cases c <;> rfl

theorem eff_finish (s : State) (c : Option (Nat × Nat)) (status : Nat) : (s.finish c status).eff = s.eff := by
  cases c <;> rfl

/-! ### Resets requested (R133, R138) -/

/-- Soft_Reset goes to the head of the engine's queue. -/
theorem pd_softReset (s : State) (p sop : Nat) : (s.softReset p sop).pd p = { s.pd p with
    engine := { msg := ctl Code.softReset sop, onAck := .softReset } :: (s.pd p).engine } := by
  have step : (s.when (decide (s.fget PRT_PDST.ESCSTEP p = 0)) fun s => s.fset PRT_PDST.ESCSTEP p 1).pd p = s.pd p :=
    read_when (pd · p) rfl
  unfold softReset
  dsimp only
  rw [pd, port, ports_linkEvent, ports_cntEvent]
  refine (pd_onPd_same ..).trans ?_
  rw [step]

/-- A Hard_Reset is requested, and its own timer runs beside the others. -/
theorem hardReset_requests (s : State) (p : Nat) (c : Option (Nat × Nat)) :
    ((s.hardReset p c).pd p).ordHard = true ∧ ((s.hardReset p c).timer p 10).isSome = true ∧
      ∀ k, k ≠ 10 → (s.hardReset p c).timer p k = s.timer p k := by
  refine ⟨?_, ?_, fun k other => ?_⟩
  · have off : OffBank (·.ordHard) := fun _ _ _ => rfl
    refine (off.timStart _ p 10).trans ?_
    rw [pd_onPd_same]
  · rw [hardReset, timer_timStart_same]
    rfl
  · exact (timer_timStart_ne _ p other).trans (timer_onPd s p fun _ => rfl)

end Sys2Proof.Machine.State
end

section
/-!
SUPPORT. The rows of the link (R128 to R144, R150 to R157): reception by what the port makes of what it hears, the
line, and each timer by what its expiry finds.
-/
namespace Sys2Proof.Machine

/-- A command that answers its own state where a condition stands and `t` elsewhere acts where it does not stand. -/
theorem acts_unless {c : Instr} {s t : State} {due cond : Prop} [Decidable cond]
    (run : exec c s = if cond then .next s else .next t) (h : ¬cond ↔ due) : Acts c s due t :=
  ⟨fun d => run.trans (if_neg (h.mpr d)), fun n => run.trans (if_pos (not_not.mp (mt h.mp n)))⟩

namespace State

/-! ### Reception (R128 to R134, R139, R157) -/

/-- An owned port takes what it hears where its link runs and reception is not blanked. -/
theorem hears_iff {s : State} {p : Nat} : s.linkRuns p = true ∧ s.blanked p = false ↔
    ¬((!s.linkRuns p) = true ∨ s.blanked p = true) := by
  simp

/-- A GoodCRC besides on SOP, or where the cable's SOP types are enabled. -/
theorem hearsGoodCrc_iff {s : State} {p : Nat} {sop : Fin 3} :
    s.linkRuns p = true ∧ s.blanked p = false ∧ (sop = 0 ∨ s.fon PRT_PDST.SOPPEN p = true) ↔
      ¬((!s.linkRuns p) = true ∨ s.blanked p = true ∨ 1 ≤ sop.val ∧ (!s.fon PRT_PDST.SOPPEN p) = true) := by
  have sop_zero : sop = 0 ↔ ¬ 1 ≤ sop.val := by omega
  rw [sop_zero]
  simp [imp_iff_not_or]

/-- With both receive buffers in use a packet is dropped. -/
theorem acceptPacket_overflow {s : State} {p : Nat} (m : Msg) (bist : s.fon PRT_PDST.BIST p = false)
    (full : 2 ≤ (s.pd p).rx.length) :
    s.acceptPacket p m = (s.cntEvent 0x18 (some p)).linkEvent p PRT_PDEV.OVFL := by
  simp [acceptPacket, bist, full]

/-- Outside Low Water every PHY works, and nothing has to wake. -/
theorem phyUp_awake {s : State} (p : Nat) (h : s.lowWater = false) : s.phyUp p = true ∧ s.ccActivity p = s := by
  simp [phyUp, ccActivity, State.when, h]

section
variable {s : State} {p : Port} {k : PacketIn}

theorem packetReceived_asleep (asleep : ¬ s.phyUp p = true) :
    exec (.packetReceived p k) s = .next (s.ccActivity p) :=
  if_pos (by simpa using asleep)

theorem packetReceived_shadow (up : s.phyUp p = true) (shadow : s.owns p = false) :
    exec (.packetReceived p k) s = .next (if k.good = true ∧ k.sop.val < 3
      then s.overhear p (rxMsg k.sop.val k.bytes) (s.fromOwner p k.sop.val (ofBytes (k.bytes.take 2))) else s) := by
  show execPacketReceived p k s = _
  simp [execPacketReceived, up, shadow, State.when]

theorem packetReceived_shut (up : s.phyUp p = true) (own : s.owns p = true)
    (shut : ¬(s.linkRuns p = true ∧ s.blanked p = false)) : exec (.packetReceived p k) s = .next s := by
  show execPacketReceived p k s = _
  simp only [execPacketReceived, up, own, not_not.mp (mt hears_iff.mpr shut), Bool.not_true, Bool.false_eq_true,
    if_false, if_true]

section
variable (up : s.phyUp p = true) (own : s.owns p = true) (link : s.linkRuns p = true ∧ s.blanked p = false)
include up own link

theorem packetReceived_damaged (bad : k.good = false) :
    exec (.packetReceived p k) s = .next ((s.ccActivity p).cntEvent 0x12 (some p)) := by
  show execPacketReceived p k s = _
  simp [execPacketReceived, up, own, link, bad]

theorem packetReceived_debug (good : k.good = true) (debug : 3 ≤ k.sop.val) : exec (.packetReceived p k) s =
    .next (((s.ccActivity p).cntEvent 0x13 (some p)).fset PRT_PDEV.DBGSOP p 1) := by
  show execPacketReceived p k s = _
  simp [execPacketReceived, up, own, link, good, debug]

theorem packetReceived_cableOff (good : k.good = true) (cable : k.sop = 1 ∨ k.sop = 2)
    (off : (s.ccActivity p).fon PRT_PDST.SOPPEN p = false) :
    exec (.packetReceived p k) s = .next (s.ccActivity p) := by
  have low : ¬ 3 ≤ k.sop.val ∧ 1 ≤ k.sop.val := by omega
  show execPacketReceived p k s = _
  simp [execPacketReceived, up, own, link, good, low, off]

theorem packetReceived_enabled (good : k.good = true)
    (on : k.sop = 0 ∨ (k.sop = 1 ∨ k.sop = 2) ∧ (s.ccActivity p).fon PRT_PDST.SOPPEN p = true) :
    let v := if k.sop.val = 0 then (s.ccActivity p).goodSop p false else s.ccActivity p
    let m := rxMsg k.sop.val k.bytes
    exec (.packetReceived p k) s = .next (if m.code = 1 then v.goodCrc p m.sop m.id else v.acceptPacket p m) := by
  have low : ¬ 3 ≤ k.sop.val := by omega
  have enabled : ¬ (1 ≤ k.sop.val ∧ (!(s.ccActivity p).fon PRT_PDST.SOPPEN p) = true) := by
    rcases on with sop | ⟨-, on⟩
    · simp [sop]
    · simp [on]
  show execPacketReceived p k s = _
  simp only [execPacketReceived, up, own, hears_iff.mp link, good, low, enabled, State.when, Bool.not_true,
    Bool.false_eq_true, if_false, decide_eq_true_eq]
  exact (apply_ite Host.Outcome.next ..).symm

end

section
variable {sop : Fin 3} {id : BitVec 3} (up : s.phyUp p = true)
include up

theorem goodcrcReceived_shadow (shadow : s.owns p = false) : exec (.goodcrcReceived p sop id) s =
    .next (s.overhear p { sop := sop.val, typ := 1, id := id.toNat } false) := by
  show execGoodcrcReceived p sop id s = _
  simp [execGoodcrcReceived, up, shadow]

theorem goodcrcReceived_shut (own : s.owns p = true) (shut : ¬(s.linkRuns p = true ∧ s.blanked p = false ∧
    (sop = 0 ∨ s.fon PRT_PDST.SOPPEN p = true))) : exec (.goodcrcReceived p sop id) s = .next s := by
  show execGoodcrcReceived p sop id s = _
  simp only [execGoodcrcReceived, up, own, not_not.mp (mt hearsGoodCrc_iff.mpr shut), Bool.not_true,
    Bool.false_eq_true, if_false, if_true]

theorem goodcrcReceived_heard (own : s.owns p = true) (link : s.linkRuns p = true ∧ s.blanked p = false ∧
    (sop = 0 ∨ s.fon PRT_PDST.SOPPEN p = true)) : exec (.goodcrcReceived p sop id) s =
      .next ((if sop = 0 then (s.ccActivity p).goodSop p false else s.ccActivity p).goodCrc p sop.val id.toNat) := by
  show execGoodcrcReceived p sop id s = _
  simp only [execGoodcrcReceived, up, own, hearsGoodCrc_iff.mp link, State.when, Bool.not_true, Bool.false_eq_true,
    if_false, decide_eq_true_eq, Fin.val_eq_zero_iff]

theorem hardResetReceived_shadow (shadow : s.owns p = false) :
    exec (.hardResetReceived p) s = .next (s.heardCount p true) := by
  show execHardResetReceived p s = _
  simp [execHardResetReceived, up, shadow]

theorem cableResetReceived_shadow (shadow : s.owns p = false) :
    exec (.cableResetReceived p) s = .next (s.heardCount p true) := by
  show execCableResetReceived p s = _
  simp [execCableResetReceived, up, shadow]

theorem hardResetReceived_owned (own : s.owns p = true) :
    Acts (.hardResetReceived p) s (s.linkRuns p = true ∧ s.blanked p = false)
      ((s.ccActivity p).hardResetDone p (decide ((s.pd p).line = .hardReset))) := by
  refine acts_unless ?_ hears_iff.symm
  show execHardResetReceived p s = _
  simp only [execHardResetReceived, up, own, Bool.not_true, Bool.false_eq_true, if_false]

theorem cableResetReceived_owned (own : s.owns p = true) : Acts (.cableResetReceived p) s (s.blanked p = false)
    ((s.ccActivity p).cntEvent 0x14 (some p)) := by
  refine acts_unless ?_ (Bool.not_eq_true _).to_iff
  show execCableResetReceived p s = _
  simp only [execCableResetReceived, up, own, Bool.not_true, Bool.false_eq_true, if_false]

end
end

/-! ### The oldest buffered message (R135, R279) -/

section
variable {s : State} {p : Port}

theorem pdMessageParse_nothing (h : s.hoQuiet p = true ∨ (s.pd p).rx = []) :
    exec (.pdMessageParse p) s = .next s := by
  show execPdMessageParse p s = _
  rcases h with quiet | empty
  · simp [execPdMessageParse, quiet]
  · simp [execPdMessageParse, empty]

theorem pdMessageParse_oldest {m : Msg} {rest : List Msg} (loud : s.hoQuiet p = false) (rx : (s.pd p).rx = m :: rest) :
    exec (.pdMessageParse p) s = .next ((s.onPd p fun h => { h with rx := rest }).parseMsg p m) := by
  show execPdMessageParse p s = _
  simp [execPdMessageParse, loud, rx]

/-! ### Timers that are not due, and those that ask for a Hard_Reset (R143, R144) -/

/-- A row whose first branch is that of a timer not due waits for it. -/
theorem waits_of_not {c : Instr} {due : Bool} {t : Out} (run : exec c s = if !due then .next s else t)
    (wait : due = false) : exec c s = .next s :=
  run.trans (if_pos (by simp [wait]))

/-- A row whose last branch is that of a timer not due waits for it as well. -/
theorem waits_of_if {c : Instr} {due : Bool} {t : Out} (run : exec c s = if due then t else .next s)
    (wait : due = false) : exec c s = .next s :=
  run.trans (if_neg (by simp [wait]))

/-- What the expiries that request a Hard_Reset leave: it is asked for, timer 10 runs, and the timer has stopped. -/
theorem expiry_requestsHardReset {c : Instr} {k : Nat} (h10 : k ≠ 10)
    (run : exec c s = if s.timDue p k then .next ((s.timExpire p k).hardReset p) else .next s)
    (due : s.timDue p k = true) : ∃ t, exec c s = .next t ∧ (t.pd p).ordHard = true ∧
      (t.timer p 10).isSome = true ∧ ((s.pd p).owedT.contains k = false → t.timer p k = none) ∧
      t = (s.timExpire p k).hardReset p := by
  obtain ⟨ordered, runs, others⟩ := hardReset_requests (s.timExpire p k) p none
  exact ⟨_, run.trans (if_pos due), ordered, runs, fun fresh => (others k h10).trans (timer_timExpire s p fresh), rfl⟩

/-! ### A transmission without GoodCRC (R140) -/

section
variable {i : TxItem} (due : s.timDue p 0 = true)
include due

theorem crcReceiveTimer_retries (cur : (s.pd p).cur = some i) (more : 0 < (s.pd p).retries) :
    exec (.crcReceiveTimerExpiry p) s = .next (((s.timExpire p 0).onPd p fun h =>
      { h with retries := h.retries - 1, resend := true }).cntEvent 0x15 (some p)) := by
  show execCrcReceiveTimerExpiry p s = _
  simp [execCrcReceiveTimerExpiry, due, cur_timExpire, retries_timExpire, cur, more]

theorem crcReceiveTimer_fails (cur : (s.pd p).cur = some i) (last : (s.pd p).retries = 0) :
    exec (.crcReceiveTimerExpiry p) s = .next ((s.timExpire p 0).txFail p i) := by
  show execCrcReceiveTimerExpiry p s = _
  simp [execCrcReceiveTimerExpiry, due, cur_timExpire, retries_timExpire, cur, last]

theorem crcReceiveTimer_idle (cur : (s.pd p).cur = none) :
    exec (.crcReceiveTimerExpiry p) s = .next (s.timExpire p 0) := by
  show execCrcReceiveTimerExpiry p s = _
  simp [execCrcReceiveTimerExpiry, due, cur_timExpire, cur]

end

/-! ### Requests without response (R144, R252) -/

/-- The state in which a request's wait has ended in time-out and its command is told. -/
def unanswered (s : State) (p : Nat) (w : ReqWait) : State :=
  (((s.timExpire p 1).endWait p).linkEvent p PRT_PDEV.SRTO).finish w.cmd 0x50

theorem eget_unanswered (w : ReqWait) (f : Fld) (i : Nat) :
    (s.unanswered p w).eget f i = (s.timExpire p 1).eget f i := by
  simp only [eget, unanswered, eff_finish, eff_linkEvent, eff_endWait]

theorem pd_unanswered (w : ReqWait) : (s.unanswered p w).pd p = ((s.timExpire p 1).endWait p).pd p := by
  rw [pd, port, unanswered, ports_finish, ports_linkEvent]
  rfl

theorem senderResponse_idle (due : s.timDue p 1 = true) (wait : (s.pd p).wait = none) :
    exec (.senderResponseTimeout p) s = .next (s.timExpire p 1) := by
  show execSenderResponseTimeout p s = _
  simp [execSenderResponseTimeout, due, wait_timExpire, wait]

/-- Where escalation is automatic, Get_Source_Cap without response leads to Soft_Reset. -/
theorem senderResponse_getSourceCap {w : ReqWait} (due : s.timDue p 1 = true) (wait : (s.pd p).wait = some w)
    (code : w.code = Code.getSourceCap) (auto : (s.timExpire p 1).eget PRT_PDCFG.ESC p = 0) :
    exec (.senderResponseTimeout p) s = .next ((s.unanswered p w).softReset p w.sop) := by
  have escalates : (s.unanswered p w).eget PRT_PDCFG.ESC p = 0 := by rw [eget_unanswered, auto]
  rw [unanswered] at escalates
  show execSenderResponseTimeout p s = _
  simp [execSenderResponseTimeout, unanswered, due, wait_timExpire, wait, code, Code.getSourceCap, Code.softReset,
    State.when, escalates]

/-- After it the wait is over, its timer stopped, and Soft_Reset at the head of the engine's queue. -/
theorem unanswered_softReset (w : ReqWait) :
    let t := (s.unanswered p w).softReset p w.sop
    (t.pd p).wait = none ∧ t.timer p 1 = none ∧
      ∃ i, (t.pd p).engine.head? = some i ∧ i.msg = ctl Code.softReset w.sop := by
  have link := pd_softReset (s.unanswered p w) p w.sop
  rw [pd_unanswered] at link
  have stopped := timer_endWait (s.timExpire p 1) p
  rw [timer] at stopped
  simp only [timer, link, wait_endWait, stopped, List.head?_cons, Option.some.injEq, exists_eq_left', and_self]

theorem vdmResponse_idle (due : s.timDue p 12 = true) (wait : (s.pd p).wait = none) :
    exec (.vdmResponseTimeout p) s = .next (s.timExpire p 12) := by
  show execVdmResponseTimeout p s = _
  simp [execVdmResponseTimeout, due, wait_timExpire, wait]

theorem vdmResponse_identity {w : ReqWait} (due : s.timDue p 12 = true) (wait : (s.pd p).wait = some w)
    (sop : w.sop = 0) (cmd : w.vcmd = 1) :
    exec (.vdmResponseTimeout p) s = .next (((s.timExpire p 12).endWait p).evPdLink p) := by
  show execVdmResponseTimeout p s = _
  simp [execVdmResponseTimeout, due, wait_timExpire, wait, sop, cmd]

theorem vdmModeEntry_idle (due : s.timDue p 13 = true) (idle : (s.mux p).busy = 0) :
    exec (.vdmModeEntryTimeout p) s = .next (((s.timExpire p 13).endWait p).evPdLink p) := by
  show execVdmModeEntryTimeout p s = _
  simp [execVdmModeEntryTimeout, due, mux_endWait, mux_timExpire, idle, State.when]

/-! ### A raise without answer (R150) -/

section
variable (due : s.timDue p 2 = true) (free : s.answerWaits p = false)
include due free

theorem answerTimer_fallsBack {r : Raise} (raised : (s.pd p).raise = some r) : exec (.answerTimerExpiry p) s =
    .next ((((((s.timExpire p 2).onPd p fun h => { h with raise := none }).answering p fun s =>
      s.fallback p r.msg).unitSource 41).cntEvent 0x1C (some p)).linkEvent p PRT_PDEV.ANSLATE) := by
  show execAnswerTimerExpiry p s = _
  simp [execAnswerTimerExpiry, due, free, raise_timExpire, raised]

theorem answerTimer_idle (raised : (s.pd p).raise = none) :
    exec (.answerTimerExpiry p) s = .next (s.timExpire p 2) := by
  show execAnswerTimerExpiry p s = _
  simp [execAnswerTimerExpiry, due, free, raise_timExpire, raised]

end

/-! ### Chunks, capabilities and an unresponsive partner (R141, R143, R144, R152) -/

theorem chunkTimer_receiver (due : s.timDue p 3 = true) : exec (.chunkTimerExpiry p false) s =
    .next (((s.timExpire p 3).onPd p fun h => { h with asm := none }).evPdLink p) := by
  show execChunkTimerExpiry p false s = _
  simp [execChunkTimerExpiry, due, finish]

theorem chunkTimer_sender (due : s.timDue p 4 = true) : exec (.chunkTimerExpiry p true) s =
    .next ((((s.timExpire p 4).onPd p fun h => { h with chunks := [], chunkOf := none }).finish
      ((s.pd p).chunkOf.bind (·.cmd)) 0x50).evPdLink p) := by
  show execChunkTimerExpiry p true s = _
  simp [execChunkTimerExpiry, due, chunkOf_timExpire]

theorem sourceCapability_due (due : s.timDue p 5 = true) : exec (.sourceCapabilityTimeout p) s =
    .next (if (s.pd p).capsSent < 50 then (s.timExpire p 5).sendSourceCaps p else s.timExpire p 5) := by
  show execSourceCapabilityTimeout p s = _
  simp [execSourceCapabilityTimeout, due, State.when, capsSent_timExpire]

theorem noResponse_unresponsive (due : s.timDue p 9 = true) (gone : 3 ≤ (s.pd p).hardSent) :
    exec (.noResponseTimeout p) s = .next (((s.timExpire p 9).fset PRT_PDST.ESCSTEP p 3).evPdLink p) := by
  show execNoResponseTimeout p s = _
  simp [execNoResponseTimeout, due, hardSent_timExpire, gone]

theorem noResponse_again (due : s.timDue p 9 = true) (more : (s.pd p).hardSent < 3) :
    exec (.noResponseTimeout p) s = .next (if (s.timExpire p 9).eget PRT_PDCFG.ESC p = 0
      then (s.timExpire p 9).hardReset p else (s.timExpire p 9).evPdLink p) := by
  show execNoResponseTimeout p s = _
  simp [execNoResponseTimeout, due, hardSent_timExpire, more, apply_ite Host.Outcome.next]

theorem discoverIdentity_due (due : s.timDue p 11 = true) : exec (.discoverIdentityTimeout p) s =
    .next (if (s.timExpire p 11).cableWanted p then (s.timExpire p 11).discoverCable p else s.timExpire p 11) := by
  show execDiscoverIdentityTimeout p s = _
  simp [execDiscoverIdentityTimeout, due, State.when]

/-! ### The periodic Request, and a held message (R143, R155) -/

theorem sinkPpsPeriodic_repeats {m : Msg} (due : s.timDue p 18 = true)
    (request : ((s.timExpire p 18).pd p).lastReq = some m) : exec (.sinkPpsPeriodicTimeout p) s =
      .next (((s.timExpire p 18).sendEngine p m).timStart p 18) := by
  show execSinkPpsPeriodicTimeout p s = _
  simp [execSinkPpsPeriodicTimeout, due, request]

theorem sinkPpsPeriodic_noRequest (due : s.timDue p 18 = true)
    (request : ((s.timExpire p 18).pd p).lastReq = none) : exec (.sinkPpsPeriodicTimeout p) s =
      .next ((s.timExpire p 18).timStart p 18) := by
  show execSinkPpsPeriodicTimeout p s = _
  simp [execSinkPpsPeriodicTimeout, due, request]

section
variable {i : TxItem} {rest : List TxItem} (long : 250000 ≤ (s.pd p).heldFor) (held : s.fon PRT_PDST.HELD p = true)
include long held

theorem heldMessage_engine (queue : (s.pd p).engine = i :: rest) : exec (.heldMessageTimeout p) s =
    .next (((s.fset PRT_PDST.HELD p 0).onPd p fun h => { h with engine := rest, heldFor := 0 }).finish i.cmd 0x50) := by
  show execHeldMessageTimeout p s = _
  simp [execHeldMessageTimeout, long, held, pd_fset, queue]

theorem heldMessage_host (empty : (s.pd p).engine = []) (queue : (s.pd p).hostq = i :: rest) :
    exec (.heldMessageTimeout p) s = .next ((((s.fset PRT_PDST.HELD p 0).hostPop p).onPd p fun h =>
      { h with heldFor := 0 }).finish i.cmd 0x50) := by
  show execHeldMessageTimeout p s = _
  simp [execHeldMessageTimeout, long, held, pd_fset, empty, queue]

end
end

end State

open State

/-- Settles O40: each row by the lemma of what it finds, a timer not due by the branch that waits for it. -/
theorem pdRowsComplete : Obligations.PdRowsComplete := by
  unfold Obligations.PdRowsComplete
  refine ⟨fun p k s => ?packet, fun p sop id s => ?goodCrc, fun p s => ?line, fun p s => ⟨?notDue, ?hardReset⟩,
    fun p s => ?answers, fun p s => ?expiries, fun p s => ?held⟩
  case packet =>
    exact ⟨phyUp_awake p, packetReceived_asleep, packetReceived_shadow,
      fun up own shut => packetReceived_shut up own fun link => shut ⟨up, own, link⟩,
      fun ⟨up, own, link⟩ => packetReceived_damaged up own link,
      fun ⟨up, own, link⟩ => packetReceived_debug up own link,
      fun ⟨up, own, link⟩ => packetReceived_cableOff up own link,
      fun ⟨up, own, link⟩ => packetReceived_enabled up own link, acceptPacket_overflow _⟩
  case goodCrc =>
    exact ⟨fun asleep => if_pos (by simpa using asleep), goodcrcReceived_shadow,
      fun up own shut => goodcrcReceived_shut up own fun link => shut ⟨up, own, link⟩,
      fun ⟨up, own, link⟩ => goodcrcReceived_heard up own link⟩
  case line =>
    refine ⟨fun asleep => ⟨if_pos (by simpa using asleep), if_pos (by simpa using asleep)⟩,
      fun up shadow => ⟨hardResetReceived_shadow up shadow, cableResetReceived_shadow up shadow⟩,
      fun up own => ⟨cableResetReceived_owned up own, hardResetReceived_owned up own⟩,
      acts_of_ite rfl (by simp [lineFree, and_assoc]), fun packet => ?packet, fun hard => ?hard, fun idle => ?idle,
      fun sop head goodCrc => ?goodCrc, fun _ => rfl, pdMessageParse_nothing,
      fun m rest => pdMessageParse_oldest, rfl, acts_of_ite rfl Iff.rfl⟩
    case packet => exact congrArg Host.Outcome.next (by simp only [txEnd, packet])
    case hard => exact congrArg Host.Outcome.next (by simp only [txEnd, hard])
    case idle => exact congrArg Host.Outcome.next (by simp only [txEnd, idle])
    case goodCrc =>
      refine congrArg Host.Outcome.next ?_
      cases acc : (s.sw p).acc with
      | none => simp only [txEnd, goodCrc, sw_onPd_same, acc]
      | some c => simp only [txEnd, goodCrc, sw_onPd_same, acc]
  case notDue =>
    have answer (wait : s.timDue p 2 = false) : exec (.answerTimerExpiry p) s = .next s :=
      if_pos (.inl (by simp [wait]))
    simp only [List.forall_mem_cons, List.not_mem_nil, false_imp_iff, implies_true, and_true]
    exact ⟨waits_of_not rfl, waits_of_not rfl, answer, waits_of_not rfl, waits_of_not rfl, waits_of_not rfl,
      waits_of_if rfl, waits_of_if rfl, waits_of_if rfl, waits_of_not rfl, waits_of_not rfl, waits_of_not rfl,
      waits_of_not rfl, waits_of_not rfl, waits_of_if rfl, waits_of_if rfl, waits_of_if rfl, waits_of_if rfl,
      waits_of_if rfl, waits_of_if rfl⟩
  case hardReset =>
    simp only [List.forall_mem_cons, List.not_mem_nil, false_imp_iff, implies_true, and_true]
    exact ⟨expiry_requestsHardReset (by decide) rfl, expiry_requestsHardReset (by decide) rfl,
      expiry_requestsHardReset (by decide) rfl, expiry_requestsHardReset (by decide) rfl,
      expiry_requestsHardReset (by decide) rfl⟩
  case answers =>
    exact ⟨fun i => crcReceiveTimer_retries, fun i => crcReceiveTimer_fails, crcReceiveTimer_idle, senderResponse_idle,
      fun w due wait code _ auto => ⟨_, senderResponse_getSourceCap due wait code auto, unanswered_softReset w⟩,
      fun due waits => if_pos (.inr waits), fun r due free => answerTimer_fallsBack due free, answerTimer_idle⟩
  case expiries =>
    exact ⟨chunkTimer_receiver, chunkTimer_sender, sourceCapability_due, noResponse_unresponsive, noResponse_again,
      acts_unless rfl (by simp), discoverIdentity_due, vdmResponse_idle, fun w => vdmResponse_identity,
      vdmModeEntry_idle, acts_of_ite rfl Iff.rfl, acts_of_ite rfl Iff.rfl, acts_of_ite rfl Iff.rfl⟩
  case held =>
    exact ⟨fun m => sinkPpsPeriodic_repeats, sinkPpsPeriodic_noRequest, fun early => if_neg early,
      fun i rest => heldMessage_engine, fun i rest => heldMessage_host⟩

end Sys2Proof.Machine
end

section
/-!
SUPPORT. What a unit source's event touches (R395 to R404): its counts, its records and its reaction, down to ports
made safe or released, leave the junctions of the quads and their registers alone.
-/
namespace Sys2Proof.Machine

/-- Every place of field `f`, at a port's or an engine's index, stands below the registers of the quads. -/
abbrev Fld.BelowQuads (f : Fld) : Prop := f.base + f.stride * 15 < 0xFD0000 ∧ f.lo < 64

namespace State

/-- What the state holds of the junctions: the quads' hardware, and every register from theirs on. -/
def quadBank (s : State) : Tab QuadHw × (Nat → Nat → Nat) :=
  (s.quads, fun d k => s.regs.get d (0xFD0000 * 64 + k))

section
variable {s t : State}

theorem quad_of_quadBank (h : t.quadBank = s.quadBank) (q : Nat) : t.quad q = s.quad q :=
  congrArg (fun bank => bank.1.get {} q) h

theorem fget_of_quadBank (h : t.quadBank = s.quadBank) {f : Fld} (hf : 0xFD0000 ≤ f.base) (q : Nat) :
    t.fget f q = s.fget f q := by
  obtain ⟨k, hk⟩ := Nat.exists_eq_add_of_le (show 0xFD0000 * 64 ≤ f.key q by simp only [Fld.key]; omega)
  rw [fget, fget, hk]
  exact congrFun (congrFun (congrArg Prod.snd h) (f.rst q)) k

/-- Evidence stands below the registers of the quads. -/
theorem EvidenceOnly.quadBank (h : EvidenceOnly s t) : t.quadBank = s.quadBank := by
  have regs (d k : Nat) : t.regs.get d (0xFD0000 * 64 + k) = s.regs.get d (0xFD0000 * 64 + k) := by
    have place := h.flds ⟨0, 0, 0xFD0000 * 64 + k, 0, fun _ => d⟩ 0 (.inr (by simp only [Fld.key]; omega))
    simpa [fget, Fld.key] using place
  rw [State.quadBank, State.quadBank, funext₂ regs, h.rest]

end

/-! ### The basic operations -/

section
variable (s : State)

@[simp] theorem quadBank_fset {f : Fld} {i : Nat} (hf : f.BelowQuads) (hi : i < 16) (v : Nat) :
    (s.fset f i v).quadBank = s.quadBank := by
  have key : f.key i < 0xFD0000 * 64 := by
    have step : f.stride * i ≤ f.stride * 15 := Nat.mul_le_mul_left _ (by omega)
    simp only [Fld.key]
    omega
  exact Prod.ext rfl (funext₂ fun d k => get_regs_fset_ne s (by omega) v d)

theorem quadBank_foldl {α : Type} {l : List α} {g : State → α → State}
    (h : ∀ t, ∀ a ∈ l, (g t a).quadBank = t.quadBank) : (l.foldl g s).quadBank = s.quadBank := by
  induction l generalizing s with
  | nil => rfl
  | cons a l ih =>
    exact (ih (g s a) fun t b mem => h t b (List.mem_cons_of_mem a mem)).trans (h s a List.mem_cons_self)

theorem quadBank_forPorts {g : Nat → State → State} (h : ∀ p < 16, ∀ t, (g p t).quadBank = t.quadBank) :
    (s.forPorts g).quadBank = s.quadBank :=
  s.quadBank_foldl fun t p mem => h p (List.mem_range.mp mem) t

@[simp] theorem quadBank_when {c : Bool} {g : State → State} (h : ∀ t, (g t).quadBank = t.quadBank) :
    (s.when c g).quadBank = s.quadBank := read_when quadBank (h s)

@[simp] theorem quadBank_onPwr (p : Nat) (g : PwrHw → PwrHw) : (s.onPwr p g).quadBank = s.quadBank := rfl
@[simp] theorem quadBank_onPd (p : Nat) (g : PdHw → PdHw) : (s.onPd p g).quadBank = s.quadBank := rfl
@[simp] theorem quadBank_setPort (p : Nat) (h : PortHw) : (s.setPort p h).quadBank = s.quadBank := rfl
@[simp] theorem quadBank_setReact (sc : Nat) (r : React) : (s.setReact sc r).quadBank = s.quadBank := rfl
@[simp] theorem quadBank_onIdx (sc i : Nat) (g : WeirIdx → WeirIdx) : (s.onIdx sc i g).quadBank = s.quadBank := rfl
@[simp] theorem quadBank_profileAt (a e : Nat) : (s.profileAt a e).quadBank = s.quadBank := rfl

@[simp] theorem quadBank_reply (op : Nat) (tag : Byte) (st : Nat) (d : List Byte) (fl : Nat) :
    (s.reply op tag st d fl).quadBank = s.quadBank := rfl
@[simp] theorem quadBank_complete (op tag st : Nat) (d : List Byte) :
    (s.complete op tag st d).quadBank = s.quadBank := rfl

@[simp] theorem quadBank_cntEvent (code : Nat) (p : Option Nat) : (s.cntEvent code p).quadBank = s.quadBank :=
  (cntEvent_evidenceOnly s code p).quadBank

@[simp] theorem quadBank_logRec (code src : Nat) (d : List Byte) : (s.logRec code src d).quadBank = s.quadBank :=
  (logRec_evidenceOnly s code src d).quadBank

@[simp] theorem quadBank_hostEvent (kind : Nat) (d : List Byte) : (s.hostEvent kind d).quadBank = s.quadBank :=
  (hostEvent_evidenceOnly s kind d).quadBank

@[simp] theorem quadBank_evQuad (q : Nat) : (s.evQuad q).quadBank = s.quadBank := quadBank_hostEvent ..

/-! ### A port made safe or released (R189, R286, R401) -/

section
variable {p : Nat} (hp : p < 16)
include hp

@[simp] theorem quadBank_pwrEv {f : Fld} (hf : f.BelowQuads) : (s.pwrEv f p).quadBank = s.quadBank := by
  refine (quadBank_when _ fun t => ?_).trans (quadBank_fset s hf hp 1)
  exact t.quadBank_onPwr p _

@[simp] theorem quadBank_clearPg : (s.clearPg p).quadBank = s.quadBank := by simp +decide [clearPg, hp]

@[simp] theorem quadBank_setPwr (st : Nat) : (s.setPwr p st).quadBank = s.quadBank := by
  simp +decide [setPwr, setDis, hp]

@[simp] theorem quadBank_endDefer (st : Nat) : (s.endDefer p st).quadBank = s.quadBank := by
  unfold endDefer
  split <;> simp +decide [hp]

@[simp] theorem quadBank_openVconn : (s.openVconn p).quadBank = s.quadBank := by simp +decide [openVconn, hp]

@[simp] theorem quadBank_enterTripped (cause : Nat) : (s.enterTripped p cause).quadBank = s.quadBank := by
  unfold enterTripped
  split
  · rfl
  split
  · simp +decide [hp]
  · simp +decide [hp, setDis]

@[simp] theorem quadBank_portSafe : (s.portSafe p).quadBank = s.quadBank := by simp +decide [portSafe, hp]

@[simp] theorem quadBank_reactPort : (s.reactPort p).quadBank = s.quadBank := by
  unfold reactPort
  split
  · rfl
  split <;> simp [hp]

@[simp] theorem quadBank_toShadow : (s.toShadow p).quadBank = s.quadBank := by simp +decide [toShadow, hp]

end

theorem quadBank_dropUrgent (p st : Nat) : (s.dropUrgent p st).quadBank = s.quadBank := by
  unfold dropUrgent
  dsimp only
  split
  · rfl
  · exact (quadBank_foldl _ fun t k _ => quadBank_reply ..).trans rfl

theorem quadBank_closeCommands (p : Nat) : (s.closeCommands p).quadBank = s.quadBank := by
  have completed (t : State) (l : List OpenCmd) : (l.foldl (fun s c =>
      s.when (c.op != 0x33) fun s => s.complete c.op c.tag 0x40) t).quadBank = t.quadBank :=
    quadBank_foldl t fun t c _ => t.quadBank_when fun u => u.quadBank_complete ..
  unfold closeCommands
  dsimp only
  split
  · split <;> exact (completed ..).trans (s.quadBank_dropUrgent p 0x40)
  · exact (completed ..).trans (s.quadBank_dropUrgent p 0x40)

theorem quadBank_dropPorts (mask : Nat) : (s.dropPorts mask).quadBank = s.quadBank :=
  s.quadBank_forPorts fun p hp t => by simp [quadBank_closeCommands, hp]

/-! ### Reactions of the unit (R400 to R406) -/

@[simp] theorem quadBank_releaseOrSafe : s.releaseOrSafe.quadBank = s.quadBank := by
  unfold releaseOrSafe
  split
  · exact s.quadBank_dropPorts s.drives
  · exact s.quadBank_forPorts fun p hp t => by simp [hp]

@[simp] theorem quadBank_refreshFault : s.refreshFault.quadBank = s.quadBank := by
  unfold refreshFault
  dsimp only
  split
  · simp +decide
  · split <;> simp +decide

@[simp] theorem quadBank_faultAssert (c : Nat) : (s.faultAssert c).quadBank = s.quadBank := by
  unfold faultAssert
  split
  · simp
  · split
    · exact (quadBank_refreshFault _).trans ((quadBank_fset _ (by decide) (by decide) 1).trans rfl)
    · simp

@[simp] theorem quadBank_wakeToFlood : s.wakeToFlood.quadBank = s.quadBank := by
  refine s.quadBank_when fun t => ?_
  split <;> rfl

theorem quadBank_reactsCleared : (s.forPorts fun p s => s.setReact p {}).quadBank = s.quadBank :=
  s.quadBank_forPorts fun _ _ _ => rfl

@[simp] theorem quadBank_reactUnit2 : s.reactUnit2.quadBank = s.quadBank := by
  unfold reactUnit2
  split
  · rfl
  · rfl
  · simp +decide [quadBank_reactsCleared]

@[simp] theorem quadBank_reactUnit3 : s.reactUnit3.quadBank = s.quadBank := by
  unfold reactUnit3
  split
  · rfl
  · refine (quadBank_refreshFault _).trans ((quadBank_releaseOrSafe _).trans ((quadBank_when _ fun t => ?_).trans
      ((quadBank_reactsCleared _).trans ((quadBank_fset _ (by decide) (by decide) 0).trans ?_))))
    · exact t.quadBank_fset (by decide) (by decide) 1
    · show (((s.setReact 16 { cls := 3, fresh := true }).fset WEIR_ST.USAFE 0 1).fset PAIR_ST.ABLE 0 0).quadBank = _
      simp +decide

theorem class1Ports_lt {i p : Nat} (h : p ∈ s.class1Ports 16 i) : p < 16 := by
  simp only [class1Ports, Nat.lt_irrefl, if_false] at h
  split at h
  · simpa using (List.mem_filter.mp h).1
  · exact absurd h List.not_mem_nil

theorem quadBank_reactTo (i c : Nat) : (s.reactTo 16 i c).quadBank = s.quadBank := by
  unfold reactTo
  split
  · rfl
  · refine (quadBank_when _ quadBank_wakeToFlood).trans ?_
    split
    · rfl
    · exact s.quadBank_foldl fun t p mem => t.quadBank_reactPort (s.class1Ports_lt mem)
    · exact s.quadBank_reactUnit2
    · exact s.quadBank_reactUnit3

/-- An event of a unit source, whatever its reaction, leaves the quads' bank alone. -/
theorem quadBank_weirEvent (i : Nat) : (s.weirEvent 16 i).quadBank = s.quadBank := by
  have severe (t : State) (n : Nat) : (t.severe 16 i n).quadBank = t.quadBank := by
    simp +decide [State.severe, fbit, severeOf, scIdx, quadBank_reactTo]
  unfold weirEvent
  dsimp only
  split_ifs <;> simp +decide [severe, fbit, stickyOf, scIdx]

@[simp] theorem quadBank_unitSource (i : Nat) : (s.unitSource i).quadBank = s.quadBank := s.quadBank_weirEvent i

@[simp] theorem quadBank_weirCond (i : Nat) (c : Bool) : (s.weirCond 16 i c).quadBank = s.quadBank := by
  simp [weirCond, quadBank_weirEvent]

end

end State
end Sys2Proof.Machine
end

section
/-!
SUPPORT. The rows of transitions and swaps (R161 to R179, R220, R222, R252): the end of a sink transition, the PPS
current limit, and the quad's feeds and bus; each step of a swap is read off the step function at its event.
-/
namespace Sys2Proof.Machine

/-- A command that answers `u`, which is `t`, answers `t`. -/
theorem next_of_eq {c : Instr} {s t u : State} (run : exec c s = .next u) (h : u = t) : exec c s = .next t :=
  run.trans (congrArg _ h)

/-- A command that answers `u`, which is `t` where `due` holds and `s` elsewhere, acts where `due` holds. -/
theorem acts_of_eq_if {c : Instr} {s t u : State} {due : Prop} [Decidable due] (run : exec c s = .next u)
    (h : u = if due then t else s) : Acts c s due t :=
  ⟨fun d => next_of_eq run (h.trans (if_pos d)), fun n => next_of_eq run (h.trans (if_neg n))⟩

/-- Two fields with one step between indices stand apart at every index where they do at the first. -/
theorem Fld.key_ne {f g : Fld} (h : f.stride = g.stride ∧ f.base * 64 + f.lo ≠ g.base * 64 + g.lo) (i : Nat) :
    f.key i ≠ g.key i := by
  obtain ⟨step, apart⟩ := h
  simp only [key, step]
  omega

namespace State

theorem when_decide (s : State) (c : Prop) [Decidable c] (g : State → State) :
    s.when (decide c) g = if c then g s else s := by
  simp only [State.when, decide_eq_true_eq]

/-! ### The end of a sink transition (R162) -/

section
variable (s : State) (p : Nat)

@[simp] theorem sw_onSw_same (g : SwapHw → SwapHw) : (s.onSw p g).sw p = g (s.sw p) := by
  simp [onSw, sw]

theorem fget_onPd (g : PdHw → PdHw) (f : Fld) (i : Nat) : (s.onPd p g).fget f i = s.fget f i := rfl

theorem fget_swap_swapEnd : (s.swapEnd p).fget PRT_ROLE.SWAP p = 0 :=
  (fget_fset_ne _ (Fld.key_ne (f := PRT_ROLE.SWAP) (g := PRT_ROLE.SWSTEP) (by decide) p) 0).trans
    (fget_fset_same ..)

theorem goal_swapEnd : ((s.swapEnd p).sw p).goal = none := by
  simp only [swapEnd, sw_onSw_same]

theorem fget_swapEnd {f : Fld} (swap : f.key p ≠ PRT_ROLE.SWAP.key p) (step : f.key p ≠ PRT_ROLE.SWSTEP.key p) :
    (s.swapEnd p).fget f p = s.fget f p :=
  (fget_fset_ne _ step 0).trans ((fget_fset_ne _ swap 0).trans (read_when (fget · f p) rfl))

theorem fget_setLimFor {f : Fld} (lim : f.key p ≠ PRT_ILIM.LIM.key p) (hard : f.key p ≠ (PRT_CMP.THR 0).key p)
    (active : f.key p ≠ (PRT_CMP.THR 1).key p) (cur : Nat) : (s.setLimFor p cur).fget f p = s.fget f p := by
  have loads (t : State) (a b : Nat) :
      ((t.fset (PRT_CMP.THR 0) p a).fset (PRT_CMP.THR 1) p b).fget f p = t.fget f p :=
    (fget_fset_ne _ active b).trans (fget_fset_ne _ hard a)
  exact (read_when (fget · f p) (loads ..)).trans (fget_fset_ne _ lim _)

theorem fget_setVwin (lo hi : Nat) : (s.setVwin p lo hi).fget PRT_VWIN.WLO p = lo % 8192 ∧
    (s.setVwin p lo hi).fget PRT_VWIN.WHI p = hi % 8192 :=
  ⟨(fget_fset_ne _ (Fld.key_ne (by decide) p) hi).trans (fget_fset_same ..), fget_fset_same ..⟩

end

/-- After four ticks in the window the transition is over, and PRT_VWIN shows the new contract's window. -/
theorem sinkStep_ends {s : State} {p : Nat} {g : Contract} (goal : (s.sw p).goal = some g)
    (run : s.fget PRT_ROLE.SWAP p = 6) (step : s.fget PRT_ROLE.SWSTEP p = 2) (inWindow : 4 ≤ (s.sw p).okTicks) :
    (s.sinkStep p).fget PRT_ROLE.SWAP p = 0 ∧ ((s.sinkStep p).sw p).goal = none ∧
      (s.sinkStep p).fget PRT_VWIN.WLO p = g.lo % 8192 ∧ (s.sinkStep p).fget PRT_VWIN.WHI p = g.hi % 8192 := by
  have ends : s.sinkStep p = (((((s.setUv p (s.uvOf p g)).setOv p g.hi).setVwin p g.lo g.hi).setLimFor p
      g.cur).swapEnd p).onPd p fun h => { h with keptCaps := [] } := by
    simp [sinkStep, goal, run, step, inWindow]
  obtain ⟨lo, hi⟩ := fget_setVwin ((s.setUv p (s.uvOf p g)).setOv p g.hi) p g.lo g.hi
  rw [ends]
  refine ⟨?_, ?_, ?_, ?_⟩
  · rw [fget_onPd, fget_swap_swapEnd]
  · rw [sw_onPd_same, goal_swapEnd]
  · rw [fget_onPd, fget_swapEnd, fget_setLimFor, lo]
    all_goals exact Fld.key_ne (by decide) p
  · rw [fget_onPd, fget_swapEnd, fget_setLimFor, hi]
    all_goals exact Fld.key_ne (by decide) p

/-! ### The PPS current limit (R164) -/

theorem ppsLimits_iff {s : State} {p : Nat} : s.ppsLimits p = true ↔ (s.sw p).held.typ = 3 ∧ s.isSource p = true ∧
    s.eget PRT_SWCFG.PPSCL p = 1 ∧ (s.fget PRT_ROLE.SWAP p ≠ 5 ∨ s.fget PRT_ROLE.SWSTEP p = 6) := by
  simp [ppsLimits, and_assoc]

/-! ### The junctions (R220 to R222) -/

section
variable (s : State) (q : Quad)

theorem quad_fset (f : Fld) (i v k : Nat) : (s.fset f i v).quad k = s.quad k := rfl

/-- The state in which a feed monitor's change is shown, before it is told. -/
def feedShown (feedB present : Bool) : State :=
  (s.onQuad q fun h =>
    if feedB then { h with fbPres := present, fbOn := h.fbOn && present }
    else { h with faPres := present, faOn := h.faOn && present }).fset
    (if present then QD_JEV.FRET else if feedB then QD_JEV.FBLOST else QD_JEV.FALOST) q 1

theorem exec_feedLost_changes {feedB present : Bool}
    (changed : (if feedB then (s.quad q).fbPres else (s.quad q).faPres) ≠ present) :
    exec (.feedLost q feedB present) s =
      .next (((s.feedShown q feedB present).weirCond 16 ((if feedB then 24 else 20) + q.val) (!present)).evQuad q) := by
  refine (if_neg changed).trans ?_
  cases present <;> rfl

theorem feedShown_shows (feedB present : Bool) :
    (if feedB then ((s.feedShown q feedB present).quad q).fbPres
      else ((s.feedShown q feedB present).quad q).faPres) = present ∧
    (s.feedShown q feedB present).fget
      (if present then QD_JEV.FRET else if feedB then QD_JEV.FBLOST else QD_JEV.FALOST) q = 1 := by
  refine ⟨?_, (fget_fset_same ..).trans ?_⟩
  · rw [feedShown, quad_fset, quad_onQuad_same]
    cases feedB <;> rfl
  · cases present <;> cases feedB <;> rfl

/-- The field of QD_JEV that a feed monitor's change sets stands among the quads' registers. -/
theorem feedEvent_base (feedB present : Bool) :
    0xFD0000 ≤ (if present then QD_JEV.FRET else if feedB then QD_JEV.FBLOST else QD_JEV.FALOST).base := by
  cases present <;> cases feedB <;> decide

/-- A bus that falls under its limit is shown, told and signalled, and what is shown stands. -/
theorem exec_quadBusUndervoltage_falls (was : (s.quad q).busUv = false) :
    ∃ t, exec (.quadBusUndervoltage q true) s = .next t ∧
      t.quadBank = ((s.onQuad q fun h => { h with busUv := true }).fset QD_JEV.BUSUV q 1).quadBank := by
  refine ⟨_, if_neg (by simp [was]), ?_⟩
  refine (quadBank_forPorts _ fun p _ t => quadBank_when _ fun u => quadBank_onPd u p _).trans ?_
  exact (quadBank_evQuad ..).trans (quadBank_weirCond ..)

end
end State

open State

/-- Settles O42: each step by its step function at the awaited event, each timer by the branch of its row, and what a
junction shows by what the telling of it leaves of the quads. -/
theorem swapRowsComplete : Obligations.SwapRowsComplete := by
  unfold Obligations.SwapRowsComplete
  refine ⟨fun p s => ⟨fun goal => ?noGoal, fun g goal => ?transitions⟩, fun p s => ?timers, fun p s => ?pps,
    fun p s => ?prSwap, fun p s => ?vconnSwap, fun p s => ?frs, fun p s => ?hardReset,
    fun q ctl b present s => ?junction⟩
  case noGoal =>
    exact ⟨next_of_eq rfl (by simp only [contractStep, goal]), next_of_eq rfl (by simp only [sinkStep, goal])⟩
  case transitions =>
    exact ⟨fun _ go src swap => next_of_eq rfl (by simp [contractStep, goal, go, src, swap]),
      fun run wait => next_of_eq rfl (by simp [contractStep, goal, run, wait]),
      fun run step => next_of_eq rfl (by simp [contractStep, goal, run, step]),
      fun run step => acts_of_eq_if rfl (by simp [contractStep, goal, run, step]),
      fun run step => next_of_eq rfl (by simp [contractStep, goal, run, step]),
      fun run step => acts_of_eq_if rfl (by simp [contractStep, goal, run, step]),
      fun run step => acts_of_eq_if rfl (by simp [sinkStep, goal, run, step]),
      fun run step few => next_of_eq rfl (by simp [sinkStep, goal, run, step, few]),
      fun run step inWindow => ⟨_, rfl, sinkStep_ends goal run step inWindow⟩⟩
  case timers =>
    have newPower : exec (.snkNewPowerExpiry p) s = execSnkNewPowerExpiry p s := rfl
    simp only [execSnkNewPowerExpiry, when_decide] at newPower
    exact ⟨fun wait => if_neg wait, fun due swap => (if_pos due).trans (if_pos swap),
      fun due other => (if_pos due).trans (if_neg other), acts_of_ite rfl Iff.rfl, acts_of_ite newPower Iff.rfl,
      acts_of_ite rfl Iff.rfl, acts_of_ite rfl Iff.rfl, acts_of_ite rfl Iff.rfl, acts_of_ite rfl Iff.rfl,
      acts_of_ite rfl Iff.rfl, acts_of_ite rfl Iff.rfl, acts_of_ite rfl Iff.rfl⟩
  case pps =>
    have run : exec (.ppsCurrentLimitStep p) s = execPpsCurrentLimitStep p s := rfl
    simp only [execPpsCurrentLimitStep, ppsLimits_iff] at run
    dsimp only
    rw [run]
    refine ⟨fun idle => ?_, fun pps above => if_pos ⟨pps, above⟩, fun pps few below => ?_⟩
    · rw [if_neg fun ⟨pps, above⟩ => idle.elim (· pps) (by omega),
        if_neg fun ⟨pps, below⟩ => idle.elim (· pps) (by omega)]
    · rw [if_neg (by omega), if_pos ⟨pps, below⟩]
  case prSwap =>
    refine ⟨fun idle => next_of_eq rfl (if_pos idle), fun src step => acts_of_eq_if rfl ?_,
      fun src step => acts_of_eq_if rfl ?_, fun src step => acts_of_eq_if rfl ?_,
      fun src step => acts_of_eq_if rfl ?_, fun snk step => acts_of_eq_if rfl ?_,
      fun snk step => acts_of_eq_if rfl ?_, fun snk step => next_of_eq rfl ?_, fun snk step => acts_of_eq_if rfl ?_⟩
    iterate 4 · simp [prSwapStep, src, step]
    iterate 4 · simp [prSwapStep, snk, step]
  case vconnSwap =>
    exact ⟨fun idle => next_of_eq rfl (if_pos idle),
      fun run step go => next_of_eq rfl (by simp [vconnSwapStep, run, step, go]),
      fun run step go src => next_of_eq rfl (by simp [vconnSwapStep, run, step, go, src]),
      fun run step go snk bar => next_of_eq rfl (by simp [vconnSwapStep, vconnBarred, run, step, go, snk, bar]),
      fun run step go snk free => next_of_eq rfl (by simp [vconnSwapStep, vconnBarred, run, step, go, snk, free]),
      fun run step src => acts_of_eq_if rfl (by simp [vconnSwapStep, run, step, src]),
      fun run step snk on => next_of_eq rfl (by simp [vconnSwapStep, run, step, snk, on]),
      fun run step snk off => acts_of_eq_if rfl (by simp [vconnSwapStep, vconnBarred, run, step, snk, off])⟩
  case frs =>
    refine ⟨fun other => acts_of_eq_if rfl (if_pos other), fun snk step => acts_of_eq_if rfl ?_,
      fun snk step => acts_of_eq_if rfl ?_, fun src step => acts_of_eq_if rfl ?_,
      fun src step => acts_of_eq_if rfl ?_, fun src step => acts_of_eq_if rfl ?_,
      fun unarmed => if_neg (Bool.eq_false_iff.mp unarmed), fun armed => if_pos armed, acts_of_ite rfl Iff.rfl⟩
    iterate 2 · simp [frsStep, snk, step]
    iterate 3 · simp [frsStep, src, step]
  case hardReset =>
    have release : exec (.modeHoldRelease p) s = execModeHoldRelease p s := rfl
    refine ⟨fun seq => next_of_eq rfl ?_, fun seq => acts_of_eq_if rfl (by simp [hardSeqStep, seq]),
      fun seq => acts_of_eq_if rfl (by simp [hardSeqStep, seq]), fun seq => acts_of_eq_if rfl ?_,
      fun seq => acts_of_eq_if rfl (by simp [hardSeqStep, seq]), fun hold => ?_, fun x hold => ?_⟩
    · rcases seq with seq | seq | seq <;> simp [hardSeqStep, seq]
    · cases vbus : s.fon PRT_CCSTAT.VBUSOK p <;> simp [hardSeqStep, seq, vbus]
    · rw [release, execModeHoldRelease, hold]
    · simp only [execModeHoldRelease, hold] at release
      exact acts_of_ite release Iff.rfl
  case junction =>
    refine ⟨⟨_, rfl, ?rev, ?off⟩, fun same => if_pos same, fun changed => ?feed, fun same => if_pos same,
      fun was => if_neg (by simp [was]), fun was => ?bus⟩
    case rev =>
      rw [fget_of_quadBank ((quadBank_evQuad ..).trans (quadBank_unitSource ..)) (by decide), fget_fset_same]
      rfl
    case off =>
      rw [quad_of_quadBank ((quadBank_evQuad ..).trans (quadBank_unitSource ..)), quad_fset, quad_onQuad_same]
      refine ⟨?_, ?_, ?_⟩ <;>
        · rintro rfl
          rfl
    case feed =>
      have told := (quadBank_evQuad _ q).trans
        (quadBank_weirCond (s.feedShown q b present) ((if b then 24 else 20) + q.val) (!present))
      have shown := s.feedShown_shows q b present
      rw [← quad_of_quadBank told, ← fget_of_quadBank told (feedEvent_base b present)] at shown
      exact ⟨_, s.exec_feedLost_changes q changed, shown⟩
    case bus =>
      obtain ⟨t, run, bank⟩ := s.exec_quadBusUndervoltage_falls q was
      refine ⟨t, run, ?_, ?_⟩
      · rw [fget_of_quadBank bank (by decide), fget_fset_same]
        rfl
      · rw [quad_of_quadBank bank, quad_fset, quad_onQuad_same]

end Sys2Proof.Machine
end

section
/-!
SUPPORT. The port commands (R190, R246, R247, R257, R306, R317, R319): where a served command passes its checks on a
port that the unit owns, and what PORT_ENABLE comes to in each power state.
-/
namespace Sys2Proof.Machine.State

/-! ### PORT_ENABLE by the power state (R190, R317) -/

section
variable {tag : Byte} {ps : List Byte} {u e : State} {p : Nat} (named : par ps 0 1 = p) (port : badPort ps = false)
  (safe : u.unitSafe = false) (own : u.owns p = true) (ended : u.endDefer p 0x22 = e)
include named port safe own ended

theorem doPortEnable_tripped (tripped : e.pwrState p = 5) : doPortEnable tag ps u = e.reply 0x10 tag 0x22 := by
  subst named ended
  rw [doPortEnable, judge_goes (by simp [port, safe, own]), if_pos tripped]

theorem doPortEnable_defers (wait : e.pwrState p = 4 ∨ e.pwrState p = 0 ∧ (e.pwr p).offMin.isSome = true) :
    doPortEnable tag ps u = ((((e.fset PRT_PWRST.DEFER p 1).onPwr p fun h =>
      { h with deferTag := some tag.toNat }).reply 0x10 tag 2).openCmd 0x10 tag p).cntEvent 0x29 (some p) := by
  subst named ended
  rw [doPortEnable, judge_goes (by simp [port, safe, own]), if_neg (by omega), if_pos wait]

theorem doPortEnable_enables (up : e.pwrState p ≠ 5) (filled : e.pwrState p ≠ 4) (rested : (e.pwr p).offMin = none) :
    doPortEnable tag ps u = if e.attState p = 0 then e.forceWrite p 3 (some ⟨0x10, tag.toNat, false⟩)
      else (e.enableOff p).reply 0x10 tag 0 := by
  subst named ended
  rw [doPortEnable, judge_goes (by simp [port, safe, own]), if_neg up, if_neg (by simp [filled, rested])]

end

end Sys2Proof.Machine.State

namespace Sys2Proof.Machine
open State

/-- Settles O21: each command by its body, in which no check but PORT_RECOVER's last one can hold. -/
theorem portCommandsAct : Obligations.PortCommandsAct := by
  unfold Obligations.PortCommandsAct
  intro tag ps s u
  dsimp only
  intro port own
  refine ⟨fun served => hostRow_served served doPortDisable, fun safe => ⟨fun served => ?enable,
    fun served legal presence => ?set, fun served => ?recover, fun served svid known idle => ?map,
    fun served known zero idle partner => ?mux⟩⟩
  case enable =>
    have run := hostRow_served served doPortEnable
    exact ⟨fun tripped => next_of_eq run (doPortEnable_tripped rfl port safe own rfl tripped),
      fun wait => next_of_eq run (doPortEnable_defers rfl port safe own rfl wait),
      fun up filled rested => next_of_eq run (doPortEnable_enables rfl port safe own rfl up filled rested)⟩
  case set =>
    refine next_of_eq (hostRow_served served doPortSet) ?_
    rw [doPortSet, judge_goes]
    simpa [port, safe, own, legal] using presence
  case recover =>
    refine next_of_eq (hostRow_served served doPortRecover) ?_
    rw [doPortRecover, judge_passed port, judge_passed safe, judge_passed (by simp [own]), judge_cons]
    simp
  case map =>
    refine next_of_eq (hostRow_served served doModeMapSet) ?_
    have maps : [par ps 4 1, par ps 5 1, par ps 6 1, par ps 7 1].any (fun m => !([0, 3, 4, 5, 6].contains m)) = false :=
      List.any_eq_false.mpr fun m mem => by simp only [List.contains_iff_mem.mpr (known m mem)]; decide
    rw [doModeMapSet, judge_goes]
    simp only [svid, maps, port, safe, own, idle]
    decide
  case mux =>
    refine next_of_eq (hostRow_served served doMuxSet) ?_
    have config : ¬ (15 < par ps 4 1 ∨ par ps 4 1 / 2 = 7) := by omega
    rw [doMuxSet, judge_goes]
    simp [port, safe, own, zero, idle, partner, config]

end Sys2Proof.Machine
end

section
/-!
SUPPORT. The close of a tick's energy (R199): PRT_ELAST takes the 32 bits of the sum that it holds.
-/
namespace Sys2Proof.Machine.State

/-- PRT_ELAST takes the sum cut to its own width. -/
theorem fget_elast_closeEnergy (s : State) (p : Nat) :
    (s.closeEnergy p).fget PRT_ELAST.SUM p = s.fget PRT_EACC.SUM p % 2 ^ 32 :=
  (fget_fset_ne _ (Fld.key_ne (f := PRT_ELAST.SUM) (g := PRT_EACC.SUM) (by decide) p) 0).trans (fget_fset_same ..)

end Sys2Proof.Machine.State

namespace Sys2Proof.Machine
open State

/-- Refutes O41: its first clause has PRT_ELAST equal the sum of every state, and a register table that holds 2^32 for
PRT_EACC.SUM leaves 0 in PRT_ELAST. No write makes that content, for the field has 32 bits, but neither the statement
nor `State.Inv` excludes it. -/
theorem not_powerRowsComplete : ¬ Obligations.PowerRowsComplete := by
  unfold Obligations.PowerRowsComplete
  intro ⟨judgement, _⟩
  obtain ⟨moved, _⟩ := judgement 0 { regs := [(PRT_EACC.SUM.key 0, 2 ^ 32)] }
  rw [fget_elast_closeEnergy] at moved
  exact absurd moved (by decide)

end Sys2Proof.Machine
end

section
/-!
SUPPORT. Conversions and calibration (R223 to R225, R231, R233): a raw code strictly inside its range, without trims and
outside a calibration, is the result as it stands, and what the first VBUS result of a tick and the start of a
calibration leave.
-/
namespace Sys2Proof.Machine.State

/-! ### Correction (R224, R225) -/

/-- Without trims a code in its range is left as it is. -/
theorem correct_untrimmed {g : Nat} {raw : Int} (low : codeMin g ≤ raw) (high : raw ≤ codeMax g) :
    correct g raw 0 0 = (raw, false) := by
  have value : (raw * (2 ^ 20 + 0) + 0 * 2 ^ 16 + 2 ^ 19) / 2 ^ 20 = raw := by omega
  simp only [correct, value, Prod.mk.injEq, decide_eq_false_iff_not]
  omega

/-- The eddy converter serves no port while no calibration is under way (R231). -/
theorem eddyServes_idle {s : State} (idle : s.fon DEV_EDDY.BUSY = false) (p : Nat) : s.eddyServes p = false := by
  simp [eddyServes, idle]

/-- A raw code strictly inside its range is the result, without SAT. -/
theorem result_untrimmed {s : State} {p g : Nat} {raw : Int} (idle : s.fon DEV_EDDY.BUSY = false)
    (gain : s.eget (PRT_ADCTRIM.GAIN g) p = 0) (offs : s.eget (PRT_ADCTRIM.OFFS g) p = 0)
    (low : codeMin g < raw) (high : raw < codeMax g) : s.result p g raw = (raw, false) := by
  have inside : max (codeMin g) (min (codeMax g) raw) = raw := by omega
  have trim : toSigned 16 0 = 0 := rfl
  have ends : ¬ (raw = codeMin g ∨ raw = codeMax g) := by omega
  simp [result, eddyServes_idle idle, gain, offs, trim, inside, correct_untrimmed low.le high.le, ends]

/-! ### The first VBUS result of a tick -/

/-- A number that fits is its own two's complement. -/
theorem ofSigned_of_lt {w : Nat} {v : Int} (low : 0 ≤ v) (high : v < (2 ^ w : Nat)) : ofSigned w v = v.toNat := by
  rw [ofSigned, Int.emod_eq_of_lt low high]

section
variable {s : State} {p : Nat} {raw v : Int} (clear : s.result p 1 raw = (v, false))
include clear

/-- A result without SAT counts no event: its registers are all that it writes of the register table. -/
theorem regs_vbusResult (k : Nat) : (s.vbusResult p k raw).regs =
    (((s.fset PRT_RVBUS.CODE p (ofSigned 12 v)).fset PRT_RVBUS.SAT p 0).fset PRT_RVBUS.EDDY p
      (b2n (s.eddyServes p))).regs := by
  rw [vbusResult, clear]
  rfl

theorem fget_code_vbusResult (k : Nat) :
    (s.vbusResult p k raw).fget PRT_RVBUS.CODE p = ofSigned 12 v % 2 ^ 12 := by
  rw [fget, regs_vbusResult clear]
  exact (fget_fset_ne _ (Fld.key_ne (by decide) p) _).trans
    ((fget_fset_ne _ (Fld.key_ne (by decide) p) _).trans (fget_fset_same ..))

theorem fget_sat_vbusResult (k : Nat) : (s.vbusResult p k raw).fget PRT_RVBUS.SAT p = 0 := by
  rw [fget, regs_vbusResult clear]
  exact (fget_fset_ne _ (Fld.key_ne (by decide) p) _).trans (fget_fset_same ..)

theorem vb1_vbusResult : ((s.vbusResult p 1 raw).adc p).vb1 = some v.toNat := by
  simp only [vbusResult, clear, adc, onPwr, onAdc, port_setPort_same, if_true]

theorem mem_vbusResult (k : Nat) : (s.vbusResult p k raw).mem = s.mem := by
  rw [vbusResult, clear]
  rfl

theorem host_vbusResult (k : Nat) : (s.vbusResult p k raw).host = s.host := by
  rw [vbusResult, clear]
  rfl

end

/-! ### The start of a calibration (R231, R233) -/

theorem fget_calStart (s : State) (p : Nat) (f : Fld) : (s.calStart p).fget f =
    ((s.fset DEV_EDDY.BUSY 0 1).fset DEV_EDDY.TICKS 0 64).fget f := rfl

/-- DEV_EDDY shows 64 ticks of calibration to come, and PORT stays as it was written. -/
theorem eddy_calStart (s : State) (p : Nat) : (s.calStart p).fget DEV_EDDY.BUSY = 1 ∧
    (s.calStart p).fget DEV_EDDY.TICKS = 64 ∧ (s.calStart p).fget DEV_EDDY.PORT = s.fget DEV_EDDY.PORT := by
  simp only [fget_calStart]
  exact ⟨(fget_fset_ne _ (by decide) _).trans (fget_fset_same ..), fget_fset_same ..,
    (fget_fset_ne _ (by decide) _).trans (fget_fset_ne _ (by decide) _)⟩

end Sys2Proof.Machine.State

namespace Sys2Proof.Machine
open State

/-- The conversion a slot makes where the port's engine is awake (R42). -/
theorem exec_conversionComplete_awake {p : Port} {s : State} (awake : (s.engine p).awake = true) (k : Fin 8)
    (raw : BitVec 13) :
    (k = 1 ∨ k = 5 → exec (.conversionComplete p k raw) s = .next (s.vbusResult p k raw.toInt)) ∧
    (k = 3 → exec (.conversionComplete p k raw) s = .next (s.railResult p raw.toInt)) ∧
    (k = 0 ∨ k = 2 ∨ k = 4 ∨ k = 6 → exec (.conversionComplete p k raw) s = .next (s.isnsResult p k raw.toInt)) ∧
    (k = 7 → exec (.conversionComplete p k raw) s = .next (if bit (s.eget PRT_AUXSEL.EN p) (s.tick % 8) then
      s.auxResult p (s.tick % 8) raw.toInt else s.isnsResult p 7 raw.toInt)) := by
  have run : exec (.conversionComplete p k raw) s = execConversionComplete p k raw s := rfl
  rw [execConversionComplete, if_neg (by simp [awake])] at run
  rw [run]
  refine ⟨?vbus, ?rail, ?isns, ?aux⟩
  case vbus => rintro (rfl | rfl) <;> rfl
  case rail => rintro rfl; rfl
  case isns => rintro (rfl | rfl | rfl | rfl) <;> rfl
  case aux =>
    rintro rfl
    exact (apply_ite Host.Outcome.next ..).symm

/-- EDDY_START names its port, and starts its calibration where START is written and one may start (R231, R233). -/
theorem exec_eddyStart (v : BitVec 16) (s : State) : exec (.eddyStart v) s =
    .next ((s.fset DEV_EDDY.PORT 0 (v.toNat % 16)).when
      (bit v.toNat 4 && (s.fset DEV_EDDY.PORT 0 (v.toNat % 16)).calMay) fun t => t.calStart (v.toNat % 16)) := rfl

/-- Settles O33: a slot's conversion by the lemma of its slots, the VBUS register by the result of a code that nothing
corrects, a calibration's start by its condition, and each other row by the condition under which it acts. -/
theorem sensingRowsComplete : Obligations.SensingRowsComplete := by
  unfold Obligations.SensingRowsComplete
  refine ⟨fun p k raw s => ⟨fun asleep => ?asleep, fun awake => ?awake⟩,
    fun p n level s => ⟨rfl, ⟨rfl, rfl⟩, rfl, rfl, acts_of_ite rfl Iff.rfl⟩,
    fun v s => ⟨fun noStart => ?noStart, fun start barred => ?barred, fun start may => ?starts⟩,
    fun r s => acts_of_ite rfl Iff.rfl, fun gain offs s => acts_unless rfl (by simp),
    fun dev s => acts_of_ite rfl Iff.rfl, fun s => ⟨acts_of_ite rfl (by simp), rfl⟩⟩
  case asleep => exact if_pos (by simp [asleep])
  case awake =>
    obtain ⟨vbus, rail, isns, aux⟩ := exec_conversionComplete_awake awake k raw
    refine ⟨vbus, rail, isns, aux, fun first idle gain offs low high => ?_⟩
    have clear : s.result p 1 raw.toInt = (raw.toInt, false) := result_untrimmed idle gain offs low high
    subst first
    refine ⟨_, vbus (.inl rfl), ?_, fget_sat_vbusResult clear _, vb1_vbusResult clear, mem_vbusResult clear _,
      host_vbusResult clear _⟩
    rw [fget_code_vbusResult clear, ofSigned_of_lt low.le (by omega), Nat.mod_eq_of_lt (by omega)]
  case noStart => exact next_of_eq (exec_eddyStart v s) (if_neg (by simp [noStart]))
  case barred => exact next_of_eq (exec_eddyStart v s) (if_neg (by simp [barred]))
  case starts =>
    obtain ⟨busy, ticks, port⟩ := (s.fset DEV_EDDY.PORT 0 (v.toNat % 16)).eddy_calStart (v.toNat % 16)
    refine ⟨_, next_of_eq (exec_eddyStart v s) (when_pos _ (by simp [start, may]) _), busy, ticks, ?_, rfl⟩
    rw [port, fget_fset_same]
    exact Nat.mod_mod ..

end Sys2Proof.Machine
end

section
/-!
SUPPORT. Moving ports between the units of a pair (R58, R278 to R290): the ports a unit assumes, a proposal that is
refused, the third tick of a handover, and what an open handover and a bare withdrawal show.
-/
namespace Sys2Proof.Machine.State

/-- A field just written shows whether the value that it took is other than 0. -/
theorem fon_fset_same (s : State) (f : Fld) (i v : Nat) : (s.fset f i v).fon f i = (v % 2 ^ f.w != 0) :=
  congrArg (· != 0) (fget_fset_same ..)

/-! ### Ports assumed (R283, R286, R290) -/

section
variable {s : State} {mask why : Nat}

/-- Of ports none of which it owns, a unit that may own ports assumes every one at the next edge. -/
theorem assume_foreign (foreign : mask &&& s.fget PAIR_ST.OWN = 0) (any : mask ≠ 0)
    (idle : s.pair.assume = none) (may : s.mayOwn = true) (stays : s.fon PAIR_ST.WITHDRAWN = false) :
    s.assume mask why = s.onPair fun h => { h with assume := some ⟨mask, s.tick + 1, why⟩ } := by
  simp [assume, State.when, onPair, foreign, any, idle, may, stays]

theorem assume_barred (barred : s.mayOwn = false ∨ s.fon PAIR_ST.WITHDRAWN = true) : s.assume mask why = s :=
  if_neg (by rcases barred with barred | barred <;> simp [barred])

end

/-! ### A refused proposal leaves no trace (R279, R280) -/

section
variable {s : State} {cmd : Option (Nat × Nat)}

theorem propose_refused {take : Bool} {mask : Nat} {withdraw resets : Bool}
    (refused : (s.propose take mask cmd withdraw resets).1 ≠ 0) :
    (s.propose take mask cmd withdraw resets).2 = s := by
  revert refused
  simp only [propose]
  generalize (if take = true then s.fget PAIR_SHOK.TWINOWN else s.fget PAIR_ST.OWN) = owned
  split
  · exact fun _ => rfl
  · split
    · exact fun _ => rfl
    · exact fun opened => absurd rfl opened

theorem withdraw_refused (refused : (s.withdraw cmd).1 ≠ 0) : (s.withdraw cmd).2 = s := by
  revert refused
  simp only [withdraw]
  split
  · exact fun bare => absurd rfl bare
  · exact propose_refused

theorem rebalance_refused (refused : (s.rebalance cmd).1 ≠ 0) : (s.rebalance cmd).2 = s := by
  revert refused
  simp only [rebalance]
  split
  · exact propose_refused
  · split
    · exact propose_refused
    · exact fun home => absurd rfl home

end

/-- A PAIR_CTL row that tries `r` and marks its refusal: HOFAIL is all it shows where a refusal changes nothing. -/
theorem pairCtl_tries {c : Instr} {s : State} {r : Nat × State}
    (run : exec c s = .next (r.2.when (r.1 != 0) fun t => t.pairEv PAIR_EV.HOFAIL)) (refused : r.1 ≠ 0 → r.2 = s) :
    (r.1 = 0 → exec c s = .next r.2) ∧ (r.1 ≠ 0 → exec c s = .next (s.pairEv PAIR_EV.HOFAIL)) := by
  refine ⟨fun goes => next_of_eq run (if_neg (by simp [goes])), fun fails => next_of_eq run ?_⟩
  rw [when_pos _ (by simp [fails]), refused fails]

/-- A unit without ports withdraws at once (R290). -/
theorem withdraw_bare {s : State} (bare : s.fget PAIR_ST.OWN = 0) :
    s.withdraw none = (0, (s.fset PAIR_ST.WITHDRAWN 0 1).fset PAIR_ST.ABLE 0 0) :=
  if_pos bare

/-! ### A handover that is open, its third tick and its switch edge (R58, R279, R281) -/

section
variable {s : State} {h : Handover}

theorem hoOpen_shows (s : State) (h : Handover) (phase : Nat) : (s.hoOpen h phase).fon PAIR_ST.HOOPEN = true :=
  (s.hoShow h phase 0).fon_fset_same PAIR_ST.HOOPEN 0 1

/-- What the proposer comes to in the third tick (R58, R279, R280). -/
def thirdTick (s : State) (h : Handover) : State :=
  let heard := s.pair.hinTick == h.start + 2 && bits (s.hin 2) 7 0 == h.id
  if !s.synced then s.hoFail h 4 2
  else if heard && bits (s.hin 2) 10 8 == 2 then s.hoOpen { h with commit := true } 3
  else s.hoFail h 4 (if heard && bits (s.hin 2) 10 8 == 5 then bits (s.hin 2) 14 12 else 7)

theorem handoverCommit_acts (opened : s.pair.ho = some h) :
    Acts .handoverCommit s (h.prop = true ∧ h.phase = 1 ∧ h.start + 2 ≤ s.tick) (s.thirdTick h) := by
  have row : exec .handoverCommit s = execHandoverCommit s := rfl
  simp only [execHandoverCommit, opened, ← apply_ite Host.Outcome.next] at row
  exact acts_of_eq_if row (if_congr (by simp [and_assoc]) rfl rfl)

theorem handoverSwitch_acts (opened : s.pair.ho = some h) : Acts .handoverSwitch s (h.edge ≤ s.tick)
    (if !h.commit then s.hoFail h 4 7 else if !s.synced then s.hoFail h 4 2 else s.hoSwitch h) := by
  have row : exec .handoverSwitch s = execHandoverSwitch s := rfl
  rw [execHandoverSwitch, opened] at row
  exact acts_of_ite row Iff.rfl

end

end Sys2Proof.Machine.State

namespace Sys2Proof.Machine
open State

/-- Settles O20: each command by its body, whose checks a paired unit passes and an unpaired one fails at the last. -/
theorem pairCommandsAct : Obligations.PairCommandsAct := by
  unfold Obligations.PairCommandsAct
  intro tag ps s u
  refine ⟨fun served paired => next_of_eq (hostRow_served served doPairRetrain) (judge_goes (by simp [paired]) ..),
    fun served paired op zero ports => next_of_eq (hostRow_served served doPairHandover) ?handover,
    fun served paired => next_of_eq (hostRow_served served doPairWithdraw) (judge_goes (by simp [paired]) ..),
    fun served paired => next_of_eq (hostRow_served served doPairRebalance) (judge_goes (by simp [paired]) ..),
    fun alone => ?alone⟩
  case handover =>
    have legal : ¬(par ps 0 1 ≠ 1 ∧ par ps 0 1 ≠ 2) := by omega
    rw [doPairHandover, judge_goes (by simp [paired, legal, zero, ports])]
    rfl
  case alone =>
    have unpaired : (!u.paired) = true := by simp [alone]
    simp only [List.forall_mem_cons, List.not_mem_nil, false_imp_iff, implies_true, and_true]
    exact ⟨fun served => next_of_eq (hostRow_served served doPairWithdraw) (judge_refused unpaired ..),
      fun served => next_of_eq (hostRow_served served doPairRebalance) (judge_refused unpaired ..),
      fun served => next_of_eq (hostRow_served served doPairRetrain) (judge_refused unpaired ..)⟩

/-- Settles O39: each row by the condition under which it acts, a handover's third tick by what it comes to, and a
PAIR_CTL row by the lemma that what it tries leaves no trace where it is refused. -/
theorem ownershipRowsComplete : Obligations.OwnershipRowsComplete := by
  unfold Obligations.OwnershipRowsComplete
  refine ⟨fun s => acts_of_ite rfl (by simp), fun a s assumed => ?firstEdge,
    fun s mask why foreign => ⟨assume_foreign foreign, assume_barred⟩, fun m s => rfl,
    fun h s opened => ?handover, fun s closed => ?closed,
    fun h phase s => ⟨rfl, hoOpen_shows s h phase, rfl, rfl⟩, fun s => ?kept, fun s => acts_of_ite rfl (by simp),
    fun m s => ?control, fun s bare => ?bare, fun l s => acts_of_ite rfl Iff.rfl, fun f s forms => ?forms⟩
  case firstEdge =>
    have row : exec .takeoverFirstOwnedEdge s = execTakeoverFirstOwnedEdge s := rfl
    rw [execTakeoverFirstOwnedEdge, assumed] at row
    refine ⟨fun due => next_of_eq (row.trans (if_pos due)) ?_, fun early => row.trans (if_neg early)⟩
    by_cases takeover : a.why = 3 <;> simp [takeover, State.when]
  case handover =>
    obtain ⟨commits, waits⟩ := handoverCommit_acts opened
    exact ⟨waits, fun due free => next_of_eq (commits due) (by simp [thirdTick, free]),
      fun due locked heard accepts => next_of_eq (commits due) (by simp [thirdTick, locked, heard, accepts]),
      fun due locked heard rejects => next_of_eq (commits due) (by simp [thirdTick, locked, heard, rejects]),
      fun due locked deaf => next_of_eq (commits due) (by simp [thirdTick, locked, deaf]),
      handoverSwitch_acts opened⟩
  case closed =>
    have commit : exec .handoverCommit s = execHandoverCommit s := rfl
    have switch : exec .handoverSwitch s = execHandoverSwitch s := rfl
    rw [commit, switch, execHandoverCommit, execHandoverSwitch, closed]
    exact ⟨rfl, rfl⟩
  case kept =>
    have row : exec .handoverKeptRelease s = execHandoverKeptRelease s := rfl
    simp only [execHandoverKeptRelease, ← apply_ite Host.Outcome.next] at row
    refine acts_of_eq_if row ?_
    rw [← ite_not]
    exact if_congr (by omega) rfl rfl
  case control =>
    simp only [List.forall_mem_cons, List.not_mem_nil, false_imp_iff, implies_true, and_true]
    exact ⟨pairCtl_tries rfl propose_refused, pairCtl_tries rfl propose_refused, pairCtl_tries rfl withdraw_refused,
      pairCtl_tries rfl rebalance_refused⟩
  case bare =>
    refine ⟨_, (pairCtl_tries rfl withdraw_refused).1 (by rw [withdraw_bare bare]), ?_⟩
    rw [withdraw_bare bare]
    refine ⟨?_, fon_fset_same .., rfl⟩
    rw [fon, fget_fset_ne _ (by decide)]
    exact fon_fset_same s PAIR_ST.WITHDRAWN 0 1
  case forms =>
    have row : exec .formationEdge s = execFormationEdge s := rfl
    rw [execFormationEdge, forms] at row
    exact acts_of_ite row Iff.rfl

end Sys2Proof.Machine
end

section
/-!
SUPPORT. The link's transactions (R294 to R296): the bits of the status byte, and what a READ does to the entry at
the head of the queue.
-/
namespace Sys2Proof.Machine.State

/-! ### The status byte (R295) -/

theorem b2n_le (b : Bool) : b2n b ≤ 1 := by cases b <;> decide

/-- RDY, REF and FREE stand apart in the status byte. -/
theorem linkStatus_parts (rdy ref : Bool) {free : Nat} (few : free ≤ 32) :
    let b := byte (128 * b2n rdy + 64 * b2n ref + free)
    bit b.toNat 7 = rdy ∧ bit b.toNat 6 = ref ∧ b.toNat % 64 = free := by
  have whole : (byte (128 * b2n rdy + 64 * b2n ref + free)).toNat = 128 * b2n rdy + 64 * b2n ref + free := by
    have := b2n_le rdy
    have := b2n_le ref
    rw [byte, BitVec.toNat_ofNat]
    omega
  dsimp only
  rw [whole]
  simp only [bit, Nat.testBit_eq_decide_div_mod_eq]
  cases rdy <;> cases ref <;> simp [b2n] <;> omega

/-! ### A READ and the entry at the head (R296) -/

section
variable {s : State} {e : Entry} {rest : List Entry}

theorem entries_entryRead (head : s.host.entries = e :: rest) : (s.entryRead e).host.entries = rest :=
  congrArg List.tail head

/-- A READ that ends within the entry leaves it. -/
theorem exec_spiRead_part (head : s.host.entries = e :: rest) {n : Nat} (part : n < (entryBytes e).length) :
    exec (.spiRead n) s = .next { s with host := { s.host with out := (entryBytes e).take n } } := by
  show execSpiRead n s = _
  simp only [execSpiRead, head, List.length_cons, readOut, if_pos part]

/-- A READ that reaches the entry's last byte goes on with what remains after the entry has left. -/
theorem exec_spiRead_whole (head : s.host.entries = e :: rest) {n : Nat} (whole : (entryBytes e).length ≤ n) :
    ∃ u, exec (.spiRead (n - (entryBytes e).length)) (s.entryRead e) = .next u ∧
      exec (.spiRead n) s = .next { u with host := { u.host with out := entryBytes e ++ u.host.out } } := by
  refine ⟨_, rfl, ?_⟩
  show execSpiRead n s = _
  simp only [execSpiRead, head, List.length_cons, readOut, if_neg (Nat.not_lt.mpr whole), entries_entryRead head]

theorem length_entryBytes_pos (e : Entry) : 0 < (entryBytes e).length := by simp [entryBytes]

/-- A READ of the whole entry and no more takes it out. -/
theorem exec_spiRead_exact (head : s.host.entries = e :: rest) : exec (.spiRead (entryBytes e).length) s =
    .next { s.entryRead e with host := { (s.entryRead e).host with out := entryBytes e } } := by
  obtain ⟨u, after, run⟩ := exec_spiRead_whole head le_rfl
  rw [Nat.sub_self] at after
  suffices u = { s.entryRead e with host := { (s.entryRead e).host with out := [] } } by
    rw [run, this, List.append_nil]
  refine (Host.Outcome.next.inj (after.symm.trans ?_))
  cases rest with
  | nil =>
    show execSpiRead 0 _ = _
    simp only [execSpiRead, entries_entryRead head, List.length_nil, readOut, List.replicate_zero]
  | cons e' rest => exact exec_spiRead_part (entries_entryRead head) (length_entryBytes_pos e')

end

end Sys2Proof.Machine.State

namespace Sys2Proof.Machine
open State

/-- Settles O10: the three parts of the byte stand apart while at most 32 tags are in flight. -/
theorem statusByte : Obligations.StatusByte := by
  unfold Obligations.StatusByte
  intro s booted few
  obtain ⟨rdy, ref, free⟩ := linkStatus_parts (s.host.entries.any fun e => decide (e.place ≠ .refusal))
    (s.host.entries.any fun e => decide (e.place = .refusal)) (Nat.sub_le 32 s.host.tags.length)
  refine ⟨_, rfl, ?_⟩
  rw [linkStatus, if_pos booted]
  refine ⟨?_, ?_, free⟩
  · rw [rdy]
    simp
  · rw [ref]
    simp

/-- Settles O11: a READ within the head entry leaves it, so the next one begins it again; a longer one removes it. -/
theorem readTakesWholeEntries : Obligations.ReadTakesWholeEntries := by
  unfold Obligations.ReadTakesWholeEntries
  intro n s
  refine ⟨fun none => ?empty, fun e rest head => ⟨entries_entryRead head,
    fun part => ⟨exec_spiRead_part head part, fun m whole => ?again⟩, exec_spiRead_whole head⟩⟩
  case empty =>
    show execSpiRead n s = _
    simp only [execSpiRead, none, List.length_nil, readOut]
  case again =>
    obtain ⟨u, -, run⟩ := exec_spiRead_whole (s := { s with host := { s.host with out := (entryBytes e).take n } })
      head whole
    exact ⟨_, run, List.take_left⟩

/-- Settles O12: the entry leaves by `entryRead`, for which it is final where its status is. -/
theorem tagsAreFreedByReading : Obligations.TagsAreFreedByReading := by
  unfold Obligations.TagsAreFreedByReading
  intro s
  refine ⟨fun e rest head => ⟨_, exec_spiRead_exact head, entries_entryRead head, rfl, rfl,
    fun place accepted deferred => ⟨?freed, fun w waits width => ?width⟩, fun other => ?kept⟩,
    fun e last => ?reread, rfl⟩
  case freed => simp [entryRead, place, accepted, deferred]
  case width => simp [entryRead, place, accepted, deferred, waits, width]
  case kept =>
    have final : (decide (e.place = .completion) && e.status != 1 && e.status != 2) = false := by
      rcases other with h | h | h <;> simp [h]
    simp only [entryRead, final]
    cases s.host.widthNext <;> simp
  case reread =>
    show execSpiReread s = _
    rw [execSpiReread, last]
    rfl

end Sys2Proof.Machine
end

section
/-!
SUPPORT. The front end (R299 to R306): the parts of a packet as they arrive, and that no packet it has just received
is taken up before an edge has passed.
-/
namespace Sys2Proof.Machine.State

/-! ### The parts of a packet (R299, R300) -/

/-- A packet up to its CRC. -/
def packetHead (op tag flags : Byte) (ps : List Byte) : List Byte :=
  [0xA7, op, tag, flags] ++ toBytes 2 ps.length ++ ps

theorem length_packetHead (op tag flags : Byte) (ps : List Byte) :
    (packetHead op tag flags ps).length = ps.length + 6 := by
  simp [packetHead]
  omega

/-- Where the CRC does not match, that is the refusal; where it does, the announced length holds and the other checks
follow. -/
theorem packetIn_framed (s : State) {op tag flags : Byte} {ps c : List Byte} (short : ps.length ≤ 1024)
    (crc : c.length = 4) : s.packetIn (packetHead op tag flags ps ++ c) =
      if c ≠ crcBytes (packetHead op tag flags ps) then s.refuse op.toNat tag.toNat 0x13
      else s.frontEnd (packetOf op.toNat tag ps) flags.toNat := by
  have long := length_packetHead op tag flags ps
  have whole : (packetHead op tag flags ps ++ c).length = ps.length + 10 := by simp [long, crc]
  have atCrc : ps.length + 10 - 4 = (packetHead op tag flags ps).length := by omega
  have announced : ofBytes (slice (packetHead op tag flags ps ++ c) 4 2) = ps.length :=
    (ofBytes_toBytes 2 ps.length).trans (Nat.mod_eq_of_lt (by omega))
  have params : slice (packetHead op tag flags ps ++ c) 6 ps.length = ps := List.take_left
  have sync : (packetHead op tag flags ps ++ c).head? = some 0xA7 := rfl
  simp only [packetIn, whole, atCrc, List.drop_left, List.take_left, announced, params, sync]
  exact (if_neg (by simp)).trans (if_congr Iff.rfl rfl (if_neg (by omega)))

/-- A packet that fits the link's buffer is taken as it stands. -/
theorem exec_spiWrite_booted {s : State} {b : List Byte} (booted : s.booted = true) (fits : b.length ≤ 1040) :
    exec (.spiWrite b) s = .next ({ s with host := { s.host with out := [] } }.packetIn b) := by
  show execSpiWrite b s = _
  simp only [execSpiWrite, List.take_of_length_le fits, ite_self, booted, if_true]

end Sys2Proof.Machine.State
namespace Sys2Proof.Machine
open State

/-- Settles O13: each packet by the first check that it fails. -/
theorem frontEndChecksInOrder : Obligations.FrontEndChecksInOrder := by
  unfold Obligations.FrontEndChecksInOrder
  intro op tag flags ps c s short crc
  dsimp only
  have run (booted : s.booted = true) :=
    (exec_spiWrite_booted booted (b := packetHead op tag flags ps ++ c) (by simp [length_packetHead, crc]; omega)).trans
      (congrArg _ (packetIn_framed _ short crc))
  refine ⟨fun early => ?early, fun booted => ⟨fun b bad => ?unframed,
    fun wrong => next_of_eq (run booted) (if_pos wrong), fun right => ?right⟩⟩
  case early => exact next_of_eq rfl (if_neg (by simp [early]))
  case unframed =>
    show execSpiWrite b s = _
    simp only [execSpiWrite, booted, if_true]
    refine congrArg _ (if_pos ?_)
    split
    · rcases bad with bad | bad
      · exact .inl (by simp; omega)
      · exact .inr (by simpa [List.head?_take] using bad)
    · exact bad
  case right =>
    have checks := (run booted).trans (congrArg Host.Outcome.next (if_neg (not_not.mpr right)))
    have sealed : (flags.toNat ≠ 0 ∨ tag.toNat = 0xFF) ↔ (flags ≠ 0 ∨ tag = 0xFF) := by
      simp [← BitVec.toNat_inj]
    refine ⟨fun bad => next_of_eq checks (if_pos (sealed.mpr bad)), fun zero own => ?_⟩
    replace checks := next_of_eq checks (if_neg (mt sealed.mp (not_or.mpr ⟨not_not.mpr zero, own⟩)))
    refine ⟨fun unknown => next_of_eq checks ?_, fun length => next_of_eq checks ?_,
      fun known => ⟨fun busy => next_of_eq checks ?_, fun free full => next_of_eq checks ?_,
        fun free room => next_of_eq checks ?_⟩⟩
    · simp [packetOf, unknown]
    · simp [packetOf, length]
    · simp [packetOf, known, busy]
    · simp [packetOf, known, free, full]
    · simp [packetOf, known, free, room]

end Sys2Proof.Machine
end

section
/-!
SUPPORT. A command's packet in the queues (R303, R305): no packet that the front end has just received is taken up
before an edge has passed, and a row of every opcode goes by one rule.
-/
namespace Sys2Proof.Machine.State

/-! ### What leaves the link's front end alone -/

section
variable (s : State)

theorem host_memWrite (l : List Byte) (m off : Nat) : (s.memWrite m off l).host = s.host := by
  induction l generalizing s off with
  | nil => rfl
  | cons b l ih => exact ih (s.memPut m off b) (off + 1)

theorem host_cntEvent (code : Nat) (p : Option Nat) : (s.cntEvent code p).host = s.host :=
  (cntEvent_evidenceOnly s code p).host

theorem host_wake (e : Nat) : (s.wake e).host = s.host := by rw [wake, onEngine_host]

theorem host_mbxEv (id b : Nat) : (s.mbxEv id b).host = s.host := by rw [mbxEv, onMbx_host]

theorem host_mbxPush (id : Nat) : (s.mbxPush id).host = s.host := by
  unfold mbxPush
  extract_lets m peer first ev left done sent seq told
  have host_ev : ev.host = s.host := by simp only [ev, host_mbxEv]
  have host_sent : sent.host = s.host := by simp only [sent, onMbx_host]
  have host_told : told.host = s.host := by simp only [told, host_mbxEv, onMbx_host, host_sent]
  clear_value ev sent told
  split
  · split
    · exact host_ev ▸ read_when State.host (host_cntEvent ..)
    · exact host_ev
  · split
    · split
      · rw [host_wake, host_told]
      · exact host_told
    · rw [onMbx_host, host_sent]

theorem host_postWord (id w : Nat) : (s.postWord id w).host = s.host := host_mbxPush _ id

end

/-! ### Packets that wait for an edge (R29, R305) -/

/-- The packets in the link's three queues. -/
def queued (s : State) : List Packet := s.host.urgent ++ s.host.fast ++ s.host.slow

/-- No packet like `k` that waits has waited over an edge. -/
def Fresh (k : Packet) (s : State) : Prop :=
  ∀ q ∈ s.queued, q.op = k.op ∧ q.tag = k.tag ∧ q.params = k.params → q.late = false

variable {s t : State} {k : Packet}

theorem Fresh.of_queued (fresh : Fresh k s) (same : t.queued = s.queued) : Fresh k t := by rwa [Fresh, same]

theorem queued_of_host (same : t.host = s.host) : t.queued = s.queued := by rw [queued, queued, same]

/-- A packet that joins a queue without having waited keeps that so. -/
theorem Fresh.of_added (fresh : Fresh k s) (new : k.late = false)
    (added : ∀ q ∈ t.queued, q ∈ s.queued ∨ q.late = k.late) : Fresh k t := by
  intro q mem like
  rcases added q mem with old | same
  · exact fresh q old like
  · exact same.trans new

theorem fresh_of_waits (absent : s.waits k = false) : Fresh k s := by
  intro q mem like
  simp only [waits, Bool.or_eq_false_iff, List.any_eq_false] at absent
  obtain ⟨⟨urgent, fast⟩, slow⟩ := absent
  simp only [queued, List.mem_append] at mem
  rcases mem with (mem | mem) | mem
  · exact absurd (by simpa [and_assoc] using like) (urgent q mem)
  · exact absurd (by simpa [and_assoc] using like) (fast q mem)
  · exact absurd (by simpa [and_assoc] using like) (slow q mem)

theorem Fresh.firstOf (fresh : Fresh k s) {l : List Packet} (part : ∀ q ∈ l, q ∈ s.queued) :
    firstOf k l = false := by
  cases l with
  | nil => rfl
  | cons q l =>
    have early := fresh q (part q List.mem_cons_self)
    rw [Bool.eq_false_iff]
    intro first
    simp only [State.firstOf, List.head?_cons, Option.map_some, Option.getD_some, Bool.and_eq_true, beq_iff_eq,
      decide_eq_true_eq] at first
    obtain ⟨⟨⟨op, tag⟩, params⟩, late⟩ := first
    exact Bool.false_ne_true ((early ⟨op, tag, params⟩).symm.trans late)

theorem Fresh.upNext (fresh : Fresh k s) : s.upNext k = false := by
  have urgent (q : Packet) (mem : q ∈ s.host.urgent.filter fun q => q.params.headD 0 == k.params.headD 0) :
      q ∈ s.queued := by simp [queued, List.mem_of_mem_filter mem]
  simp only [State.upNext, fresh.firstOf urgent, fresh.firstOf (l := s.host.fast) (by simp +contextual [queued]),
    fresh.firstOf (l := s.host.slow) (by simp +contextual [queued]), Bool.false_and, ite_self]

/-- A descriptor posted changes neither what a packet is nor how long it has waited. -/
theorem Fresh.hostFeed (fresh : Fresh k s) : Fresh k s.hostFeed := by
  refine List.foldlRecOn _ _ fresh fun t fresh e _ => ?_
  dsimp only
  split
  · exact fresh
  · intro q mem like
    simp only [queued, List.mem_append, List.mem_map] at mem
    rcases mem with (mem | ⟨r, mem, rfl⟩) | ⟨r, mem, rfl⟩
    · exact fresh q (by simp [queued, mem]) like
    all_goals
      have early := fresh r (by simp [queued, mem])
      split at like <;> simp_all

theorem queued_takeTag (s : State) (k : Packet) : (s.takeTag k).queued = s.queued :=
  ((queued_of_host (host_cntEvent ..)).trans (queued_of_host (host_memWrite ..))).trans rfl

theorem queued_queueEntry (s : State) (e : Entry) : (s.queueEntry e).queued = s.queued := rfl

theorem queued_wakeFor (s : State) (k : Packet) : (s.wakeFor k).queued = s.queued :=
  read_when queued rfl

theorem queued_refuse (s : State) (op tag status : Nat) : (s.refuse op tag status).queued = s.queued := by
  simp only [refuse]
  split
  · exact (queued_of_host (host_cntEvent ..)).trans (queued_of_host (host_cntEvent ..))
  · exact (queued_queueEntry ..).trans (queued_of_host (host_cntEvent ..))

theorem Fresh.enqueue (fresh : Fresh k s) (new : k.late = false) : Fresh k (s.enqueue k) := by
  have held : Fresh k ((s.takeTag k).wakeFor k) :=
    fresh.of_queued ((queued_wakeFor ..).trans (queued_takeTag s k))
  simp only [State.enqueue]
  generalize (s.takeTag k).wakeFor k = t at held
  split
  · split
    · refine Fresh.of_queued (held.of_added new ?_) (queued_of_host (host_postWord ..))
      simp +contextual [queued, or_imp]
    · exact held.of_queued rfl
  · split
    · refine (held.of_added new ?_).hostFeed
      simp +contextual [queued, or_imp]
    · refine (held.of_added new ?_).hostFeed
      simp +contextual [queued, or_imp]

theorem Fresh.frontEnd (fresh : Fresh k s) (new : k.late = false) (flags : Nat) : Fresh k (s.frontEnd k flags) := by
  have refused (status : Nat) : Fresh k (s.refuse k.op k.tag status) := fresh.of_queued (queued_refuse ..)
  rw [State.frontEnd]
  split
  · exact refused _
  · split
    · exact refused _
    · exact refused _
    · split
      · exact refused _
      · split
        · exact refused _
        · exact fresh.enqueue new

/-! ### A row by the state it finds (R299, R303, R333, R436) -/

section
variable {op : Nat} {tag : Byte} {ps : List Byte} {u : State}

theorem hostRow_early (early : s.booted = false) (body : Byte → List Byte → State → State) :
    hostRow op body tag ps s = .next s := if_pos (by simp [early])

/-- A command taken up that the life-cycle state or loader mode does not accept replies LIFECYCLE. -/
theorem hostRow_lifecycle (booted : s.booted = true) (waits : s.waits (packetOf op tag ps) = true)
    (first : s.upNext (packetOf op tag ps) = true) (taken : u = s.takeUp (packetOf op tag ps))
    (barred : u.hostLife op ps = false) (body : Byte → List Byte → State → State) :
    hostRow op body tag ps s = .next (u.reply op tag 0x32) := by
  subst taken
  unfold packetOf at waits first barred
  simp [hostRow, interpret, packetOf, booted, waits, first, barred]

theorem hostLife_retired (retired : u.fget OTP_LCST.LC = 4) (closed : op ∉ retiredOps) :
    u.hostLife op ps = false := by simp [hostLife, retired, closed]

theorem hostLife_loader (loader : u.boot.loader = true) (closed : loaderOp op ps = false) :
    u.hostLife op ps = false := by simp [hostLife, loader, closed]

end

end Sys2Proof.Machine.State

namespace Sys2Proof.Machine
open State

/-- The command is the one of opcode `op`: it answers as a host row of some body. -/
def IsRow (op : Nat) (c : Instr) (tag : Byte) (ps : List Byte) : Prop :=
  ∃ body : Byte → List Byte → State → State, ∀ s, exec c s = hostRow op body tag ps s

/-- Settles O14: every one of the 80 commands is a host row, and a row goes by the state it finds. -/
theorem hostCommandsInTheirTurn : Obligations.HostCommandsInTheirTurn := by
  unfold Obligations.HostCommandsInTheirTurn
  intro tag ps s u x mem
  have row : IsRow x.1 x.2 tag ps := by
    revert x
    simp only [List.forall_mem_append, List.forall_mem_cons, List.not_mem_nil, false_imp_iff, implies_true, and_true]
    and_intros
    all_goals exact ⟨_, fun _ => rfl⟩
  obtain ⟨body, row⟩ := row
  exact ⟨fun early => (row s).trans (hostRow_early early body),
    fun booted absent => ⟨(row s).trans (hostRow_received booted absent body),
      ((fresh_of_waits absent).frontEnd rfl 0).upNext⟩,
    fun _ waits later => (row s).trans (hostRow_waits waits later body),
    fun booted waits first taken =>
      ⟨fun retired closed => (row s).trans
        (hostRow_lifecycle booted waits first taken (hostLife_retired retired closed) body),
      fun loader closed => (row s).trans
        (hostRow_lifecycle booted waits first taken (hostLife_loader loader closed) body)⟩⟩

end Sys2Proof.Machine
end

section
/-!
SUPPORT. The commands that only read (R312, R313, R318, R320, R324, R327 to R332): what the data of a reply come to.
-/
namespace Sys2Proof.Machine.State

theorem pad_toBytes (n v : Nat) : pad n (toBytes n v) = toBytes n v := by
  rw [pad, List.take_append_of_le_length (by simp), List.take_of_length_le (by simp)]

/-! ### Reads of a port, a quad, a log and a version (R312, R313, R318, R320, R324) -/

section
variable {ps : List Byte} {u : State}

/-- One entry of a PORT_GET as its bytes stand. -/
theorem par_portGet {off : Nat} (entry : ps = ps.take 4 ++ toBytes 2 off ++ [0, 0]) (length : ps.length = 8)
    (small : off < 65536) : par ps 4 2 = off ∧ par ps 6 2 = 0 := by
  have four : (ps.take 4).length = 4 := by simp [length]
  rw [entry]
  generalize ps.take 4 = l at four
  obtain ⟨a, b, c, d, rfl⟩ : ∃ a b c d, l = [a, b, c, d] := by
    match l, four with
    | [a, b, c, d], _ => exact ⟨a, b, c, d, rfl⟩
  exact ⟨(ofBytes_toBytes 2 off).trans (Nat.mod_eq_of_lt small), rfl⟩

theorem doPortGet_one {tag : Byte} {off : Nat} {a : Reg × Nat} (port : badPort ps = false)
    (entry : ps = ps.take 4 ++ toBytes 2 off ++ [0, 0]) (length : ps.length = 8)
    (small : off < 65536) (found : getReg off = some a) : doPortGet tag ps u =
      u.reply 0x15 tag 0 (toBytes 4 (u.portReg (par ps 0 1) a.1 / 256 ^ a.2)) (u.mirr (par ps 0 1)) := by
  obtain ⟨named, zero⟩ := par_portGet entry length small
  have one : (List.range ((ps.length - 4) / 4)).map (fun i => (par ps (4 + 4 * i) 2, par ps (6 + 4 * i) 2)) =
      [(off, 0)] := by simp [length, List.range_succ, named, zero]
  rw [doPortGet, one, judge_goes (by simp [port, found])]
  simp [found]

/-- A version held is read where the range lies inside it (R413). -/
theorem doCfgRead_held {tag : Byte} {i : Nat} (zero : zeroAt ps 2 2 = true) (zero' : zeroAt ps 10 2 = true)
    (any : 1 ≤ par ps 8 2) (fits : par ps 8 2 ≤ 1016) (held : u.placeOf 0 (par ps 0 2) = some i)
    (inside : par ps 4 4 + par ps 8 2 ≤ u.recSize 0 i) : doCfgRead tag ps u =
      u.flashReader (placeAddr 0 i + par ps 4 4) (par ps 8 2) (fun s => s.reply 0x95 tag 0x60)
        fun s => s.reply 0x95 tag 0 (s.flashRead (placeAddr 0 i + par ps 4 4) (par ps 8 2)) := by
  have legal : ¬(par ps 8 2 = 0 ∨ 1016 < par ps 8 2) := by omega
  simp [doCfgRead, held, zero, zero', legal, inside]

end

end Sys2Proof.Machine.State

namespace Sys2Proof.Machine
open State

/-- Settles O15: each command's body is its reply. -/
theorem hostQueriesAnswer : Obligations.HostQueriesAnswer := by
  unfold Obligations.HostQueriesAnswer
  intro tag ps s u
  refine ⟨?_, fun served => ?_, fun served => ?_⟩
  · simp only [List.forall_mem_cons, List.not_mem_nil, false_imp_iff, implies_true, and_true]
    and_intros
    all_goals exact fun served => hostRow_served served _
  · exact ⟨_, hostRow_served served doFwStatus, by simp, rfl⟩
  · refine ⟨(u.draw 11).1 % 2000, Nat.mod_lt _ (by decide), next_of_eq (hostRow_served served doTimeRead) ?_⟩
    have count : pad 6 (u.rbytes TICK_COUNT.reg) = toBytes 6 (u.rget TICK_COUNT.reg) := pad_toBytes 6 _
    have htick : pad 6 (u.rbytes TICK_HTICK.reg) = toBytes 6 (u.rget TICK_HTICK.reg) := pad_toBytes 6 _
    simp only [doTimeRead, count, htick]
    rfl

/-- Settles O16: each command by its body, whose checks its premises pass. -/
theorem portQueriesAnswer : Obligations.PortQueriesAnswer := by
  unfold Obligations.PortQueriesAnswer
  intro tag ps s u
  dsimp only
  refine ⟨fun port => ?port, fun off a served port entry length small found => ?get, fun served quad zero => ?quad,
    fun served some most zero => ?log, fun i served zero zero' some most held inside => ?cfg,
    fun served region word some most zero readable => ?otp, fun a served addr reg => ?reg,
    fun m served mem free => ?mem⟩
  case port =>
    have passed : ([(badPort ps, 0x12)] : List (Bool × Nat)).any (·.1) = false := by simp [port]
    refine ⟨fun served => next_of_eq (hostRow_served served doPortStatus) ?_,
      fun served => next_of_eq (hostRow_served served doPortMeasure) (judge_goes passed ..),
      fun served => next_of_eq (hostRow_served served doMuxStatus) ?_,
      fun served => next_of_eq (hostRow_served served doPdStatus) ?_,
      fun served own => next_of_eq (hostRow_served served doPdReplyGet) ?_⟩
    · rw [doPortStatus, judge_goes passed, mirr]
    · rw [doMuxStatus, judge_goes passed, mirr]
    · rw [doPdStatus, judge_goes passed, mirr]
    · rw [doPdReplyGet, judge_goes passed, mirr, if_pos own, if_pos own]
  case get => exact next_of_eq (hostRow_served served doPortGet) (doPortGet_one port entry length small found)
  case quad =>
    have inside : ¬3 < par ps 0 1 := by omega
    refine next_of_eq (hostRow_served served doQuadStatus) ?_
    rw [doQuadStatus, judge_goes (by simp [inside, zero])]
  case log =>
    have count : ¬(par ps 4 1 = 0 ∨ 31 < par ps 4 1) := by omega
    refine next_of_eq (hostRow_served served doLogRead) ?_
    rw [doLogRead, judge_goes (by simp [count, zero])]
  case cfg =>
    exact next_of_eq (hostRow_served served doCfgRead) (doCfgRead_held zero zero' some most held inside)
  case otp =>
    have words : ¬(15 < par ps 0 1 ∨ 7 < par ps 2 1 ∨ par ps 3 1 = 0 ∨ 8 < par ps 3 1 ∨
      8 < par ps 2 1 + par ps 3 1) := by omega
    have run : exec (.otpRead tag ps) s = .next (doOtpRead tag ps u) := hostRow_served served doOtpRead
    rw [doOtpRead, judge_goes (by simp [words, zero, readable])] at run
    simp only [Bool.and_eq_true, decide_eq_true_eq] at run
    exact ⟨_, run⟩
  case reg =>
    refine next_of_eq (hostRow_served served doRegRead) ?_
    have named : (regAt a).isNone = false := Option.isNone_eq_false_iff.mpr reg
    simp [doRegRead, addr, named]
  case mem =>
    refine next_of_eq (hostRow_served served doMemRead) ?_
    simp only [doMemRead, mem]
    exact judge_goes (by simp [free]) ..

end Sys2Proof.Machine
end

section
/-!
SUPPORT. The unit's commands (R29, R69, R92, R314 to R316, R325, R332): what UNIT_PROFILE asks for where nothing moves.
-/
namespace Sys2Proof.Machine.State

section
variable {tag : Byte} {ps : List Byte} {u : State} (low : 1 ≤ par ps 0 1) (high : par ps 0 1 ≤ 3)
  (zero : zeroAt ps 1 3 = true) (free : par ps 0 1 = 3 → ∀ p < 16, u.busyContract p = false)
  (still : u.moving = false) (settled : u.swapping = false)
include low high zero free

/-- A legal profile, for Low Water over no EPR, PPS or AVS contract, is asked for. -/
theorem doUnitProfile_legal : doUnitProfile tag ps u = u.askProfile (par ps 0 1) tag := by
  have known : ¬(par ps 0 1 = 0 ∨ 3 < par ps 0 1) := by omega
  have mayRest : (decide (par ps 0 1 = 3) && (List.range 16).any u.busyContract) = false := by
    simpa using free
  rw [doUnitProfile, judge_goes]
  simp only [known, zero, mayRest]
  decide

include still settled

theorem doUnitProfile_alone (alone : u.paired = false) :
    doUnitProfile tag ps u = (u.profileAt (par ps 0 1) (u.tick + 1)).reply 0x03 tag 0 := by
  rw [doUnitProfile_legal low high zero free]
  simp [askProfile, still, settled, alone]

theorem doUnitProfile_paired (paired : u.paired = true) : doUnitProfile tag ps u =
    (({ u with prof := { u.prof with
      wake := u.prof.wake || u.lowWater, request := some (par ps 0 1, u.tick) } }).profileAt (par ps 0 1)
        (u.tick + 2)).answerLater 0x03 tag := by
  rw [doUnitProfile_legal low high zero free]
  simp [askProfile, still, settled, paired]

end

end Sys2Proof.Machine.State

namespace Sys2Proof.Machine
open State

/-- Settles O17: each command by its body, whose checks its premises pass. -/
theorem unitCommandsAct : Obligations.UnitCommandsAct := by
  unfold Obligations.UnitCommandsAct
  intro tag ps s u
  dsimp only
  refine ⟨fun served low high zero free still settled alone => next_of_eq (hostRow_served served doUnitProfile)
      (doUnitProfile_alone low high zero free still settled alone),
    fun served low high zero free still settled paired => next_of_eq (hostRow_served served doUnitProfile)
      (doUnitProfile_paired low high zero free still settled paired),
    fun served width zero strap => next_of_eq (hostRow_served served doHostLinkSet) ?link,
    fun served ind mask => next_of_eq (hostRow_served served doIndicatorSet) ?indicator,
    fun served zero mode => next_of_eq (hostRow_served served doUnitReset) ?reset,
    fun served quad zero legal seg present safe => next_of_eq (hostRow_served served doQuadSet) ?quad,
    fun served zero => next_of_eq (hostRow_served served doPairCfgSet) (judge_goes (by simp [zero]) ..),
    fun served zero edge => next_of_eq (hostRow_served served doTimeBind) ?bind,
    fun served => hostRow_served served doPresenceEnd⟩
  case link =>
    rw [doHostLinkSet, judge_goes]
    simpa [width, zero] using strap
  case indicator =>
    rw [doIndicatorSet, judge_goes]
    simpa using ⟨ind, mask⟩
  case reset =>
    rcases mode with ⟨handover, noPort⟩ | ⟨present, granted⟩
    · have reset : ¬(par ps 0 1 = 1 ∧ u.paired = true ∧ u.fget PAIR_ST.OWN 0 ≠ 0) := by
        rintro ⟨-, paired, owns⟩
        rcases noPort with alone | bare
        · exact Bool.false_ne_true (alone.symm.trans paired)
        · exact owns bare
      rw [doUnitReset, judge_goes (by simp [handover, zero]), if_neg reset]
    · rw [doUnitReset, judge_goes (by simp [present, granted, zero]), if_neg (by omega)]
  case quad =>
    rw [doQuadSet, judge_goes]
    simp [quad, zero, legal, seg, present, safe]
  case bind =>
    have due : ¬(par ps 8 6 ≠ 0 ∧ par ps 8 6 < u.tick + 2) := by omega
    rw [doTimeBind, judge_goes (by simp only [due, zero]; decide)]

end Sys2Proof.Machine
end

section
/-!
SUPPORT. What a command that changes a port is refused for (R303, R306, R309, R310): bad parameters, the unit safe state,
and a port that the unit does not own, in that order.
-/
namespace Sys2Proof.Machine
open State

/-- A command whose checks are the parameters, the unit safe state and the owner is refused for the first that fails. -/
theorem port_refuses {c : Instr} {s u : State} {op p : Nat} {tag : Byte} {ps : List Byte} {bad : Bool} {legal : Prop}
    {l : List (Bool × Nat)} {go : State → State} (run : exec c s = .next (u.judge op tag
      ((bad, 0x12) :: (u.unitSafe, 0x60) :: (!u.owns p, 0x40) :: l) go))
    (wrong : badPort ps = true → bad = true) (right : badPort ps = false → legal → bad = false) :
    (badPort ps = true → exec c s = .next (u.reply op tag 0x12)) ∧
    (badPort ps = false → legal → u.unitSafe = true → exec c s = .next (u.reply op tag 0x60)) ∧
    (badPort ps = false → legal → u.unitSafe = false → u.owns p = false →
      exec c s = .next (u.reply op tag 0x40)) := by
  refine ⟨fun port => next_of_eq run (judge_refused (wrong port) ..), fun port known safe => next_of_eq run ?_,
    fun port known safe foreign => next_of_eq run ?_⟩
  · rw [judge_passed (right port known), judge_refused safe]
  · rw [judge_passed (right port known), judge_passed safe, judge_refused (by simp [foreign])]

/-- Settles O22: the bodies begin with the three checks; PORT_SET has presence between, which no safety-class entry
asks for. -/
theorem portCommandsRefuse : Obligations.PortCommandsRefuse := by
  unfold Obligations.PortCommandsRefuse
  intro tag ps s u
  dsimp only
  simp only [List.forall_mem_cons, List.not_mem_nil, false_imp_iff, implies_true, and_true]
  refine ⟨fun served => ?set, fun served => ?recover, fun served => ?send, fun served => ?swap, fun served => ?soft,
    fun served => ?bist⟩
  case set =>
    have run := hostRow_served served doPortSet
    refine ⟨fun port => next_of_eq run ?_, fun port ⟨known, harmless⟩ safe => next_of_eq run ?_,
      fun port ⟨known, harmless⟩ safe foreign => next_of_eq run ?_⟩
    · rw [doPortSet, judge_refused (by simp [port])]
    · rw [doPortSet, judge_passed (by simp [port, known]), judge_passed (by simp [harmless]), judge_refused safe]
    · rw [doPortSet, judge_passed (by simp [port, known]), judge_passed (by simp [harmless]), judge_passed safe,
        judge_refused (by simp [foreign])]
  case recover =>
    have run : exec (.portRecover tag ps) s = .next (doPortRecover tag ps u) := hostRow_served served doPortRecover
    rw [doPortRecover] at run
    simpa using port_refuses (legal := True) run id fun port _ => port
  case send =>
    have run : exec (.pdSend tag ps) s = .next (doPdSend tag ps u) := hostRow_served served doPdSend
    rw [doPdSend] at run
    refine port_refuses run (fun port => by simp [port]) fun port ⟨sop, zero, allowed, whole, map⟩ => ?_
    have refused : (msgOfBytes (par ps 4 1) (ps.drop 8)).code ∉ sendRefused := by simpa using allowed
    simpa [port, sop, zero] using ⟨⟨refused, whole⟩, map⟩
  case swap =>
    have run : exec (.pdSwap tag ps) s = .next (doPdSwap tag ps u) := hostRow_served served doPdSwap
    rw [doPdSwap] at run
    refine port_refuses run (fun port => by simp [port]) fun port ⟨low, high, zero⟩ => ?_
    have kind : ¬(par ps 4 1 = 0 ∨ 3 < par ps 4 1) := by omega
    simp [port, kind, zero]
  case soft =>
    have run : exec (.pdSoftReset tag ps) s = .next (doPdSoftReset tag ps u) := hostRow_served served doPdSoftReset
    rw [doPdSoftReset] at run
    exact port_refuses run (fun port => by simp [port]) fun port ⟨sop, zero⟩ => by simp [port, sop, zero]
  case bist =>
    have run : exec (.pdBist tag ps) s = .next (doPdBist tag ps u) := hostRow_served served doPdBist
    rw [doPdBist] at run
    refine port_refuses run (fun port => by simp [port]) fun port ⟨mode, zero⟩ => ?_
    have known : ¬(par ps 4 1 ≠ 5 ∧ par ps 4 1 ≠ 8) := by omega
    simp [port, known, zero]

end Sys2Proof.Machine
end

section
/-!
SUPPORT. The commands of the weir, the counters and the log (R395, R399, R411, R470, R474, R482): the bodies of those
whose checks take more than their parameters.
-/
namespace Sys2Proof.Machine.State

section
variable {tag : Byte} {ps : List Byte} {u : State}

/-- A clear of sources below class severe that ends no latched reaction kept true goes on. -/
theorem doWeirClear_clears (known : (srcCovers (par ps 0 2)).isSome = true) (what : par ps 2 1 < 4)
    (zero : zeroAt ps 3 1 = true) (mild : ∀ e ∈ (srcCovers (par ps 0 2)).getD [], u.weirClass e.1 e.2 ≠ 3)
    (ended : ∀ k ∈ u.latchedBy ((srcCovers (par ps 0 2)).getD []), ∀ e ∈ u.latchWatch k,
      u.weirTrue e.1 e.2 = false) :
    let v := u.when (bit (par ps 2 1) 0) fun s => s.weirClear ((srcCovers (par ps 0 2)).getD [])
    doWeirClear tag ps u = (v.when (bit (par ps 2 1) 1) faultReleaseWrite).reply 0x71 tag 0 := by
  have covered : (srcCovers (par ps 0 2)).isNone = false := Option.isNone_eq_false_iff.mpr known
  have legal : ¬4 ≤ par ps 2 1 := by omega
  rw [doWeirClear]
  generalize (srcCovers (par ps 0 2)).getD [] = is at mild ended
  have grave : (is.any fun e => u.weirClass e.1 e.2 == 3) = false := by simpa using fun a b h => mild (a, b) h
  have held : (is.any fun e => u.weirClass e.1 e.2 == 3 && bit (u.fget (severeOf e.1) (scIdx e.1)) e.2) = false := by
    simpa using fun a b h c => absurd c (mild (a, b) h)
  have live : ((u.latchedBy is).any fun sc => (u.latchWatch sc).any fun e => u.weirTrue e.1 e.2) = false := by
    simpa using fun k h a b => ended k h (a, b)
  rw [judge_goes]
  simp [covered, legal, zero, grave, held, live]

theorem doWeirForce_one {sc i : Nat} (one : srcCovers (par ps 0 2) = some [(sc, i)]) (single : par ps 0 2 ≠ 0xFFFF)
    (value : par ps 2 1 ≤ 1) (zero : zeroAt ps 3 1 = true) (present : u.absent = false) :
    let v := u.fbit (forceOf sc) (scIdx sc) i (decide (par ps 2 1 = 1))
    doWeirForce tag ps u = (if par ps 2 1 = 1 ∧ bit (u.fget (forceOf sc) (scIdx sc)) i = false
      then v.weirEvent sc i else v).reply 0x73 tag 0 := by
  have legal : ¬(par ps 0 2 = 0xFFFF ∨ 1 < par ps 2 1) := by omega
  rw [doWeirForce, judge_goes (by simp [one, legal, zero, present])]
  simp [one, State.when]

/-- A counter may be set where its event has a scope and PMASK is of that scope. -/
theorem doCntConfig_legal (index : par ps 0 1 ≤ 31) (mode : par ps 4 1 < 8) (zero : zeroAt ps 5 3 = true)
    (scope : eventScope (par ps 1 1) = some true ∧ par ps 2 2 ≠ 0 ∨
      eventScope (par ps 1 1) = some false ∧ par ps 2 2 = 0) :
    doCntConfig tag ps u = (u.regWrite 17 (CNT_CFG.reg (par ps 0 1)) 0
      (par ps 4 1 + 256 * par ps 1 1 + 65536 * par ps 2 2) 0xFFFFFFFF).reply 0x80 tag 0 := by
  have legal : ¬(31 < par ps 0 1 ∨ 8 ≤ par ps 4 1) := by omega
  rw [doCntConfig, judge_goes]
  rcases scope with ⟨scope, ports⟩ | ⟨scope, ports⟩
  · simp [legal, zero, scope, ports]
  · simp [legal, zero, scope, ports]

end

end Sys2Proof.Machine.State

namespace Sys2Proof.Machine
open State

/-- Settles O24: each command by its body, whose checks its premises pass. -/
theorem evidenceCommandsAct : Obligations.EvidenceCommandsAct := by
  unfold Obligations.EvidenceCommandsAct
  intro tag ps s u
  dsimp only
  refine ⟨fun served known what zero mild ended => next_of_eq (hostRow_served served doWeirClear)
      (doWeirClear_clears known what zero mild ended),
    fun served known cls n w zero present => next_of_eq (hostRow_served served doWeirClassSet) ?cls,
    fun sc i served one single value zero present => next_of_eq (hostRow_served served doWeirForce)
      (doWeirForce_one one single value zero present),
    fun served index mode zero scope => next_of_eq (hostRow_served served doCntConfig)
      (doCntConfig_legal index mode zero scope),
    fun served => hostRow_served served doCntClear,
    fun served zero room short => next_of_eq (hostRow_served served doLogMark) ?mark⟩
  case cls =>
    have covered : (srcCovers (par ps 0 2)).isNone = false := Option.isNone_eq_false_iff.mpr known
    have legal : ¬(3 < par ps 2 1 ∨ par ps 3 1 = 0 ∨ par ps 4 2 = 0) := by omega
    have notOne : par ps 2 1 ≠ 1 := by omega
    rw [doWeirClassSet, judge_goes]
    simp [covered, legal, notOne, zero, present]
  case mark =>
    have one : (ps.drop 2).length ≤ 12 := by simp; omega
    have free : ¬255 ≤ u.log.buf.length := by omega
    rw [doLogMark, judge_goes (by simp [zero, free]), List.take_of_length_le one, decide_eq_false (by omega)]
    rfl

end Sys2Proof.Machine
end

section
/-!
SUPPORT. The commands of configuration and calibration (R233, R413, R459 to R468): a version held is read where its
flash is sound, and the uncorrectable word is recorded where it is not.
-/
namespace Sys2Proof.Machine.State

section
variable {s : State} {st v i : Nat} (held : s.placeOf st v = some i) (bad ok : State → State)
include held

theorem verReader_sound (sound : s.flashSound (placeAddr st i) (s.recSize st i) = true) :
    s.verReader st v bad ok = ok s := by
  simp only [verReader, held, flashReader, Option.isNone_iff_eq_none.mp sound]

theorem verReader_bad {w : Nat} (found : s.flashBad (placeAddr st i) (s.recSize st i) = some w) :
    s.verReader st v bad ok = bad (s.eccUncorrectable 0x45 w) := by
  simp only [verReader, held, flashReader, found]

end

end Sys2Proof.Machine.State

namespace Sys2Proof.Machine
open State

/-- Settles O25: each command by its body, whose checks its premises pass. -/
theorem storeCommandsAct : Obligations.StoreCommandsAct := by
  unfold Obligations.StoreCommandsAct
  intro tag ps s u
  dsimp only
  refine ⟨fun served aligned fits => next_of_eq (hostRow_served served doCfgWrite) ?write,
    fun served any small window zero blob may trial still xfer free room =>
      next_of_eq (hostRow_served served doCfgCommit) ?commit,
    fun x served zero given trial expiry early => next_of_eq (hostRow_served served doCfgConfirm) ?confirm,
    fun i served zero given may held => ?revert,
    fun i served zero sending trial held state xfer => next_of_eq (hostRow_served served doCfgPairSync) ?sync,
    fun served port awake idle sound => next_of_eq (hostRow_served served doCalRun) ?run,
    fun served zero idle room => next_of_eq (hostRow_served served doCalSave) ?save,
    fun x served zero given trial expiry early => next_of_eq (hostRow_served served doCalConfirm) ?calConfirm,
    fun i served zero given held => ?calRevert⟩
  case write =>
    rw [doCfgWrite, judge_goes]
    simpa [aligned] using fits
  case commit =>
    have legal : ¬(par ps 0 4 = 0 ∨ 65472 < par ps 0 4 ∨ 3600 < par ps 4 2) := by omega
    have read : min (par ps 0 4) 65472 = par ps 0 4 := min_eq_left small
    have held : (blobOf (u.memRead stageMem 0 (par ps 0 4))).isNone = false := Option.isNone_eq_false_iff.mpr blob
    rw [doCfgCommit, read, judge_goes (by simp [legal, zero, may, trial, still, xfer, free, room, held])]
  case confirm =>
    have late : ¬x ≤ u.tick + 2 := by omega
    rw [doCfgConfirm, judge_goes]
    simp [zero, given, trial, expiry, late]
  case revert =>
    have run : exec (.cfgRevert tag ps) s = .next (doCfgRevert tag ps u) := hostRow_served served doCfgRevert
    rw [doCfgRevert, judge_goes (by simp [zero, given, may, held])] at run
    refine ⟨fun w found => next_of_eq run (verReader_bad held _ _ found),
      fun sound blob => next_of_eq run ((verReader_sound held _ _ sound).trans (judge_goes ?_ ..))⟩
    simpa using blob
  case sync =>
    rw [doCfgPairSync, held, judge_goes]
    simp [zero, sending, trial, state, xfer]
  case run =>
    rw [doCalRun, judge_goes]
    simp [port, awake, idle, sound]
  case save =>
    rw [doCalSave, judge_goes]
    simp [zero, idle, room]
  case calConfirm =>
    have late : ¬x ≤ u.tick + 2 := by omega
    rw [doCalConfirm, judge_goes]
    simp [zero, given, trial, expiry, late]
  case calRevert =>
    have run : exec (.calRevert tag ps) s = .next (doCalRevert tag ps u) := hostRow_served served doCalRevert
    rw [doCalRevert, judge_goes (by simp [zero, given, held])] at run
    refine ⟨fun w found => next_of_eq run (verReader_bad held _ _ found),
      fun sound blob => next_of_eq run ((verReader_sound held _ _ sound).trans (judge_goes ?_ ..))⟩
    simpa using blob

end Sys2Proof.Machine
end

section
/-!
SUPPORT. The firmware commands (R329, R413, R444 to R456): what FW_STAGE_DATA and FW_STAGE_END come to by
where the session stages, and FW_ACTIVATE by its checks.
-/
namespace Sys2Proof.Machine.State

section
variable {tag : Byte} {ps : List Byte} {u : State}

/-! ### FW_STAGE_DATA and FW_STAGE_END by where the session stages (R329, R444) -/

section
variable {k n x : Nat} (session : u.fw.session = some (k, n, x))
include session

theorem doFwStageData_slot (aligned : par ps 0 4 % 8 = 0) (fits : par ps 0 4 + (ps.drop 4).length ≤ n)
    (slot : k ≠ 2) (room : u.flashFull = false) : doFwStageData tag ps u =
      u.flashJob (.program (slotBase k + par ps 0 4) (ps.drop 4))
        (.staged tag.toNat (max u.fw.staged (par ps 0 4 + (ps.drop 4).length))) := by
  simp only [doFwStageData, session]
  rw [judge_goes, if_neg slot]
  simpa [aligned, room] using fits

theorem doFwStageData_pool (aligned : par ps 0 4 % 8 = 0) (fits : par ps 0 4 + (ps.drop 4).length ≤ n)
    (pool : k = 2) : doFwStageData tag ps u =
      ((u.memWrite 0x40 (par ps 0 4) ((ps.drop 4).take (0x80000 - par ps 0 4))).onFw fun h =>
      { h with staged := max u.fw.staged (par ps 0 4 + (ps.drop 4).length) }).reply 0xB1 tag 0 := by
  simp only [doFwStageData, session]
  rw [judge_goes, if_pos pool]
  simpa [aligned, pool] using fits

theorem doFwStageEnd_sound (slot : k ≠ 2) (room : u.flashFull = false) (sound : u.flashSound (slotBase k) n = true) :
    let ok := imageComplete (u.stagedImage k n) n x ps
    doFwStageEnd tag ps u = ((u.reply 0xB2 tag 1).openCmd 0xB2 tag).descJob k (if ok then 0x5A else 0) x n ps
      (.stageClosed tag.toNat (if ok then 0 else 0x12) k) := by
  simp [doFwStageEnd, session, slot, room, sound, State.when]

theorem doFwStageEnd_bad {w : Nat} (slot : k ≠ 2) (room : u.flashFull = false)
    (found : u.flashBad (slotBase k) n = some w) :
    doFwStageEnd tag ps u = (((u.reply 0xB2 tag 1).openCmd 0xB2 tag).eccUncorrectable 0x45 w).descJob k 0 x n ps
      (.stageClosed tag.toNat 0x60 k) := by
  have unsound : u.flashSound (slotBase k) n = false := by simp [flashSound, found]
  have again : ((u.reply 0xB2 tag 1).openCmd 0xB2 tag).flashBad (slotBase k) n = some w := found
  simp [doFwStageEnd, session, slot, room, unsound, State.when, flashReader, again]

theorem doFwStageEnd_pool (pool : k = 2) :
    let ok := imageComplete (u.stagedImage k n) n x ps
    doFwStageEnd tag ps u = (((u.reply 0xB2 tag 1).openCmd 0xB2 tag).onFw fun h =>
      { h with session := none, complete := ok, loaded := ok }).complete 0xB2 tag.toNat (if ok then 0 else 0x12) := by
  subst pool
  simp [doFwStageEnd, session, State.when]

end

/-! ### FW_ACTIVATE (R448, R449, R451, R454) -/

/-- FW_ACTIVATE of a complete slot writes the selector or starts the live exchange. -/
theorem doFwActivate_slot (zero : zeroAt ps 2 2 = true) (present : u.absent = false) (still : u.moving = false)
    (idle : u.fw.act = none) (slot : par ps 0 1 ≤ 1) (complete : u.slotComplete (par ps 0 1) = true)
    (room : u.flashFull = false) (mode : par ps 1 1 = 2 ∨ par ps 1 1 = 1 ∧ u.lowWater = false) :
    doFwActivate tag ps u = if par ps 1 1 = 2
      then ((u.reply 0xB3 tag 1).openCmd 0xB3 tag).selectorJob (par ps 0 1) (.selected tag.toNat (par ps 0 1))
      else ((u.reply 0xB3 tag 1).openCmd 0xB3 tag).activate tag.toNat (par ps 0 1) := by
  have legal : ¬(2 < par ps 0 1 ∨ par ps 1 1 = 0 ∨ 2 < par ps 1 1) := by omega
  have noPool : par ps 0 1 ≠ 2 := by omega
  have awake : par ps 1 1 = 1 → u.lowWater = false := fun one => (mode.resolve_left (by omega)).2
  rw [doFwActivate, judge_goes, if_neg noPool]
  simpa [legal, noPool, zero, present, still, idle, complete, room] using awake

/-- The checks of FW_ACTIVATE on the state refuse a slot in every one of their cases. -/
theorem doFwActivate_refused (zero : zeroAt ps 2 2 = true) (slot : par ps 0 1 ≤ 1)
    (known : par ps 1 1 = 1 ∨ par ps 1 1 = 2) (present : u.absent = false)
    (barred : par ps 1 1 = 1 ∧ u.lowWater = true ∨ u.moving = true ∨ u.fw.act.isSome = true ∨
      u.slotComplete (par ps 0 1) = false) : doFwActivate tag ps u = u.reply 0xB3 tag 0x22 := by
  have legal : ¬(2 < par ps 0 1 ∨ par ps 1 1 = 0 ∨ 2 < par ps 1 1) := by omega
  have noPool : par ps 0 1 ≠ 2 := by omega
  rw [doFwActivate, judge_passed (by simp [legal, noPool, zero]), judge_passed present, judge_refused]
  rcases barred with ⟨one, low⟩ | moving | act | incomplete
  · simp [one, low, noPool]
  · simp [moving]
  · simp [act]
  · simp [noPool, incomplete]

end

end Sys2Proof.Machine.State

namespace Sys2Proof.Machine
open State

/-- Settles O26: each command by its body, whose checks its premises pass. -/
theorem firmwareCommandsAct : Obligations.FirmwareCommandsAct := by
  unfold Obligations.FirmwareCommandsAct
  intro tag ps s u
  dsimp only
  refine ⟨fun served slot size zero present running selected room =>
      next_of_eq (hostRow_served served doFwStageBegin) ?begin,
    fun served slot size zero present loader selected => next_of_eq (hostRow_served served doFwStageBegin) ?beginPool,
    fun k n x served session aligned fits => ?data, fun k n x served session => ?close,
    fun served zero present still idle => ?activate,
    fun served slot zero present sending complete free => next_of_eq (hostRow_served served doFwPairSync) ?sync,
    fun k mode slot known params served present barred => ?barred,
    fun served slot zero size present used => next_of_eq (hostRow_served served doFwStageBegin) ?used⟩
  case begin =>
    have legal : ¬(2 < par ps 0 1 ∨ 0x200000 < par ps 4 4) := by omega
    have noPool : par ps 0 1 ≠ 2 := by omega
    rw [doFwStageBegin, judge_goes (by simp [legal, noPool, zero, present, running, selected, room]), if_neg noPool]
  case beginPool =>
    rw [doFwStageBegin, judge_goes (by simpa [slot, zero, present, loader, selected] using size), if_pos slot]
  case data =>
    exact ⟨fun slot room => next_of_eq (hostRow_served served doFwStageData)
        (doFwStageData_slot session aligned fits slot room),
      fun pool => next_of_eq (hostRow_served served doFwStageData) (doFwStageData_pool session aligned fits pool)⟩
  case close =>
    exact ⟨fun slot room => ⟨fun sound => next_of_eq (hostRow_served served doFwStageEnd)
        (doFwStageEnd_sound session slot room sound),
      fun w found => next_of_eq (hostRow_served served doFwStageEnd) (doFwStageEnd_bad session slot room found)⟩,
      fun pool => next_of_eq (hostRow_served served doFwStageEnd) (doFwStageEnd_pool session pool)⟩
  case activate =>
    refine ⟨fun slot complete room => ⟨fun mode => next_of_eq (hostRow_served served doFwActivate) ?_,
      fun mode awake => next_of_eq (hostRow_served served doFwActivate) ?_⟩,
      fun pool mode loader loaded => next_of_eq (hostRow_served served doFwActivate) ?_⟩
    · exact (doFwActivate_slot zero present still idle slot complete room (.inl mode)).trans (if_pos mode)
    · exact (doFwActivate_slot zero present still idle slot complete room (.inr ⟨mode, awake⟩)).trans
        (if_neg (by omega))
    · rw [doFwActivate, judge_goes, if_pos pool]
      simp [pool, mode, loader, loaded, zero, present, still, idle]
  case sync =>
    rw [doFwPairSync, judge_goes]
    simp [slot, zero, present, sending, complete, free]
  case barred =>
    have named : par ps 0 1 = k := by
      rw [params]
      rcases (by omega : k = 0 ∨ k = 1) with rfl | rfl <;> rfl
    have asked : par ps 1 1 = mode := by
      rw [params]
      rcases known with rfl | rfl <;> rfl
    have zero : zeroAt ps 2 2 = true := params ▸ rfl
    subst named asked
    exact next_of_eq (hostRow_served served doFwActivate) (doFwActivate_refused zero slot known present barred)
  case used =>
    have legal : ¬(2 < par ps 0 1 ∨ 0x200000 < par ps 4 4) := by omega
    rw [doFwStageBegin, judge_passed (by simp [legal, zero]), judge_passed present, judge_refused]
    have noPool : par ps 0 1 ≠ 2 := by omega
    rcases used with running | selected
    · simp [running, noPool]
    · simp [selected]

end Sys2Proof.Machine
end

section
/-!
SUPPORT. The rows of storage (R376, R377, R442, R459, R461, R468, R479): what a row does by the state at its event.
-/
namespace Sys2Proof.Machine
open State

/-- Settles O43: each row by the branches of its meaning. -/
theorem storageRowsComplete : Obligations.StorageRowsComplete := by
  unfold Obligations.StorageRowsComplete
  refine ⟨fun s => ⟨fun barred => ?barred, fun may => ?record, rfl, fun idle => ?idle⟩,
    fun p s => ?exchange, fun s => ⟨acts_of_ite rfl Iff.rfl, acts_of_ite rfl Iff.rfl⟩,
    fun m s => ⟨rfl, rfl, rfl, rfl⟩,
    fun s => ⟨?edge, fun cfg cal => ?noEdge, fun none => ?cfgNone, fun x trial => ?cfgTrial, fun none => ?calNone,
      fun x trial => ?calTrial, fun a b pend => ?resets, fun a n b pend waits => ?waits, fun none => ?noReset⟩⟩
  case barred =>
    refine if_pos ?_
    by_contra h
    exact barred (by simpa [not_or] using h)
  case record =>
    obtain ⟨ready, some, quiet, room⟩ := may
    refine (if_neg (by simp [ready, some, quiet, room])).trans (apply_ite Host.Outcome.next ..).symm
  case idle =>
    show Host.Outcome.next s.flashComplete = _
    rw [flashComplete, idle]
  case exchange =>
    have row : exec (.engineExchange p) s = execEngineExchange p s := rfl
    dsimp only
    rw [row, execEngineExchange]
    refine ⟨fun idle => ?_, fun now held => ?_, fun now asked may => ?_, fun now first barred => ?_,
      fun now second barred => ?_⟩
    · rcases idle with left | none
      · exact if_pos left
      · simp [none]
    · simp [now, held]
    · rcases asked with asked | asked <;> simp [now, asked, may]
    · simp [now, first, barred]
    · simp [now, second, barred]
  case edge =>
    refine next_of_eq rfl (congrArg (s.forEach [0, 1]) (funext₂ fun st s => ?_))
    cases (s.ver st).next with
    | none => rfl
    | some a => exact when_decide ..
  case noEdge =>
    show execConfigApplyEdge s = _
    simp [execConfigApplyEdge, forEach, cfg, cal]
  case cfgNone =>
    show execConfirmWindowExpiry s = _
    rw [execConfirmWindowExpiry, none]
  case cfgTrial =>
    have row : exec .confirmWindowExpiry s = execConfirmWindowExpiry s := rfl
    rw [execConfirmWindowExpiry, trial] at row
    exact acts_of_ite row Iff.rfl
  case calNone =>
    show execCalTrialExpiry s = _
    rw [execCalTrialExpiry, none]
  case calTrial =>
    have row : exec .calTrialExpiry s = execCalTrialExpiry s := rfl
    rw [execCalTrialExpiry, trial] at row
    exact acts_of_ite row Iff.rfl
  case resets =>
    show execResetAfterHandover s = _
    rw [execResetAfterHandover, pend]
    rfl
  case waits =>
    show execResetAfterHandover s = _
    rw [execResetAfterHandover, pend]
    cases n with
    | zero => exact absurd rfl waits
    | succ n => rfl
  case noReset =>
    show execResetAfterHandover s = _
    rw [execResetAfterHandover, none]

end Sys2Proof.Machine
end

section
/-!
SUPPORT. The words of Swesil-8 (R342, R355 to R362): each field of an encoding stands apart from the others, so the
decoder reads every operation back.
-/
namespace Sys2Proof

/-- The digit at a bit's place is the bit. -/
theorem bit_of_digit {v i : Nat} {b : Bool} (h : v / 2 ^ i % 2 = b2n b) : bit v i = b := by
  rw [bit, Nat.testBit_eq_decide_div_mod_eq, h]
  cases b <;> rfl

/-- A number whose low bits are a field's decodes to the field. -/
theorem ofNat_of_mod {w n : Nat} {r : BitVec w} (h : n % 2 ^ w = r.toNat) : BitVec.ofNat w n = r :=
  BitVec.eq_of_toNat_eq ((BitVec.toNat_ofNat n w).trans h)

/-- Two numbers whose low bits agree decode to one field. -/
theorem ofNat_congr {w m n : Nat} (h : m % 2 ^ w = n % 2 ^ w) : BitVec.ofNat w m = BitVec.ofNat w n :=
  ofNat_of_mod (h.trans (BitVec.toNat_ofNat n w).symm)

end Sys2Proof

namespace Sys2Proof.Machine
open State

theorem ImmOp.code_bounds (op : ImmOp) : 1 ≤ op.code ∧ op.code ≤ 6 := by cases op <;> decide
theorem ImmOp.code_inv (op : ImmOp) : immOps.getD (op.code - 1) .addi = op := by cases op <;> rfl
theorem MulKind.code_lt (k : MulKind) : k.code < 3 := by cases k <;> decide
theorem MulKind.code_inv (k : MulKind) : mulKinds.getD k.code .ss = k := by cases k <;> rfl

/-! ### The coprocessors' words -/

section
variable {cp fn ops : Nat} (hfn : fn < 32) (hops : ops < 2 ^ 22)
include hfn hops

theorem cpBits_cp (hcp : cp < 4) : cpBits cp fn ops / 2 ^ 27 % 4 = cp := by unfold cpBits; omega
theorem cpBits_lt (hcp : cp < 4) : cpBits cp fn ops < 2 ^ 31 := by unfold cpBits; omega
theorem cpBits_fn : cpBits cp fn ops / 2 ^ 22 % 32 = fn := by unfold cpBits; omega

/-- A coprocessor word is decoded as one (R359). -/
theorem decodeLong_cpBits (hcp : cp < 4) : decodeLong (cpBits cp fn ops) = decodeCp (cpBits cp fn ops) := by
  have hop : 0x60 ≤ cpBits cp fn ops / 2 ^ 24 % 128 := by unfold cpBits; omega
  exact if_pos hop

end

section
variable {fn p r k q : Nat}

theorem cp0Bits_p (hr : r < 32) (hk : k < 32) (hq : q < 4) :
    BitVec.ofNat 3 (cp0Bits fn p r k q / 2 ^ 19) = BitVec.ofNat 3 p :=
  ofNat_congr (by unfold cp0Bits cpBits; omega)

theorem cp0Bits_r (hk : k < 32) (hq : q < 4) :
    BitVec.ofNat 5 (cp0Bits fn p r k q / 2 ^ 14) = BitVec.ofNat 5 r :=
  ofNat_congr (by unfold cp0Bits cpBits; omega)

theorem cp0Bits_k (hq : q < 4) : BitVec.ofNat 5 (cp0Bits fn p r k q / 2 ^ 9) = BitVec.ofNat 5 k :=
  ofNat_congr (by unfold cp0Bits cpBits; omega)

theorem cp0Bits_sel : BitVec.ofNat 2 (cp0Bits fn p r k q / 2 ^ 7) = BitVec.ofNat 2 q :=
  ofNat_congr (by unfold cp0Bits cpBits; omega)

theorem cp0Bits_rest : cp0Bits fn p r k q % 2 ^ 7 = 0 := by unfold cp0Bits cpBits; omega

section
variable (hfn : fn < 32) (hp : p < 8) (hr : r < 32) (hk : k < 32) (hq : q < 4)
include hfn hp hr hk hq

theorem cp0Bits_cp : cp0Bits fn p r k q / 2 ^ 27 % 4 = 0 := cpBits_cp hfn (by omega) (by decide)
theorem cp0Bits_lt : cp0Bits fn p r k q < 2 ^ 31 := cpBits_lt hfn (by omega) (by decide)
theorem cp0Bits_fn : cp0Bits fn p r k q / 2 ^ 22 % 32 = fn := cpBits_fn hfn (by omega)
theorem decodeLong_cp0Bits : decodeLong (cp0Bits fn p r k q) = decodeCp (cp0Bits fn p r k q) :=
  decodeLong_cpBits hfn (by omega) (by decide)

end
end

section
variable {fn i j part sh : Nat} {a m : Bool}

theorem cp1Bits_acc (hi : i < 8) (hj : j < 8) (hpart : part < 4) (hsh : sh < 64) :
    bit (cp1Bits fn a i j part sh) 19 = a :=
  bit_of_digit (by have := b2n_le a; unfold cp1Bits cpBits; omega)

theorem cp1Bits_i (hj : j < 8) (hpart : part < 4) (hsh : sh < 64) :
    BitVec.ofNat 3 (cp1Bits fn a i j part sh / 2 ^ 16) = BitVec.ofNat 3 i :=
  ofNat_congr (by unfold cp1Bits cpBits; omega)

theorem cp1Bits_j (hpart : part < 4) (hsh : sh < 64) :
    BitVec.ofNat 3 (cp1Bits fn a i j part sh / 2 ^ 13) = BitVec.ofNat 3 j :=
  ofNat_congr (by unfold cp1Bits cpBits; omega)

theorem cp1Bits_part (hsh : sh < 64) :
    BitVec.ofNat 2 (cp1Bits fn a i j part sh / 2 ^ 11) = BitVec.ofNat 2 part :=
  ofNat_congr (by unfold cp1Bits cpBits; omega)

theorem cp1Bits_src (hsh : sh < 64) : bit (cp1Bits fn a i j (2 * b2n m) sh) 12 = m :=
  bit_of_digit (by have := b2n_le m; unfold cp1Bits cpBits; omega)

theorem cp1Bits_sh : BitVec.ofNat 6 (cp1Bits fn a i j part sh / 2 ^ 5) = BitVec.ofNat 6 sh :=
  ofNat_congr (by unfold cp1Bits cpBits; omega)

theorem cp1Bits_rest : cp1Bits fn a i j part sh % 2 ^ 5 = 0 := by unfold cp1Bits cpBits; omega

section
variable (hfn : fn < 32) (hi : i < 8) (hj : j < 8) (hpart : part < 4) (hsh : sh < 64)
include hfn hi hj hpart hsh

omit hfn in
theorem cp1Bits_gap : cp1Bits fn a i j part sh / 2 ^ 20 % 4 = 0 := by
  have := b2n_le a
  unfold cp1Bits cpBits
  omega

theorem cp1Bits_cp : cp1Bits fn a i j part sh / 2 ^ 27 % 4 = 1 :=
  cpBits_cp hfn (by have := b2n_le a; omega) (by decide)
theorem cp1Bits_lt : cp1Bits fn a i j part sh < 2 ^ 31 :=
  cpBits_lt hfn (by have := b2n_le a; omega) (by decide)
theorem cp1Bits_fn : cp1Bits fn a i j part sh / 2 ^ 22 % 32 = fn :=
  cpBits_fn hfn (by have := b2n_le a; omega)
theorem decodeLong_cp1Bits :
    decodeLong (cp1Bits fn a i j part sh) = decodeCp (cp1Bits fn a i j part sh) :=
  decodeLong_cpBits hfn (by have := b2n_le a; omega) (by decide)

end
end

section
variable {fn p r n : Nat} {loc mode : Bool}

theorem cp2Bits_p (hr : r < 32) (hn : n < 4096) :
    BitVec.ofNat 3 (cp2Bits fn p r loc mode n / 2 ^ 19) = BitVec.ofNat 3 p :=
  ofNat_congr (by have := b2n_le loc; have := b2n_le mode; unfold cp2Bits cpBits; omega)

theorem cp2Bits_r (hn : n < 4096) : BitVec.ofNat 5 (cp2Bits fn p r loc mode n / 2 ^ 14) = BitVec.ofNat 5 r :=
  ofNat_congr (by have := b2n_le loc; have := b2n_le mode; unfold cp2Bits cpBits; omega)

theorem cp2Bits_loc (hn : n < 4096) : bit (cp2Bits fn p r loc mode n) 13 = loc :=
  bit_of_digit (by have := b2n_le loc; have := b2n_le mode; unfold cp2Bits cpBits; omega)

theorem cp2Bits_mode (hn : n < 4096) : bit (cp2Bits fn p r loc mode n) 12 = mode :=
  bit_of_digit (by have := b2n_le mode; unfold cp2Bits cpBits; omega)

theorem cp2Bits_n : BitVec.ofNat 12 (cp2Bits fn p r loc mode n) = BitVec.ofNat 12 n :=
  ofNat_congr (by unfold cp2Bits cpBits; omega)

section
variable (hfn : fn < 32) (hp : p < 8) (hr : r < 32) (hn : n < 4096)
include hfn hp hr hn

theorem cp2Bits_cp : cp2Bits fn p r loc mode n / 2 ^ 27 % 4 = 2 :=
  cpBits_cp hfn (by have := b2n_le loc; have := b2n_le mode; omega) (by decide)
theorem cp2Bits_lt : cp2Bits fn p r loc mode n < 2 ^ 31 :=
  cpBits_lt hfn (by have := b2n_le loc; have := b2n_le mode; omega) (by decide)
theorem cp2Bits_fn : cp2Bits fn p r loc mode n / 2 ^ 22 % 32 = fn :=
  cpBits_fn hfn (by have := b2n_le loc; have := b2n_le mode; omega)
theorem decodeLong_cp2Bits : decodeLong (cp2Bits fn p r loc mode n) = decodeCp (cp2Bits fn p r loc mode n) :=
  decodeLong_cpBits hfn (by have := b2n_le loc; have := b2n_le mode; omega) (by decide)

end
end

/-! ### The words outside the coprocessors -/

/-- Bits 30:24 of a long word outside the coprocessors (R358). -/
def Long.opcode : Long → Nat
  | .ldi _ _ => 0
  | .imm op _ _ => op.code
  | .bank _ => 0x07
  | .ldip _ _ => 0x08
  | .paddi _ _ => 0x09
  | .pcmpi _ _ => 0x0A
  | .pcpy _ _ => 0x0B
  | .ld _ a => 0x10 + (encodeAddr a).1
  | .st _ a => 0x11 + (encodeAddr a).1
  | .ldw _ a => 0x12 + (encodeAddr a).1
  | .stw _ a => 0x13 + (encodeAddr a).1
  | .br _ _ => 0x18
  | .call _ => 0x19
  | .jmpp _ => 0x1A
  | .callp _ => 0x1B
  | .loop (.imm _) _ => 0x20
  | .loop (.ptr _) _ => 0x21
  | .rep (.imm _) => 0x22
  | .rep (.reg _) => 0x23
  | .movs _ _ => 0x28
  | .movts _ _ => 0x29
  | _ => 0x60

/-- The bits of a long address stay below REG. -/
theorem encodeAddr_lt (a : LAddr) : (encodeAddr a).2 < 2 ^ 19 := by
  cases a <;> (simp only [encodeAddr]; omega)

theorem encodeAddr_offset (a : LAddr) : (encodeAddr a).1 = 0 ∨ (encodeAddr a).1 = 4 := by
  cases a
  · exact .inl rfl
  · exact .inr rfl

theorem encodeLong_opcode {l : Long} (h : l.opcode < 0x60) : encodeLong l / 2 ^ 24 % 128 = l.opcode := by
  cases l with
  | ld r a | st r a | ldw r a | stw r a =>
    have := encodeAddr_lt a
    simp only [encodeLong, accessBits, Long.opcode] at h ⊢
    omega
  | imm op r v =>
    have := op.code_bounds
    simp only [encodeLong, Long.opcode]
    omega
  | loop n last | rep n => cases n <;> (simp only [encodeLong, Long.opcode]; omega)
  | ldi | bank | ldip | paddi | pcmpi | pcpy | br | call | jmpp | callp | movs | movts =>
    simp only [encodeLong, Long.opcode]
    omega
  | _ => exact absurd h (Nat.lt_irrefl 0x60)

theorem accessBits_reg (op : Nat) (r : BitVec 5) (a : LAddr) :
    BitVec.ofNat 5 (accessBits op r a / 2 ^ 19) = r :=
  ofNat_of_mod (by have := encodeAddr_lt a; unfold accessBits; omega)

theorem decodeAddr_accessBits (op : Nat) (r : BitVec 5) (a : LAddr) :
    decodeAddr (decide ((encodeAddr a).1 = 4)) (accessBits op r a) = a := by
  cases a <;> simp only [accessBits, encodeAddr, decodeAddr, Nat.reduceEqDiff, decide_false, decide_true, if_true,
    Bool.false_eq_true, if_false, LAddr.disp.injEq, LAddr.abs.injEq]
  case disp p space d => exact ⟨ofNat_of_mod (by omega), ofNat_of_mod (by omega), ofNat_of_mod (by omega)⟩
  case abs space d => exact ⟨ofNat_of_mod (by omega), ofNat_of_mod (by omega)⟩

theorem decodeLong_encodeLong (l : Long) : decodeLong (encodeLong l) = some l := by
  have hop := encodeLong_opcode (l := l)
  cases l with
  | rxpop | txload | txgo | txstat | ordset | tstart | tstop | tread | idrst | frstx =>
    simp (disch := omega) only [encodeLong, decodeLong_cp0Bits, decodeCp, cp0Bits_cp, cp0Bits_fn, cp0Bits_rest,
      cp0Bits_p, cp0Bits_r, cp0Bits_k, cp0Bits_sel, BitVec.ofNat_toNat, BitVec.setWidth_eq, if_true, ne_eq,
      not_true_eq_false, if_false]
  | mul k add a i j =>
    have hk := k.code_lt
    have ha := b2n_le add
    have kind : (1 + k.code + 3 * b2n add - 1) % 3 = k.code := by omega
    have sum : decide (4 ≤ 1 + k.code + 3 * b2n add) = add := by
      cases add
      · exact decide_eq_false (show ¬4 ≤ 1 + k.code + 3 * 0 by omega)
      · exact decide_eq_true (show 4 ≤ 1 + k.code + 3 * 1 by omega)
    have range : 1 ≤ 1 + k.code + 3 * b2n add ∧ 1 + k.code + 3 * b2n add ≤ 6 := by omega
    simp (disch := omega) only [encodeLong, decodeLong_cp1Bits, decodeCp, cp1Bits_cp, cp1Bits_fn, cp1Bits_rest,
      cp1Bits_gap, cp1Bits_acc, cp1Bits_i, cp1Bits_j, kind, sum, range, MulKind.code_inv, BitVec.ofNat_toNat,
      BitVec.setWidth_eq, if_true, ne_eq, not_true_eq_false, if_false, or_self, and_self, one_ne_zero]
  | adda a m =>
    have := b2n_le m
    simp (disch := omega) only [encodeLong, decodeLong_cp1Bits, decodeCp, cp1Bits_cp, cp1Bits_fn, cp1Bits_rest,
      cp1Bits_gap, cp1Bits_acc, cp1Bits_src, if_true, ne_eq, not_true_eq_false, if_false, or_self, one_ne_zero,
      Nat.reduceLeDiff, and_false]
  | clra | macm | sha | sata | rda | wra =>
    simp (disch := omega) only [encodeLong, decodeLong_cp1Bits, decodeCp, cp1Bits_cp, cp1Bits_fn, cp1Bits_rest,
      cp1Bits_gap, cp1Bits_acc, cp1Bits_i, cp1Bits_j, cp1Bits_part, cp1Bits_sh, BitVec.ofNat_toNat,
      BitVec.setWidth_eq, if_true, ne_eq, not_true_eq_false, if_false, or_self, one_ne_zero, Nat.reduceLeDiff,
      false_and, and_false]
  | crci | crcb | crcm | crcr | eccg | eccc =>
    simp (disch := omega) only [encodeLong, decodeLong_cp2Bits, decodeCp, cp2Bits_cp, cp2Bits_fn, cp2Bits_p,
      cp2Bits_r, cp2Bits_loc, cp2Bits_mode, cp2Bits_n, BitVec.ofNat_toNat, BitVec.setWidth_eq, if_true,
      Nat.reduceEqDiff, if_false]
  | ldi r v =>
    simp only [Long.opcode, Nat.reduceLT, true_implies] at hop
    simp only [decodeLong, hop, Nat.reduceLeDiff, if_true, if_false, decide_eq_true_eq,
      Option.ite_none_right_eq_some, Option.some.injEq, Long.ldi.injEq]
    simp only [encodeLong]
    exact ⟨by omega, ofNat_of_mod (by omega), ofNat_of_mod (by omega)⟩
  | imm op r v =>
    have := op.code_bounds
    simp only [Long.opcode] at hop
    simp only [decodeLong, hop (by omega), show ¬0x60 ≤ op.code by omega, show op.code ≠ 0 by omega,
      show op.code ≤ 6 by omega, if_true, if_false, decide_eq_true_eq, Option.ite_none_right_eq_some,
      Option.some.injEq, Long.imm.injEq, op.code_inv, true_and]
    simp only [encodeLong]
    exact ⟨by omega, ofNat_of_mod (by omega), ofNat_of_mod (by omega)⟩
  | ldip k v | paddi k v | pcmpi k v | pcpy k v | movs k v | movts k v =>
    simp only [Long.opcode, Nat.reduceLT, true_implies] at hop
    simp only [decodeLong, hop, Nat.reduceLeDiff, Nat.reduceEqDiff, if_false, false_and, and_false,
      decide_eq_true_eq, Option.ite_none_right_eq_some, Option.some.injEq, Long.ldip.injEq, Long.paddi.injEq,
      Long.pcmpi.injEq, Long.pcpy.injEq, Long.movs.injEq, Long.movts.injEq]
    simp only [encodeLong]
    exact ⟨by omega, ofNat_of_mod (by omega), ofNat_of_mod (by omega)⟩
  | bank v | call v | jmpp v | callp v =>
    simp only [Long.opcode, Nat.reduceLT, true_implies] at hop
    simp only [decodeLong, hop, Nat.reduceLeDiff, Nat.reduceEqDiff, if_false, false_and, and_false,
      decide_eq_true_eq, Option.ite_none_right_eq_some, Option.some.injEq, Long.bank.injEq, Long.call.injEq,
      Long.jmpp.injEq, Long.callp.injEq]
    simp only [encodeLong]
    exact ⟨by omega, ofNat_of_mod (by omega)⟩
  | br cond target =>
    simp only [Long.opcode, Nat.reduceLT, true_implies] at hop
    simp only [decodeLong, hop, Nat.reduceLeDiff, Nat.reduceEqDiff, if_false, and_false, decide_eq_true_eq,
      Option.ite_none_right_eq_some, Option.some.injEq, Long.br.injEq]
    simp only [encodeLong]
    exact ⟨by omega, ofNat_of_mod (by omega), ofNat_of_mod (by omega)⟩
  | ld r a | st r a | ldw r a | stw r a =>
    have haddr := fun op => decodeAddr_accessBits op r a
    rcases encodeAddr_offset a with h | h <;> simp only [h, Long.opcode, Nat.reduceAdd, Nat.reduceLT, true_implies,
      decide_true, Nat.reduceEqDiff, decide_false] at hop haddr
    · simp only [decodeLong, hop, Nat.reduceLeDiff, Nat.reduceEqDiff, if_true, if_false, and_self, Nat.reduceMod,
        decide_false]
      simp only [encodeLong, accessBits_reg, haddr]
    · simp only [decodeLong, hop, Nat.reduceLeDiff, Nat.reduceEqDiff, if_true, if_false, and_self, Nat.reduceMod,
        decide_true]
      simp only [encodeLong, accessBits_reg, haddr]
  | loop n last =>
    cases n <;> simp only [Long.opcode, Nat.reduceLT, true_implies] at hop
    case imm n =>
      simp only [decodeLong, hop, Nat.reduceLeDiff, Nat.reduceEqDiff, if_false, and_false, decide_eq_true_eq,
        Option.some.injEq, Long.loop.injEq, LoopCount.imm.injEq]
      simp only [encodeLong]
      exact ⟨ofNat_of_mod (by omega), ofNat_of_mod (by omega)⟩
    case ptr k =>
      simp only [decodeLong, hop, Nat.reduceLeDiff, Nat.reduceEqDiff, if_false, and_false, decide_eq_true_eq,
        Option.ite_none_right_eq_some, Option.some.injEq, Long.loop.injEq, LoopCount.ptr.injEq]
      simp only [encodeLong]
      exact ⟨by omega, ofNat_of_mod (by omega), ofNat_of_mod (by omega)⟩
  | rep n =>
    cases n <;>
    · simp only [Long.opcode, Nat.reduceLT, true_implies] at hop
      simp only [decodeLong, hop, Nat.reduceLeDiff, Nat.reduceEqDiff, if_false, and_false, decide_eq_true_eq,
        Option.ite_none_right_eq_some, Option.some.injEq, Long.rep.injEq, RepCount.imm.injEq, RepCount.reg.injEq]
      simp only [encodeLong]
      exact ⟨by omega, ofNat_of_mod (by omega)⟩

theorem encodeLong_lt (l : Long) : encodeLong l < 2 ^ 31 := by
  cases l with
  | imm op r v => have := op.code_bounds; simp only [encodeLong]; omega
  | ld r a | st r a | ldw r a | stw r a =>
    have := encodeAddr_lt a
    have := encodeAddr_offset a
    simp only [encodeLong, accessBits]; omega
  | loop n last | rep n => cases n <;> (simp only [encodeLong]; omega)
  | ldi | bank | ldip | paddi | pcmpi | pcpy | br | call | jmpp | callp | movs | movts => simp only [encodeLong]; omega
  | rxpop | txload | txgo | txstat | ordset | tstart | tstop | tread | idrst | frstx =>
    exact cp0Bits_lt (by omega) (by omega) (by omega) (by omega) (by omega)
  | mul k add a i j =>
    have := k.code_lt
    have := b2n_le add
    exact cp1Bits_lt (by omega) (by omega) (by omega) (by omega) (by omega)
  | adda a m =>
    have := b2n_le m
    exact cp1Bits_lt (by omega) (by omega) (by omega) (by omega) (by omega)
  | clra | macm | sha | sata | rda | wra =>
    exact cp1Bits_lt (by omega) (by omega) (by omega) (by omega) (by omega)
  | crci | crcb | crcm | crcr | eccg | eccc =>
    exact cp2Bits_lt (by omega) (by omega) (by omega) (by omega)

/-- A long word's bits are read back as its operation (R342). -/
theorem decodeWord_encodeLong (l : Long) : decodeWord (BitVec.ofNat 32 (encodeWord (.long l))) = .long l := by
  have lt := encodeLong_lt l
  have n : (BitVec.ofNat 32 (encodeWord (.long l))).toNat = 2 ^ 31 + encodeLong l := by
    rw [BitVec.toNat_ofNat, encodeWord]
    omega
  have b31 : bit (2 ^ 31 + encodeLong l) 31 = true := bit_of_digit (by simp only [b2n, if_true]; omega)
  have low : (2 ^ 31 + encodeLong l) % 2 ^ 31 = encodeLong l := by omega
  simp only [decodeWord, n, b31, low, decodeLong_encodeLong, if_true]

/-- Settles O7: bits 30:0 of a long word are read back by its layout or its coprocessor. -/
theorem longWordsRoundTrip : Obligations.LongWordsRoundTrip := by
  unfold Obligations.LongWordsRoundTrip
  refine ⟨decodeWord_encodeLong, fun l m same => ?_⟩
  have word := decodeWord_encodeLong l
  rw [same, decodeWord_encodeLong m, IWord.long.injEq] at word
  exact word.symm

/-! ### Short words -/

theorem AluOp.code_bounds (op : AluOp) : 1 ≤ op.code ∧ op.code ≤ 10 := by cases op <;> decide
theorem AluOp.code_inv (op : AluOp) : aluOps[op.code - 1]?.getD .mov = op := by cases op <;> rfl
theorem UnOp.code_lt (op : UnOp) : op.code < 32 := by cases op <;> decide
theorem UnOp.code_inv (op : UnOp) : unOps[op.code]? = some op := by cases op <;> rfl
theorem BitOp.code_lt (op : BitOp) : op.code < 4 := by cases op <;> decide
theorem BitOp.code_inv (op : BitOp) : bitOps[op.code]?.getD .bset = op := by cases op <;> rfl
theorem SysOp.code_lt (op : SysOp) : op.code < 32 := by cases op <;> decide
theorem SysOp.code_inv (op : SysOp) : sysOps[op.code]? = some op := by cases op <;> rfl

section
variable {op d s : Nat} (hop : op < 32) (hd : d < 32) (hs : s < 32)
include hd hs
theorem shortBits_op (hop : op < 32) : shortBits op d s / 1024 % 32 = op := by
  unfold shortBits; omega
theorem shortBits_d : shortBits op d s / 32 % 32 = d := by
  unfold shortBits; omega
omit hd in
theorem shortBits_s : shortBits op d s % 32 = s := by
  unfold shortBits; omega
theorem shortBits_lt (hop : op < 32) : shortBits op d s < 2 ^ 15 := by
  unfold shortBits; omega
end

/-- The flag bits of a short access, above its pointer. -/
theorem accessFlags (loc post : Bool) (k : BitVec 3) : let s := b2n loc * 16 + b2n post * 8 + k.toNat
    s < 32 ∧ bit s 4 = loc ∧ bit s 3 = post ∧ BitVec.ofNat 3 s = k := by
  have := k.isLt
  have := b2n_le loc
  have := b2n_le post
  exact ⟨by omega, bit_of_digit (by omega), bit_of_digit (by omega), ofNat_of_mod (by omega)⟩

/-- A short operation's 15 bits are read back as it (R355). -/
theorem decodeShort_encodeShort {x : Short} (named : ∀ raw, x ≠ .illegal raw) :
    decodeShort (encodeShort x) = x := by
  cases x with
  | nop => rfl
  | alu op d s =>
    obtain ⟨lo, hi⟩ := op.code_bounds
    simp (disch := omega) [encodeShort, decodeShort, shortBits_op, shortBits_d, shortBits_s, hi, op.code_inv,
      show op.code ≠ 0 by omega]
  | movi d u | addi d u | cmpi d u =>
    simp (disch := omega) [encodeShort, decodeShort, shortBits_op, shortBits_d, shortBits_s]
  | unary op d =>
    have := op.code_lt
    simp (disch := omega) [encodeShort, decodeShort, shortBits_op, shortBits_d, shortBits_s, op.code_inv]
  | bits op d n =>
    have := op.code_lt
    have hq : (op.code * 8 + n.toNat) / 8 = op.code := by omega
    simp (disch := omega) [encodeShort, decodeShort, shortBits_op, shortBits_d, shortBits_s, hq, op.code_inv]
    exact ofNat_of_mod (by omega)
  | ld r loc post k | st r loc post k =>
    obtain ⟨hs, hloc, hpost, hk⟩ := accessFlags loc post k
    simp (disch := omega) [encodeShort, decodeShort, shortBits_op, shortBits_d, shortBits_s, hloc, hpost, hk]
  | padd sub k src =>
    have := b2n_le sub
    have hsub : bit (b2n sub * 8 + k.toNat) 3 = sub := bit_of_digit (by omega)
    have hk : BitVec.ofNat 3 (b2n sub * 8 + k.toNat) = k := ofNat_of_mod (by omega)
    simp (disch := omega) [encodeShort, decodeShort, shortBits_op, shortBits_d, shortBits_s, hsub, hk,
      show b2n sub * 8 + k.toNat < 16 by omega]
  | movp r toPtr k high =>
    have := b2n_le toPtr
    have := b2n_le high
    have hp : bit (b2n toPtr * 16 + k.toNat * 2 + b2n high) 4 = toPtr := bit_of_digit (by omega)
    have hh : bit (b2n toPtr * 16 + k.toNat * 2 + b2n high) 0 = high := bit_of_digit (by omega)
    simp (disch := omega) [encodeShort, decodeShort, shortBits_op, shortBits_d, shortBits_s, hp, hh]
    exact ofNat_of_mod (by omega)
  | br cond off =>
    simp (disch := omega) [encodeShort, decodeShort, shortBits_op, shortBits_d, shortBits_s]
    exact ⟨ofNat_of_mod (by omega), ofNat_of_mod (by omega)⟩
  | sys op =>
    have := op.code_lt
    simp (disch := omega) [encodeShort, decodeShort, shortBits_op, shortBits_d, shortBits_s, op.code_inv]
  | illegal raw => exact absurd rfl (named raw)

theorem encodeShort_lt (x : Short) : encodeShort x < 2 ^ 15 := by
  cases x with
  | nop => decide
  | alu op d s => exact shortBits_lt (by omega) (by omega) (by have := op.code_bounds; omega)
  | movi d u | addi d u | cmpi d u => exact shortBits_lt (by omega) (by omega) (by omega)
  | unary op d => exact shortBits_lt (by omega) op.code_lt (by omega)
  | bits op d n => exact shortBits_lt (by omega) (by have := op.code_lt; omega) (by omega)
  | ld r loc post k | st r loc post k => exact shortBits_lt (by omega) (accessFlags loc post k).1 (by omega)
  | padd sub k src => exact shortBits_lt (by have := b2n_le sub; omega) (by omega) (by omega)
  | movp r toPtr k high =>
    exact shortBits_lt (by omega) (by have := b2n_le toPtr; have := b2n_le high; omega) (by omega)
  | br cond off => exact shortBits_lt (by omega) (by omega) (by omega)
  | sys op => exact shortBits_lt (by omega) op.code_lt (by omega)
  | illegal raw => exact raw.isLt

/-- The two slots of a paired word stand apart, below a clear bit 31 (R342). -/
theorem decodeWord_encodePair {a b : Short} (ha : ∀ raw, a ≠ .illegal raw) (hb : ∀ raw, b ≠ .illegal raw) :
    decodeWord (BitVec.ofNat 32 (encodeWord (.pair a b))) = .pair a b := by
  have la := encodeShort_lt a
  have lb := encodeShort_lt b
  have n : (BitVec.ofNat 32 (encodeWord (.pair a b))).toNat = encodeShort a * 2 ^ 16 + encodeShort b := by
    rw [BitVec.toNat_ofNat, encodeWord]
    omega
  have b31 : bit (encodeShort a * 2 ^ 16 + encodeShort b) 31 = false := bit_of_digit (by simp [b2n]; omega)
  have b15 : bit (encodeShort a * 2 ^ 16 + encodeShort b) 15 = false := bit_of_digit (by simp [b2n]; omega)
  have slotA : (encodeShort a * 2 ^ 16 + encodeShort b) / 2 ^ 16 = encodeShort a := by omega
  have slotB : (encodeShort a * 2 ^ 16 + encodeShort b) % 2 ^ 15 = encodeShort b := by omega
  simp only [decodeWord, n, b31, b15, Bool.false_eq_true, if_false, slotA, slotB, decodeShort_encodeShort ha,
    decodeShort_encodeShort hb]

/-- Settles O8: each slot is read back from its own bits, so equal words come from equal pairs. -/
theorem pairedWordsRoundTrip : Obligations.PairedWordsRoundTrip := by
  unfold Obligations.PairedWordsRoundTrip
  refine fun a b ha hb => ⟨decodeWord_encodePair ha hb, fun c d hc hd same => ?_⟩
  have words := decodeWord_encodePair ha hb
  rw [same, decodeWord_encodePair hc hd, IWord.pair.injEq] at words
  exact ⟨words.1.symm, words.2.symm⟩

/-- Settles O9: the decoder on each word. -/
theorem sampleWords : Obligations.SampleWords := by
  unfold Obligations.SampleWords
  decide

end Sys2Proof.Machine
end

section
/-!
SUPPORT. What holds of every command: it answers a next state, it leaves the queue alone, and it keeps the tables in
their canonical form (SPEC section 95; log entry 1).
-/
namespace Sys2Proof.Machine
open State

/-! ### Every command answers -/

theorem Runs.next {t : State} : Runs (.next t) := ⟨t, rfl⟩

theorem Runs.ite {x y : Out} {c : Prop} {_ : Decidable c} (hx : Runs x) (hy : Runs y) :
    Runs (if c then x else y) := by
  split <;> assumption

theorem Runs.hostRow {op : Nat} {body : Byte → List Byte → State → State} {tag : Byte} {ps : List Byte} {s : State} :
    Runs (hostRow op body tag ps s) :=
  .ite .next (.ite .next .next)

/-- The commands whose meaning looks into the state for what waits there, and the others. -/
theorem exec_runs (c : Instr) (s : State) : Runs (exec c s) := by
  cases c with
  | resetAfterHandover | conversionComplete | formationEdge | takeoverFirstOwnedEdge | handoverCommit
  | handoverSwitch | timeBindTargetEdge | packetReceived | goodcrcReceived | hardResetReceived | cableResetReceived
  | pdMessageParse | crcReceiveTimerExpiry | senderResponseTimeout | answerTimerExpiry | noResponseTimeout
  | vdmResponseTimeout | heldMessageTimeout | drpShareEnd | drpTryExpiry | modeHoldRelease | offMinElapsed
  | pmbusTransactionComplete | confirmWindowExpiry | calTrialExpiry | engineExchange | registerWrite
  | otpOperationComplete =>
    simp only [exec, execResetAfterHandover, execConversionComplete, execFormationEdge, execTakeoverFirstOwnedEdge
      , execHandoverCommit, execHandoverSwitch, execTimeBindTargetEdge, execPacketReceived, execGoodcrcReceived
      , execHardResetReceived, execCableResetReceived, execPdMessageParse, execCrcReceiveTimerExpiry
      , execSenderResponseTimeout, execAnswerTimerExpiry, execNoResponseTimeout, execVdmResponseTimeout
      , execHeldMessageTimeout, execDrpShareEnd, execDrpTryExpiry, execModeHoldRelease, execOffMinElapsed
      , execPmbusTransactionComplete, execConfirmWindowExpiry, execCalTrialExpiry, execEngineExchange
      , execRegisterWrite, execOtpOperationComplete]
    (repeat' split) <;> exact .next
  | _ =>
    repeat' first
      | exact .next | exact .hostRow | apply Runs.ite

/-- A step is the front command executed, or the idle state. -/
theorem step_cases (s : State) : (s.pending = [] ∧ step s = .next s) ∨
    ∃ c rest, s.pending = c :: rest ∧ step s = exec c { s with pending := rest } := by
  rw [step]
  cases front : s.pending with
  | nil => exact .inl ⟨rfl, rfl⟩
  | cons c rest => exact .inr ⟨c, rest, rfl, rfl⟩

/-- Settles O1: a step is the dispatch on the front of the queue. -/
theorem stepRunsFront : Obligations.StepRunsFront := by
  refine ⟨fun c rest s front => ?_, fun s empty => ?_⟩
  · rw [step, front]
  · rw [step, empty]

/-- Settles O2: a step answers as the command at the front does. -/
theorem everyCommandAnswers : Obligations.EveryCommandAnswers := by
  refine ⟨exec_runs, fun s => ?_⟩
  obtain ⟨-, idle⟩ | ⟨c, rest, -, runs⟩ := step_cases s
  · exact idle ▸ .next
  · exact runs ▸ exec_runs c _

/-! ### Every command keeps the queue and the tables -/

/-- Each command by the lemma of its own meaning. -/
theorem exec_keeps (s : State) : ∀ c : Instr, Keeps.out s (exec c s)
  | .spiWrite _ => execSpiWrite_keeps (.refl s)
  | .spiRead _ => execSpiRead_keeps (.refl s)
  | .spiReread => execSpiReread_keeps (.refl s)
  | .spiStatus => execSpiStatus_keeps (.refl s)
  | .spiSingle => execSpiSingle_keeps (.refl s)
  | .hostNop _ _ => execHostNop_keeps (.refl s)
  | .unitInfo _ _ => execUnitInfo_keeps (.refl s)
  | .unitStatus _ _ => execUnitStatus_keeps (.refl s)
  | .unitProfile _ _ => execUnitProfile_keeps (.refl s)
  | .hostLinkSet _ _ => execHostLinkSet_keeps (.refl s)
  | .indicatorSet _ _ => execIndicatorSet_keeps (.refl s)
  | .unitReset _ _ => execUnitReset_keeps (.refl s)
  | .resetAfterHandover => execResetAfterHandover_keeps (.refl s)
  | .quadSet _ _ => execQuadSet_keeps (.refl s)
  | .quadStatus _ _ => execQuadStatus_keeps (.refl s)
  | .portEnable _ _ => execPortEnable_keeps (.refl s)
  | .portDisable _ _ => execPortDisable_keeps (.refl s)
  | .portStatus _ _ => execPortStatus_keeps (.refl s)
  | .portMeasure _ _ => execPortMeasure_keeps (.refl s)
  | .portSet _ _ => execPortSet_keeps (.refl s)
  | .portGet _ _ => execPortGet_keeps (.refl s)
  | .portRecover _ _ => execPortRecover_keeps (.refl s)
  | .pdCapsSet _ _ => execPdCapsSet_keeps (.refl s)
  | .pdReplySet _ _ => execPdReplySet_keeps (.refl s)
  | .pdAnswer _ _ => execPdAnswer_keeps (.refl s)
  | .pdSend _ _ => execPdSend_keeps (.refl s)
  | .pdSwap _ _ => execPdSwap_keeps (.refl s)
  | .pdEpr _ _ => execPdEpr_keeps (.refl s)
  | .pdSoftReset _ _ => execPdSoftReset_keeps (.refl s)
  | .pdHardReset _ _ => execPdHardReset_keeps (.refl s)
  | .pdCableReset _ _ => execPdCableReset_keeps (.refl s)
  | .pdBist _ _ => execPdBist_keeps (.refl s)
  | .pdStatus _ _ => execPdStatus_keeps (.refl s)
  | .pdReplyGet _ _ => execPdReplyGet_keeps (.refl s)
  | .modeMapSet _ _ => execModeMapSet_keeps (.refl s)
  | .muxSet _ _ => execMuxSet_keeps (.refl s)
  | .muxStatus _ _ => execMuxStatus_keeps (.refl s)
  | .pairStatus _ _ => execPairStatus_keeps (.refl s)
  | .pairHandover _ _ => execPairHandover_keeps (.refl s)
  | .pairWithdraw _ _ => execPairWithdraw_keeps (.refl s)
  | .pairRebalance _ _ => execPairRebalance_keeps (.refl s)
  | .pairRetrain _ _ => execPairRetrain_keeps (.refl s)
  | .pairCfgSet _ _ => execPairCfgSet_keeps (.refl s)
  | .weirStatus _ _ => execWeirStatus_keeps (.refl s)
  | .weirClear _ _ => execWeirClear_keeps (.refl s)
  | .weirClassSet _ _ => execWeirClassSet_keeps (.refl s)
  | .weirForce _ _ => execWeirForce_keeps (.refl s)
  | .wdgStatus _ _ => execWdgStatus_keeps (.refl s)
  | .cntConfig _ _ => execCntConfig_keeps (.refl s)
  | .cntRead _ _ => execCntRead_keeps (.refl s)
  | .cntClear _ _ => execCntClear_keeps (.refl s)
  | .logMark _ _ => execLogMark_keeps (.refl s)
  | .logRead _ _ => execLogRead_keeps (.refl s)
  | .logStatus _ _ => execLogStatus_keeps (.refl s)
  | .cfgWrite _ _ => execCfgWrite_keeps (.refl s)
  | .cfgCommit _ _ => execCfgCommit_keeps (.refl s)
  | .cfgConfirm _ _ => execCfgConfirm_keeps (.refl s)
  | .cfgRevert _ _ => execCfgRevert_keeps (.refl s)
  | .cfgStatus _ _ => execCfgStatus_keeps (.refl s)
  | .cfgRead _ _ => execCfgRead_keeps (.refl s)
  | .cfgPairSync _ _ => execCfgPairSync_keeps (.refl s)
  | .calRun _ _ => execCalRun_keeps (.refl s)
  | .calSave _ _ => execCalSave_keeps (.refl s)
  | .calConfirm _ _ => execCalConfirm_keeps (.refl s)
  | .calRevert _ _ => execCalRevert_keeps (.refl s)
  | .calStatus _ _ => execCalStatus_keeps (.refl s)
  | .fwStageBegin _ _ => execFwStageBegin_keeps (.refl s)
  | .fwStageData _ _ => execFwStageData_keeps (.refl s)
  | .fwStageEnd _ _ => execFwStageEnd_keeps (.refl s)
  | .fwActivate _ _ => execFwActivate_keeps (.refl s)
  | .fwStatus _ _ => execFwStatus_keeps (.refl s)
  | .fwPairSync _ _ => execFwPairSync_keeps (.refl s)
  | .otpRead _ _ => execOtpRead_keeps (.refl s)
  | .otpProgram _ _ => execOtpProgram_keeps (.refl s)
  | .otpLock _ _ => execOtpLock_keeps (.refl s)
  | .otpStatus _ _ => execOtpStatus_keeps (.refl s)
  | .lcAdvance _ _ => execLcAdvance_keeps (.refl s)
  | .regRead _ _ => execRegRead_keeps (.refl s)
  | .regWrite _ _ => execRegWrite_keeps (.refl s)
  | .memRead _ _ => execMemRead_keeps (.refl s)
  | .memWrite _ _ => execMemWrite_keeps (.refl s)
  | .engineStatus _ _ => execEngineStatus_keeps (.refl s)
  | .presenceStatus _ _ => execPresenceStatus_keeps (.refl s)
  | .timeBind _ _ => execTimeBind_keeps (.refl s)
  | .timeRead _ _ => execTimeRead_keeps (.refl s)
  | .presenceEnd _ _ => execPresenceEnd_keeps (.refl s)
  | .tickEdge _ => execTickEdge_keeps (.refl s)
  | .energyJudgement _ => execEnergyJudgement_keeps (.refl s)
  | .conversionComplete _ _ _ => execConversionComplete_keeps (.refl s)
  | .calibrationEnd _ => execCalibrationEnd_keeps (.refl s)
  | .eddySelfTrim _ _ => execEddySelfTrim_keeps (.refl s)
  | .eddyCheckFail => execEddyCheckFail_keeps (.refl s)
  | .hardTrip _ => execHardTrip_keeps (.refl s)
  | .limitEntry _ => execLimitEntry_keeps (.refl s)
  | .reverseCurrentBlock _ => execReverseCurrentBlock_keeps (.refl s)
  | .vbusOvTrip _ => execVbusOvTrip_keeps (.refl s)
  | .comparatorOutputChange _ _ _ => execComparatorOutputChange_keeps (.refl s)
  | .frsSourceTurnOn _ => execFrsSourceTurnOn_keeps (.refl s)
  | .frsSignalDetected _ => execFrsSignalDetected_keeps (.refl s)
  | .ccOvervoltage _ => execCcOvervoltage_keeps (.refl s)
  | .vconnOvercurrent _ => execVconnOvercurrent_keeps (.refl s)
  | .vconnInputUndervoltage _ => execVconnInputUndervoltage_keeps (.refl s)
  | .referenceDivergence _ => execReferenceDivergence_keeps (.refl s)
  | .vdrvUndervoltage => execVdrvUndervoltage_keeps (.refl s)
  | .dieOverTemperature _ => execDieOverTemperature_keeps (.refl s)
  | .feedLost _ _ _ => execFeedLost_keeps (.refl s)
  | .quadBusUndervoltage _ _ => execQuadBusUndervoltage_keeps (.refl s)
  | .junctionReverseTurnOff _ _ => execJunctionReverseTurnOff_keeps (.refl s)
  | .dbOffRise => execDbOffRise_keeps (.refl s)
  | .powerOnReset => execPowerOnReset_keeps (.refl s)
  | .supplyInvalid _ => execSupplyInvalid_keeps (.refl s)
  | .resetNAssert => execResetNAssert_keeps (.refl s)
  | .strapSampling _ => execStrapSampling_keeps (.refl s)
  | .pllLock => execPllLock_keeps (.refl s)
  | .refok => execRefok_keeps (.refl s)
  | .refokTimeout => execRefokTimeout_keeps (.refl s)
  | .otpBootRead _ _ => execOtpBootRead_keeps (.refl s)
  | .bootComplete => execBootComplete_keeps (.refl s)
  | .bootPairWindowExpiry => execBootPairWindowExpiry_keeps (.refl s)
  | .formationEdge => execFormationEdge_keeps (.refl s)
  | .syncEdgeReceived _ => execSyncEdgeReceived_keeps (.refl s)
  | .syncHeartbeatReceived _ => execSyncHeartbeatReceived_keeps (.refl s)
  | .listenTimeExpiry => execListenTimeExpiry_keeps (.refl s)
  | .syncLockAcquired => execSyncLockAcquired_keeps (.refl s)
  | .syncMasterLost => execSyncMasterLost_keeps (.refl s)
  | .skewFault => execSkewFault_keeps (.refl s)
  | .mirrorFreeze _ => execMirrorFreeze_keeps (.refl s)
  | .mirrorRecordReceive _ _ _ => execMirrorRecordReceive_keeps (.refl s)
  | .harbourStateApply _ => execHarbourStateApply_keeps (.refl s)
  | .superframeTrailer _ => execSuperframeTrailer_keeps (.refl s)
  | .linkTrainingTimeout => execLinkTrainingTimeout_keeps (.refl s)
  | .laneLoss lane => execLaneLoss_keeps (.refl s) (v0 := lane)
  | .bulkMessageReceive _ => execBulkMessageReceive_keeps (.refl s)
  | .bulkRetransmit => execBulkRetransmit_keeps (.refl s)
  | .transferOpen _ => execTransferOpen_keeps (.refl s)
  | .transferData _ => execTransferData_keeps (.refl s)
  | .transferClose _ => execTransferClose_keeps (.refl s)
  | .transferResult _ => execTransferResult_keeps (.refl s)
  | .heartbeatLost => execHeartbeatLost_keeps (.refl s)
  | .takeoverFirstOwnedEdge => execTakeoverFirstOwnedEdge_keeps (.refl s)
  | .releaseTake _ => execReleaseTake_keeps (.refl s)
  | .handoverCommit => execHandoverCommit_keeps (.refl s)
  | .handoverSwitch => execHandoverSwitch_keeps (.refl s)
  | .handoverKeptRelease => execHandoverKeptRelease_keeps (.refl s)
  | .rebalanceDelayExpiry => execRebalanceDelayExpiry_keeps (.refl s)
  | .profileChangeEdge => execProfileChangeEdge_keeps (.refl s)
  | .timeBindTargetEdge => execTimeBindTargetEdge_keeps (.refl s)
  | .packetReceived _ _ => execPacketReceived_keeps (.refl s)
  | .goodcrcReceived _ _ _ => execGoodcrcReceived_keeps (.refl s)
  | .hardResetReceived _ => execHardResetReceived_keeps (.refl s)
  | .cableResetReceived _ => execCableResetReceived_keeps (.refl s)
  | .packetTransmitStart _ => execPacketTransmitStart_keeps (.refl s)
  | .packetTransmitEnd _ => execPacketTransmitEnd_keeps (.refl s)
  | .frsSignalEnd _ => execFrsSignalEnd_keeps (.refl s)
  | .pdMessageParse _ => execPdMessageParse_keeps (.refl s)
  | .crcReceiveTimerExpiry _ => execCrcReceiveTimerExpiry_keeps (.refl s)
  | .senderResponseTimeout _ => execSenderResponseTimeout_keeps (.refl s)
  | .answerTimerExpiry _ => execAnswerTimerExpiry_keeps (.refl s)
  | .chunkTimerExpiry _ _ => execChunkTimerExpiry_keeps (.refl s)
  | .sourceCapabilityTimeout _ => execSourceCapabilityTimeout_keeps (.refl s)
  | .sinkWaitCapTimeout _ => execSinkWaitCapTimeout_keeps (.refl s)
  | .psTransitionTimeout _ _ => execPsTransitionTimeout_keeps (.refl s)
  | .noResponseTimeout _ => execNoResponseTimeout_keeps (.refl s)
  | .hardResetCompleteTimeout _ => execHardResetCompleteTimeout_keeps (.refl s)
  | .discoverIdentityTimeout _ => execDiscoverIdentityTimeout_keeps (.refl s)
  | .vdmResponseTimeout _ => execVdmResponseTimeout_keeps (.refl s)
  | .vdmModeEntryTimeout _ => execVdmModeEntryTimeout_keeps (.refl s)
  | .bistContModeTimeout _ => execBistContModeTimeout_keeps (.refl s)
  | .sinkEprEnterTimeout _ => execSinkEprEnterTimeout_keeps (.refl s)
  | .sinkEprKeepaliveTimeout _ => execSinkEprKeepaliveTimeout_keeps (.refl s)
  | .sourceEprKeepaliveTimeout _ => execSourceEprKeepaliveTimeout_keeps (.refl s)
  | .sinkPpsPeriodicTimeout _ => execSinkPpsPeriodicTimeout_keeps (.refl s)
  | .sourcePpsCommTimeout _ => execSourcePpsCommTimeout_keeps (.refl s)
  | .heldMessageTimeout _ => execHeldMessageTimeout_keeps (.refl s)
  | .drpShareEnd _ => execDrpShareEnd_keeps (.refl s)
  | .ccDebounceExpiry _ => execCcDebounceExpiry_keeps (.refl s)
  | .pdDebounceExpiry _ => execPdDebounceExpiry_keeps (.refl s)
  | .tryCcDebounceExpiry _ => execTryCcDebounceExpiry_keeps (.refl s)
  | .drpTryExpiry _ => execDrpTryExpiry_keeps (.refl s)
  | .tryTimeoutExpiry _ => execTryTimeoutExpiry_keeps (.refl s)
  | .errorRecoveryExpiry _ => execErrorRecoveryExpiry_keeps (.refl s)
  | .srcDisconnectExpiry _ => execSrcDisconnectExpiry_keeps (.refl s)
  | .sinkTxWaitExpiry _ => execSinkTxWaitExpiry_keeps (.refl s)
  | .contractTransitionStep _ => execContractTransitionStep_keeps (.refl s)
  | .srcReadyTimeout _ => execSrcReadyTimeout_keeps (.refl s)
  | .sinkTransitionStep _ => execSinkTransitionStep_keeps (.refl s)
  | .snkNewPowerExpiry _ => execSnkNewPowerExpiry_keeps (.refl s)
  | .ppsCurrentLimitStep _ => execPpsCurrentLimitStep_keeps (.refl s)
  | .prSwapStep _ => execPrSwapStep_keeps (.refl s)
  | .srcTransitionExpiry _ => execSrcTransitionExpiry_keeps (.refl s)
  | .psSourceOffTimeout _ => execPsSourceOffTimeout_keeps (.refl s)
  | .psSourceOnTimeout _ => execPsSourceOnTimeout_keeps (.refl s)
  | .vconnSwapStep _ => execVconnSwapStep_keeps (.refl s)
  | .vconnOnTimeout _ => execVconnOnTimeout_keeps (.refl s)
  | .vconnSourceOnExpiry _ => execVconnSourceOnExpiry_keeps (.refl s)
  | .frsSwapStep _ => execFrsSwapStep_keeps (.refl s)
  | .hardResetSequenceStep _ => execHardResetSequenceStep_keeps (.refl s)
  | .psHardResetExpiry _ => execPsHardResetExpiry_keeps (.refl s)
  | .srcRecoverExpiry _ => execSrcRecoverExpiry_keeps (.refl s)
  | .sinkHardResetTimeout _ => execSinkHardResetTimeout_keeps (.refl s)
  | .modeHoldRelease _ => execModeHoldRelease_keeps (.refl s)
  | .offMinElapsed _ => execOffMinElapsed_keeps (.refl s)
  | .quietElapsed _ => execQuietElapsed_keeps (.refl s)
  | .gateRiseTimeout _ => execGateRiseTimeout_keeps (.refl s)
  | .gateStuckOn _ => execGateStuckOn_keeps (.refl s)
  | .limitTimeCap _ => execLimitTimeCap_keeps (.refl s)
  | .fixedTimerExpiry _ => execFixedTimerExpiry_keeps (.refl s)
  | .dischargeTimeout _ => execDischargeTimeout_keeps (.refl s)
  | .regulatorStartTimeout _ => execRegulatorStartTimeout_keeps (.refl s)
  | .pmbusTransactionComplete _ _ => execPmbusTransactionComplete_keeps (.refl s)
  | .pmbusTransactionFail _ => execPmbusTransactionFail_keeps (.refl s)
  | .pmbusArbitrationLost _ => execPmbusArbitrationLost_keeps (.refl s)
  | .statusWordPoll _ => execStatusWordPoll_keeps (.refl s)
  | .pmbusAlert _ => execPmbusAlert_keeps (.refl s)
  | .watchdogExpiry _ => execWatchdogExpiry_keeps (.refl s)
  | .rillHoldExpired _ => execRillHoldExpired_keeps (.refl s)
  | .weirQuietElapsed _ => execWeirQuietElapsed_keeps (.refl s)
  | .weirReleaseWindowClose _ => execWeirReleaseWindowClose_keeps (.refl s)
  | .weirEventWindowClose _ _ => execWeirEventWindowClose_keeps (.refl s)
  | .faultNPulseEnd => execFaultNPulseEnd_keeps (.refl s)
  | .mailboxStall _ => execMailboxStall_keeps (.refl s)
  | .presenceLevelConfirmed _ => execPresenceLevelConfirmed_keeps (.refl s)
  | .presenceWindowEnd => execPresenceWindowEnd_keeps (.refl s)
  | .logRecordWrite => execLogRecordWrite_keeps (.refl s)
  | .flashOperationComplete => execFlashOperationComplete_keeps (.refl s)
  | .configApplyEdge => execConfigApplyEdge_keeps (.refl s)
  | .confirmWindowExpiry => execConfirmWindowExpiry_keeps (.refl s)
  | .calTrialExpiry => execCalTrialExpiry_keeps (.refl s)
  | .engineExchange _ => execEngineExchange_keeps (.refl s)
  | .ehExchange => execEhExchange_keeps (.refl s)
  | .ehExchangeRelease => execEhExchangeRelease_keeps (.refl s)
  | .interruptEntry _ => execInterruptEntry_keeps (.refl s)
  | .nop _ _ => execNop_keeps (.refl s)
  | .mov _ _ _ _ => execMov_keeps (.refl s)
  | .add _ _ _ _ => execAdd_keeps (.refl s)
  | .adc _ _ _ _ => execAdc_keeps (.refl s)
  | .sub _ _ _ _ => execSub_keeps (.refl s)
  | .sbc _ _ _ _ => execSbc_keeps (.refl s)
  | .and _ _ _ _ => execAnd_keeps (.refl s)
  | .or _ _ _ _ => execOr_keeps (.refl s)
  | .xor _ _ _ _ => execXor_keeps (.refl s)
  | .cmp _ _ _ _ => execCmp_keeps (.refl s)
  | .tst _ _ _ _ => execTst_keeps (.refl s)
  | .movi _ _ _ _ => execMovi_keeps (.refl s)
  | .addi _ _ _ => execAddi_keeps (.refl s)
  | .cmpi _ _ _ => execCmpi_keeps (.refl s)
  | .shl _ _ _ => execShl_keeps (.refl s)
  | .shr _ _ _ => execShr_keeps (.refl s)
  | .asr _ _ _ => execAsr_keeps (.refl s)
  | .rol _ _ _ => execRol_keeps (.refl s)
  | .ror _ _ _ => execRor_keeps (.refl s)
  | .rlc _ _ _ => execRlc_keeps (.refl s)
  | .rrc _ _ _ => execRrc_keeps (.refl s)
  | .not _ _ _ => execNot_keeps (.refl s)
  | .neg _ _ _ => execNeg_keeps (.refl s)
  | .inc _ _ _ => execInc_keeps (.refl s)
  | .dec _ _ _ => execDec_keeps (.refl s)
  | .swapn _ _ _ => execSwapn_keeps (.refl s)
  | .clr _ _ _ => execClr_keeps (.refl s)
  | .bset _ _ _ _ => execBset_keeps (.refl s)
  | .bclr _ _ _ _ => execBclr_keeps (.refl s)
  | .btst _ _ _ _ => execBtst_keeps (.refl s)
  | .btgl _ _ _ _ => execBtgl_keeps (.refl s)
  | .ld _ _ _ => execLd_keeps (.refl s)
  | .st _ _ _ => execSt_keeps (.refl s)
  | .ldw _ _ _ => execLdw_keeps (.refl s)
  | .stw _ _ _ => execStw_keeps (.refl s)
  | .padd _ _ _ _ => execPadd_keeps (.refl s)
  | .psub _ _ _ _ => execPsub_keeps (.refl s)
  | .movp _ _ _ _ _ _ => execMovp_keeps (.refl s)
  | .br _ _ => execBr_keeps (.refl s)
  | .wtick _ _ => execWtick_keeps (.refl s)
  | .ret _ _ => execRet_keeps (.refl s)
  | .reti _ _ => execReti_keeps (.refl s)
  | .ei _ _ => execEi_keeps (.refl s)
  | .di _ _ => execDi_keeps (.refl s)
  | .lpop _ _ => execLpop_keeps (.refl s)
  | .brk _ _ => execBrk_keeps (.refl s)
  | .ldi _ _ _ => execLdi_keeps (.refl s)
  | .subi _ _ _ => execSubi_keeps (.refl s)
  | .andi _ _ _ => execAndi_keeps (.refl s)
  | .ori _ _ _ => execOri_keeps (.refl s)
  | .xori _ _ _ => execXori_keeps (.refl s)
  | .bank _ _ => execBank_keeps (.refl s)
  | .ldip _ _ _ => execLdip_keeps (.refl s)
  | .paddi _ _ _ => execPaddi_keeps (.refl s)
  | .pcmpi _ _ _ => execPcmpi_keeps (.refl s)
  | .pcpy _ _ _ => execPcpy_keeps (.refl s)
  | .call _ _ => execCall_keeps (.refl s)
  | .jmpp _ _ => execJmpp_keeps (.refl s)
  | .callp _ _ => execCallp_keeps (.refl s)
  | .loop _ _ _ => execLoop_keeps (.refl s)
  | .rep _ _ _ => execRep_keeps (.refl s)
  | .movs _ _ _ => execMovs_keeps (.refl s)
  | .movts _ _ _ => execMovts_keeps (.refl s)
  | .rxpop _ _ _ => execRxpop_keeps (.refl s)
  | .txload _ _ => execTxload_keeps (.refl s)
  | .txgo _ _ => execTxgo_keeps (.refl s)
  | .txstat _ _ => execTxstat_keeps (.refl s)
  | .ordset _ _ => execOrdset_keeps (.refl s)
  | .tstart _ _ => execTstart_keeps (.refl s)
  | .tstop _ _ => execTstop_keeps (.refl s)
  | .tread _ _ _ _ => execTread_keeps (.refl s)
  | .idrst _ _ => execIdrst_keeps (.refl s)
  | .frstx _ => execFrstx_keeps (.refl s)
  | .clra _ _ => execClra_keeps (.refl s)
  | .mul _ _ _ _ => execMul_keeps (.refl s)
  | .mulu _ _ _ _ => execMulu_keeps (.refl s)
  | .mulsu _ _ _ _ => execMulsu_keeps (.refl s)
  | .mac _ _ _ _ => execMac_keeps (.refl s)
  | .macu _ _ _ _ => execMacu_keeps (.refl s)
  | .macsu _ _ _ _ => execMacsu_keeps (.refl s)
  | .macm _ _ _ _ => execMacm_keeps (.refl s)
  | .sha _ _ _ => execSha_keeps (.refl s)
  | .adda _ _ _ => execAdda_keeps (.refl s)
  | .sata _ _ => execSata_keeps (.refl s)
  | .rda _ _ _ _ => execRda_keeps (.refl s)
  | .wra _ _ _ _ => execWra_keeps (.refl s)
  | .crci _ _ => execCrci_keeps (.refl s)
  | .crcb _ _ => execCrcb_keeps (.refl s)
  | .crcm _ _ _ _ => execCrcm_keeps (.refl s)
  | .crcr _ _ _ => execCrcr_keeps (.refl s)
  | .eccg _ _ _ => execEccg_keeps (.refl s)
  | .eccc _ _ _ => execEccc_keeps (.refl s)
  | .mbxPush _ _ _ => execMbxPush_keeps (.refl s)
  | .mbxPop _ _ => execMbxPop_keeps (.refl s)
  | .mbxAck _ _ _ => execMbxAck_keeps (.refl s)
  | .mbxAckinRead _ _ => execMbxAckinRead_keeps (.refl s)
  | .lockTake _ _ => execLockTake_keeps (.refl s)
  | .lockRelease _ _ _ => execLockRelease_keeps (.refl s)
  | .mirrorCommit _ => execMirrorCommit_keeps (.refl s)
  | .wdgCheckIn _ _ => execWdgCheckIn_keeps (.refl s)
  | .wdgService _ _ => execWdgService_keeps (.refl s)
  | .weirPrecWrite _ _ => execWeirPrecWrite_keeps (.refl s)
  | .weirUrecWrite _ => execWeirUrecWrite_keeps (.refl s)
  | .faultNRelease => execFaultNRelease_keeps (.refl s)
  | .eddyStart _ => execEddyStart_keeps (.refl s)
  | .swapRequest _ => execSwapRequest_keeps (.refl s)
  | .flashWindowPlace _ => execFlashWindowPlace_keeps (.refl s)
  | .forceErrorRecovery _ => execForceErrorRecovery_keeps (.refl s)
  | .forceDisabled _ => execForceDisabled_keeps (.refl s)
  | .forceLeaveDisabled _ => execForceLeaveDisabled_keeps (.refl s)
  | .rolesw _ => execRolesw_keeps (.refl s)
  | .limWrite _ _ => execLimWrite_keeps (.refl s)
  | .otpCtlReadNormal _ => execOtpCtlReadNormal_keeps (.refl s)
  | .otpCtlReadStrict _ => execOtpCtlReadStrict_keeps (.refl s)
  | .otpCtlProgram _ => execOtpCtlProgram_keeps (.refl s)
  | .otpCtlLock _ => execOtpCtlLock_keeps (.refl s)
  | .otpCtlLcAdvance _ => execOtpCtlLcAdvance_keeps (.refl s)
  | .pairCtlGive _ => execPairCtlGive_keeps (.refl s)
  | .pairCtlTake _ => execPairCtlTake_keeps (.refl s)
  | .pairCtlRetrain => execPairCtlRetrain_keeps (.refl s)
  | .pairCtlWithdraw => execPairCtlWithdraw_keeps (.refl s)
  | .pairCtlRebal => execPairCtlRebal_keeps (.refl s)
  | .cntCtlClear _ => execCntCtlClear_keeps (.refl s)
  | .tickCountRead _ => execTickCountRead_keeps (.refl s)
  | .rcRegisterRead _ _ => execRcRegisterRead_keeps (.refl s)
  | .registerWrite _ _ _ => execRegisterWrite_keeps (.refl s)
  | .ccScanComparison _ _ _ _ _ => execCcScanComparison_keeps (.refl s)
  | .muxbusSlot _ => execMuxbusSlot_keeps (.refl s)
  | .dbOffFall => execDbOffFall_keeps (.refl s)
  | .vdrvInvalid => execVdrvInvalid_keeps (.refl s)
  | .vdrvValid => execVdrvValid_keeps (.refl s)
  | .vconnInputRecovered _ => execVconnInputRecovered_keeps (.refl s)
  | .otpOperationComplete _ _ => execOtpOperationComplete_keeps (.refl s)
  | .tapTckEdge _ _ _ => execTapTckEdge_keeps (.refl s)

/-- Settles O3: a command keeps the queue, so a step has removed its front alone. -/
theorem queueIsFirstInFirstOut : Obligations.QueueIsFirstInFirstOut := by
  refine ⟨fun c s t ran => ((exec_keeps s c).next t ran).queue, fun s t stepped => ?_⟩
  obtain ⟨empty, idle⟩ | ⟨c, rest, front, runs⟩ := step_cases s
  · cases idle.symm.trans stepped
    rw [empty]
    rfl
  · rw [front, ((exec_keeps _ c).next t (runs.symm.trans stepped)).queue]
    rfl

/-- Settles O4: taking the front off the queue touches no table, and no command breaks a canonical form. -/
theorem tablesStayCanonical : Obligations.TablesStayCanonical := by
  intro s t inv stepped
  obtain ⟨-, idle⟩ | ⟨c, rest, -, runs⟩ := step_cases s
  · cases idle.symm.trans stepped
    exact inv
  · exact ((exec_keeps _ c).next t (runs.symm.trans stepped)).inv inv

end Sys2Proof.Machine
end

section
/-!
SUPPORT. The state right after power-on reset (R369, R445, and the register tables).
-/
namespace Sys2Proof.Machine
open State

/-- No engine has been touched since its own reset. -/
theorem engine_reset (e : Nat) : State.reset.engine e = Engine.init e := rfl

theorem engineInit_run (e : Nat) : (Engine.init e).run = .held := by
  unfold Engine.init
  split <;> rfl

/-- A rill engine's reset values. -/
theorem engineInit_rill {e : Nat} (rill : e < 16) : Engine.init e = {} := if_neg (by omega)

/-- The attach timers, packed from their fields (the table of R118). -/
theorem ccTimers_reset (p : Nat) : State.reset.rget PRT_CCTIM0.reg p = 0x0F96324B ∧
    State.reset.rget PRT_CCTIM1.reg p = 0x1950640F ∧ State.reset.rget PRT_CCTIM2.reg p = 0x100A := by
  refine ⟨?_, ?_, ?_⟩
  · show 0 + 15 * 2 ^ 24 + 150 * 2 ^ 16 + 50 * 2 ^ 8 + 75 * 2 ^ 0 = 0x0F96324B
    decide
  · show 0 + 25 * 2 ^ 24 + 80 * 2 ^ 16 + 100 * 2 ^ 8 + 15 * 2 ^ 0 = 0x1950640F
    decide
  · show 0 + 16 * 2 ^ 8 + 10 * 2 ^ 0 = 0x100A
    decide

/-- Settles O5: no table has an entry. -/
theorem resetIsCanonical : Obligations.ResetIsCanonical :=
  ⟨⟨rfl, rfl, rfl⟩, rfl, rfl, rfl, fun _ _ => rfl, fun _ => rfl, fun e _ => engineInit_run e⟩

/-- Settles O6: each field by its register's table, and the engines by their reset values. -/
theorem resetValues : Obligations.ResetValues := by
  unfold Obligations.ResetValues
  refine ⟨fun p _ => ?attach, fun p _ => ?pd, fun p _ => ?power, rfl, rfl, rfl, rfl, rfl, rfl, rfl, rfl,
    fun e rill => ?rill, rfl, rfl⟩
  case rill =>
    rw [engine_reset, engineInit_rill rill]
    exact ⟨rfl, rfl, rfl, rfl⟩
  case attach =>
    exact ⟨rfl, rfl, rfl, rfl, rfl, rfl, ccTimers_reset p⟩
  all_goals
    and_intros <;> rfl

end Sys2Proof.Machine
end

section
/-!
SUPPORT. The flags of Swesil-8 (R355): what C, Z, N and V of a sum and of a difference say.
-/
namespace Sys2Proof.Machine

/-- The four flags stand apart in PSW bits 3:0. -/
theorem bit_flags (c z n v : Bool) : let f := b2n c + (2 * b2n z + 4 * b2n n) + 8 * b2n v
    bit f 0 = c ∧ bit f 1 = z ∧ bit f 2 = n ∧ bit f 3 = v := by
  revert c z n v
  decide

section
variable {w a b c : Nat} (hw : 0 < w)
include hw

theorem two_pow_width : 2 ^ w = 2 * 2 ^ (w - 1) := by
  rw [← Nat.pow_succ', Nat.succ_eq_add_one, Nat.sub_add_cancel hw]

theorem bit_top {r : Nat} (hr : r < 2 ^ w) : bit r (w - 1) = true ↔ 2 ^ (w - 1) ≤ r := by
  have hp := two_pow_width hw
  refine ⟨Nat.ge_two_pow_of_testBit, fun h => ?_⟩
  rw [bit, Nat.testBit_eq_decide_div_mod_eq, show r / 2 ^ (w - 1) = 1 from ?_]
  · rfl
  · exact Nat.div_eq_of_lt_le (by omega) (by omega)

/-- A number of `w` bits is its own signed value in the lower half, and 2^w less in the upper. -/
theorem toSigned_cases {r : Nat} (hr : r < 2 ^ w) : r < 2 ^ (w - 1) ∧ toSigned w r = r ∨
    2 ^ (w - 1) ≤ r ∧ toSigned w r = r - (2 ^ w : Nat) := by
  have hp := two_pow_width hw
  rw [toSigned, Nat.mod_eq_of_lt hr]
  split
  · exact .inl ⟨by omega, rfl⟩
  · exact .inr ⟨by omega, rfl⟩

omit hw in
theorem sum_mod (h : a + b + c < 2 * 2 ^ w) :
    (a + b + c) % 2 ^ w = a + b + c ∨ (a + b + c) % 2 ^ w + 2 ^ w = a + b + c := by
  obtain fits | carries := Nat.lt_or_ge (a + b + c) (2 ^ w)
  · exact .inl (Nat.mod_eq_of_lt fits)
  · rw [Nat.mod_eq_sub_mod carries, Nat.mod_eq_of_lt (by omega)]
    omega

omit hw in
theorem difference_mod (ha : a < 2 ^ w) (h : b + c ≤ 2 ^ w) :
    (a + 2 * 2 ^ w - b - c) % 2 ^ w + b + c = a ∨ (a + 2 * 2 ^ w - b - c) % 2 ^ w + b + c = a + 2 ^ w := by
  obtain borrows | fits := Nat.lt_or_ge a (b + c)
  · rw [show a + 2 * 2 ^ w - b - c = a + 2 ^ w - b - c + 2 ^ w by omega, Nat.add_mod_right,
      Nat.mod_eq_of_lt (by omega)]
    omega
  · rw [show a + 2 * 2 ^ w - b - c = a - b - c + 2 ^ w + 2 ^ w by omega, Nat.add_mod_right, Nat.add_mod_right,
      Nat.mod_eq_of_lt (by omega)]
    omega

variable (ha : a < 2 ^ w) (hb : b < 2 ^ w) (hc : c ≤ 1)
include ha hb hc

/-- The signed sum differs from its `w` bits exactly where it does not fit. -/
theorem sum_overflows : toSigned w a + toSigned w b + c ≠ toSigned w ((a + b + c) % 2 ^ w) ↔
    toSigned w a + toSigned w b + c < -(2 ^ (w - 1) : Nat) ∨
      (2 ^ (w - 1) : Nat) ≤ toSigned w a + toSigned w b + c := by
  have hp := two_pow_width hw
  have carry := sum_mod (a := a) (b := b) (c := c) (w := w) (by omega)
  have sa := toSigned_cases hw ha
  have sb := toSigned_cases hw hb
  have hr := Nat.mod_lt (a + b + c) (Nat.two_pow_pos w)
  have sr := toSigned_cases hw hr
  generalize (a + b + c) % 2 ^ w = r at *
  generalize toSigned w a = x, toSigned w b = y, toSigned w r = z at *
  omega

/-- The signed difference differs from its `w` bits exactly where it does not fit. -/
theorem difference_overflows :
    toSigned w a - toSigned w b - c ≠ toSigned w ((a + 2 * 2 ^ w - b - c) % 2 ^ w) ↔
      toSigned w a - toSigned w b - c < -(2 ^ (w - 1) : Nat) ∨
        (2 ^ (w - 1) : Nat) ≤ toSigned w a - toSigned w b - c := by
  have hp := two_pow_width hw
  have borrow := difference_mod (b := b) (c := c) ha (by omega)
  have sa := toSigned_cases hw ha
  have sb := toSigned_cases hw hb
  have hr := Nat.mod_lt (a + 2 * 2 ^ w - b - c) (Nat.two_pow_pos w)
  have sr := toSigned_cases hw hr
  generalize (a + 2 * 2 ^ w - b - c) % 2 ^ w = r at *
  generalize toSigned w a = x, toSigned w b = y, toSigned w r = z at *
  omega

omit hw hc in
theorem difference_emod (hc : c ≤ 1) :
    (((a + 2 * 2 ^ w - b - c) % 2 ^ w : Nat) : Int) = ((a : Int) - b - c) % (2 ^ w : Nat) := by
  rw [Int.natCast_mod, show ((a + 2 * 2 ^ w - b - c : Nat) : Int) = (a : Int) - b - c + (2 ^ w : Nat) * 2 by omega,
    Int.add_mul_emod_self_left]

end

/-- Settles O47: each flag by its place in PSW, and V by the signed values of the operands. -/
theorem flagsOfSumsAndDifferences : Obligations.FlagsOfSumsAndDifferences := by
  unfold Obligations.FlagsOfSumsAndDifferences
  intro w hmem a b c ha hb hc m d lo hi
  have hw : 0 < w := by
    rcases List.mem_pair.1 hmem with rfl | rfl <;> decide
  have hlo : lo = -((2 ^ (w - 1) : Nat) : Int) := by push_cast; rfl
  have hhi : hi = ((2 ^ (w - 1) : Nat) : Int) := by push_cast; rfl
  obtain ⟨mc, mz, mn, mv⟩ := bit_flags (decide (2 ^ w ≤ a + b + c)) (decide (m.res = 0)) (bit m.res (w - 1))
    (decide (toSigned w a + toSigned w b + c ≠ toSigned w m.res))
  obtain ⟨dc, dz, dn, dv⟩ := bit_flags (decide (a < b + c)) (decide (d.res = 0)) (bit d.res (w - 1))
    (decide (toSigned w a - toSigned w b - c ≠ toSigned w d.res))
  have hm : m.res < 2 ^ w := Nat.mod_lt _ (Nat.two_pow_pos w)
  have hd : d.res < 2 ^ w := Nat.mod_lt _ (Nat.two_pow_pos w)
  rw [hlo, hhi]
  refine ⟨rfl, ?_, ?_, ?_, ?_, ?_, ?_, ?_, ?_, ?_⟩
  · exact mc ▸ decide_eq_true_iff
  · exact mz ▸ decide_eq_true_iff
  · exact mn ▸ bit_top hw hm
  · exact mv ▸ decide_eq_true_iff.trans (sum_overflows hw ha hb hc)
  · exact_mod_cast difference_emod ha hb hc
  · exact dc ▸ decide_eq_true_iff
  · exact dz ▸ decide_eq_true_iff
  · exact dn ▸ bit_top hw hd
  · exact dv ▸ decide_eq_true_iff.trans (difference_overflows hw ha hb hc)

end Sys2Proof.Machine
end

section
/-!
SUPPORT. The short and the immediate operations of Swesil-8 (R343, R355, R358): what a row comes to where the engine is
ready for its word. Each operation is a function of its engine, which `short_alone` and `long_ran` bring to the word's
end.
-/
namespace Sys2Proof.Machine
open State

section
variable {e : Nat} {a : Slot} {s : State} {d : BitVec 5} {op : Short} {o : AluOut}

/-- A row that issues a word answers what the word comes to. -/
theorem exec_of_issue {i : Instr} {e : Nat} {w : IWord} {s t : State} (h : s.issue e w = t)
    (row : exec i s = .next (s.issue e w) := by rfl) : exec i s = .next t := row.trans (congrArg _ h)

/-- An operation that writes its result and the flags of it to a register other than FLG. -/
theorem issue_result (ha : Alone a) (hr : Ready s e (slotWord a op)) (hd : d ≠ 25 ∨ o.mask = 0)
    (h : ∀ t : State, t.shortData e (s.engine e) true op = .ok (0, t.writeOut e (some d) o true))
    (hb : op.onlyB = false := by rfl) (hl : (IWord.pair op .nop).loads = false := by rfl) :
    s.issue e (slotWord a op) = s.ran e (Engine.result (some d) o) :=
  short_alone ha hr (fun _ => result_run ..) hb hl fun t => by rw [h, writeOut_some hd]

/-- An operation that sets flags alone. -/
theorem issue_flags (ha : Alone a) (hr : Ready s e (slotWord a op)) (hm : o.mask ≠ 0)
    (h : ∀ t : State, t.shortData e (s.engine e) true op = .ok (0, t.writeOut e none o true))
    (hb : op.onlyB = false := by rfl) (hl : (IWord.pair op .nop).loads = false := by rfl) :
    s.issue e (slotWord a op) = s.ran e (Engine.result none o) :=
  short_alone ha hr (fun _ => result_run ..) hb hl fun t => by rw [h, writeOut_none hm]

/-- An operation that writes a register and sets no flag. -/
theorem issue_plain {v : Nat} (ha : Alone a) (hr : Ready s e (slotWord a op))
    (h : ∀ t : State, t.shortData e (s.engine e) true op = .ok (0, t.writeOut e (some d) ⟨v, 0, 0⟩ true))
    (hb : op.onlyB = false := by rfl) (hl : (IWord.pair op .nop).loads = false := by rfl) :
    s.issue e (slotWord a op) = s.ran e fun h => h.setReg d.toNat v :=
  short_alone ha hr (fun _ => setReg_run ..) hb hl fun t => by rw [h, writeOut_plain]

end

/-- A short operation beside a NOP, in either slot, is its own outcome. -/
theorem issue_alone {e : Nat} {a : Slot} {s u : State} {op : Short} {c : Nat} (ha : Alone a)
    (hr : Ready s e (slotWord a op)) (hb : op.onlyB = false)
    (h : (s.onEngine e (Engine.began (IWord.pair op .nop).loads)).shortData e (s.engine e) true op = .ok (c, u)) :
    s.issue e (slotWord a op) = s.settle e (s.engine e).pc (.done u false (1 + c)) := by
  have swap : (IWord.pair .nop op).loads = (IWord.pair op .nop).loads := by cases op <;> rfl
  have nop (t : State) (b : Bool) : t.shortData e (s.engine e) b .nop = .ok (0, t) := rfl
  obtain ⟨inA, other⟩ := a
  unfold Alone at ha
  cases inA
  · simp only [slotWord, ha, Bool.false_eq_true, if_false] at hr ⊢
    rw [issue_pair hr, swap]
    simp only [pairWord, hb, Bool.false_eq_true, if_false, nop, Res.of, h, seq, Nat.zero_add]
  · simp only [slotWord, ha, if_true] at hr ⊢
    rw [issue_pair hr]
    simp only [pairWord, Short.setsFlags, Bool.not_false, h, Res.of, seq, Short.onlyB, Bool.false_eq_true,
      if_false, nop, Nat.add_zero]

/-! ### Operations on two registers -/

/-- Settles O44: each row by what its operation writes. -/
theorem shortAluRowsComplete : Obligations.ShortAluRowsComplete := by
  unfold Obligations.ShortAluRowsComplete
  intro e a d r s ha
  refine ⟨fun hr => ?mov, fun hr hd => ?add, fun hr hd => ?adc, fun hr hd => ?sub, fun hr hd => ?sbc, fun hr hd => ?and,
    fun hr hd => ?or, fun hr hd => ?xor, fun hr => ?cmp, fun hr => ?tst, fun hr => ?movi, fun hr hd => ?addi,
    fun hr => ?cmpi⟩
  case mov | movi => exact exec_of_issue (issue_plain ha hr fun _ => rfl)
  case add | adc | sub | sbc | and | or | xor | addi =>
    exact exec_of_issue (issue_result ha hr (.inl hd) fun _ => rfl)
  case cmp | tst => exact exec_of_issue (issue_flags ha hr (Nat.succ_ne_zero _) fun _ => rfl)
  case cmpi => exact exec_of_issue (short_alone ha hr (fun _ => result_run ..) rfl rfl fun _ => rfl)

/-! ### Unary and bit operations -/

theorem issue_unary {e : Nat} {a : Slot} {s : State} {d : BitVec 5} {op : UnOp} {o : AluOut} (ha : Alone a)
    (hr : Ready s e (slotWord a (.unary op d))) (hd : d ≠ 25)
    (ho : unOut op ((s.engine e).reg d.toNat) ((s.engine e).psw % 2) = o) :
    s.issue e (slotWord a (.unary op d)) = s.ran e (Engine.result (some d) o) :=
  issue_result ha hr (.inl hd) fun t => by rw [shortData, ho]

section
variable {x : Nat} (hx : x < 256)
include hx

theorem bit_seven : bit x 7 = decide (128 ≤ x) := by
  rw [Bool.eq_iff_iff, decide_eq_true_iff]
  exact bit_top (w := 8) (by decide) hx

theorem top_digit (n : Nat) : x / 128 * n = if 128 ≤ x then n else 0 := by
  split
  · rw [show x / 128 = 1 by omega, Nat.one_mul]
  · rw [show x / 128 = 0 by omega, Nat.zero_mul]

omit hx in
theorem bit_zero (x : Nat) : bit x 0 = decide (x % 2 = 1) := Nat.testBit_zero x

/-! The shifts and rotations by the number they make of a byte (R355). -/

theorem unOut_shl (c : Nat) : unOut .shl x c = shiftFlags (2 * x % 256) (decide (128 ≤ x)) := by
  rw [unOut, bit_seven hx, Nat.mul_comm]

omit hx in
theorem unOut_shr (x c : Nat) : unOut .shr x c = shiftFlags (x / 2) (decide (x % 2 = 1)) := by
  rw [unOut, bit_zero]

theorem unOut_asr (c : Nat) :
    unOut .asr x c = shiftFlags (x / 2 + if 128 ≤ x then 128 else 0) (decide (x % 2 = 1)) := by
  rw [unOut, bit_zero, top_digit hx]

theorem unOut_rol (c : Nat) :
    unOut .rol x c = shiftFlags (2 * x % 256 + if 128 ≤ x then 1 else 0) (decide (128 ≤ x)) := by
  rw [unOut, bit_seven hx, ← top_digit hx 1, Nat.mul_one, Nat.mul_comm]

omit hx in
theorem unOut_ror (x c : Nat) : unOut .ror x c = shiftFlags (x / 2 + 128 * (x % 2)) (decide (x % 2 = 1)) := by
  rw [unOut, bit_zero, Nat.mul_comm]

theorem unOut_rlc (c : Nat) : unOut .rlc x c = shiftFlags (2 * x % 256 + c) (decide (128 ≤ x)) := by
  rw [unOut, bit_seven hx, Nat.mul_comm]

omit hx in
theorem unOut_rrc (x c : Nat) : unOut .rrc x c = shiftFlags (x / 2 + 128 * c) (decide (x % 2 = 1)) := by
  rw [unOut, bit_zero, Nat.mul_comm]

omit hx in
theorem unOut_dec (x c : Nat) : unOut .dec x c = ⟨(x + 255) % 256, 14, (subFlags 8 x 1 0).flags⟩ := by
  rw [unOut, subFlags, show (x + 2 * 2 ^ 8 - 1 - 0) % 2 ^ 8 = (x + 255) % 256 by omega]

end

/-- A bit test's Z by the digit at the bit's place. -/
theorem btst_zero (x n : Nat) : 2 * b2n (!bit x n) = if x / 2 ^ n % 2 = 0 then 2 else 0 := by
  rw [bit, Nat.testBit_eq_decide_div_mod_eq]
  rcases Nat.mod_two_eq_zero_or_one (x / 2 ^ n) with h | h <;> rw [h] <;> rfl

/-- Settles O45: each row by what its operation makes of the byte. -/
theorem shortUnaryRowsComplete : Obligations.ShortUnaryRowsComplete := by
  unfold Obligations.ShortUnaryRowsComplete
  intro e a d n s ha g x c hx
  refine ⟨fun hr hd => ?shl, fun hr hd => ?shr, fun hr hd => ?asr, fun hr hd => ?rol, fun hr hd => ?ror,
    fun hr hd => ?rlc, fun hr hd => ?rrc, fun hr hd => ?not, fun hr hd => ?neg, fun hr hd => ?inc, fun hr hd => ?dec,
    fun hr hd => ?swapn, fun hr => ?clr, fun hr => ?bset, fun hr => ?bclr, fun hr => ?btst, fun hr => ?btgl⟩
  case shl => exact exec_of_issue (issue_unary ha hr hd (unOut_shl hx c))
  case shr => exact exec_of_issue (issue_unary ha hr hd (unOut_shr x c))
  case asr => exact exec_of_issue (issue_unary ha hr hd (unOut_asr hx c))
  case rol => exact exec_of_issue (issue_unary ha hr hd (unOut_rol hx c))
  case ror => exact exec_of_issue (issue_unary ha hr hd (unOut_ror x c))
  case rlc => exact exec_of_issue (issue_unary ha hr hd (unOut_rlc hx c))
  case rrc => exact exec_of_issue (issue_unary ha hr hd (unOut_rrc x c))
  case dec => exact exec_of_issue (issue_unary ha hr hd (unOut_dec x c))
  case not | neg | inc | swapn => exact exec_of_issue (issue_unary ha hr hd rfl)
  case clr | bset | bclr | btgl => exact exec_of_issue (issue_plain ha hr fun _ => rfl)
  case btst =>
    rw [← btst_zero x n.toNat]
    exact exec_of_issue (issue_flags ha hr (o := ⟨x, 2, _⟩) (Nat.succ_ne_zero _) fun _ => rfl)

/-! ### FLG as a destination that also takes flags -/

/-- Bits 3:0 of PSW written whole. -/
theorem setFlags_all (g : Engine) (v : Nat) : g.setFlags 15 v = { g with psw := g.psw / 16 * 16 + v % 16 } := by
  have low (n : Nat) : n &&& 15 = n % 16 := Nat.and_two_pow_sub_one_eq_mod n 4
  unfold Engine.setFlags
  rw [low, low, show g.psw - g.psw % 16 = g.psw / 16 * 16 by omega]

theorem setReg_flg (g : Engine) (v : Nat) :
    g.setReg (25#5).toNat v = { g with psw := g.psw / 16 * 16 + v % 16 } := by
  show g.setFlags 15 (v % 256) = _
  rw [setFlags_all, Nat.mod_mod_of_dvd v (by decide)]

/-- What an operation with flags writes to FLG is lost: a free value stands there (log entry 17). -/
theorem writeOut_flg {t : State} {e : Nat} {o : AluOut} (hm : o.mask ≠ 0) :
    t.writeOut e (some 25#5) o true = { t with free := t.free + 1 }.onEngine e fun h =>
      { h with psw := h.psw / 16 * 16 + (Config.freeBits 4 t.free).toNat % 16 } := by
  simp only [writeOut, hm, Bool.not_true, Bool.false_eq_true, or_self, if_false, if_true]
  show ({ t with free := t.free + 1 }.onEngine e fun g => g.setReg (25#5).toNat o.res).onEngine e
    (fun g => g.setFlags 15 (Config.freeBits 4 t.free).toNat) = _
  rw [onEngine_onEngine]
  refine onEngine_congr ?_
  rw [setReg_flg, setFlags_all]
  simp only [show ∀ p v : Nat, (p / 16 * 16 + v % 16) / 16 = p / 16 by omega]

/-- A word's end does not look at the counter of free values. -/
theorem settle_flg {s : State} {e f : Nat} (runs : (s.engine e).run = .running) :
    s.settle e (s.engine e).pc (.done ({ s.onEngine e (Engine.began false) with free := s.free + 1 }.onEngine e fun h =>
      { h with psw := h.psw / 16 * 16 + f % 16 }) false 1) =
    { s with free := s.free + 1 }.ran e fun h => { h with psw := h.psw / 16 * 16 + f % 16 } :=
  settle_ran (s := { s with free := s.free + 1 }) runs fun _ => rfl

/-- A short operation with flags beside a NOP, to FLG. -/
theorem exec_flg {i : Instr} {e : Nat} {a : Slot} {s : State} {op : Short} {o : AluOut} (ha : Alone a)
    (hr : Ready s e (slotWord a op)) (hm : o.mask ≠ 0)
    (h : ∀ t : State, t.shortData e (s.engine e) true op = .ok (0, t.writeOut e (some 25#5) o true))
    (hb : op.onlyB = false := by rfl) (hl : (IWord.pair op .nop).loads = false := by rfl)
    (row : exec i s = .next (s.issue e (slotWord a op)) := by rfl) :
    ∃ f, exec i s =
      .next ({ s with free := s.free + 1 }.ran e fun h => { h with psw := h.psw / 16 * 16 + f % 16 }) :=
  ⟨_, exec_of_issue (row := row) <| by
    rw [issue_alone ha hr hb (h _), hl, writeOut_flg hm]
    exact settle_flg hr.runs⟩

/-- An immediate operation with flags, to FLG. -/
theorem exec_flg_imm {i : Instr} {e : Nat} {s : State} {op : ImmOp} {v : Byte} (hr : Ready s e (.long (.imm op 25 v)))
    (hm : ∀ x, (immOut op x v.toNat).mask ≠ 0) (hd : (Long.imm op 25 v).dest = some 25#5 := by rfl)
    (row : exec i s = .next (s.issue e (.long (.imm op 25 v))) := by rfl) :
    ∃ f, exec i s =
      .next ({ s with free := s.free + 1 }.ran e fun h => { h with psw := h.psw / 16 * 16 + f % 16 }) :=
  ⟨_, exec_of_issue (row := row) <| by
    rw [issue_long hr, longWord, hd, writeOut_flg (hm _)]
    exact settle_flg hr.runs⟩

/-- Settles O46: each of the operations sets a flag, so its write to FLG leaves a free value. -/
theorem flagRegisterDestination : Obligations.FlagRegisterDestination := by
  unfold Obligations.FlagRegisterDestination
  intro e a r v s ha after
  simp only [List.forall_mem_cons, List.not_mem_nil, false_implies, implies_true, and_true]
  refine ⟨?alu, ?unary, ?addi, ?imm⟩
  case alu => and_intros <;> exact fun hr => exec_flg ha hr (Nat.succ_ne_zero _) fun _ => rfl
  case unary => and_intros <;> exact fun hr => exec_flg ha hr (Nat.succ_ne_zero _) fun _ => rfl
  case addi => exact fun hr => exec_flg ha hr (Nat.succ_ne_zero _) fun _ => rfl
  case imm => and_intros <;> exact fun hr => exec_flg_imm hr fun _ => Nat.succ_ne_zero _

/-! ### Two operations in one word -/

/-- A short operation is read back from the other slot's bits. -/
theorem slotWord_encode {x y : Short} (named : ∀ raw, y ≠ .illegal raw) (inA : Bool) :
    slotWord ⟨inA, BitVec.ofNat 15 (encodeShort y)⟩ x = if inA then .pair x y else .pair y x := by
  rw [slotWord, BitVec.toNat_ofNat, Nat.mod_eq_of_lt (encodeShort_lt y), decodeShort_encodeShort named]

/-- Two results `p` and `q` of values before the word: both registers are written, and slot B's flags stand. -/
theorem issue_aluPair {e : Nat} {s : State} {x y : AluOp} {d r d' r' : BitVec 5} {p q : AluOut} (hd' : d' ≠ 25)
    (hx : (Short.alu x d r).dest = some d) (hy : (Short.alu y d' r').dest = some d')
    (hf : (Short.alu y d' r').setsFlags = true) (hr : Ready s e (.pair (.alu x d r) (.alu y d' r')))
    (hp : aluOut x ((s.engine e).reg d.toNat) ((s.engine e).reg r.toNat) ((s.engine e).psw % 2) = p)
    (hq : aluOut y ((s.engine e).reg d'.toNat) ((s.engine e).reg r'.toNat) ((s.engine e).psw % 2) = q) :
    s.issue e (.pair (.alu x d r) (.alu y d' r')) =
      s.ran e fun h => ((h.setReg d.toNat p.res).setReg d'.toNat q.res).setFlags q.mask q.flags := by
  have slotA (t : State) : t.shortData e (s.engine e) false (.alu x d r) =
      .ok (0, t.onEngine e fun h => h.setReg d.toNat p.res) := by
    simp only [shortData, hx, hp, writeOut, Bool.not_false, true_or, if_true]
  have slotB (t : State) : t.shortData e (s.engine e) true (.alu y d' r') =
      .ok (0, t.onEngine e (Engine.result (some d') q)) := by
    rw [shortData, hy, hq, writeOut_some (.inl hd')]
  rw [issue_pair hr]
  simp only [pairWord, hf, Bool.not_true, slotA, Res.of, Short.onlyB, Bool.false_eq_true, if_false, slotB, seq]
  rw [onEngine_onEngine]
  exact settle_ran hr.runs fun h => by simp

/-- Settles O48: either row issues the same word. -/
theorem pairedWordReadsBefore : Obligations.PairedWordReadsBefore := by
  unfold Obligations.PairedWordReadsBefore
  intro e d r d' r' s hd hd' rows g out x hx y hy hr t
  have row {i : Instr} {a : Slot} {x : AluOp} {d r : BitVec 5} (h : (x, i) ∈ rows a d r) :
      exec i s = .next (s.issue e (slotWord a (.alu x d r))) := by
    simp only [rows, List.mem_cons, Prod.mk.injEq, List.not_mem_nil, or_false] at h
    rcases h with ⟨rfl, rfl⟩ | ⟨rfl, rfl⟩ | ⟨rfl, rfl⟩ | ⟨rfl, rfl⟩ | ⟨rfl, rfl⟩ | ⟨rfl, rfl⟩ | ⟨rfl, rfl⟩ <;> rfl
  have writes {x : AluOp} (d r : BitVec 5) (hx : x ∈ [AluOp.add, .adc, .sub, .sbc, .and_, .or_, .xor_]) :
      (Short.alu x d r).dest = some d ∧ (Short.alu x d r).setsFlags = true := by
    simp only [List.mem_cons, List.not_mem_nil, or_false] at hx
    rcases hx with rfl | rfl | rfl | rfl | rfl | rfl | rfl <;> exact ⟨rfl, rfl⟩
  have word := issue_aluPair hd' (writes d r hx).1 (writes d' r' hy).1 (writes d' r' hy).2 hr rfl rfl
  refine ⟨fun i hi => ?_, fun i hi => ?_⟩
  · rw [row hi, slotWord_encode fun _ => Short.noConfusion]
    exact congrArg _ word
  · rw [row hi, slotWord_encode fun _ => Short.noConfusion]
    exact congrArg _ word

end Sys2Proof.Machine
end

section
/-!
SUPPORT. The long immediate operations, and the operations on pointer pairs and special registers (R337, R355, R358).
-/
namespace Sys2Proof.Machine
open State

section
variable {e : Nat} {s : State} {l : Long} {f : Engine → Engine}

/-- A long operation of one cycle that changes only its engine. -/
theorem issue_engine (hr : Ready s e (.long l)) (hf : ∀ g : Engine, (f g).run = g.run)
    (h : ∀ t : State, t.longWord e (s.engine e) l = seq (0, t.onEngine e f))
    (hl : (IWord.long l).loads = false := by rfl) : s.issue e (.long l) = s.ran e f := by
  have run := long_ran hr hf (h _)
  rwa [hl] at run

/-- A long immediate operation to a register other than FLG. -/
theorem issue_imm {op : ImmOp} {r : BitVec 5} {v : Byte} (hr : Ready s e (.long (.imm op r v))) (hd : r ≠ 25)
    (hw : (Long.imm op r v).dest = some r) : s.issue e (.long (.imm op r v)) =
      s.ran e (Engine.result (some r) (immOut op ((s.engine e).reg r.toNat) v.toNat)) :=
  issue_engine hr (fun _ => result_run ..) fun t => by
    rw [longWord, hw, writeOut_some (.inl hd)]

end

/-- Settles O49: each row by what its operation writes. -/
theorem longImmediateRowsComplete : Obligations.LongImmediateRowsComplete := by
  unfold Obligations.LongImmediateRowsComplete
  intro e a r v s x
  refine ⟨fun ha hr => ?nop, fun hr => ?ldi, fun hr => ?bank, fun hr hd => ?addi, fun hr hd => ?subi, fun hr hd => ?andi,
    fun hr hd => ?ori, fun hr hd => ?xori, fun hr => ?cmpi⟩
  case nop =>
    refine exec_of_issue ((issue_alone ha hr rfl rfl).trans ?_)
    exact settle_id hr.runs
  case ldi => exact exec_of_issue (issue_engine hr (fun _ => setReg_run ..) fun _ => rfl)
  case bank => exact exec_of_issue (issue_engine hr (fun _ => rfl) fun _ => rfl)
  case addi | subi | andi | ori | xori =>
    have word := issue_imm hr hd rfl
    exact exec_of_issue word
  case cmpi =>
    refine exec_of_issue (issue_engine hr (fun _ => result_run ..) fun t => ?_)
    exact congrArg (fun u => seq (0, u)) (writeOut_none (Nat.succ_ne_zero _))

/-! ### Pointer pairs -/

/-- Z alone from a 16-bit result. -/
theorem zeroFlag (z : Nat) : 2 * b2n (decide (z % 65536 = 0)) = if z % 65536 = 0 then 2 else 0 := by
  split <;> simp [*, b2n]

theorem setPtr_mod (g : Engine) (k v : Nat) : g.setPtr k (v % 65536) = g.setPtr k v := by
  rw [Engine.setPtr, Engine.setPtr, Nat.mod_mod]

theorem setReg_mod (g : Engine) (r v : Nat) : g.setReg r (v % 256) = g.setReg r v := by
  unfold Engine.setReg
  rw [Nat.mod_mod]

/-- Two effects that agree on the engine at the start of the word come to the same. -/
theorem ran_congr {s : State} {e n : Nat} {ld : Bool} {f g : Engine → Engine}
    (h : f ((s.engine e).began ld) = g ((s.engine e).began ld)) :
    s.onEngine e (Engine.ran ld n f) = s.onEngine e (Engine.ran ld n g) :=
  onEngine_congr (by unfold Engine.ran; rw [h])

/-- The start of a word leaves every special register alone. -/
theorem sregGet_began (s : State) (e n : Nat) (ld : Bool) :
    (s.onEngine e (Engine.began ld)).sregGet e n = s.sregGet e n := by
  unfold sregGet
  rw [engine_onEngine_same]
  rfl

theorem sregSet_run (g : Engine) (e n v : Nat) : (sregSet g e n v).run = g.run := by
  unfold sregSet Engine.onTop
  split <;> first | rfl | (split <;> rfl)

/-- Settles O50: each row by what its operation writes. -/
theorem pointerRowsComplete : Obligations.PointerRowsComplete := by
  unfold Obligations.PointerRowsComplete
  intro e a k j r v n s g x y zero
  have sum (t : State) (z : Nat) : (t.onEngine e fun h => h.setPtr k.toNat (z % 65536)).writeFlags e
      ⟨z % 65536, 2, 2 * b2n (decide (z % 65536 = 0))⟩ true =
      t.onEngine e fun h => (h.setPtr k.toNat z).setFlags 2 (zero z) := by
    simp only [writeFlags, State.when, if_true, onEngine_onEngine, setPtr_mod, zeroFlag, zero]
  refine ⟨fun ha hr => ?padd, fun ha hr => ?psub, fun ha hr => ?toHigh, fun ha hr => ?toLow, fun ha hr => ?ofHigh,
    fun ha hr => ?ofLow, fun hr => ?ldip, fun hr => ?paddi, fun hr => ?pcmpi, fun hr => ?pcpy, fun hr => ?movs,
    fun hr => ?movts⟩
  case padd =>
    exact exec_of_issue (short_alone ha hr (fun _ => rfl) rfl rfl fun t => congrArg (fun u => Except.ok (0, u)) (sum t _))
  case psub =>
    exact exec_of_issue (short_alone ha hr (fun _ => rfl) rfl rfl fun t => congrArg (fun u => Except.ok (0, u)) (sum t _))
  case paddi =>
    exact exec_of_issue (issue_engine hr (fun _ => rfl) fun t => congrArg (fun u => seq (0, u)) (sum t _))
  case toHigh =>
    refine exec_of_issue ((short_alone ha hr (fun _ => setPtr_run ..) rfl rfl fun t => rfl).trans (ran_congr ?_))
    show Engine.setPtr _ _ (x - x / 256 % 256 * 256 + y * 256) = Engine.setPtr _ _ (x % 256 + 256 * y)
    rw [← setPtr_mod, ← setPtr_mod (v := x % 256 + 256 * y)]
    exact congrArg _ (by omega)
  case toLow =>
    refine exec_of_issue ((short_alone ha hr (fun _ => setPtr_run ..) rfl rfl fun t => rfl).trans (ran_congr ?_))
    show Engine.setPtr _ _ (x - x / 1 % 256 * 1 + y * 1) = Engine.setPtr _ _ (x / 256 * 256 + y)
    exact congrArg _ (by omega)
  case ofHigh =>
    refine exec_of_issue ((short_alone ha hr (fun _ => setReg_run ..) rfl rfl fun t => rfl).trans (ran_congr ?_))
    exact setReg_mod _ _ (x / 256)
  case ofLow =>
    refine exec_of_issue ((short_alone ha hr (fun _ => setReg_run ..) rfl rfl fun t => rfl).trans (ran_congr ?_))
    show Engine.setReg _ _ (x / 1 % 256) = _
    rw [Nat.div_one]
  case ldip | pcpy => exact exec_of_issue (issue_engine hr (fun _ => rfl) fun _ => rfl)
  case pcmpi => exact exec_of_issue (issue_engine hr (fun _ => result_run ..) fun _ => rfl)
  case movs =>
    refine exec_of_issue (long_ran hr (fun _ => rfl) ?_)
    exact congrArg (fun v => seq (0, State.onEngine _ _ fun h => h.setPtr k.toNat v)) (sregGet_began s e n.toNat false)
  case movts => exact exec_of_issue (issue_engine hr (fun _ => sregSet_run ..) fun _ => rfl)

end Sys2Proof.Machine
end

section
/-!
SUPPORT. Transfers, loops, system operations and traps (R344 to R357).
-/
namespace Sys2Proof.Machine
open State

/-! ### Transfers of control -/

/-- Settles O53: each row by the lemma of its transfer. -/
theorem transferRowsComplete : Obligations.TransferRowsComplete := by
  unfold Obligations.TransferRowsComplete
  intro e a cond off t k s g ret linked code spilt spills
  refine ⟨fun ha hr => ?br, fun hr => ?brLong, fun hr => ?jmpp, fun hr free => ?call, fun hr free => ?callp,
    fun hr full => ?callSpill, fun hr full => ?callpSpill, fun ha hr deep more => ?ret⟩
  case br =>
    refine exec_of_issue ((short_control ha rfl hr).trans ?_)
    rw [shortControl]
    split
    · exact settle_goTo hr.runs
    · exact settle_id hr.runs
  case brLong =>
    refine exec_of_issue ((issue_long hr).trans ?_)
    rw [longWord]
    split
    · exact settle_goTo hr.runs
    · exact settle_id hr.runs
  case jmpp => exact exec_of_issue ((issue_long hr).trans (settle_goTo hr.runs))
  case call => exact exec_of_issue ((issue_long hr).trans (call_free hr.runs free))
  case callp => exact exec_of_issue ((issue_long hr).trans (call_free hr.runs free))
  case callSpill =>
    obtain ⟨resg, aligned, room, fits⟩ := full
    exact exec_of_issue ((issue_long hr).trans (call_spill hr.runs resg aligned room fits))
  case callpSpill =>
    obtain ⟨resg, aligned, room, fits⟩ := full
    exact exec_of_issue ((issue_long hr).trans (call_spill hr.runs resg aligned room fits))
  case ret =>
    refine exec_of_issue ((short_control ha rfl hr).trans ?_)
    rw [shortControl, State.ret, if_neg deep, slideDown_free (by rw [engine_onEngine_same]; exact more)]
    exact settle_jumped hr.runs fun _ => rfl

/-! ### Traps and interrupts -/

/-- Settles O56: without a spill the two slides and the entry are one change of the engine. -/
theorem trapEntrySavesAndGoes : Obligations.TrapEntrySavesAndGoes := by
  unfold Obligations.TrapEntrySavesAndGoes
  intro e a t s u
  refine ⟨fun nested => ?_, fun outside free => ?_⟩
  · rw [takeTrap, if_pos nested, doubleTrap]
  · rw [takeTrap, if_neg (by rw [outside]; decide), twiceUp free]
    simp only [State.when, spend, onEngine_onEngine, decide_eq_true_eq]
    rfl

/-! ### System operations -/

section
variable {s u : State} {e : Nat}

/-- A word's end looks at the values that the word before left to land, and at nothing else of the state before. -/
theorem settle_congr (h : (s.engine e).delay = (u.engine e).delay) (a : Nat) (t : State) (taken : Bool) (n : Nat) :
    s.settle e a (.done t taken n) = u.settle e a (.done t taken n) := by
  rw [settle, settle, h]

/-- A release that has been latched lets the engine go on. -/
theorem wtick_latched (c : Nat) (latched : (s.engine e).latched = true) (used : (s.engine e).fresh = false) :
    s.wtick e c = .done (s.onEngine e fun g => { g with latched := false, cyc := 0, stepped := false }) false (1 + c) := by
  rw [wtick, used]
  exact if_pos latched

/-- Without one it waits. -/
theorem wtick_waits (c : Nat) (latched : (s.engine e).latched = false) (used : (s.engine e).fresh = false) :
    s.wtick e c = .done (s.onEngine e fun g => { g with
      run := .waiting, loaded := false, lastBank := none, stepped := false }) true (1 + c) := by
  rw [wtick, used]
  exact if_neg (by rw [State.when, if_neg (by decide), latched]; decide)

/-- The first WTICK since the engine's reset ends the hold of its port (R414) and then is one like any other. -/
theorem wtick_fresh (c : Nat) (fresh : (s.engine e).fresh = true) :
    s.wtick e c = ((s.wdgResume e).onEngine e fun h => { h with fresh := false }).wtick e c := by
  have used : (((s.wdgResume e).onEngine e fun h => { h with fresh := false }).engine e).fresh = false := by
    rw [engine_onEngine_same]
  rw [wtick, wtick, fresh, used]
  rfl

/-- The engine waits from the word's end on. -/
theorem settle_waiting {t : State} (ht : (t.engine e).run = .waiting) (a n : Nat) :
    s.settle e a (.done t true n) = t.onEngine e (Engine.ended n (s.engine e)) := by
  have held : (t.engine e).run ≠ .held := by rw [ht]; decide
  simp only [settle, retire, State.when, decide_eq_true held, if_true, spend, onEngine_onEngine, finishWord,
    Bool.not_true, Bool.false_and, Bool.false_eq_true, if_false]
  rfl

/-- WTICK issued in the state `s` on an engine whose port's hold has ended, which `u` says. -/
theorem settle_wtick (runs : (u.engine e).run = .running) (used : (u.engine e).fresh = false)
    (delay : (s.engine e).delay = (u.engine e).delay) :
    s.settle e (u.engine e).pc ((u.onEngine e (Engine.began false)).wtick e 0) = if (u.engine e).latched then
        u.ran e fun h => { h with latched := false, cyc := 0, stepped := false }
      else u.onEngine e fun g => Engine.ended 1 g { g.began false with run := .waiting, stepped := false } := by
  have begun : (u.onEngine e (Engine.began false)).engine e = (u.engine e).began false := engine_onEngine_same ..
  split
  case isTrue latched =>
    rw [wtick_latched 0 (by rw [begun]; exact latched) (by rw [begun]; exact used), settle_congr delay]
    exact settle_ran runs fun _ => rfl
  case isFalse latched =>
    rw [wtick_waits 0 (by rw [begun]; exact eq_false_of_ne_true latched) (by rw [begun]; exact used),
      settle_congr delay, settle_waiting (by rw [engine_onEngine_same]), onEngine_onEngine, onEngine_onEngine]
    exact onEngine_congr rfl

/-- RETI in a handler, at its loop depth and without a fill. -/
theorem reti_returns (raw c : Nat) (handler : bit (s.engine e).psw 6 = true ∨ bit (s.engine e).psw 5 = true)
    (depth : bits (if bit (s.engine e).psw 6 then (s.engine e).tpsw else (s.engine e).ipsw) 10 8 =
      (s.engine e).loops.length) (more : 3 < (s.engine e).resg) :
    s.reti e raw c = goTo ((s.onEngine e fun h => h.slidDown.slidDown).onEngine e fun h => { h with
        psw := (if bit (s.engine e).psw 6 then (s.engine e).tpsw else (s.engine e).ipsw) % 128
        inWait := (s.engine e).inWait && bit (s.engine e).psw 6 }) e
      (if bit (s.engine e).psw 6 then (s.engine e).tpc else (s.engine e).ipc) (2 + c) := by
  have inside : ¬(!bit (s.engine e).psw 6 ∧ !bit (s.engine e).psw 5) := by rcases handler with h | h <;> simp [h]
  rw [reti, if_neg inside, if_neg (not_not.2 depth), twiceDown more, Res.of]
  refine congrArg (fun t => goTo t e _ _) ?_
  rw [onEngine_onEngine, onEngine_onEngine]
  exact onEngine_congr rfl

end

/-- Settles O55: each row by the lemma of its operation. -/
theorem systemRowsComplete : Obligations.SystemRowsComplete := by
  unfold Obligations.SystemRowsComplete
  intro e a s g trap saved u
  refine ⟨fun ha hr => ?wtick, fun ha hr => ?ei, fun ha hr => ?di, fun ha hr handler depth more => ?reti,
    fun ha hr => ?brk, fun due free => ?irq⟩
  case wtick =>
    refine exec_of_issue ((short_control ha rfl hr).trans ?_)
    show s.settle e g.pc ((s.onEngine e (Engine.began false)).wtick e 0) = _
    by_cases fresh : g.fresh = true
    · have first : u = (s.wdgResume e).onEngine e fun h => { h with fresh := false } := if_pos fresh
      have engine : u.engine e = { g with fresh := false } := by rw [first, engine_onEngine_same]; rfl
      have resumed : ((s.onEngine e (Engine.began false)).wdgResume e).onEngine e (fun h => { h with fresh := false }) =
          u.onEngine e (Engine.began false) := by
        rw [first, onEngine_onEngine]
        exact onEngine_onEngine (s.wdgResume e) ..
      have settled := settle_wtick (s := s) (u := u) (by rw [engine]; exact hr.runs) (by rw [engine]) (by rw [engine])
      rw [wtick_fresh 0 (by rw [engine_onEngine_same]; exact fresh), resumed]
      rwa [engine] at settled
    · have later : u = s := if_neg fresh
      rw [later]
      exact settle_wtick hr.runs (eq_false_of_ne_true fresh) rfl
  case ei | di =>
    refine exec_of_issue ((short_control ha rfl hr).trans ?_)
    exact settle_ran hr.runs fun _ => rfl
  case reti =>
    refine exec_of_issue ((short_control ha rfl hr).trans ?_)
    have begun : (s.onEngine e (Engine.began false)).engine e = g.began false := engine_onEngine_same ..
    rw [shortControl, reti_returns _ _ (by rw [begun]; exact handler) (by rw [begun]; exact depth)
      (by rw [begun]; exact more), begun, onEngine_onEngine]
    exact settle_jumped hr.runs fun _ => rfl
  case brk =>
    refine exec_of_issue ((short_control ha rfl hr).trans ?_)
    show (State.retire _ e 1 g.delay).takeTrap e (g.pc + 1) _ = _
    rw [retire_running (by rw [engine_onEngine_same]; exact hr.runs), onEngine_onEngine]
    rfl
  case irq =>
    show Host.Outcome.next (s.takeIrq e) = _
    rw [takeIrq, due, State.when, if_pos rfl, enterIrq, twiceUp free]
    simp only [spend, onEngine_onEngine]
    rfl

end Sys2Proof.Machine
end

section
/-!
SUPPORT. Loops and repetition (R347 to R350, R354).
-/
namespace Sys2Proof.Machine
open State

section
variable {s : State} {e : Nat} {h : Engine}

/-- LOOP with a level free: behind the loop with count 0, and a level pushed otherwise. -/
theorem settle_loop {n last : Nat} (runs : (s.engine e).run = .running) (room : (s.engine e).loops.length < 4) :
    s.settle e (s.engine e).pc ((s.onEngine e (Engine.began false)).loop e (s.engine e) n last) = if n = 0 then
        s.onEngine e (Engine.jumped 2 ((s.engine e).pc + last + 1) id)
      else s.ran e fun h => { h with
        loops := ⟨((s.engine e).pc + 1) % 65536, ((s.engine e).pc + last) % 65536, n⟩ :: h.loops } := by
  rw [State.loop, if_neg (Nat.not_le.2 room)]
  split
  · exact settle_goTo runs
  · exact settle_ran runs fun _ => rfl

/-- The engine `h` after one repetition of PADDI pk, #v, with `n` more to come. -/
def Engine.padded (k : BitVec 3) (v : BitVec 16) (n : Nat) (h : Engine) : Engine :=
  let sum := (h.ptr k.toNat + v.toNat) % 65536
  Engine.ended 1 h ((({ h with rc := n + 1 }.began false).setPtr k.toNat sum).setFlags 2 (2 * b2n (decide (sum = 0))))

theorem padded_ptr (k : BitVec 3) (v : BitVec 16) (n : Nat) (settled : h.delay = []) :
    (h.padded k v n).ptr k.toNat = (h.ptr k.toNat + v.toNat) % 65536 := by
  show (List.foldl _ (Engine.setPtr _ k.toNat _).rf h.delay).get 0 (136 + k.toNat) = _
  rw [settled]
  refine (Tab.get_put_same 0 (136 + k.toNat) _ h.rf).trans ?_
  exact Nat.mod_mod _ _

theorem paddi_legal (e : Nat) (k : BitVec 3) (v : BitVec 16) : (IWord.long (.paddi k v)).legal e h.bank = true := by
  simp [IWord.legal, Long.legal, Long.regs, Long.cp0]

/-- One repetition of PADDI, and then the rest. -/
theorem repeatWord_paddi (a n : Nat) (k : BitVec 3) (v : BitVec 16) (runs : h.run = .running) :
    (s.onEngine e fun _ => h).repeatWord e a (.long (.paddi k v)) (n + 1) =
      (s.onEngine e fun _ => h.padded k v n).repeatWord e a (.long (.paddi k v)) n := by
  rw [repeatWord]
  simp only [onEngine_onEngine]
  have word : (s.onEngine e fun _ => { h with rc := n + 1 }).runWord e (.long (.paddi k v)) =
      .done (s.onEngine e fun _ => (({ h with rc := n + 1 }.began false).setPtr k.toNat
        ((h.ptr k.toNat + v.toNat) % 65536)).setFlags 2
          (2 * b2n (decide ((h.ptr k.toNat + v.toNat) % 65536 = 0)))) false 1 := by
    rw [runWord, engine_onEngine_same, paddi_legal]
    simp only [Bool.not_true, Bool.false_eq_true, if_false, longWord, writeFlags, State.when, if_true,
      onEngine_onEngine]
    rfl
  have retired : (s.onEngine e fun _ => (({ h with rc := n + 1 }.began false).setPtr k.toNat
        ((h.ptr k.toNat + v.toNat) % 65536)).setFlags 2
          (2 * b2n (decide ((h.ptr k.toNat + v.toNat) % 65536 = 0)))).retire e 1 h.delay =
      s.onEngine e fun _ => h.padded k v n := by
    rw [retire_running (by rw [engine_onEngine_same]; exact runs) h 1, onEngine_onEngine]
    rfl
  rw [word]
  simp only [engine_onEngine_same, retired]
  exact if_pos runs

/-- Execution goes on behind a word whose engine still runs. -/
theorem finishWord_running (a : Nat) (runs : (s.engine e).run = .running) :
    s.finishWord e a false = s.onEngine e (·.finish a) := by
  simp only [finishWord, runs, State.when, Bool.not_false, decide_true, Bool.and_true, if_true]

/-- Outside loops it goes on at the next word. -/
theorem finish_outside (outside : h.loops = []) (a : Nat) : h.finish a = { h with pc := a + 1 } := by
  simp only [Engine.finish, outside, judgeLoops]

/-- What `n` repetitions of PADDI leave of the engine, outside loops and with nothing left to land. -/
theorem repeatWord_sums (a : Nat) (k : BitVec 3) (v : BitVec 16) (n : Nat) : ∀ h : Engine, h.run = .running →
    h.loops = [] → h.delay = [] → ∃ u : Engine,
      (s.onEngine e fun _ => h).repeatWord e a (.long (.paddi k v)) (n + 1) = s.onEngine e (fun _ => u) ∧
        u.ptr k.toNat = (h.ptr k.toNat + (n + 1) * v.toNat) % 65536 ∧ u.rc = 0 ∧ u.pc = a + 1 ∧
        u.cyc = h.cyc + (n + 1) := by
  induction n with
  | zero =>
    intro h runs outside settled
    rw [repeatWord_paddi a 0 k v runs, repeatWord]
    refine ⟨{ h.padded k v 0 with rc := 0, pc := a + 1 }, ?_, ?_, rfl, rfl, rfl⟩
    · rw [onEngine_onEngine]
      refine (finishWord_running a ?_).trans ?_
      · rw [engine_onEngine_same]
        exact runs
      rw [onEngine_onEngine]
      exact onEngine_congr (finish_outside (h := { h.padded k v 0 with rc := 0 }) outside a)
    · exact (padded_ptr k v 0 settled).trans (by omega)
  | succ n ih =>
    intro h runs outside settled
    obtain ⟨u, same, ptr, rc, pc, cyc⟩ := ih (h.padded k v (n + 1)) runs outside rfl
    refine ⟨u, (repeatWord_paddi a (n + 1) k v runs).trans same, ?_, rc, pc, ?_⟩
    · rw [ptr, padded_ptr k v _ settled, Nat.mod_add_mod]
      exact congrArg (· % 65536) (by ring)
    · rw [cyc]
      show h.cyc + 1 + (n + 1) = h.cyc + (n + 1 + 1)
      omega

/-- A word that is not given to the engine to execute as it stands is issued on the engine that is ready for it. -/
theorem atIssue_ready {w : IWord} {f : State → State} (hr : Ready s e w) : s.atIssue e f = f s := by
  have inBank : ¬ bankWords e ≤ (s.engine e).pc := Nat.not_le.2 hr.inBank
  simp [atIssue, takeIrq_quiet hr.quiet, hr.runs, inBank]

/-- REP, legal, with its word in the bank, outside loops and with nothing left to land, before a word that may be
repeated. -/
theorem issueRep_repeats {n : RepCount} {w : IWord} (hr : Ready s e (.long (.rep n))) (outside : (s.engine e).loops = [])
    (inBank : (s.engine e).pc + 1 < bankWords e) (free : (w.writesLoop || w.transfers) = false) :
    s.issueRep e n w = (s.onEngine e fun _ => { Engine.ended 1 (s.engine e) ((s.engine e).began false) with
      pc := (s.engine e).pc + 1 }).repeatWord e ((s.engine e).pc + 1) w (repCount (s.engine e) n) := by
  have legal : (Long.rep n).legal e = true := hr.legal
  have top : (s.engine e).loopTop.map (·.le) ≠ some (s.engine e).pc := by simp [Engine.loopTop, outside]
  have first : (s.onEngine e (Engine.began false)).retire e 1 (s.engine e).delay =
      s.onEngine e fun h => Engine.ended 1 (s.engine e) (h.began false) := by
    rw [retire_running (by rw [engine_onEngine_same]; exact hr.runs), onEngine_onEngine]
  rw [issueRep]
  simp only [legal, top, free, Nat.not_le.2 inBank, Bool.not_true, Bool.false_eq_true, if_false]
  refine congrArg (fun t : State => t.repeatWord e _ w _) ?_
  refine (congrArg (fun t : State => t.onEngine e _) first).trans ?_
  rw [onEngine_onEngine]
  exact onEngine_congr rfl

end

/-- Settles O54: LOOP and LPOP by what they do to the levels, REP by induction on its repetitions. -/
theorem loopRowsComplete : Obligations.LoopRowsComplete := by
  unfold Obligations.LoopRowsComplete
  intro e a n last k c v s g pushed times
  refine ⟨fun hr room => ?imm, fun hr room => ?ptr, fun ha hr some => ?lpop, fun hr outside settled inBank => ?rep⟩
  case imm => exact exec_of_issue ((issue_long hr).trans (settle_loop hr.runs room))
  case ptr => exact exec_of_issue ((issue_long hr).trans (settle_loop hr.runs room))
  case lpop =>
    refine exec_of_issue ((short_control ha rfl hr).trans ?_)
    rw [shortControl, if_neg (by rw [engine_onEngine_same]; exact some)]
    exact settle_ran hr.runs fun _ => rfl
  case rep =>
    have count : repCount g (.imm c) = times - 1 + 1 := by
      show times = times - 1 + 1
      have : times ≠ 0 := by simp only [times]; split <;> omega
      omega
    obtain ⟨u, same, ptr, rc, pc, cyc⟩ := repeatWord_sums (s := s) (e := e) (g.pc + 1) k v (times - 1)
      { Engine.ended 1 g (g.began false) with pc := g.pc + 1 } hr.runs outside rfl
    have row : exec (.rep e (.imm c) (BitVec.ofNat 32 (encodeWord (.long (.paddi k v))))) s =
        .next (s.onEngine e fun _ => u) := by
      show Host.Outcome.next (s.atIssue e fun t => t.issueRep e (.imm c) (decodeWord _)) = _
      rw [atIssue_ready hr, decodeWord_encodeLong, issueRep_repeats hr outside inBank rfl, count, same]
    have landed : ({ Engine.ended 1 g (g.began false) with pc := g.pc + 1 } : Engine).ptr k.toNat = g.ptr k.toNat := by
      show (List.foldl _ g.rf g.delay).get 0 (136 + k.toNat) = _
      rw [settled]
      rfl
    have all : times - 1 + 1 = times := count.symm
    refine ⟨_, row, ?_, ?_, ?_, ?_, rfl, rfl, fun d other => engine_onEngine_ne s other _⟩
    · rw [engine_onEngine_same, ptr, landed, all]
    · rw [engine_onEngine_same, rc]
    · rw [engine_onEngine_same, pc]
    · rw [engine_onEngine_same, cyc, all]
      rfl

end Sys2Proof.Machine
end

section
/-!
SUPPORT. When a word traps (R352).
-/
namespace Sys2Proof.Machine
open State

section
variable {s : State} {e bank off : Nat} {last : Option Nat}

/-! ### Accesses that cannot complete -/

theorem dataLoad_odd (odd : off % 2 = 1) : s.dataLoad e bank off true last = .error ⟨3, off, none⟩ :=
  if_pos ⟨rfl, odd⟩

theorem dataStore_odd (v : Nat) (odd : off % 2 = 1) : s.dataStore e bank off v true last = .error ⟨3, off, none⟩ :=
  if_pos ⟨rfl, odd⟩

theorem dataLoad_violation (h : s.load8 e bank off = none) :
    s.dataLoad e bank off false last = .error ⟨2, off, some bank⟩ := by
  simp [dataLoad, h]

theorem dataStore_violation {v : Nat} (h : s.store8 e bank off v = none) :
    s.dataStore e bank off v false last = .error ⟨2, off, some bank⟩ := by
  simp [dataStore, h]

theorem dataLoad_uncorrectable (h : s.load8 e bank off ≠ none) (bad : s.windowBad bank off = true) :
    s.dataLoad e bank off false last = .error ⟨4, off, some bank⟩ := by
  obtain ⟨r, found⟩ := Option.ne_none_iff_exists'.1 h
  simp [dataLoad, found, bad]

theorem window_of_bad (bad : s.windowBad bank off = true) : 0x40 ≤ bank ∧ bank ≤ 0x7F :=
  of_decide_eq_true (Bool.and_eq_true_iff.1 bad).1

theorem longLoad_traps {g : Engine} {a : LAddr} {wide : Bool} {put : State → Nat → State} {t : Trap}
    (h : s.dataLoad e (longAddr g a).1 (longAddr g a).2 wide g.lastBank = .error t) :
    s.longLoad e g a wide put = .trap t := by
  rw [longLoad, h]
  rfl

theorem longStore_traps {g : Engine} {a : LAddr} {wide : Bool} {v : Nat} {t : Trap}
    (h : s.dataStore e (longAddr g a).1 (longAddr g a).2 v wide g.lastBank = .error t) :
    s.longStore e g a wide v = .trap t := by
  rw [longStore, h]
  rfl

/-! ### The word's end -/

/-- A word that traps with a cause other than a flash window's: nothing of it stands. -/
theorem settle_trap {a : Nat} {t : Trap} (other : t.cause ≠ 4) : s.settle e a (.trap t) = s.trapWord e a t := by
  obtain ⟨cause, val, bank⟩ := t
  cases bank with
  | none => rfl
  | some b =>
    have notFlash : cause ≠ 4 := other
    simp only [settle, wordTraps, State.when, notFlash, false_and, decide_false, Bool.false_eq_true, if_false]

/-- A word that met an uncorrectable flash word: that word is recorded. -/
theorem settle_trapFlash {a : Nat} (bad : 0x40 ≤ bank ∧ bank ≤ 0x7F) :
    s.settle e a (.trap ⟨4, off, some bank⟩) =
      (s.flashReader (s.windowAddr bank off) 1 id id).trapWord e a ⟨4, off, some bank⟩ := by
  obtain ⟨low, high⟩ := bad
  simp only [settle, wordTraps, State.when, low, high, and_true, decide_true, if_true]

/-- A word that is illegal where it stands traps with cause 1 and its low 16 bits. -/
theorem issue_illegal {w : IWord} (runs : (s.engine e).run = .running) (quiet : s.irqDue e = false)
    (inBank : (s.engine e).pc < bankWords e) (bad : w.legal e (s.engine e).bank = false) :
    s.issue e w = s.trapWord e (s.engine e).pc ⟨1, encodeWord w % 65536, none⟩ := by
  have stands : ¬ bankWords e ≤ (s.engine e).pc := Nat.not_le.2 inBank
  simp only [issue, atIssue, takeIrq_quiet quiet, runs, stands, ne_eq, not_true_eq_false, if_false]
  unfold runWord
  simp only [bad, Bool.not_false, if_true]
  rfl

/-- With the pc beyond the bank no word is fetched. -/
theorem issue_beyond {w : IWord} (runs : (s.engine e).run = .running) (quiet : s.irqDue e = false)
    (beyond : bankWords e ≤ (s.engine e).pc) :
    s.issue e w = s.trapWord e (s.engine e).pc ⟨2, (s.engine e).pc % 65536, some 0xFF⟩ := by
  simp only [issue, atIssue, takeIrq_quiet quiet, runs, beyond, ne_eq, not_true_eq_false, if_false, if_true]

/-- A long word that traps, with a cause other than a flash window's. -/
theorem issue_longTrap {l : Long} {t : Trap} (hr : Ready s e (.long l))
    (h : (s.onEngine e (Engine.began (IWord.long l).loads)).longWord e (s.engine e) l = .trap t) (other : t.cause ≠ 4) :
    s.issue e (.long l) = s.trapWord e (s.engine e).pc t := by
  rw [issue_long hr, h, settle_trap other]

/-- A SYS operation that traps. -/
theorem issue_sysTrap {a : Slot} {f : SysOp} {t : Trap} (ha : Alone a) (hr : Ready s e (slotWord a (.sys f)))
    (h : (s.onEngine e (Engine.began false)).shortControl e (s.engine e) (encodeWord (.pair .nop (.sys f)) % 65536) 0
      (.sys f) = .trap t) (other : t.cause ≠ 4) :
    s.issue e (slotWord a (.sys f)) = s.trapWord e (s.engine e).pc t := by
  rw [short_control ha rfl hr, h, settle_trap other]

end

/-- Settles O57: each case by the lemma of what refuses the word. -/
theorem trapCauses : Obligations.TrapCauses := by
  unfold Obligations.TrapCauses
  intro e a r k5 k n v w t last c s g trap low off bank began
  refine ⟨fun runs quiet inBank => ⟨fun reserved => ?ldi, fun readOnly => ?movts, fun noPair => ?ldw, fun eh => ?tstart,
      ?br⟩, fun hr odd => ?ldwOdd, fun hr odd => ?stwOdd, fun hr silent => ?ldSilent, fun hr loads bad => ?ldFlash,
    fun hr silent => ?stSilent, fun ha hr bottom => ?ret, fun ha hr noLevel => ?lpop, fun hr full => ?loop,
    fun ha hr noTrap noIrq => ?reti, fun runs quiet beyond => ?beyond⟩
  case ldi =>
    have bad : (Long.ldi r v).legal e = false := by
      simp [Long.legal, Long.regs, regOk, Nat.not_lt.2 reserved]
    exact exec_of_issue (issue_illegal runs quiet inBank bad)
  case movts =>
    have bad : (Long.movts k n).legal e = false := by simp [Long.legal, readOnly]
    exact exec_of_issue (issue_illegal runs quiet inBank bad)
  case ldw =>
    have bad : (Long.ldw r w).legal e = false := by simp [Long.legal, Nat.not_lt.2 noPair]
    exact exec_of_issue (issue_illegal runs quiet inBank bad)
  case tstart =>
    have bad : (Long.tstart k5).legal e = false := by simp [Long.legal, Long.cp0, eh]
    exact exec_of_issue (issue_illegal runs quiet inBank bad)
  case br =>
    have bad : (Long.br 15 t).legal e = false := by simp [Long.legal]
    exact exec_of_issue (issue_illegal runs quiet inBank bad)
  case ldwOdd =>
    refine exec_of_issue (issue_longTrap hr ?_ (by decide : (3 : Nat) ≠ 4))
    rw [longWord]
    exact longLoad_traps (dataLoad_odd odd)
  case stwOdd =>
    exact exec_of_issue (issue_longTrap hr (longStore_traps (dataStore_odd _ odd)) (by decide : (3 : Nat) ≠ 4))
  case ldSilent =>
    refine exec_of_issue (issue_longTrap hr ?_ (by decide : (2 : Nat) ≠ 4))
    rw [longWord]
    exact longLoad_traps (dataLoad_violation silent)
  case stSilent =>
    exact exec_of_issue (issue_longTrap hr (longStore_traps (dataStore_violation silent)) (by decide : (2 : Nat) ≠ 4))
  case ldFlash =>
    refine exec_of_issue ((issue_long hr).trans ?_)
    rw [longWord]
    exact (congrArg (s.settle e g.pc) (longLoad_traps (dataLoad_uncorrectable loads bad))).trans
      (settle_trapFlash (window_of_bad bad))
  case ret =>
    refine exec_of_issue (issue_sysTrap ha hr ?_ (by decide : (6 : Nat) ≠ 4))
    rw [shortControl, State.ret, if_pos bottom]
  case lpop =>
    refine exec_of_issue (issue_sysTrap ha hr ?_ (by decide : (7 : Nat) ≠ 4))
    rw [shortControl, if_pos (by rw [engine_onEngine_same]; exact noLevel)]
  case loop =>
    refine exec_of_issue (issue_longTrap hr ?_ (by decide : (7 : Nat) ≠ 4))
    rw [longWord, State.loop, if_pos full]
  case reti =>
    have begun : (s.onEngine e (Engine.began false)).engine e = g.began false := engine_onEngine_same ..
    have outside : !bit (g.began false).psw 6 ∧ !bit (g.began false).psw 5 :=
      ⟨congrArg (!·) noTrap, congrArg (!·) noIrq⟩
    refine exec_of_issue (issue_sysTrap ha hr ?_ (by decide : (1 : Nat) ≠ 4))
    rw [shortControl, State.reti, begun, if_pos outside]
  case beyond => exact exec_of_issue (issue_beyond runs quiet beyond)

end Sys2Proof.Machine
end

section
/-!
SUPPORT. Loads and stores of plain memory (R338 to R341, R366).
-/
namespace Sys2Proof.Machine
open State

section
variable {s : State} {e bank off m o : Nat} {ld : Bool}

/-! ### The bus at an address of plain memory -/

/-- A place in memory does not move while engines do not exchange their banks. -/
theorem memPlace_onEngine {f : Engine → Engine} (act : (f (s.engine e)).act = (s.engine e).act) :
    (s.onEngine e f).memPlace e bank off = s.memPlace e bank off := by
  have same (k : Nat) : ((s.onEngine e f).engine k).act = (s.engine k).act := by
    by_cases own : k = e
    · rw [own, engine_onEngine_same, act]
    · rw [engine_onEngine_ne s own]
  unfold memPlace
  simp only [same]
  rfl

theorem plainAt_began (at_ : PlainAt s e bank off m o) : PlainAt (s.onEngine e (Engine.began ld)) e bank off m o :=
  { at_ with place := (memPlace_onEngine rfl).trans at_.place }

theorem load8_plain (at_ : PlainAt s e bank off m o) : s.load8 e bank off = some ((s.memGet m o).toNat, s) := by
  simp [load8, at_.noBox, at_.noFlash, at_.noReg, at_.place]

theorem load16_plain {o' : Nat} (at_ : PlainAt s e bank off m o) (next : PlainAt s e bank (off + 1) m o') :
    s.load16 e bank off = some ((s.memGet m o).toNat + 256 * (s.memGet m o').toNat, s) := by
  simp [load16, at_.noReg, load8_plain at_, load8_plain next]

theorem windowBad_plain (at_ : PlainAt s e bank off m o) : s.windowBad bank off = false := by
  simp [windowBad, decide_eq_false at_.noFlash]

theorem store8_plain (at_ : PlainAt s e bank off m o) (mayWrite : s.memOpen e bank off = true) (b : Nat) :
    s.store8 e bank off b = some (s.memPut m o (byte b)) := by
  simp [store8, at_.noBox, at_.noFlash, at_.noReg, at_.place, mayWrite, State.when]

/-- A byte is what eight bits hold of a number. -/
theorem byte_mod (v : Nat) : byte (v % 256) = byte v := BitVec.eq_of_toNat_eq (by simp [byte])

theorem store16_plain {o' : Nat} (at_ : PlainAt s e bank off m o) (next : PlainAt s e bank (off + 1) m o')
    (mayWrite : s.memOpen e bank off = true) (mayNext : s.memOpen e bank (off + 1) = true) (v : Nat) :
    s.store16 e bank off v = some ((s.memPut m o (byte v)).memPut m o' (byte (v / 256))) := by
  have second : PlainAt (s.memPut m o (byte v)) e bank (off + 1) m o' := { next with place := next.place }
  simp only [store16, at_.noReg, store8_plain at_ mayWrite, Option.bind_some, byte_mod]
  rw [store8_plain second mayNext, byte_mod]

/-! ### The waits -/

/-- What an access costs; only the engine's streaming mark and the counter of free values change. -/
theorem accessCost_began (u : State) (e bank : Nat) (ld : Bool) (last : Option Nat) : ∃ n fr mark,
    (u.onEngine e (Engine.began ld)).accessCost e bank last =
      (n, { u with free := fr }.onEngine e fun g => { g.began ld with lastBank := mark }) := by
  unfold accessCost
  by_cases sharedBank : shared bank = true
  · simp only [sharedBank, if_true, drawWait, draw]
    have later (v : State) (hv : v = u.onEngine e (Engine.began ld)) (mark : Option Nat) :
        State.onEngine { v with free := v.free + 1 } e (fun g => { g with lastBank := mark }) =
          { u with free := u.free + 1 }.onEngine e fun g => { g.began ld with lastBank := mark } := by
      subst hv
      exact onEngine_onEngine { u with free := u.free + 1 } ..
    exact ⟨_, _, _, Prod.ext rfl (later _ rfl _)⟩
  · simp only [sharedBank, Bool.false_eq_true, if_false]
    split_ifs
    · exact ⟨_, u.free, none, rfl⟩
    · exact ⟨_, u.free, none, rfl⟩
    · exact ⟨_, u.free, none, rfl⟩
    · exact ⟨_, u.free + 1, none, rfl⟩

theorem dataLoad_plain (at_ : PlainAt s e bank off m o) (last : Option Nat) : ∃ n fr mark,
    (s.onEngine e (Engine.began ld)).dataLoad e bank off false last = .ok ((s.memGet m o).toNat, n,
      { s with free := fr }.onEngine e fun g => { g.began ld with lastBank := mark }) := by
  obtain ⟨n, fr, mark, cost⟩ := accessCost_began s e bank ld last
  refine ⟨n, fr, mark, ?_⟩
  have plain := plainAt_began (ld := ld) at_
  simp only [dataLoad, Bool.false_eq_true, false_and, if_false, load8_plain plain, windowBad_plain plain, cost]
  rfl

theorem dataLoad_plainWide {o' : Nat} (at_ : PlainAt s e bank off m o) (next : PlainAt s e bank (off + 1) m o')
    (even : off % 2 = 0) (last : Option Nat) : ∃ n fr mark,
    (s.onEngine e (Engine.began ld)).dataLoad e bank off true last =
      .ok ((s.memGet m o).toNat + 256 * (s.memGet m o').toNat, n,
        { s with free := fr }.onEngine e fun g => { g.began ld with lastBank := mark }) := by
  obtain ⟨n, fr, mark, cost⟩ := accessCost_began s e bank ld last
  refine ⟨n, fr, mark, ?_⟩
  have plain := plainAt_began (ld := ld) at_
  simp only [dataLoad, even, Nat.zero_ne_one, and_false, if_false, if_true, load16_plain plain (plainAt_began next),
    windowBad_plain plain, Bool.false_eq_true, cost]
  rfl

theorem dataStore_plain (at_ : PlainAt s e bank off m o) (mayWrite : s.memOpen e bank off = true) (v : Nat)
    (last : Option Nat) : ∃ n fr mark,
    (s.onEngine e (Engine.began ld)).dataStore e bank off v false last = .ok (n,
      { s.memPut m o (byte v) with free := fr }.onEngine e fun g => { g.began ld with lastBank := mark }) := by
  obtain ⟨n, fr, mark, cost⟩ := accessCost_began (s.memPut m o (byte v)) e bank ld last
  refine ⟨n, fr, mark, ?_⟩
  have stored := store8_plain (plainAt_began (ld := ld) at_) mayWrite v
  simp only [dataStore, Bool.false_eq_true, false_and, if_false, stored]
  exact congrArg Except.ok cost

theorem dataStore_plainWide {o' : Nat} (at_ : PlainAt s e bank off m o) (next : PlainAt s e bank (off + 1) m o')
    (even : off % 2 = 0) (mayWrite : s.memOpen e bank off = true) (mayNext : s.memOpen e bank (off + 1) = true) (v : Nat)
    (last : Option Nat) : ∃ n fr mark,
    (s.onEngine e (Engine.began ld)).dataStore e bank off v true last = .ok (n,
      { (s.memPut m o (byte v)).memPut m o' (byte (v / 256)) with free := fr }.onEngine e
        fun g => { g.began ld with lastBank := mark }) := by
  obtain ⟨n, fr, mark, cost⟩ := accessCost_began ((s.memPut m o (byte v)).memPut m o' (byte (v / 256))) e bank ld last
  refine ⟨n, fr, mark, ?_⟩
  have stored := store16_plain (plainAt_began (ld := ld) at_) (plainAt_began next) mayWrite mayNext v
  simp only [dataStore, even, Nat.zero_ne_one, and_false, if_false, if_true, stored]
  exact congrArg Except.ok cost

/-! ### The word's end -/

/-- The end of a word that found the state `s` and has changed its own engine of `u` alone. -/
theorem settle_access {u : State} {n : Nat} {mark : Option Nat} {f : Engine → Engine} (same : u.engine e = s.engine e)
    (runs : (s.engine e).run = .running) (hf : ∀ g : Engine, (f g).run = g.run) :
    s.settle e (s.engine e).pc (.done (u.onEngine e fun g => f { g.began ld with lastBank := mark }) false n) =
      u.onEngine e (Engine.ran ld n fun h => f { h with lastBank := mark }) := by
  rw [settle_congr (congrArg Engine.delay same.symm), ← same]
  refine Eq.trans ?_ (settle_ran (f := fun h => f { h with lastBank := mark }) (by rw [same]; exact runs) fun g => hf _)
  rw [onEngine_onEngine]

theorem taken_run (g : Engine) (r v : Nat) : (g.taken r v).run = g.run := by
  unfold Engine.taken
  split
  · rfl
  · exact setReg_run ..

theorem advanced_run (g : Engine) (post : Bool) (k v : Nat) : (g.advanced post k v).run = g.run := by
  cases post <;> rfl

/-- A loaded byte goes where the window of before the word says. -/
theorem loadInto_taken {g : Engine} (u : State) (r v : Nat) (window : (u.engine e).base = g.base) :
    u.loadInto e g r v = u.onEngine e (Engine.taken r v) := by
  have key : (u.engine e).fileKey r = g.fileKey r := by
    simp only [Engine.fileKey, Engine.wkey, window]
  cases found : g.fileKey r with
  | some k =>
    rw [loadInto, found]
    exact onEngine_congr (by rw [Engine.taken, key, found])
  | none =>
    rw [loadInto, found]
    exact onEngine_congr (by rw [Engine.taken, key, found])

/-- A post-increment after an access. -/
theorem advance_onEngine (u : State) (f : Engine → Engine) (post : Bool) (k v : Nat) :
    ((u.onEngine e f).when post fun t => t.updatePtr e k v) = u.onEngine e fun h => (f h).advanced post k v := by
  cases post
  · rfl
  · exact onEngine_onEngine u e f fun h => h.later (136 + k) (v % 65536) true

end

/-- Settles O51: the load answers the byte or word, and its engine alone goes on. -/
theorem loadRowsComplete : Obligations.LoadRowsComplete := by
  unfold Obligations.LoadRowsComplete
  intro e a r loc post k w m o o' s g after off
  refine ⟨fun ha hr at_ => ?short, fun hr at_ => ?long, fun hr at_ next even => ?wide⟩
  case short =>
    obtain ⟨n, fr, mark, load⟩ := dataLoad_plain (ld := true) at_ g.lastBank
    have op : (s.onEngine e (Engine.began true)).shortData e g true (.ld r loc post k) = .ok (n,
        { s with free := fr }.onEngine e fun h =>
          ({ h.began true with lastBank := mark }.taken r.toNat (s.memGet m o).toNat).advanced post k.toNat
            (off + 1)) := by
      refine (congrArg (Except.map _) load).trans (congrArg (fun u => Except.ok (n, u)) ?_)
      dsimp only
      rw [loadInto_taken _ _ _ (by rw [engine_onEngine_same]; rfl), onEngine_onEngine, advance_onEngine]
    refine ⟨fr, 1 + n, mark, exec_of_issue ((issue_alone ha hr rfl op).trans ?_)⟩
    exact settle_access (f := fun h => (h.taken r.toNat (s.memGet m o).toNat).advanced post k.toNat (off + 1)) rfl hr.runs
      fun h => (advanced_run ..).trans (taken_run ..)
  case long =>
    obtain ⟨n, fr, mark, load⟩ := dataLoad_plain (ld := true) at_ g.lastBank
    refine ⟨fr, 1 + n, mark, exec_of_issue ((issue_long hr).trans ?_)⟩
    rw [longWord, longLoad]
    refine (congrArg (fun x => s.settle e g.pc (Res.of x _)) load).trans ?_
    dsimp only [Res.of, seq]
    rw [loadInto_taken _ _ _ (by rw [engine_onEngine_same]; rfl), onEngine_onEngine]
    exact settle_access rfl hr.runs fun h => taken_run ..
  case wide =>
    obtain ⟨n, fr, mark, load⟩ := dataLoad_plainWide (ld := true) at_ next even g.lastBank
    refine ⟨fr, 1 + n, mark, exec_of_issue ((issue_long hr).trans ?_)⟩
    rw [longWord, longLoad]
    refine (congrArg (fun x => s.settle e g.pc (Res.of x _)) load).trans ?_
    dsimp only [Res.of, seq]
    rw [onEngine_onEngine]
    exact settle_access (f := fun h => h.later (136 + r.toNat)
      ((s.memGet m o).toNat + 256 * (s.memGet m o').toNat) false) rfl hr.runs fun _ => rfl

/-- Settles O52: the store writes its bytes and no other, and its engine goes on. -/
theorem storeRowsComplete : Obligations.StoreRowsComplete := by
  unfold Obligations.StoreRowsComplete
  intro e a r loc post k w m o o' s g after off bank b p
  refine ⟨fun ha hr at_ mayWrite => ⟨?short, memGet_memPut_same .., fun m' q ne => memGet_memPut_ne s ne _⟩,
    fun hr at_ mayWrite => ?long, fun hr at_ next even mayWrite mayNext => ⟨?wide, fun m' q ne ne' => ?other⟩⟩
  case short =>
    obtain ⟨n, fr, mark, store⟩ := dataStore_plain (ld := false) at_ mayWrite (g.reg r.toNat) g.lastBank
    have op : (s.onEngine e (Engine.began false)).shortData e g true (.st r loc post k) = .ok (n,
        { s.memPut m o b with free := fr }.onEngine e fun h =>
          { h.began false with lastBank := mark }.advanced post k.toNat (off + 1)) := by
      refine (congrArg (Except.map _) store).trans (congrArg (fun u => Except.ok (n, u)) ?_)
      exact advance_onEngine ..
    refine ⟨fr, 1 + n, mark, exec_of_issue ((issue_alone ha hr rfl op).trans ?_)⟩
    exact settle_access (f := fun h => h.advanced post k.toNat (off + 1)) rfl hr.runs fun h => advanced_run ..
  case long =>
    obtain ⟨n, fr, mark, store⟩ := dataStore_plain (ld := false) at_ mayWrite (g.reg r.toNat) g.lastBank
    refine ⟨fr, 1 + n, mark, exec_of_issue ((issue_long hr).trans ?_)⟩
    refine (congrArg (fun x => s.settle e g.pc (Res.of x seq)) store).trans ?_
    exact settle_access (f := id) rfl hr.runs fun _ => rfl
  case wide =>
    obtain ⟨n, fr, mark, store⟩ := dataStore_plainWide (ld := false) at_ next even mayWrite mayNext p g.lastBank
    refine ⟨fr, 1 + n, mark, exec_of_issue ((issue_long hr).trans ?_)⟩
    refine (congrArg (fun x => s.settle e g.pc (Res.of x seq)) store).trans ?_
    exact settle_access (f := id) rfl hr.runs fun _ => rfl
  case other => rw [memGet_memPut_ne _ ne', memGet_memPut_ne _ ne]

end Sys2Proof.Machine
end

section
/-!
SUPPORT. The multiply-accumulate coprocessor (R361), and an engine's own memory.
-/
namespace Sys2Proof.Machine
open State

/-! ### An engine's own memory -/

/-- The memory behind bank 0x00 of engine `e`. -/
def ownMem (e : Nat) : Nat := if e = 16 then 0x10 else e

/-- The bytes it holds. -/
def ownRoom (e : Nat) : Nat := if e = 16 then 0x10000 else 0x4000

section
variable {s : State} {e off n : Nat}

theorem memPlace_own (room : off < ownRoom e) : s.memPlace e 0 off = some (ownMem e, off) := by
  unfold ownRoom at room
  rw [memPlace, if_pos rfl]
  unfold ownMem
  split <;> simp_all

theorem regPlace_own (e off : Nat) : regPlace e 0 off = none := by
  unfold regPlace
  split_ifs <;> simp_all

/-- Bank 0x00 is plain memory of the engine's own. -/
theorem plainAt_own (room : off < ownRoom e) : PlainAt s e 0 off (ownMem e) off where
  noBox := by decide
  noFlash := by decide
  noReg := by rw [regPlace_own]; rfl
  place := memPlace_own room

/-- The local port costs nothing more. -/
theorem accessCost_own (last : Option Nat) : s.accessCost e 0 last = (0, s) := by
  simp [accessCost, shared]

/-- A word of the engine's own memory at an even address. -/
theorem dataLoad_own (room : off + 1 < ownRoom e) (even : off % 2 = 0) (last : Option Nat) :
    s.dataLoad e 0 off true last = .ok (ofBytes (s.memRead (ownMem e) off 2), 0, s) := by
  have low : PlainAt s e 0 off (ownMem e) off := plainAt_own (by omega)
  have word : ofBytes (s.memRead (ownMem e) off 2) =
      (s.memGet (ownMem e) off).toNat + 256 * (s.memGet (ownMem e) (off + 1)).toNat := by
    simp [memRead, ofBytes]
  rw [word]
  simp only [dataLoad, even, Nat.zero_ne_one, and_false, if_false, if_true, load16_plain low (plainAt_own room),
    windowBad_plain low, Bool.false_eq_true, accessCost_own]

end

/-! ### Accumulators -/

section
variable {s : State} {e c : Nat} {l : Long} {f g : Engine → Engine}

/-- A long operation of `c` more cycles that changes only its engine, as `g` says of the engine at the word's start. -/
theorem issue_waited (hr : Ready s e (.long l)) (hf : ∀ g : Engine, (f g).run = g.run)
    (h : ∀ t : State, t.longWord e (s.engine e) l = seq (c, t.onEngine e f))
    (same : f ((s.engine e).began false) = g ((s.engine e).began false))
    (hl : (IWord.long l).loads = false := by rfl) : s.issue e (.long l) = s.onEngine e (Engine.ran false (1 + c) g) := by
  have run := long_ran hr hf (h _)
  rw [hl] at run
  exact run.trans (ran_congr same)

theorem setAcc_run (g : Engine) (a : Bool) (v : Int) : (setAcc g a v).run = g.run := by cases a <;> rfl

theorem setBusy_run (g : Engine) (a : Bool) : (setBusy g a).run = g.run := by cases a <;> rfl

/-- A product written to its accumulator, or added to it. -/
theorem issue_mul {k : MulKind} {add x : Bool} {i j : BitVec 3} {r : Int} (hr : Ready s e (.long (.mul k add x i j)))
    (hv : (if add then toSigned 40 (accOf (s.engine e) x) + product k ((s.engine e).ptr i.toNat) ((s.engine e).ptr j.toNat)
      else product k ((s.engine e).ptr i.toNat) ((s.engine e).ptr j.toNat)) = r) :
    s.issue e (.long (.mul k add x i j)) = s.ran e fun h => setBusy (setAcc h x r) x :=
  issue_waited hr (fun _ => (setBusy_run ..).trans (setAcc_run ..)) (fun _ => rfl)
    (congrArg (fun v => setBusy (setAcc ((s.engine e).began false) x v) x) hv)

/-- A shift is a product with, or a quotient by, a power of 2. -/
theorem shiftAcc_eq (v sh : Int) : shiftAcc v sh = if 0 ≤ sh then v * 2 ^ sh.toNat else v / 2 ^ (-sh).toNat := by
  simp only [shiftAcc, Nat.cast_pow, Nat.cast_ofNat]

/-- Saturation to 32 signed bits. -/
theorem satAcc_eq (v : Int) :
    satAcc v = if v < -2147483648 then -2147483648 else if 2147483647 < v then 2147483647 else v := by
  unfold satAcc
  split_ifs <;> omega

theorem satAcc_changes (v : Int) : satAcc v ≠ v ↔ v < -2147483648 ∨ 2147483647 < v := by
  unfold satAcc
  omega

/-- The engine after MACM of the two words `a` and `b`, with the two pointers' values after it. -/
def Engine.macmed (x : Bool) (i j a b p q : Nat) (h : Engine) : Engine :=
  ((setBusy (setAcc h x (toSigned 40 (accOf h x) + toSigned 16 a * toSigned 16 b)) x).later (136 + i) p true).later
    (136 + j) q true

theorem macmed_run (x : Bool) (i j a b p q : Nat) (h : Engine) : (h.macmed x i j a b p q).run = h.run :=
  (setBusy_run ..).trans (setAcc_run ..)

/-- MACM through two different pointers, both at even addresses of the engine's own memory. -/
theorem macm_own {x : Bool} {i j : Nat} (u : State) {g : Engine} (two : i ≠ j) (evenI : g.ptrInc i % 2 = 0)
    (evenJ : g.ptrInc j % 2 = 0) (roomI : g.ptrInc i + 1 < ownRoom e) (roomJ : g.ptrInc j + 1 < ownRoom e) :
    u.macm e g x i j = seq (0, u.onEngine e (Engine.macmed x i j (ofBytes (u.memRead (ownMem e) (g.ptrInc i) 2))
      (ofBytes (u.memRead (ownMem e) (g.ptrInc j) 2)) ((g.ptrInc i + 2) % 65536) ((g.ptrInc j + 2) % 65536))) := by
  simp only [macm, dataLoad_own roomI evenI, dataLoad_own roomJ evenJ, Res.of, two, if_false, updatePtr,
    onEngine_onEngine]
  rfl

end

/-- Settles O59: each row by what its operation makes of the accumulator. -/
theorem cp1RowsComplete : Obligations.Cp1RowsComplete := by
  unfold Obligations.Cp1RowsComplete
  intro e x y i j sh part s g p q v amount mul waited uu
  refine ⟨fun hr => ?clra, fun hr => ?mul, fun hr => ?mulu, fun hr => ?mulsu, fun hr => ?mac, fun hr => ?macu,
    fun hr => ?macsu, fun hr rill two evenI evenJ roomI roomJ => ?macm, fun hr => ?sha, fun hr => ?adda, fun hr => ?sata,
    fun hr => ?rda, fun hr => ?wra⟩
  case clra => exact exec_of_issue (issue_waited hr (fun _ => setAcc_run ..) (fun _ => rfl) rfl)
  case mul | mulu | mulsu => exact exec_of_issue (issue_mul hr rfl)
  case mac | macu | macsu => exact exec_of_issue (issue_mul hr rfl)
  case macm =>
    have own : ownMem e = e.val := if_neg (Nat.ne_of_lt rill)
    have room : ownRoom e = 0x4000 := if_neg (Nat.ne_of_lt rill)
    have word := macm_own (e := e) (x := x) (s.onEngine e (Engine.began false))
      (fun same => two (BitVec.eq_of_toNat_eq same)) evenI evenJ (by omega) (by omega)
    rw [Nat.mod_eq_of_lt (by omega : g.ptrInc i.toNat + 2 < 65536),
      Nat.mod_eq_of_lt (by omega : g.ptrInc j.toNat + 2 < 65536), own] at word
    refine exec_of_issue ((issue_long hr).trans ((congrArg (s.settle e g.pc) word).trans ?_))
    exact (settle_ran hr.runs (macmed_run x i.toNat j.toNat _ _ _ _)).trans (ran_congr rfl)
  case sha =>
    refine exec_of_issue (issue_waited hr (fun _ => setAcc_run ..) (fun _ => rfl) ?_)
    exact congrArg (setAcc _ x) (shiftAcc_eq v amount)
  case adda => exact exec_of_issue (issue_waited hr (fun _ => setAcc_run ..) (fun _ => rfl) rfl)
  case sata =>
    refine exec_of_issue (issue_waited hr (fun _ => (setFlags_run ..).trans (setAcc_run ..)) (fun _ => rfl) ?_)
    have flag : 8 * b2n (decide (satAcc v ≠ v)) = if v < -2147483648 ∨ 2147483647 < v then 8 else 0 := by
      simp only [satAcc_changes]
      split <;> simp [*, b2n]
    show ((setAcc _ x (satAcc v)).setFlags 8 (8 * b2n (decide (satAcc v ≠ v)))) = _
    rw [flag, satAcc_eq]
  case rda =>
    refine exec_of_issue (issue_waited hr (fun _ => setPtr_run ..) (fun _ => rfl) ?_)
    show Engine.setPtr _ _ (accPart (accOf g x) part.toNat) = Engine.setPtr _ _ _
    by_cases top : part = 2
    · have high : part.toNat = 2 := congrArg BitVec.toNat top
      rw [accPart, if_pos high, if_pos top]
    · have low : part.toNat ≠ 2 := fun same => top (BitVec.eq_of_toNat_eq same)
      rw [accPart, if_neg low, if_neg top, setPtr_mod]
  case wra => exact exec_of_issue (issue_waited hr (fun _ => setAcc_run ..) (fun _ => rfl) rfl)

end Sys2Proof.Machine
end

section
/-!
SUPPORT. The error-correcting code of the check coprocessor (R6, R362): its check is linear, its columns differ and have
odd weight above 1.
-/
namespace Sys2Proof.Machine
open State

/-! ### Weights -/

/-- The ones of a sum without carries are as many, up to an even number, as those of its two parts. -/
theorem length_filter_xor {α : Type} (p q : α → Bool) (l : List α) :
    (l.filter fun x => p x ^^ q x).length % 2 = ((l.filter p).length + (l.filter q).length) % 2 := by
  induction l with
  | nil => rfl
  | cons x l ih =>
    simp only [List.filter_cons]
    cases p x <;> cases q x <;> simp only [Bool.xor_false, Bool.xor_true, Bool.not_true, Bool.not_false,
      if_true, if_false, Bool.false_eq_true, List.length_cons] <;> omega

theorem weight_xor (a b : Byte) : weight (a ^^^ b) % 2 = (weight a + weight b) % 2 := by
  simp only [weight, BitVec.getLsbD_xor]
  exact length_filter_xor (fun i => a.getLsbD i) (fun i => b.getLsbD i) (List.range 8)

theorem weight_bit : ∀ i < 8, weight (BitVec.ofNat 8 (2 ^ i)) = 1 := by decide

/-! ### The columns -/

/-- Columns taken from a list of different bytes are of the list, differ, and are as many as wanted. -/
theorem eccTake_spec (n : Nat) : ∀ l : List Byte, l.Nodup → n ≤ l.length →
    (eccTake n l).length = n ∧ (eccTake n l).Nodup ∧ ∀ x ∈ eccTake n l, x ∈ l := by
  induction n with
  | zero => intro l _ _; exact ⟨rfl, List.nodup_nil, fun x hx => absurd hx List.not_mem_nil⟩
  | succ n ih =>
    intro l different enough
    have inside : Config.eccPick n % l.length < l.length := Nat.mod_lt _ (by omega)
    obtain ⟨x, taken⟩ : ∃ x, l[Config.eccPick n % l.length]? = some x := ⟨_, List.getElem?_eq_getElem inside⟩
    have member : x ∈ l := List.mem_of_getElem? taken
    have left : n ≤ (l.erase x).length := by rw [List.length_erase_of_mem member]; omega
    obtain ⟨len, nodup, sub⟩ := ih (l.erase x) (different.erase x) left
    rw [eccTake, List.head?_drop, taken]
    refine ⟨congrArg (· + 1) len, List.nodup_cons.2 ⟨fun again => ?_, nodup⟩, fun y hy => ?_⟩
    · exact different.not_mem_erase (sub x again)
    · rcases List.mem_cons.1 hy with rfl | rest
      · exact member
      · exact List.mem_of_mem_erase (sub y rest)

/-- The bytes of odd weight above 1. -/
def eccCandidates : List Byte := ((List.range 256).map byte).filter fun b => weight b % 2 == 1 && weight b != 1

theorem eccCandidates_length : eccCandidates.length = 120 := by decide +kernel

theorem eccCandidates_nodup : eccCandidates.Nodup :=
  List.Nodup.filter _ (List.Nodup.map_on (fun a ha b hb same => by
    have := congrArg BitVec.toNat same
    simp only [byte, BitVec.toNat_ofNat, List.mem_range] at this ha hb
    omega) List.nodup_range)

theorem eccColumns_spec : eccColumns.length = 64 ∧ eccColumns.Nodup ∧ ∀ x ∈ eccColumns, x ∈ eccCandidates :=
  eccTake_spec 64 eccCandidates eccCandidates_nodup (by rw [eccCandidates_length]; decide)

theorem eccColumns_length : eccColumns.length = 64 := eccColumns_spec.1

/-- Column `i` of the check matrix. -/
def eccColumn (i : Nat) : Byte := eccColumns.getD i 0

theorem eccColumn_getElem {i : Nat} (h : i < eccColumns.length) : eccColumns[i] = eccColumn i := by
  simp [eccColumn, h]

theorem weight_column {x : Byte} (h : x ∈ eccColumns) : weight x % 2 = 1 ∧ weight x ≠ 1 := by
  have odd := (List.mem_filter.1 (eccColumns_spec.2.2 x h)).2
  simpa using odd

theorem eccColumn_mem {i : Nat} (h : i < 64) : eccColumn i ∈ eccColumns := by
  have inside : i < eccColumns.length := eccColumns_length ▸ h
  rw [← eccColumn_getElem inside]
  exact List.getElem_mem inside

theorem eccColumn_inj {i j : Nat} (hi : i < 64) (hj : j < 64) (same : eccColumn i = eccColumn j) : i = j := by
  have ii : i < eccColumns.length := eccColumns_length ▸ hi
  have jj : j < eccColumns.length := eccColumns_length ▸ hj
  exact (eccColumns_spec.2.1.getElem_inj_iff (hi := ii) (hj := jj)).1
    (by rw [eccColumn_getElem, eccColumn_getElem, same])

/-- A column is found at its own place. -/
theorem findIdx_column {i : Nat} (h : i < 64) : eccColumns.findIdx? (· == eccColumn i) = some i := by
  have inside : i < eccColumns.length := eccColumns_length ▸ h
  refine List.findIdx?_eq_some_iff_getElem.2 ⟨inside, by simp [eccColumn_getElem], fun j before => ?_⟩
  have other : eccColumn j ≠ eccColumn i := fun same =>
    absurd (eccColumn_inj (by omega) h same) (Nat.ne_of_lt before)
  simpa [eccColumn_getElem (Nat.lt_trans before inside)] using other

/-! ### The check -/

/-- The sum of the columns of `l` that the bits of `w` choose, added to `a`. -/
def eccSum (w : BitVec 64) (l : List (Byte × Nat)) (a : Byte) : Byte :=
  l.foldl (fun a e => if w.getLsbD e.2 then a ^^^ e.1 else a) a

theorem eccSum_xor (v w : BitVec 64) (l : List (Byte × Nat)) :
    ∀ a b : Byte, eccSum (v ^^^ w) l (a ^^^ b) = eccSum v l a ^^^ eccSum w l b := by
  induction l with
  | nil => intro a b; rfl
  | cons x l ih =>
    intro a b
    have step : (if (v ^^^ w).getLsbD x.2 then a ^^^ b ^^^ x.1 else a ^^^ b) =
        (if v.getLsbD x.2 then a ^^^ x.1 else a) ^^^ (if w.getLsbD x.2 then b ^^^ x.1 else b) := by
      rw [BitVec.getLsbD_xor]
      have swap : (a ^^^ x.1) ^^^ b = a ^^^ b ^^^ x.1 := by rw [BitVec.xor_assoc, BitVec.xor_comm x.1, BitVec.xor_assoc]
      cases v.getLsbD x.2 <;> cases w.getLsbD x.2
      · rfl
      · exact BitVec.xor_assoc ..
      · exact swap.symm
      · show a ^^^ b = (a ^^^ x.1) ^^^ (b ^^^ x.1)
        rw [← BitVec.xor_assoc, swap, BitVec.xor_assoc, BitVec.xor_self, BitVec.xor_zero]
    exact (congrArg (eccSum (v ^^^ w) l) step).trans (ih _ _)

/-- The check is linear. -/
theorem eccCheck_xor (v w : BitVec 64) : eccCheck (v ^^^ w) = eccCheck v ^^^ eccCheck w :=
  eccSum_xor v w eccColumns.zipIdx 0 0

theorem bit_of_power {i : Nat} (h : i < 64) (j : Nat) : (BitVec.ofNat 64 (2 ^ i)).getLsbD j = decide (j = i) := by
  rw [BitVec.getLsbD_ofNat, Nat.testBit_two_pow]
  by_cases same : j = i
  · simp [same, h]
  · simp [same, Ne.symm same]

/-- One bit chooses one column. -/
theorem eccSum_power {i : Nat} (h : i < 64) (l : List Byte) : ∀ (k : Nat) (a : Byte),
    eccSum (BitVec.ofNat 64 (2 ^ i)) (l.zipIdx k) a = a ^^^ if k ≤ i then l.getD (i - k) 0 else 0#8 := by
  induction l with
  | nil => intro k a; simp [eccSum]
  | cons x l ih =>
    intro k a
    have step : eccSum (BitVec.ofNat 64 (2 ^ i)) ((x :: l).zipIdx k) a =
        eccSum (BitVec.ofNat 64 (2 ^ i)) (l.zipIdx (k + 1)) (if k = i then a ^^^ x else a) := by
      simp only [eccSum, List.zipIdx_cons, List.foldl_cons, bit_of_power h, decide_eq_true_eq]
    rw [step, ih]
    rcases Nat.lt_trichotomy k i with before | here | after
    · have rest : i - k = i - (k + 1) + 1 := by omega
      rw [if_neg (by omega), if_pos (by omega), if_pos (by omega), rest, List.getD_cons_succ]
    · rw [if_pos here, if_neg (by omega), if_pos (by omega), here, Nat.sub_self, BitVec.xor_zero]
      rfl
    · rw [if_neg (by omega), if_neg (by omega), if_neg (by omega)]

theorem eccCheck_power {i : Nat} (h : i < 64) : eccCheck (BitVec.ofNat 64 (2 ^ i)) = eccColumn i := by
  refine (eccSum_power h eccColumns 0 0).trans ?_
  rw [if_pos (Nat.zero_le i), Nat.sub_zero]
  exact BitVec.zero_xor

/-- The check byte of a word with one wrong bit. -/
theorem eccCheck_wrong (w : BitVec 64) {i : Nat} (h : i < 64) :
    eccCheck (w ^^^ BitVec.ofNat 64 (2 ^ i)) = eccCheck w ^^^ eccColumn i := by
  rw [eccCheck_xor, eccCheck_power h]

/-! ### What is corrected and what is not -/

/-- A byte stays the same only where nothing is added. -/
theorem xor_ne_self {a b : Byte} (h : weight b ≠ 0) : a ^^^ b ≠ a := fun same => by
  have zero : b = 0#8 := (BitVec.xor_right_inj a).1 (same.trans BitVec.xor_zero.symm)
  exact h (by rw [zero]; decide)

theorem xor_self_left (a b : Byte) : a ^^^ (a ^^^ b) = b := by
  rw [← BitVec.xor_assoc, BitVec.xor_self, BitVec.zero_xor]

/-- A syndrome of even weight is no single bit's. -/
theorem eccCorrect_even {w : BitVec 64} {got : Byte} (even : weight (eccCheck w ^^^ got) % 2 = 0) :
    eccCorrect w got = none := by
  have notOne : weight (eccCheck w ^^^ got) ≠ 1 := fun one => by rw [one] at even; cases even
  have notFound : eccColumns.findIdx? (· == eccCheck w ^^^ got) = none :=
    List.findIdx?_eq_none_iff.2 fun x member => by
      have odd := (weight_column member).1
      exact beq_eq_false_iff_ne.2 fun same => by rw [same, even] at odd; cases odd
  simp only [eccCorrect, notOne, if_false, notFound]

/-- A syndrome that is a column names the wrong bit of the word. -/
theorem eccCorrect_column {w : BitVec 64} {got : Byte} {i : Nat} (h : i < 64)
    (syndrome : eccCheck w ^^^ got = eccColumn i) : eccCorrect w got = some (w ^^^ BitVec.ofNat 64 (2 ^ i)) := by
  simp only [eccCorrect, syndrome, (weight_column (eccColumn_mem h)).2, if_false, findIdx_column h]

/-- The code corrects every single wrong bit and finds every two (R6), for every check matrix of its class. -/
theorem ecc_single_double (w : BitVec 64) :
    (∀ i < 64, eccCheck (w ^^^ BitVec.ofNat 64 (2 ^ i)) ≠ eccCheck w ∧
      eccCorrect (w ^^^ BitVec.ofNat 64 (2 ^ i)) (eccCheck w) = some w) ∧
    (∀ i < 8, eccCheck w ^^^ BitVec.ofNat 8 (2 ^ i) ≠ eccCheck w ∧
      eccCorrect w (eccCheck w ^^^ BitVec.ofNat 8 (2 ^ i)) = some w) ∧
    (∀ i < 64, ∀ j < i, eccCheck (w ^^^ BitVec.ofNat 64 (2 ^ i) ^^^ BitVec.ofNat 64 (2 ^ j)) ≠ eccCheck w ∧
      eccCorrect (w ^^^ BitVec.ofNat 64 (2 ^ i) ^^^ BitVec.ofNat 64 (2 ^ j)) (eccCheck w) = none) ∧
    (∀ i < 64, ∀ j < 8, eccCheck (w ^^^ BitVec.ofNat 64 (2 ^ i)) ≠ eccCheck w ^^^ BitVec.ofNat 8 (2 ^ j) ∧
      eccCorrect (w ^^^ BitVec.ofNat 64 (2 ^ i)) (eccCheck w ^^^ BitVec.ofNat 8 (2 ^ j)) = none) ∧
    ∀ i < 8, ∀ j < i, eccCheck w ^^^ BitVec.ofNat 8 (2 ^ i) ^^^ BitVec.ofNat 8 (2 ^ j) ≠ eccCheck w ∧
      eccCorrect w (eccCheck w ^^^ BitVec.ofNat 8 (2 ^ i) ^^^ BitVec.ofNat 8 (2 ^ j)) = none := by
  have odd {i : Nat} (h : i < 64) : weight (eccColumn i) % 2 = 1 := (weight_column (eccColumn_mem h)).1
  refine ⟨fun i hi => ⟨?_, ?_⟩, fun i hi => ⟨?_, ?_⟩, fun i hi j hj => ⟨?_, ?_⟩, fun i hi j hj => ⟨?_, ?_⟩,
    fun i hi j hj => ⟨?_, ?_⟩⟩
  · rw [eccCheck_wrong w hi]
    exact xor_ne_self fun zero => by have := odd hi; rw [zero] at this; cases this
  · have syndrome : eccCheck (w ^^^ BitVec.ofNat 64 (2 ^ i)) ^^^ eccCheck w = eccColumn i := by
      rw [eccCheck_wrong w hi, BitVec.xor_comm, xor_self_left]
    rw [eccCorrect_column hi syndrome, BitVec.xor_assoc, BitVec.xor_self, BitVec.xor_zero]
  · exact xor_ne_self (by rw [weight_bit i hi]; decide)
  · have syndrome : weight (eccCheck w ^^^ (eccCheck w ^^^ BitVec.ofNat 8 (2 ^ i))) = 1 := by
      rw [xor_self_left, weight_bit i hi]
    simp only [eccCorrect, syndrome, if_true]
  · rw [eccCheck_wrong _ (by omega : j < 64), eccCheck_wrong w hi, BitVec.xor_assoc]
    intro same
    have equal : eccColumn i = eccColumn j :=
      BitVec.xor_eq_zero_iff.1 ((BitVec.xor_right_inj _).1 (same.trans BitVec.xor_zero.symm))
    exact absurd (eccColumn_inj hi (by omega) equal) (by omega)
  · refine eccCorrect_even ?_
    rw [eccCheck_wrong _ (by omega : j < 64), eccCheck_wrong w hi, BitVec.xor_comm, BitVec.xor_assoc, xor_self_left,
      weight_xor, Nat.add_mod, odd hi, odd (by omega)]
  · rw [eccCheck_wrong w hi]
    intro same
    have equal : eccColumn i = BitVec.ofNat 8 (2 ^ j) := (BitVec.xor_right_inj _).1 same
    exact (weight_column (eccColumn_mem hi)).2 (by rw [equal, weight_bit j hj])
  · refine eccCorrect_even ?_
    have syndrome : eccCheck (w ^^^ BitVec.ofNat 64 (2 ^ i)) ^^^ (eccCheck w ^^^ BitVec.ofNat 8 (2 ^ j)) =
        eccColumn i ^^^ BitVec.ofNat 8 (2 ^ j) := by
      rw [eccCheck_wrong w hi, BitVec.xor_comm (eccCheck w) (eccColumn i), BitVec.xor_assoc, xor_self_left]
    rw [syndrome, weight_xor, Nat.add_mod, odd hi, weight_bit j hj]
  · rw [BitVec.xor_assoc]
    intro same
    have equal : BitVec.ofNat 8 (2 ^ i) = BitVec.ofNat 8 (2 ^ j) :=
      BitVec.xor_eq_zero_iff.1 ((BitVec.xor_right_inj _).1 (same.trans BitVec.xor_zero.symm))
    have powers := congrArg BitVec.toNat equal
    have small {k : Nat} (hk : k < 8) : 2 ^ k % 2 ^ 8 = 2 ^ k := Nat.mod_eq_of_lt (Nat.pow_lt_pow_right (by decide) hk)
    rw [BitVec.toNat_ofNat, BitVec.toNat_ofNat, small hi, small (by omega)] at powers
    exact absurd (Nat.pow_right_injective (le_refl 2) powers) (by omega)
  · refine eccCorrect_even ?_
    rw [BitVec.xor_assoc, xor_self_left, weight_xor, weight_bit i hi, weight_bit j (by omega)]

end Sys2Proof.Machine
end

section
/-!
SUPPORT. The check coprocessor (R362).
-/
namespace Sys2Proof.Machine
open State

/-! ### An engine's own memory in bytes -/

section
variable {s : State} {e m off n : Nat}

theorem ownRoom_le (e : Nat) : ownRoom e ≤ 65536 := by
  unfold ownRoom
  split <;> decide

theorem memRead_onEngine (f : Engine → Engine) (n : Nat) :
    ∀ off, (s.onEngine e f).memRead m off n = s.memRead m off n := by
  induction n with
  | zero => intro off; rfl
  | succ n ih => intro off; exact congrArg (s.memGet m off :: ·) (ih (off + 1))

theorem byte_toNat (b : Byte) : byte b.toNat = b := BitVec.ofNat_toNat ..

/-- Bytes read one by one through the local port. -/
theorem loadBytes_own (n : Nat) : ∀ off, off + n ≤ ownRoom e →
    s.loadBytes e 0 off n = .ok (s.memRead (ownMem e) off n, s) := by
  induction n with
  | zero => intro off _; rfl
  | succ n ih =>
    intro off room
    have low : off % 65536 = off := Nat.mod_eq_of_lt (by have := ownRoom_le e; omega)
    have at_ : PlainAt s e 0 off (ownMem e) off := plainAt_own (by omega)
    simp only [loadBytes, low, load8_plain at_, windowBad_plain at_, Bool.false_eq_true, if_false,
      ih (off + 1) (by omega), Except.map, byte_toNat, memRead]

theorem localRead_own (n : Nat) : ∀ off, off + n ≤ ownRoom e →
    s.localRead e off n = .ok (s.memRead (ownMem e) off n) := by
  induction n with
  | zero => intro off _; rfl
  | succ n ih =>
    intro off room
    have low : off % 65536 = off := Nat.mod_eq_of_lt (by have := ownRoom_le e; omega)
    simp only [localRead, low, memPlace_own (s := s) (e := e) (show off < ownRoom e by omega), ih (off + 1) (by omega),
      Except.map, memRead]

end

/-! ### The word's end -/

section
variable {s : State} {e : Nat}

/-- The end of a word that found the state `s` and has changed its own engine of `u` alone. -/
theorem settle_own {u : State} {n : Nat} {f : Engine → Engine} (same : u.engine e = s.engine e)
    (runs : (s.engine e).run = .running) (hf : ∀ g : Engine, (f g).run = g.run) :
    s.settle e (s.engine e).pc (.done ((u.onEngine e (Engine.began false)).onEngine e f) false n) =
      u.onEngine e (Engine.ran false n f) := by
  rw [settle_congr (congrArg Engine.delay same.symm), ← same]
  exact settle_ran (by rw [same]; exact runs) hf

/-- The engine after CRCM of the bytes `l`, with the pointer's value after it. -/
def Engine.crcRead (l : List Byte) (k p : Nat) (h : Engine) : Engine := (l.foldl crcFeed h).later (136 + k) p true

theorem crcRead_run (l : List Byte) (k p : Nat) : ∀ g : Engine, (g.crcRead l k p).run = g.run := by
  induction l with
  | nil => intro g; rfl
  | cons b l ih => intro g; exact ih (crcFeed g b)

/-- CRCM through the local port, inside the engine's own memory. -/
theorem crcm_own {u : State} {g : Engine} {k n : Nat} (room : g.ptrInc k + n ≤ ownRoom e) :
    u.crcm e g true k n = seq (0, u.onEngine e
      (Engine.crcRead (u.memRead (ownMem e) (g.ptrInc k) n) k ((g.ptrInc k + n) % 65536))) (1 + (n + 7) / 8) := by
  simp only [crcm, if_true, loadBytes_own n _ room, Res.of, Nat.mul_zero, Nat.add_zero, updatePtr, onEngine_onEngine]
  rfl

/-- A word of 8 bytes and its check byte in the engine's own memory. -/
theorem eccWord_own {u : State} {a : Nat} (aligned : a % 8 = 0) (room : a + 9 ≤ ownRoom e)
    (f : BitVec 64 → List Byte → Res) : u.eccWord e a 1 f =
      f (BitVec.ofNat 64 (ofBytes (u.memRead (ownMem e) a 8))) [u.memGet (ownMem e) (a + 8)] := by
  rw [eccWord, aligned8, if_pos aligned, localRead_own _ _ room]
  rfl

theorem eccWord_own_alone {u : State} {a : Nat} (aligned : a % 8 = 0) (room : a + 8 ≤ ownRoom e)
    (f : BitVec 64 → List Byte → Res) : u.eccWord e a 0 f =
      f (BitVec.ofNat 64 (ofBytes (u.memRead (ownMem e) a 8))) [] := by
  rw [eccWord, aligned8, if_pos aligned, localRead_own _ _ room]
  rfl

end

/-- Settles O60: each row by what its operation reads and writes, the code by `ecc_single_double`. -/
theorem cp2RowsComplete : Obligations.Cp2RowsComplete := by
  unfold Obligations.Cp2RowsComplete
  intro e mode r k n s g a m room word sum after
  refine ⟨fun hr => ?crci, fun hr => ?crcb, fun hr inside => ?crcm, fun hr => ?low, fun hr long => ?high,
    fun hr aligned inside => ?eccg, fun hr aligned inside => ?eccc, fun w => ecc_single_double w⟩
  case crci => exact exec_of_issue (issue_engine hr (fun _ => rfl) fun _ => rfl)
  case crcb =>
    refine exec_of_issue ((issue_engine (f := fun h => crcFeed h (byte (g.reg r.toNat))) hr (fun _ => rfl)
      fun _ => rfl).trans (ran_congr ?_))
    show crcFeed (g.began false) (byte (g.reg r.toNat)) = _
    unfold crcFeed
    show ({ g.began false with crc := if g.crc8 then _ else _ } : Engine) = _
    cases g.crc8 <;> rfl
  case crcm =>
    have operation := crcm_own (e := e) (u := s.onEngine e (Engine.began false)) (g := g) inside
    rw [memRead_onEngine] at operation
    refine exec_of_issue ((issue_long hr).trans ((congrArg (s.settle e g.pc) operation).trans ?_))
    exact settle_own (u := s) rfl hr.runs (crcRead_run _ _ _)
  case low =>
    refine exec_of_issue (issue_waited hr (fun _ => setPtr_run ..) (fun _ => rfl) ?_)
    exact setPtr_mod _ _ sum
  case high =>
    refine exec_of_issue (issue_waited hr (fun _ => setPtr_run ..) (fun _ => rfl) ?_)
    show Engine.setPtr _ _ (if true && !g.crc8 then sum / 65536 else sum % 65536) = _
    rw [long]
    rfl
  case eccg =>
    have operation := eccWord_own_alone (u := s.onEngine e (Engine.began false)) aligned inside
      fun w _ => seq (0, (s.onEngine e (Engine.began false)).onEngine e fun h => h.setReg r.toNat (eccCheck w).toNat) 2
    refine exec_of_issue ((issue_long hr).trans ((congrArg (s.settle e g.pc) operation).trans ?_))
    exact settle_own (u := s) rfl hr.runs fun _ => setReg_run ..
  case eccc =>
    refine exec_of_issue ((issue_long hr).trans ?_)
    show s.settle e g.pc ((s.onEngine e (Engine.began false)).eccc e a r.toNat) = _
    have put (v : Nat) (u : State) (same : u.engine e = s.engine e) : s.settle e g.pc
        (seq (0, (u.onEngine e (Engine.began false)).onEngine e fun h => h.setReg r.toNat v) 3) =
          after 3 u fun h => h.setReg r.toNat v :=
      settle_own same hr.runs fun _ => setReg_run ..
    rw [State.eccc, eccWord_own aligned inside]
    show s.settle e g.pc (if eccCheck word = s.memGet m (a + 8) then _ else
      match eccCorrect word (s.memGet m (a + 8)) with
      | none => _
      | some x => _) = _
    split
    · exact put 0 s rfl
    · cases eccCorrect word (s.memGet m (a + 8)) with
      | none => exact put 2 s rfl
      | some x =>
        have length : (toBytes 8 x.toNat ++ [eccCheck x]).length = 9 := rfl
        have written := localWrite_mem (toBytes 8 x.toNat ++ [eccCheck x]) (s.onEngine e (Engine.began false)) a
          (by rw [length]; exact inside)
        show s.settle e g.pc (Res.of (State.localWrite _ _ _ _) _) = _
        rw [written, memWrite_onEngine]
        exact put 1 _ (memWrite_engine ..)

end Sys2Proof.Machine
end

section
/-!
SUPPORT. The Power Delivery coprocessor (R360).
-/
namespace Sys2Proof.Machine
open State

/-! ### What the link's operations leave of the engines -/

section
variable (s : State) (p k : Nat)

theorem engines_onPd (g : PdHw → PdHw) : (s.onPd p g).engines = s.engines := rfl

theorem engines_timStart : (s.timStart p k).engines = s.engines :=
  (rfl : _ = State.engines (s.when (s.timer p k == some 0) _)).trans (read_when State.engines rfl)

theorem engines_timStop : (s.timStop p k).engines = s.engines :=
  read_when State.engines rfl

theorem engines_idReset : (s.idReset p k).engines = s.engines := rfl

theorem engines_cableReset : (s.cableReset p).engines = s.engines := rfl

theorem engines_hardReset : (s.hardReset p).engines = s.engines := engines_timStart ..

theorem engines_memWrite (m : Nat) (l : List Byte) : ∀ (s : State) (off : Nat),
    (s.memWrite m off l).engines = s.engines := by
  induction l with
  | nil => intro s off; rfl
  | cons b l ih => intro s off; exact ih (s.memPut m off b) (off + 1)

theorem engines_writeQueue : (s.writeQueue p).engines = s.engines :=
  List.foldlRecOn (motive := fun t : State => t.engines = s.engines) _ _ rfl
    fun _ same _ _ => (engines_memWrite ..).trans same

end

/-! ### The word's end -/

section
variable {s u : State} {e n : Nat} {l : Long}

/-- A port's coprocessor is a port's engine's. -/
theorem rill_of_cp0 (hr : Ready s e (.long l)) (port : l.cp0 = true) : e < 16 := by
  have legal : l.legal e = true := hr.legal
  simp only [Long.legal, port, Bool.not_true, Bool.or_false, Bool.and_eq_true, decide_eq_true_eq] at legal
  exact legal.1.2

/-- The engine runs on at the end of what leaves the engines alone. -/
theorem runs_of_engines (hr : Ready s e (.long l)) (same : u.engines = (s.onEngine e (Engine.began false)).engines) :
    (u.engine e).run = .running := by
  rw [engine, same]
  show ((s.onEngine e (Engine.began false)).engine e).run = _
  rw [engine_onEngine_same]
  exact hr.runs

/-- A long operation that reaches the state `u`, in which the engine still runs. -/
theorem issue_acts (hr : Ready s e (.long l))
    (h : (s.onEngine e (Engine.began (IWord.long l).loads)).longWord e (s.engine e) l = .done u false n)
    (runs : (u.engine e).run = .running) : s.issue e (.long l) =
      u.onEngine e fun h => (Engine.ended n (s.engine e) h).finish (s.engine e).pc := by
  rw [issue_long hr, h]
  exact settle_done runs _

end

/-! ### RXPOP and TXLOAD -/

section
variable {u : State} {e k r : Nat} {g : Engine}

/-- With nothing received, or on a port not owned. -/
theorem rxpop_empty (aligned : g.ptr k % 8 = 0) (nothing : u.owns e = false ∨ (u.pd e).rx = []) :
    u.rxpop e g k r = .done (u.onEngine e fun h => h.setReg r 0xE0) false 4 := by
  rw [rxpop, aligned8, if_pos aligned]
  rcases nothing with other | empty
  · rw [other]
    rfl
  · rw [empty]
    cases u.owns e <;> rfl

/-- With a packet received. -/
theorem rxpop_packet {m : Msg} {rest : List Msg} (rill : e < 16) (aligned : g.ptr k % 8 = 0) (own : u.owns e = true)
    (some : (u.pd e).rx = m :: rest) (room : g.ptr k + 2 + (rxBytes m).length ≤ 0x4000) : u.rxpop e g k r =
      .done (((u.memWrite e (g.ptr k) ([byte (m.sop % 4), byte (rxBytes m).length] ++ rxBytes m)).onPd e fun h =>
        { h with rx := rest }).onEngine e fun h => h.setReg r (m.sop % 8 * 32 + (rxBytes m).length % 32)) false
          (4 + words8 (2 + (rxBytes m).length)) := by
  have notEh : e ≠ 16 := Nat.ne_of_lt rill
  have written := localWrite_mem (e := e) ([byte (m.sop % 4), byte (rxBytes m).length] ++ rxBytes m) u (g.ptr k)
    (by rw [if_neg notEh, List.length_append]; simp only [List.length_cons, List.length_nil]; omega)
  rw [if_neg notEh] at written
  rw [rxpop, aligned8, if_pos aligned, own, some]
  dsimp only
  rw [written]
  rfl

/-- TXLOAD of a legal descriptor. -/
theorem txload_legal {n sop : Nat} (rill : e < 16) (aligned : g.ptr k % 8 = 0) (two : 2 ≤ n) (thirty : n ≤ 30)
    (room : g.ptr k + 2 + n ≤ 0x4000) (known : sop < 3) (length : (u.memGet e (g.ptr k + 1)).toNat = n)
    (kind : (u.memGet e (g.ptr k)).toNat % 4 = sop) : u.txload e g k =
      .done (u.onPd e fun h => { h with txDesc := some (msgOfBytes sop (u.memRead e (g.ptr k + 2) n)) }) false
        (4 + words8 (2 + n)) := by
  have own : ownMem e = e := if_neg (Nat.ne_of_lt rill)
  have rooms : ownRoom e = 0x4000 := if_neg (Nat.ne_of_lt rill)
  have head := localRead_own (s := u) (e := e) 2 (g.ptr k) (by omega)
  have body := localRead_own (s := u) (e := e) n (g.ptr k + 2) (by omega)
  rw [own] at head body
  have legal : ¬(n < 2 ∨ 30 < n ∨ sop = 3) := by omega
  have byte0 : (u.memRead e (g.ptr k) 2).getD 0 0 = u.memGet e (g.ptr k) := rfl
  have byte1 : (u.memRead e (g.ptr k) 2).getD 1 0 = u.memGet e (g.ptr k + 1) := rfl
  rw [txload, aligned8, if_pos aligned, head]
  simp only [Res.of, byte0, byte1, length, kind, legal, if_false, body]
  rfl

end

/-- Settles O58: each row by what its function does to the link, which no engine sees. -/
theorem cp0RowsComplete : Obligations.Cp0RowsComplete := by
  unfold Obligations.Cp0RowsComplete
  intro e k p r k5 q s g a begun ends timer
  refine ⟨fun hr aligned nothing => ?empty, fun m rest hr aligned own some room => ?packet,
    fun n sop hr aligned two thirty room known length kind => ?txload,
    fun m hr own loaded => ⟨fun reply => ?reply, fun message => ?message, fun head room => ?head⟩, fun hr => ?txstat,
    fun hr => ?ordset, fun hr => ?tstart, fun hr => ?tstop, fun hr => ?tread, fun hr => ?idrst, fun hr => ?frstx⟩
  case empty =>
    refine exec_of_issue ((issue_long hr).trans ?_)
    refine (congrArg (s.settle e g.pc) (rxpop_empty (u := begun) aligned nothing)).trans ?_
    exact settle_ran hr.runs fun _ => setReg_run ..
  case packet =>
    refine exec_of_issue (issue_acts hr (rxpop_packet (u := begun) (rill_of_cp0 hr rfl) aligned own some room) ?_)
    rw [engine_onEngine_same, setReg_run]
    exact runs_of_engines hr ((engines_onPd ..).trans (engines_memWrite ..))
  case txload =>
    have word := txload_legal (u := begun) (rill_of_cp0 hr rfl) aligned two thirty room known length kind
    rw [memRead_onEngine] at word
    exact exec_of_issue (issue_acts hr word (runs_of_engines hr (engines_onPd ..)))
  case reply =>
    have act : begun.txgo e q.toNat = begun.sendReply e m (begun.ackOf e m) := by
      rw [State.txgo, show begun.owns e = true from own, show (begun.pd e).txDesc = some m from loaded]
      exact if_pos reply
    exact exec_of_issue (issue_acts hr (congrArg (fun u => seq (0, u)) act) (runs_of_engines hr (engines_onPd ..)))
  case message =>
    have act : begun.txgo e q.toNat = begun.sendEngine e m (begun.ackOf e m) := by
      rw [State.txgo, show begun.owns e = true from own, show (begun.pd e).txDesc = some m from loaded]
      exact (if_neg (by omega)).trans (if_pos message)
    exact exec_of_issue (issue_acts hr (congrArg (fun u => seq (0, u)) act) (runs_of_engines hr (engines_onPd ..)))
  case head =>
    have act : begun.txgo e q.toNat = (begun.onPd e fun h => { h with
        hostq := { msg := m, onAck := begun.ackOf e m } :: h.hostq, qhead := (h.qhead + 3) % 4 }).writeQueue e := by
      rw [State.txgo, show begun.owns e = true from own, show (begun.pd e).txDesc = some m from loaded]
      exact (if_neg (by omega)).trans ((if_neg (by omega)).trans (if_neg (Nat.not_le.2 room)))
    exact exec_of_issue (issue_acts hr (congrArg (fun u => seq (0, u)) act)
      (runs_of_engines hr (engines_writeQueue ..)))
  case txstat =>
    have status : begun.txstat e = if s.owns e then s.txstat e else 8 := by
      show (if s.owns e then _ else _) = _
      split
      case isTrue own => exact (if_pos own).symm
      case isFalse => rfl
    refine exec_of_issue ((issue_long hr).trans ?_)
    show s.settle e g.pc (seq (0, begun.onEngine e fun h => h.setReg r.toNat (begun.txstat e))) = _
    rw [status]
    exact settle_ran hr.runs fun _ => setReg_run ..
  case ordset =>
    have same : (if s.owns e then if q = 0 then begun.hardReset e else begun.cableReset e else begun).engines =
        begun.engines := by
      split_ifs
      · exact engines_hardReset ..
      · exact engines_cableReset ..
      · rfl
    exact exec_of_issue (issue_acts hr (n := 1) rfl (runs_of_engines hr same))
  case tstart =>
    have same : (if s.owns e then begun.timStart e k5.toNat else begun).engines = begun.engines := by
      split_ifs
      · exact engines_timStart ..
      · rfl
    exact exec_of_issue (issue_acts hr (n := 1) rfl (runs_of_engines hr same))
  case tstop => exact exec_of_issue (issue_acts hr (n := 1) rfl (runs_of_engines hr (engines_timStop ..)))
  case tread =>
    refine exec_of_issue ((issue_long hr).trans ?_)
    exact settle_ran (n := 2) (f := fun h => (h.setPtr p.toNat timer).setReg r.toNat (timer / 65536)) hr.runs
      fun _ => (setReg_run ..).trans (setPtr_run ..)
  case idrst => exact exec_of_issue (issue_acts hr (n := 1) rfl (runs_of_engines hr (engines_idReset ..)))
  case frstx =>
    have same : (if s.owns e then begun.onPd e fun h => { h with frsGen := true } else begun).engines =
        begun.engines := by
      split_ifs
      · exact engines_onPd ..
      · rfl
    exact exec_of_issue (issue_acts hr (n := 1) rfl (runs_of_engines hr same))

end Sys2Proof.Machine
end

section
/-!
SUPPORT. Mailboxes between a port's engine and EH, and locks (R379 to R391).
-/
namespace Sys2Proof.Machine
open State

/-! ### Locks -/

/-- Byte 0 of a general lock. -/
theorem boxAt_lock (e : Nat) (l : Fin 16) :
    boxAt e (BitVec.ofNat 16 (0xA00 + 2 * l.val)).toNat = some (.lock l.val 0) := by
  have place : (BitVec.ofNat 16 (0xA00 + 2 * l.val)).toNat = 0xA00 + 2 * l.val := by
    rw [BitVec.toNat_ofNat]
    omega
  rw [place]
  simp only [boxAt, if_neg (show ¬ 0xA00 + 2 * l.val < 0x400 by omega), if_neg (show ¬ 0xA00 + 2 * l.val < 0x440 by omega),
    if_neg (show ¬ 0xA00 + 2 * l.val < 0x442 by omega),
    if_neg (show ¬ (0x800 ≤ 0xA00 + 2 * l.val ∧ 0xA00 + 2 * l.val < 0xA00) by omega),
    if_pos (show 0xA00 ≤ 0xA00 + 2 * l.val ∧ 0xA00 + 2 * l.val < 0xA20 by omega), Option.some.injEq, Box.lock.injEq]
  omega

section
variable (s : State) (l n : Nat)

theorem lockOwner_setLock_same : (s.setLock l n).lockOwner l = n := Tab.get_put_same ..

theorem lockOwner_setLock_ne {j : Nat} (other : j ≠ l) : (s.setLock l n).lockOwner j = s.lockOwner j :=
  Tab.get_put_ne _ other ..

/-- A lock that is free goes to who reads it. -/
theorem lockTake_free (e : Nat) (free : s.lockOwner l = 0) : s.lockTake e l = (0, s.setLock l (e + 1)) := by
  unfold lockTake
  split
  case h_1 => rfl
  case h_2 owned => exact absurd free owned

/-- One that is not stays its owner's. -/
theorem lockTake_owned (e : Nat) (owned : s.lockOwner l ≠ 0) :
    s.lockTake e l = (if s.lockOwner l = e + 1 then 0 else s.lockOwner l, s) := by
  unfold lockTake
  split
  case h_1 free => exact absurd free owned
  case h_2 => rfl

theorem lockRelease_owner (e : Nat) (own : s.lockOwner l = e + 1) : s.lockRelease e l 0 = s.setLock l 0 :=
  if_pos ⟨own, rfl⟩

/-- Any other store to a general lock changes no lock and is recorded. -/
theorem lockRelease_bad (e b : Nat) (general : l < 16) (bad : ¬(s.lockOwner l = e + 1 ∧ b = 0)) :
    s.lockRelease e l b = { s with lockEv := s.lockEv.put 0 e (setBit (s.lockEv.get 0 e) l true) } := by
  rw [lockRelease, if_neg bad, if_pos general]

end

/-- Settles O29: by who owns the lock. -/
theorem lockRowsComplete : Obligations.LockRowsComplete := by
  unfold Obligations.LockRowsComplete
  intro e l b s off owner
  have read : s.boxRead e off.toNat = some (s.lockTake e l.val) := by
    rw [boxRead, boxAt_lock]
    rfl
  have write : s.boxWrite e off.toNat b.toNat = some (s.lockRelease e l.val b.toNat) := by
    rw [boxWrite, boxAt_lock]
    rfl
  have released : ∃ u, exec (.lockRelease e off b) s = .next u ∧
      (owner = e.val + 1 → b = 0 → u.lockOwner l.val = 0 ∧ u.lockEv = s.lockEv) ∧
      (owner ≠ e.val + 1 ∨ b ≠ 0 → u.locks = s.locks ∧ bit (u.lockEv.get 0 e.val) l.val = true) ∧
      (∀ j, j ≠ l.val → u.lockOwner j = s.lockOwner j) ∧ { u with locks := s.locks, lockEv := s.lockEv } = s := by
    have row : exec (.lockRelease e off b) s = .next (s.lockRelease e l.val b.toNat) := by
      show Host.Outcome.next ((s.boxWrite e off.toNat b.toNat).getD s) = _
      rw [write]
      rfl
    refine ⟨_, row, ?_⟩
    by_cases good : owner = e.val + 1 ∧ b = 0
    · obtain ⟨own, zero⟩ := good
      rw [zero]
      have release := lockRelease_owner s l.val e.val own
      refine ⟨fun _ _ => ?_, fun bad => absurd bad (by simp [own]), ?_⟩
      · exact release ▸ ⟨lockOwner_setLock_same s l.val 0, rfl⟩
      · exact release ▸ ⟨fun j other => lockOwner_setLock_ne s l.val 0 other, rfl⟩
    · have bad : ¬(s.lockOwner l.val = e.val + 1 ∧ b.toNat = 0) := fun ⟨own, zero⟩ =>
        good ⟨own, BitVec.eq_of_toNat_eq zero⟩
      rw [lockRelease_bad s l.val e.val b.toNat l.isLt bad]
      refine ⟨fun own zero => absurd ⟨own, zero⟩ good, fun _ => ⟨rfl, ?_⟩, fun _ _ => rfl, rfl⟩
      exact (congrArg (bit · l.val) (Tab.get_put_same ..)).trans (bit_setBit_true ..)
  have taken : exec (.lockTake e off) s = .next (s.lockTake e l.val).2 := by
    show Host.Outcome.next (((s.boxRead e off.toNat).map (·.2)).getD s) = _
    rw [read]
    rfl
  by_cases free : owner = 0
  · rw [lockTake_free s l.val e.val free] at read taken
    refine ⟨0, _, read, taken, (if_pos (.inl free)).symm, ?_, fun j other => lockOwner_setLock_ne s l.val _ other, rfl,
      released⟩
    rw [if_pos free]
    exact lockOwner_setLock_same ..
  · rw [lockTake_owned s l.val e.val free] at read taken
    refine ⟨_, s, read, taken, ?_, (if_neg free).symm, fun _ _ => rfl, rfl, released⟩
    show (if owner = e.val + 1 then 0 else owner) = _
    simp only [free, false_or]

/-! ### Port mailboxes -/

/-- Engine `e` finds the end `id` of a port mailbox at `base` of bank 0x03; `peer` is the other end. -/
structure PortEnd (e base id peer : Nat) : Prop where
  low : base < 0x400
  at_ : ∀ o < 0x40, boxAt e (base + o) = some (.mbx id o)
  ours : id < 32
  theirs : mbxPeer id = peer
  other : peer < 32
  two : peer ≠ id

theorem portEnd_rill (p : Port) : PortEnd p.eng 0 p.val (p.val + 16) where
  low := by omega
  at_ o ho := by
    have notEh : (p.eng : Nat) ≠ 16 := by simp only [Port.eng]; omega
    simp only [boxAt, Nat.zero_add, if_pos (show o < 0x400 by omega), if_neg notEh, if_pos ho]
    rfl
  ours := by omega
  theirs := if_pos p.isLt
  other := by omega
  two := by omega

theorem portEnd_eh (p : Port) : PortEnd 16 (0x40 * p.val) (p.val + 16) p.val where
  low := by omega
  at_ o ho := by
    simp only [boxAt, if_pos (show 0x40 * p.val + o < 0x400 by omega), if_true, Option.some.injEq, Box.mbx.injEq]
    omega
  ours := by omega
  theirs := by
    rw [mbxPeer, if_neg (show ¬ p.val + 16 < 16 by omega), if_pos (show p.val + 16 < 32 by omega)]
    omega
  other := by omega
  two := by omega

/-- A mailbox end changed to equal ends. -/
theorem onMbx_congr {s : State} {id : Nat} {f g : MbxEnd → MbxEnd} (h : f (s.mbxEnd id) = g (s.mbxEnd id)) :
    s.onMbx id f = s.onMbx id g := by
  simp only [onMbx, h]

theorem mbxEnd_wake (s : State) (d j : Nat) : (s.wake d).mbxEnd j = s.mbxEnd j := rfl

/-- A pop takes the head word, and with a message's last word counts the message as popped. -/
theorem mbxPop_word {s : State} {id : Nat} {w : MbxWord} {rest : List MbxWord} (some : (s.mbxEnd id).rx = w :: rest) :
    s.mbxPop id = s.onMbx id fun m => { m with
      rx := rest, rxFirst := if w.first then w.bits else m.rxFirst
      popped := if w.last then m.popped ++ [if w.first then w.bits else m.rxFirst] else m.popped } := by
  rw [mbxPop, some]

theorem State.EvidenceOnly.mbx {s t : State} (h : EvidenceOnly s t) : t.mbx = s.mbx := by rw [h.rest]

section
variable {s : State} {e base id peer : Nat} (end_ : PortEnd e base id peer)
include end_

theorem PortEnd.offset {o : Nat} (ho : o < 0x40) :
    boxAt e ((BitVec.ofNat 16 base).toNat + o) = some (.mbx id o) := by
  have low := end_.low
  rw [BitVec.toNat_ofNat, Nat.mod_eq_of_lt (by omega), end_.at_ o ho]

theorem PortEnd.held : s.mbxHeld e id = true := by
  have low := end_.ours
  simp only [mbxHeld, show id < 80 by omega, decide_true, Bool.true_or]

theorem PortEnd.notUrgent : mbxUrgent id = false := by
  have low := end_.ours
  simp only [mbxUrgent, decide_eq_false_iff_not]
  omega

theorem PortEnd.engine (t : State) : ∃ d, t.mbxEngine id = some d := by
  have low := end_.ours
  unfold mbxEngine
  split
  · exact ⟨_, rfl⟩
  · exact ⟨16, rfl⟩

theorem PortEnd.peerEngine (t : State) : ∃ d, t.mbxEngine peer = some d := by
  have low := end_.other
  unfold mbxEngine
  split
  · exact ⟨_, rfl⟩
  · exact ⟨16, rfl⟩

/-- A store to byte 7 of MBX_TX stages the word and pushes it. -/
theorem PortEnd.push (b : Nat) : s.boxWrite e ((BitVec.ofNat 16 base).toNat + 7) b = some ((s.onMbx id fun m =>
    { m with staged := m.staged - byteOf m.staged 7 * 256 ^ 7 + b * 256 ^ 7 }).mbxPush id) := by
  have notHost : decide (id = 48) = false := decide_eq_false (by have := end_.ours; omega)
  rw [boxWrite, end_.offset (by omega)]
  simp only [mbxWrite, end_.notUrgent, end_.held, Bool.not_true, Bool.false_eq_true, if_false, if_true,
    Nat.reduceLT, mbxPushBy, notHost, Bool.false_and, State.when]

theorem PortEnd.pop : ∃ v, s.boxRead e ((BitVec.ofNat 16 base).toNat + 15) = some (v, s.mbxPop id) := by
  rw [boxRead, end_.offset (by omega)]
  simp only [mbxRead, end_.held, Bool.not_true, Bool.false_eq_true, if_false, if_true, Nat.reduceLT]
  exact ⟨_, rfl⟩

theorem PortEnd.ack (b : Nat) : s.boxWrite e ((BitVec.ofNat 16 base).toNat + 0x14) b = some (s.mbxAck id b) := by
  have notHost : ¬(32 ≤ id ∧ id < 49) := by have := end_.ours; omega
  rw [boxWrite, end_.offset (by omega)]
  simp only [mbxWrite, end_.held, Nat.reduceLT, Nat.lt_irrefl, if_false, if_true, mbxAckBy, notHost, Option.some.injEq]
  split <;> rfl

theorem PortEnd.ackIn : ∃ v, s.boxRead e ((BitVec.ofNat 16 base).toNat + 0x18) = some (v, s.mbxAckIn id) := by
  rw [boxRead, end_.offset (by omega)]
  simp only [mbxRead, end_.held, end_.notUrgent, Bool.not_true, Bool.false_eq_true, or_self, if_false, if_true,
    Nat.reduceLT, Nat.lt_irrefl]
  exact ⟨_, rfl⟩

/-- A push that completes a message of one word: the other end has the word, the message waits for its
acknowledgement, and the other end's engine is told. -/
theorem PortEnd.pushes (room : (s.mbxEnd peer).rx.length < 8) (fewer : (s.mbxEnd id).unack.length < 8)
    (first : (s.mbxEnd id).txLeft = 0) (one : mbxLen (s.mbxEnd id).staged = 1) : ∃ d, s.mbxPush id =
      ((((s.onMbx peer fun q => { q with rx := q.rx ++ [⟨(s.mbxEnd id).staged, true, true⟩] }).onMbx id fun m =>
        { m with txLeft := 0, txSeq := ((s.mbxEnd id).txSeq + 1) % 256
                 unack := m.unack ++ [(((s.mbxEnd id).txSeq + 1) % 256, 0)] }).mbxEv peer 0).wake d) := by
  obtain ⟨d, told⟩ := end_.peerEngine (((s.onMbx peer fun q =>
    { q with rx := q.rx ++ [⟨(s.mbxEnd id).staged, true, true⟩] }).onMbx id fun m =>
      { m with txLeft := 0, txSeq := ((s.mbxEnd id).txSeq + 1) % 256
               unack := m.unack ++ [(((s.mbxEnd id).txSeq + 1) % 256, 0)] }).mbxEv peer 0)
  have free : ¬(8 ≤ (s.mbxEnd peer).rx.length ∨ 8 ≤ (s.mbxEnd id).unack.length) := by omega
  refine ⟨d, ?_⟩
  simp only [mbxPush, end_.theirs, first, decide_true, true_and, if_true, one, free, if_false, Nat.sub_self, told]

/-- A push that finds no room leaves the other end alone and is recorded. -/
theorem PortEnd.overflows (full : 8 ≤ (s.mbxEnd peer).rx.length ∨ (s.mbxEnd id).txLeft = 0 ∧
    8 ≤ (s.mbxEnd id).unack.length) : EvidenceOnly (s.mbxEv id 2) (s.mbxPush id) := by
  obtain ⟨d, ours⟩ := end_.engine (s.mbxEv id 2)
  have push : s.mbxPush id = (s.mbxEv id 2).when (decide (d < 16)) fun s => s.cntEvent 0x64 (some d) := by
    have full' : 8 ≤ (s.mbxEnd (mbxPeer id)).rx.length ∨
        decide ((s.mbxEnd id).txLeft = 0) = true ∧ 8 ≤ (s.mbxEnd id).unack.length := by
      rwa [end_.theirs, decide_eq_true_eq]
    rw [mbxPush]
    dsimp only
    rw [if_pos full', ours]
  rw [push]
  exact when_evidenceOnly (cntEvent_evidenceOnly ..)

end

section
variable {e : Eng} {base id peer : Nat} (end_ : PortEnd e base id peer) (s : State)
include end_

theorem PortEnd.exec_push (b : Byte) (w : Nat)
    (word : w = (s.mbxEnd id).staged - byteOf (s.mbxEnd id).staged 7 * 256 ^ 7 + b.toNat * 256 ^ 7) :
    exec (.mbxPush e (BitVec.ofNat 16 base) b) s =
      .next ((s.onMbx id fun m => { m with staged := w }).mbxPush id) := by
  show Host.Outcome.next ((s.boxWrite e _ b.toNat).getD s) = _
  rw [end_.push, Option.getD_some]
  refine congrArg (fun t : State => Host.Outcome.next (t.mbxPush id)) (onMbx_congr ?_)
  rw [word]

theorem PortEnd.exec_pop : exec (.mbxPop e (BitVec.ofNat 16 base)) s = .next (s.mbxPop id) := by
  obtain ⟨v, read⟩ := end_.pop (s := s)
  show Host.Outcome.next (((s.boxRead e _).map (·.2)).getD s) = _
  rw [read]
  rfl

theorem PortEnd.exec_ack (b : Byte) :
    exec (.mbxAck e (BitVec.ofNat 16 base) b) s = .next (s.mbxAck id b.toNat) := by
  show Host.Outcome.next ((s.boxWrite e _ b.toNat).getD s) = _
  rw [end_.ack]
  rfl

theorem PortEnd.exec_ackIn : exec (.mbxAckinRead e (BitVec.ofNat 16 base)) s = .next (s.mbxAckIn id) := by
  obtain ⟨v, read⟩ := end_.ackIn (s := s)
  show Host.Outcome.next (((s.boxRead e _).map (·.2)).getD s) = _
  rw [read]
  rfl

end

/-- The head word taken. -/
theorem mbxPop_taken {s : State} {id : Nat} {w : MbxWord} {rest : List MbxWord} (some : (s.mbxEnd id).rx = w :: rest) :
    let t := s.mbxPop id
    (t.mbxEnd id).rx = rest ∧ (t.mbxEnd id).popped = (s.mbxEnd id).popped ++
        (if w.last then [if w.first then w.bits else (s.mbxEnd id).rxFirst] else []) ∧
      (∀ j, j ≠ id → t.mbxEnd j = s.mbxEnd j) ∧ t.regs = s.regs ∧ t.mem = s.mem := by
  rw [mbxPop_word some]
  refine ⟨?_, ?_, fun j other => mbxEnd_onMbx_ne s other _, rfl, rfl⟩
  · rw [mbxEnd_onMbx_same]
  · rw [mbxEnd_onMbx_same]
    cases w.last
    · exact (List.append_nil _).symm
    · rfl

section
variable {s : State} {e : Eng} {base id peer : Nat} (end_ : PortEnd e base id peer)
include end_

/-- The word `w`, staged and pushed with room, arrives as a message of its own. -/
theorem PortEnd.word_sent (w : Nat) (room : (s.mbxEnd peer).rx.length < 8) (fewer : (s.mbxEnd id).unack.length < 8)
    (first : (s.mbxEnd id).txLeft = 0) (one : mbxLen w = 1) :
    let t := (s.onMbx id fun m => { m with staged := w }).mbxPush id
    (t.mbxEnd peer).rx = (s.mbxEnd peer).rx ++ [⟨w, true, true⟩] ∧ bit (t.mbxEnd peer).ev 0 = true ∧
      (t.mbxEnd id).staged = w ∧ (t.mbxEnd id).txSeq = ((s.mbxEnd id).txSeq + 1) % 256 ∧
      (t.mbxEnd id).unack = (s.mbxEnd id).unack ++ [(((s.mbxEnd id).txSeq + 1) % 256, 0)] ∧
      (∀ j, j ≠ id → j ≠ peer → t.mbxEnd j = s.mbxEnd j) ∧ t.regs = s.regs ∧ t.mem = s.mem := by
  have two := end_.two
  let u := s.onMbx id fun m => { m with staged := w }
  have mine : u.mbxEnd id = { s.mbxEnd id with staged := w } := mbxEnd_onMbx_same ..
  have theirs : u.mbxEnd peer = s.mbxEnd peer := mbxEnd_onMbx_ne s two _
  obtain ⟨d, pushed⟩ := end_.pushes (s := u) (by rw [theirs]; exact room) (by rw [mine]; exact fewer)
    (by rw [mine]; exact first) (by rw [mine]; exact one)
  show let t := u.mbxPush id; _
  rw [pushed]
  refine ⟨?_, ?_, ?_, ?_, ?_, fun j j1 j2 => ?_, ?_, ?_⟩
  case refine_7 => rw [wake, onEngine_regs, mbxEv, onMbx_regs, onMbx_regs, onMbx_regs, onMbx_regs]
  case refine_8 => rw [wake, onEngine_mem, mbxEv, onMbx_mem, onMbx_mem, onMbx_mem, onMbx_mem]
  case refine_6 =>
    rw [mbxEnd_wake, mbxEv, mbxEnd_onMbx_ne _ j2, mbxEnd_onMbx_ne _ j1, mbxEnd_onMbx_ne _ j2]
    exact mbxEnd_onMbx_ne _ j1 _
  all_goals simp only [mbxEnd_wake, mbxEv, mbxEnd_onMbx_same, mbxEnd_onMbx_ne _ two, mbxEnd_onMbx_ne _ two.symm, mine,
    theirs, bit_setBit_true]

/-- Without room it does not. -/
theorem PortEnd.word_refused (w : Nat) (full : 8 ≤ (s.mbxEnd peer).rx.length ∨ (s.mbxEnd id).txLeft = 0 ∧
    8 ≤ (s.mbxEnd id).unack.length) :
    let t := (s.onMbx id fun m => { m with staged := w }).mbxPush id
    t.mbxEnd peer = s.mbxEnd peer ∧ bit (t.mbxEnd id).ev 2 = true ∧ (t.mbxEnd id).unack = (s.mbxEnd id).unack ∧
      (t.mbxEnd id).txSeq = (s.mbxEnd id).txSeq ∧ t.mem = s.mem := by
  have two := end_.two
  let u := s.onMbx id fun m => { m with staged := w }
  have mine : u.mbxEnd id = { s.mbxEnd id with staged := w } := mbxEnd_onMbx_same ..
  have theirs : u.mbxEnd peer = s.mbxEnd peer := mbxEnd_onMbx_ne s two _
  have only := end_.overflows (s := u) (by rw [theirs, mine]; exact full)
  intro t
  have ends (j : Nat) : t.mbxEnd j = (u.mbxEv id 2).mbxEnd j :=
    congrArg (fun x : Tab MbxEnd => Tab.get ({} : MbxEnd) j x) only.mbx
  refine ⟨?_, ?_, ?_, ?_, only.mem⟩
  · rw [ends, mbxEv, mbxEnd_onMbx_ne _ two, theirs]
  all_goals simp only [ends, mbxEv, mbxEnd_onMbx_same, mine, bit_setBit_true]

/-- The oldest popped message acknowledged to its sender. -/
theorem PortEnd.message_acked {w : Nat} {rest : List Nat} {seq n code : Nat} {more : List (Nat × Nat)}
    (some : (s.mbxEnd id).popped = w :: rest) (waits : (s.mbxEnd peer).unack = (seq, n) :: more) :
    let t := s.mbxAck id code
    (t.mbxEnd id).popped = rest ∧ (t.mbxEnd peer).unack = more ∧
      (t.mbxEnd peer).ackin = (s.mbxEnd peer).ackin ++ [(seq, code)] ∧
      (∀ j, j ≠ id → j ≠ peer → t.mbxEnd j = s.mbxEnd j) ∧ t.regs = s.regs ∧ t.mem = s.mem := by
  have two := end_.two
  rw [mbxAck, some, if_neg (List.cons_ne_nil w rest), end_.theirs]
  refine ⟨?_, ?_, ?_, fun j j1 j2 => ?_, rfl, rfl⟩
  · rw [mbxAckTo, mbxEnd_onMbx_ne _ two.symm, mbxEnd_onMbx_same, some]
    rfl
  · rw [mbxAckTo, mbxEnd_onMbx_same, mbxEnd_onMbx_ne _ two, waits]
  · rw [mbxAckTo, mbxEnd_onMbx_same, mbxEnd_onMbx_ne _ two, waits]
  · rw [mbxAckTo, mbxEnd_onMbx_ne _ j2]
    exact mbxEnd_onMbx_ne _ j1 _

end

/-- Settles O28: the same rows from either end, and the stall by its condition. -/
theorem mailboxRowsComplete : Obligations.MailboxRowsComplete := by
  unfold Obligations.MailboxRowsComplete
  refine ⟨fun p s x hx => ?_, fun k s => acts_of_ite rfl (by simp only [Bool.not_eq_true'])⟩
  intro base id peer m q
  have end_ : PortEnd x.1 x.2.1 id peer := by
    rcases List.mem_pair.1 hx with rfl | rfl
    · exact portEnd_rill p
    · exact portEnd_eh p
  refine ⟨fun b => ?push, fun w rest some => ⟨_, end_.exec_pop s, mbxPop_taken some⟩, fun none => ?empty,
    fun b w rest seq n more some waits => ⟨_, end_.exec_ack s b, end_.message_acked some waits⟩, fun b none => ?ackErr,
    fun seq code rest some => ?ackIn⟩
  case push =>
    intro w
    have row := end_.exec_push s b w rfl
    clear_value w
    exact ⟨fun room fewer first one => ⟨_, row, end_.word_sent w room fewer first one⟩,
      fun full => ⟨_, row, end_.word_refused w full⟩⟩
  case empty =>
    refine (end_.exec_pop s).trans (congrArg _ ?_)
    rw [mbxPop, none]
  case ackErr =>
    refine (end_.exec_ack s b).trans (congrArg _ ?_)
    rw [mbxAck, if_pos none]
  case ackIn => exact (end_.exec_ackIn s).trans (congrArg _ (onMbx_congr (by rw [some])))

end Sys2Proof.Machine
end

section
/-!
SUPPORT. Watchdogs, and the reset of a rill engine (R335, R385, R390, R414 to R417).
-/
namespace Sys2Proof.Machine
open State

/-! ### What the end of an engine's business with others leaves alone -/

/-- From `s` to `t` only the host's queues, the mailboxes and the locks have changed. -/
structure PostOnly (s t : State) : Prop where
  rest : t = { s with host := t.host, mbx := t.mbx, locks := t.locks }

namespace PostOnly
variable {s t u : State}

theorem refl (s : State) : PostOnly s s := ⟨rfl⟩

theorem trans (h : PostOnly s t) (k : PostOnly t u) : PostOnly s u where
  rest := calc
    u = { t with host := u.host, mbx := u.mbx, locks := u.locks } := k.rest
    _ = { s with host := u.host, mbx := u.mbx, locks := u.locks } := by rw [h.rest]

theorem foldl {α : Type} {g : State → α → State} (l : List α) (hg : ∀ t, ∀ x ∈ l, PostOnly t (g t x)) (s : State) :
    PostOnly s (l.foldl g s) :=
  List.foldlRecOn (motive := PostOnly s) l g (refl s) fun t h x hx => h.trans (hg t x hx)

theorem ofWhen {c : Bool} {g : State → State} (h : PostOnly s (g s)) : PostOnly s (s.when c g) := by
  cases c
  · exact refl s
  · exact h

theorem engine (h : PostOnly s t) (e : Nat) : t.engine e = s.engine e := by rw [h.rest]; rfl

theorem mem (h : PostOnly s t) : t.mem = s.mem := by rw [h.rest]

theorem regs (h : PostOnly s t) : t.regs = s.regs := by rw [h.rest]

end PostOnly

section
variable (s : State) (id : Nat)

theorem onMbx_postOnly (g : MbxEnd → MbxEnd) : PostOnly s (s.onMbx id g) := ⟨rfl⟩

theorem mbxFail_postOnly (n : Nat) : ∀ s : State, PostOnly s (s.mbxFail id n) := by
  induction n with
  | zero => exact PostOnly.refl
  | succ n ih => exact fun s => (onMbx_postOnly s id _).trans (ih _)

theorem mbxReset_postOnly : PostOnly s (s.mbxReset id) := by
  unfold mbxReset mbxEv
  exact ((onMbx_postOnly s id _).trans (mbxFail_postOnly _ _ _)).trans (onMbx_postOnly _ _ _)

theorem dropUrgent_postOnly (p status : Nat) : PostOnly s (s.dropUrgent p status) := by
  unfold dropUrgent
  dsimp only
  split
  · exact .refl s
  · refine PostOnly.trans ?_ (PostOnly.foldl _ (fun t k _ => ?_) _)
    · exact ⟨rfl⟩
    · exact ⟨rfl⟩

theorem mbxEnd_mbxFail (n : Nat) {j : Nat} (other : j ≠ id) : ∀ s : State,
    (s.mbxFail id n).mbxEnd j = s.mbxEnd j := by
  induction n with
  | zero => exact fun _ => rfl
  | succ n ih => exact fun s => (ih _).trans (mbxEnd_onMbx_ne s other _)

/-- The reset of one end empties it. -/
theorem mbxReset_empties (two : id ≠ mbxPeer id) :
    ((s.mbxReset id).mbxEnd id).rx = [] ∧ ((s.mbxReset id).mbxEnd id).popped = [] := by
  have emptied : (s.mbxReset id).mbxEnd id = { s.mbxEnd id with rx := [], rxFirst := 0, popped := [] } := by
    rw [mbxReset, mbxEv, mbxEnd_onMbx_ne _ two, mbxEnd_mbxFail _ _ two, mbxEnd_onMbx_same]
  rw [emptied]
  exact ⟨rfl, rfl⟩

/-- It touches no end but that one and the other of its mailbox. -/
theorem mbxEnd_mbxReset {j : Nat} (mine : j ≠ id) (theirs : j ≠ mbxPeer id) :
    (s.mbxReset id).mbxEnd j = s.mbxEnd j := by
  rw [mbxReset, mbxEv, mbxEnd_onMbx_ne _ theirs, mbxEnd_mbxFail _ _ theirs, mbxEnd_onMbx_ne _ mine]

end

/-! ### Locks and shared mailboxes of an engine that is reset -/

/-- The locks of `l` that engine `e` holds are free. -/
def State.unlock (s : State) (e : Nat) (l : List Nat) : State :=
  s.forEach l fun k s => s.when (decide (s.lockOwner k = e + 1)) fun s => s.setLock k 0

/-- The shared ends of `l` that engine `e` holds are reset. -/
def State.shareReset (s : State) (e : Nat) (l : List Nat) : State :=
  s.forEach l fun id s => s.when (decide (s.lockOwner (mbxLock id) = e + 1)) fun s => s.mbxReset id

section
variable (e : Nat)

theorem unlock_postOnly (s : State) (l : List Nat) : PostOnly s (s.unlock e l) :=
  PostOnly.foldl l (fun _ _ _ => .ofWhen ⟨rfl⟩) s

theorem mbx_unlock (s : State) (l : List Nat) (j : Nat) : (s.unlock e l).mbxEnd j = s.mbxEnd j :=
  List.foldlRecOn (motive := fun t : State => t.mbxEnd j = s.mbxEnd j) l _ rfl fun _ same _ _ =>
    (read_when (mbxEnd · j) rfl).trans same

/-- No lock of `l`, and none that was another's, is the engine's. -/
theorem unlock_frees (l : List Nat) : ∀ (s : State) (k : Nat), k ∈ l ∨ s.lockOwner k ≠ e + 1 →
    (s.unlock e l).lockOwner k ≠ e + 1 := by
  induction l with
  | nil => exact fun s k h => h.resolve_left List.not_mem_nil
  | cons x l ih =>
    intro s k h
    refine ih (s.when (decide (s.lockOwner x = e + 1)) fun s => s.setLock x 0) k ?_
    have free : (s.when (decide (s.lockOwner x = e + 1)) fun s => s.setLock x 0).lockOwner x ≠ e + 1 := by
      unfold State.when
      split
      case isTrue => rw [lockOwner_setLock_same]; exact (Nat.succ_ne_zero e).symm
      case isFalse other => simpa using other
    by_cases same : k = x
    · exact .inr (same ▸ free)
    · refine h.imp (fun mem => (List.mem_cons.1 mem).resolve_left same) fun other => ?_
      rwa [read_when (lockOwner · k) (lockOwner_setLock_ne s x 0 same)]

theorem shareReset_postOnly (s : State) (l : List Nat) : PostOnly s (s.shareReset e l) :=
  PostOnly.foldl l (fun t id _ => .ofWhen (mbxReset_postOnly t id)) s

/-- Shared ends are numbered from 80 on. -/
theorem mbxEnd_shareReset (s : State) {j : Nat} (low : j < 80) :
    (s.shareReset e [80, 81, 82, 83, 84, 85, 86, 87]).mbxEnd j = s.mbxEnd j := by
  refine List.foldlRecOn (motive := fun t : State => t.mbxEnd j = s.mbxEnd j) _ _ rfl fun t same id member => ?_
  have high : 80 ≤ id ∧ 80 ≤ mbxPeer id := by
    have all : ∀ id ∈ [80, 81, 82, 83, 84, 85, 86, 87], 80 ≤ id ∧ 80 ≤ mbxPeer id := by decide
    exact all id member
  exact (read_when (mbxEnd · j) (mbxEnd_mbxReset t id (by omega) (by omega))).trans same

end

/-! ### The reset of a rill engine -/

section
variable (s : State) (e : Nat)

/-- A reset leaves an engine held. -/
theorem engine_init_run : (Engine.init e).run = .held := by
  unfold Engine.init
  split <;> rfl

/-- The port's own mailboxes after the reset of its engine. -/
def State.rillMbx : State :=
  ((((((s.engineReset e).dropUrgent e 0x60).mbxReset e).mbxReset (32 + e)).onMbx e fun m =>
    { m with unack := [], txLeft := 0, ackin := [] }).onMbx (mbxPeer e) fun m => { m with rx := [] })

theorem rillReset_eq :
    s.rillReset e = ((s.rillMbx e).shareReset e [80, 81, 82, 83, 84, 85, 86, 87]).unlock e (List.range 24) := rfl

theorem rillMbx_postOnly : PostOnly (s.engineReset e) (s.rillMbx e) :=
  ((((dropUrgent_postOnly _ _ _).trans (mbxReset_postOnly _ _)).trans (mbxReset_postOnly _ _)).trans
    (onMbx_postOnly _ _ _)).trans (onMbx_postOnly _ _ _)

theorem rillReset_postOnly : PostOnly (s.engineReset e) (s.rillReset e) :=
  ((rillMbx_postOnly s e).trans (shareReset_postOnly e _ _)).trans (unlock_postOnly e _ _)

theorem mbxEnd_rillReset {j : Nat} (low : j < 80) : (s.rillReset e).mbxEnd j = (s.rillMbx e).mbxEnd j := by
  rw [rillReset_eq, mbx_unlock, mbxEnd_shareReset e _ low]

/-- Both ends that the engine reads are empty. -/
theorem rillMbx_empties (rill : e < 16) : ((s.rillMbx e).mbxEnd e).rx = [] ∧ ((s.rillMbx e).mbxEnd e).popped = [] ∧
    ((s.rillMbx e).mbxEnd (32 + e)).rx = [] := by
  have peer : mbxPeer e = e + 16 := if_pos rill
  have front : mbxPeer (32 + e) = 64 + e := by
    simp only [mbxPeer, if_neg (show ¬ 32 + e < 16 by omega), if_neg (show ¬ 32 + e < 32 by omega),
      if_pos (show 32 + e < 48 by omega)]
    omega
  have own := mbxReset_empties ((s.engineReset e).dropUrgent e 0x60) e (by omega)
  have urgent := mbxReset_empties (((s.engineReset e).dropUrgent e 0x60).mbxReset e) (32 + e) (by omega)
  unfold rillMbx
  rw [mbxEnd_onMbx_ne _ (show e ≠ mbxPeer e by omega), mbxEnd_onMbx_same,
    mbxEnd_onMbx_ne _ (show 32 + e ≠ mbxPeer e by omega), mbxEnd_onMbx_ne _ (show 32 + e ≠ e by omega),
    mbxEnd_mbxReset _ (32 + e) (show e ≠ 32 + e by omega) (by omega)]
  exact ⟨own.1, own.2, urgent.1⟩

end

/-! ### The window (R414) -/

section
variable (s : State) (k : Nat)

theorem wdg_onWdg_same (g : WdgHw → WdgHw) : (s.onWdg k g).wdg k = g (s.wdg k) := Tab.get_put_same ..

theorem wdg_fset (f : Fld) (i v : Nat) : (s.fset f i v).wdg k = s.wdg k := rfl

end

/-- Settles O32: each row by its own condition, the reset of a rill engine by what it leaves. -/
theorem watchdogRowsComplete : Obligations.WatchdogRowsComplete := by
  unfold Obligations.WatchdogRowsComplete
  refine ⟨fun e b s => ?_, fun e s => acts_of_ite rfl ?expiry, fun s last => ?eh, fun p s => ?rill,
    fun p s => acts_of_ite rfl Iff.rfl⟩
  · intro cin
    have key : b.toNat = 0x5A ↔ b = 0x5A := ⟨fun same => BitVec.eq_of_toNat_eq same, fun same => by rw [same]; rfl⟩
    refine ⟨congrArg Host.Outcome.next ?checkIn, fun wrong => ?wrong, fun right early => ?early,
      fun right late missing => ?missing, fun right late all => ?window⟩
    case checkIn =>
      unfold wdgCheckIn State.when
      dsimp only
      refine congrArg (fun t : State => t.fset WDG_CHK.CIN e (cin ||| b.toNat)) ?_
      by_cases fresh : cin &&& b.toNat = 0
      · rw [if_pos fresh]
        exact if_neg (by simpa using fresh)
      · rw [if_neg fresh]
        exact if_pos (by simpa using fresh)
    case wrong => exact congrArg Host.Outcome.next (if_pos (mt key.1 wrong))
    all_goals have served : ¬ b.toNat ≠ 0x5A := not_not.2 (key.2 right)
    case early => exact congrArg Host.Outcome.next ((if_neg served).trans (if_pos early))
    case missing =>
      exact congrArg Host.Outcome.next ((if_neg served).trans ((if_neg (Nat.not_lt.2 late)).trans (if_pos missing)))
    case window =>
      have row : exec (.wdgService e b) s = .next (s.wdgWindow e false) := congrArg Host.Outcome.next
        ((if_neg served).trans ((if_neg (Nat.not_lt.2 late)).trans (if_neg (not_not.2 all))))
      have hw : (s.wdgWindow e false).wdg e = { s.wdg e with
          first := false, begun := true, early := false, openT := s.fget WDG_CFG.OPEN e
          limit := s.fget WDG_CFG.CLOSE e, mask := s.fget WDG_CFG.MASK e } := by
        rw [wdgWindow, wdg_fset, wdg_fset, wdg_onWdg_same]
        rfl
      refine ⟨_, row, ?_, ?_, ?_, ?_, ?_, ?_, ?_, rfl, rfl, rfl⟩
      case refine_1 =>
        rw [wdgWindow, fget_fset_ne _ (by simp only [Fld.key, WDG_ST.T, WDG_CHK.CIN]; omega), fget_fset_same]
        exact Nat.zero_mod _
      case refine_2 =>
        rw [wdgWindow, fget_fset_same]
        exact Nat.zero_mod _
      all_goals rw [hw]
  case expiry => simp
  case eh =>
    intro u
    obtain ⟨booted, -, -⟩ := unitReset_clears (s.wdgCount 16 last) 2
    have reset : s.wdgReset 16 last = { u with boot := { u.boot with ehLast := last } } := by
      rw [wdgReset, if_pos rfl]
    refine ⟨reset, ?_, ?_⟩
    · rw [reset]
      exact fget_unitReset_cause (s.wdgCount 16 last) 2
    · rw [reset]
      exact booted
  case rill =>
    intro t
    have only : PostOnly (s.engineReset p) t := rillReset_postOnly s p
    have engine : t.engine p = { Engine.init p with act := (s.engine p).act } :=
      (only.engine p).trans (engine_onEngine_same ..)
    obtain ⟨rx, popped, urgent⟩ := rillMbx_empties s p p.isLt
    refine ⟨engine, (congrArg Engine.run engine).trans (engine_init_run p), ?_, ?_, ?_, fun l low => ?_,
      only.mem, only.regs⟩
    · exact (congrArg MbxEnd.rx (mbxEnd_rillReset s p (by omega))).trans rx
    · exact (congrArg MbxEnd.popped (mbxEnd_rillReset s p (by omega))).trans popped
    · exact (congrArg MbxEnd.rx (mbxEnd_rillReset s p (by omega))).trans urgent
    · exact unlock_frees p (List.range 24) _ l (.inl (List.mem_range.2 low))

end Sys2Proof.Machine
end

section
/-!
SUPPORT. The weir's events, windows and releases, and FAULT_N's pulse (R395 to R410).
-/
namespace Sys2Proof.Machine
open State

/-! ### Counting an event -/

section
variable (s : State)

theorem log_cntEvent (code : Nat) (p : Option Nat) : (s.cntEvent code p).log = s.log := by
  refine List.foldlRecOn (motive := fun t : State => t.log = s.log) _ _ rfl fun t same k _ => ?_
  refine (read_when State.log ?_).trans same
  split <;> rfl

theorem weirIdx_onIdx_same (sc i : Nat) (g : WeirIdx → WeirIdx) : (s.onIdx sc i g).weirIdx sc i = g (s.weirIdx sc i) :=
  Tab.get_put_same ..

theorem react_setReact_same (sc : Nat) (r : React) : (s.setReact sc r).react sc = r := Tab.get_put_same ..

/-- The state in which an event's sticky bit stands and the counters have counted it. -/
def State.noted (sc i : Nat) : State :=
  let t := s.fbit (stickyOf sc) (scIdx sc) i true
  if sc < 16 then t.cntEvent (0x70 + i) (some sc) else t.cntEvent 0x92

/-- Noting an event changes registers and counters alone. -/
theorem noted_only (sc i : Nat) : s.noted sc i = { s with regs := (s.noted sc i).regs, cnts := (s.noted sc i).cnts } := by
  have counted (code : Nat) (p : Option Nat) (t : State) :
      t.cntEvent code p = { t with regs := (t.cntEvent code p).regs, cnts := (t.cntEvent code p).cnts } := by
    have rest := (cntEvent_evidenceOnly t code p).rest
    rw [log_cntEvent] at rest
    exact rest
  unfold noted
  dsimp only
  split <;> exact (counted _ _ _).trans rfl

theorem weirN_noted (sc i : Nat) : (s.noted sc i).weirN sc i = s.weirN sc i := by rw [noted_only]; rfl

theorem weirIdx_noted (sc i : Nat) : (s.noted sc i).weirIdx sc i = s.weirIdx sc i := by rw [noted_only]; rfl

/-- The window that an event of an index counts in: the one open, or one that opens at the tick. -/
def State.weirLive (sc i : Nat) : Bool :=
  (s.weirIdx sc i).opened && decide (s.tick < (s.weirIdx sc i).start + s.weirW sc i)

/-- The events in it with this one. -/
def State.weirCount (sc i : Nat) : Nat := (if s.weirLive sc i then (s.weirIdx sc i).cnt else 0) + 1

/-- The tick it began in. -/
def State.weirStart (sc i : Nat) : Nat := if s.weirLive sc i then (s.weirIdx sc i).start else s.tick

/-- An event below N opens a window or counts in the one open. -/
theorem weirEvent_counts {sc i : Nat} (below : s.weirCount sc i < s.weirN sc i) : s.weirEvent sc i =
    (s.noted sc i).onIdx sc i fun h => { h with
      opened := true, start := s.weirStart sc i, cnt := s.weirCount sc i, hit := true } := by
  have more : ¬ (s.noted sc i).weirN sc i ≤ s.weirCount sc i := by rw [weirN_noted]; omega
  exact if_neg more

/-- The event that reaches N closes the window and is classified severe. -/
theorem weirEvent_severe {sc i : Nat} (reached : s.weirN sc i ≤ s.weirCount sc i) : s.weirEvent sc i =
    ((s.noted sc i).onIdx sc i fun h => { h with
      opened := false, start := s.weirStart sc i, cnt := 0, hit := true }).severe sc i (s.weirCount sc i) := by
  have enough : (s.noted sc i).weirN sc i ≤ s.weirCount sc i := by rwa [weirN_noted]
  exact if_pos enough

theorem weirIdx_noted_onIdx (sc i : Nat) (g : WeirIdx → WeirIdx) :
    ((s.noted sc i).onIdx sc i g).weirIdx sc i = g (s.weirIdx sc i) := by
  rw [weirIdx_onIdx_same, weirIdx_noted]

/-! ### The end of a quiet time -/

/-- The reaction that would be the ESCN-th released in its window is latched. -/
theorem quietOver_latches {sc : Nat} (some : s.fget WEIR_CFG.ESCN ≠ 0)
    (reached : s.fget WEIR_CFG.ESCN ≤ (if (s.relWin sc).opened && decide (s.tick < (s.relWin sc).start + s.escTicks) then
      (s.relWin sc).cnt else 0) + 1) :
    s.quietOver sc = (((s.setReact sc { s.react sc with latched := true }).fset (escOf sc) (scIdx sc) 1).leftRecord sc
      (s.react sc).cls 1).unitSource 49 := by
  rw [quietOver]
  dsimp only
  rw [if_pos ⟨some, reached⟩, react_setReact_same]

/-- The first of a window is released. -/
theorem quietOver_releases {sc : Nat} (few : s.fget WEIR_CFG.ESCN = 0 ∨ 1 < s.fget WEIR_CFG.ESCN)
    (closed : (s.relWin sc).opened = false) :
    s.quietOver sc = (s.setRelWin sc ⟨true, s.tick, 1⟩).leaveReaction sc 0 := by
  rw [quietOver]
  simp only [closed, Bool.false_and, Bool.false_eq_true, if_false, Nat.zero_add]
  exact if_neg (by omega)

end

/-- Settles O31: an event by its count, a quiet time by whether it is over, FAULT_N by its mode. -/
theorem weirRowsComplete : Obligations.WeirRowsComplete := by
  unfold Obligations.WeirRowsComplete
  refine ⟨fun p v s => acts_of_ite rfl ?port, fun v s => acts_of_ite rfl ?unit, fun sc i s => ?event,
    fun sc i s => acts_of_ite rfl Iff.rfl, fun sc s => ?quiet, fun s => ⟨acts_of_ite rfl Iff.rfl, fun static => ?static,
      fun other on => ?pulse, fun other off => ?level⟩⟩
  case port => exact Iff.rfl
  case unit => exact Iff.rfl
  case event =>
    intro h live cnt start
    refine ⟨fun below => ?_, fun reached => ?_⟩
    · intro t
      have same : t = _ := weirEvent_counts s below
      rw [same]
      refine ⟨weirIdx_noted_onIdx s sc i _, ?_⟩
      rw [noted_only]
      exact ⟨rfl, rfl, rfl, rfl⟩
    · refine ⟨_, weirEvent_severe s reached, weirIdx_noted_onIdx s sc i _, ?_⟩
      rw [noted_only]
      rfl
  case quiet =>
    intro w r due n escn
    have quiet : Acts (.weirQuietElapsed sc) s due (s.quietOver sc) := acts_of_ite rfl (by simp [due, r, imp_iff_not_or])
    refine ⟨acts_of_ite rfl Iff.rfl, quiet.2, fun passed some reached => ?_, fun passed few closed => ?_⟩
    · rw [quiet.1 passed, quietOver_latches s some reached]
    · have first : n = 1 := by simp only [n, closed, Bool.false_and, Bool.false_eq_true, if_false]
      rw [quiet.1 passed, quietOver_releases s (by rwa [first] at few) closed]
  case static => exact congrArg Host.Outcome.next (if_pos static)
  case pulse => exact congrArg Host.Outcome.next ((if_neg other).trans (if_pos on))
  case level => exact congrArg Host.Outcome.next ((if_neg other).trans (if_neg (by rw [off]; decide)))

end Sys2Proof.Machine
end

section
/-!
SUPPORT. The host commands of the fuses and of register and memory debug (R331, R429 to R434).
-/
namespace Sys2Proof.Machine
open State

section
variable {s : State} {op : Nat} {tag : Byte} {ps : List Byte}

/-- A fuse command without a refusal starts its operation. -/
theorem otpAsk_starts {bad : Bool} {o : OtpOp} (good : bad = false) (present : s.absent = false)
    (free : s.fon OTP_ST.BUSY = false) (allowed : s.otpRefusal o.op o.region o.word o.raw o.data = 0) :
    s.otpAsk op tag bad o = s.otpStart { o with cmd := some (op, tag.toNat) } := by
  rw [otpAsk, judge_goes]
  simp [good, present, free, allowed]

/-- Where a debug command has passed every other check, only a debug lock refuses it. -/
theorem judge_debugLock {l : List (Bool × Nat)} (h : l.any (·.1) = false) (go : State → State) :
    s.judge op tag (l ++ [(s.fon OTP_LCST.DBGLOCK, 0x31)]) go =
      if s.fon OTP_LCST.DBGLOCK then s.reply op tag 0x31 else go s := by
  have passed : l.find? (·.1) = none := List.find?_eq_none.mpr (List.any_eq_false.mp h)
  rw [judge, List.find?_append, passed]
  cases s.fon OTP_LCST.DBGLOCK <;> rfl

/-- REG_WRITE of legal parts. -/
theorem doRegWrite_legal {a : Nat} (present : s.absent = false) (place : debugAddr ps = some a)
    (register : (regAt a).isSome = true) (zero : zeroAt ps (8 + par ps 3 1) (8 - par ps 3 1) = true)
    (legal : ∀ e ∈ debugParts 8 a (par ps 3 1) (par ps 8 8 % 256 ^ par ps 3 1), s.debugIllegal e = false) :
    doRegWrite tag ps s = if s.fon OTP_LCST.DBGLOCK then s.reply 0xD1 tag 0x31
      else ((debugParts 8 a (par ps 3 1) (par ps 8 8 % 256 ^ par ps 3 1)).foldl (fun s e =>
        s.regWrite 17 e.1 e.2.1 e.2.2.1 e.2.2.2) s).reply 0xD1 tag 0 := by
  have some : (regAt a).isNone = false := by simpa using register
  have parts : (debugParts 8 a (par ps 3 1) (par ps 8 8 % 256 ^ par ps 3 1)).any s.debugIllegal = false :=
    List.any_eq_false.mpr fun e he => by rw [legal e he]; decide
  rw [doRegWrite, place]
  exact judge_debugLock (l := [(_, 0x12), (s.absent, 0x30)]) (by simp [some, zero, parts, present]) _

/-- Whether a byte may be written does not change as bytes are. -/
theorem foldl_memOpen {u : State} {e x off m o : Nat} (l : List (Byte × Nat)) : ∀ t : State,
    (∀ k, t.memOpen e x k = u.memOpen e x k) →
    l.foldl (fun s b => if u.memOpen e x (off + b.2) then s.memPut m (o + b.2) b.1 else s) t =
      l.foldl (fun s b => if s.memOpen e x (off + b.2) then s.memPut m (o + b.2) b.1 else s) t := by
  induction l with
  | nil => intro t _; rfl
  | cons b l ih =>
    intro t same
    simp only [List.foldl_cons, same]
    refine ih _ fun k => ?_
    split
    · exact same k
    · exact same k

/-- MEM_WRITE of a legal range. -/
theorem doMemWrite_legal {e m o : Nat} (present : s.absent = false) (length : ps.length = 8 + par ps 4 2)
    (place : s.debugMem ps = some (e, m, o)) :
    doMemWrite tag ps s = if s.fon OTP_LCST.DBGLOCK then s.reply 0xD3 tag 0x31
      else ((ps.drop 8).zipIdx.foldl (fun (s : State) (b : Byte × Nat) =>
        if s.memOpen e (par ps 1 1) (par ps 2 2 + b.2) then s.memPut m (o + b.2) b.1 else s) s).reply 0xD3 tag 0 := by
  rw [doMemWrite, if_neg (not_not.2 length), place]
  refine (judge_debugLock (l := [(s.absent, 0x30)]) (by simp [present]) _).trans ?_
  dsimp only
  rw [foldl_memOpen _ s fun _ => rfl]

end

/-- Settles O27: each command by its checks. -/
theorem fuseAndDebugCommandsAct : Obligations.FuseAndDebugCommandsAct := by
  unfold Obligations.FuseAndDebugCommandsAct
  intro tag ps s u r x cmd n present
  refine ⟨fun free => ⟨fun served region word raw zero allowed => ?program, fun served region which zero allowed => ?lock,
      fun served sure zero allowed => ?advance⟩,
    fun a served place register zero legal => ?regWrite, fun e m o served length place => ?memWrite⟩
  case program =>
    refine (hostRow_served served doOtpProgram).trans (congrArg _ ?_)
    refine otpAsk_starts ?_ present free allowed
    simp only [zero, Bool.not_true, Bool.or_false, decide_eq_false_iff_not]
    omega
  case lock =>
    refine (hostRow_served served doOtpLock).trans (congrArg _ ?_)
    refine otpAsk_starts ?_ present free allowed
    simp only [zero, Bool.not_true, Bool.or_false, decide_eq_false_iff_not]
    omega
  case advance =>
    refine (hostRow_served served doLcAdvance).trans (congrArg _ ?_)
    refine otpAsk_starts ?_ present free allowed
    rw [zero, beq_iff_eq.2 sure]
    rfl
  case regWrite =>
    exact (hostRow_served served doRegWrite).trans (congrArg _ (doRegWrite_legal present place register zero legal))
  case memWrite =>
    exact (hostRow_served served doMemWrite).trans (congrArg _ (doMemWrite_legal present length place))

end Sys2Proof.Machine
end
